-- ==== Sys2Proof/Word.lean ====
section
/-! DEFINITION. The word types of the PK960 and the one way a number is cut into bit fields (R5). -/
namespace Sys2Proof

/-- A byte of memory or of a flit. -/
abbrev Byte := BitVec 8

/-- The 32 bits of an FP32 value, a sync counter (R52) or a BAR0 register (R67). -/
abbrev Word32 := BitVec 32

/-- One lane of a vector register (R124). -/
abbrev Lane := BitVec 40

/-- A Spoke flit, 272 bytes, bit 0 the least significant bit of byte 0 (R286). -/
abbrev SpokeFlit := BitVec 2176

/-- A die-link flit, 136 bytes (R314). -/
abbrev DieFlit := BitVec 1088

/-- A mailbox or MCTP message: its bytes in order. -/
abbrev Bytes := List (BitVec 8)

end Sys2Proof
end

