-- ==== Sys2Proof/Syntax.lean ====
section
/-! DEFINITION. The commands of the PK960: one constructor per row of spec/opcode_table.json, with the
operands by which a step of that row names what it acts on or carries what it brings from outside. -/
namespace Sys2Proof

/-- What the patrol's read of a unit finds (R163, R175). -/
inductive PatrolFind where
  | clean
  | corrected
  | persistent
  | uncorrectable
  deriving DecidableEq, Repr

/-- A channel whose patrol reads its next unit, and what it finds there (R176). -/
structure PatrolUnit where
  ch    : Nat
  found : PatrolFind
  deriving DecidableEq, Repr

/-- A message that the MSS posts to the mailbox, and whether it answers the inbound one (R70). -/
structure MboxPost where
  bytes : Bytes
  reply : Bool
  deriving DecidableEq, Repr

/-- The end of a die link that retrains, whether the MSS resets its port over the sideband, and the wires (lane, wire) that the training finds
failed (R317, R320, R321). -/
structure DieRetrain where
  far   : Bool
  reset : Bool
  bad   : List (Nat × Nat) := []
  deriving DecidableEq, Repr

/-- The hour's readings besides the monitors': pre-FEC BER of lanes, current-share deviation of phases, each by index (R343). -/
structure WearRest where
  ber   : List (Nat × Nat)
  share : List (Nat × Nat)
  deriving DecidableEq, Repr

/-- A queue of an engine: engine code of R49 (0 tile, 1 Mover, 2 Strand, 3 Ring, 4 Locket,
5 job control), the engine's number among its like, and the queue of that engine (R50). -/
structure QRef where
  eng  : Nat
  inst : Nat
  q    : Nat
  deriving DecidableEq, Repr

/-- The deferrable commands of R62; RESHARD is deferred per reduction group. -/
inductive DeferKind where
  | reshard (group : Nat)
  | schedPolicy
  | ckptInterval
  | gearTable
  | timetable
  | jobCancel
  deriving DecidableEq, Repr

/-- An opening notice of PIPE_START or EDGE_REPOINT, or the answer to one (R245): the sender's view of an edge. -/
structure OpenMsg where
  src       : Nat
  job       : Nat
  edgeId    : Nat
  answer    : Bool
  fwdLog2   : Nat
  bwdLog2   : Nat
  fwdUnits  : Nat
  bwdUnits  : Nat
  fsendUnits : Nat
  bsendUnits : Nat
  fwdSplit  : Nat
  bwdSplit  : Nat
  /-- Tile count of the sender's own stage. -/
  tiles     : Nat
  deriving DecidableEq, Repr

/-- A fingerprint request to the Tandem partner, or its reply (R363). -/
structure FpMsg where
  src    : Nat
  job    : Nat
  entry  : Nat
  stage  : Nat
  slot0  : Nat
  pitch  : Nat
  off    : Nat
  len    : Nat
  /-- The fingerprint in a reply; none in a request, or in a reply for a range without one (R362). -/
  reply  : Bool
  fp     : Option (BitVec 64)
  deriving DecidableEq, Repr

/-- What a module's Locket descriptor says of it that a takeover needs (R366-R368), as its buddy learns it with the offer. -/
structure SrcInfo where
  /-- Address of the Locket descriptor. -/
  desc     : Nat
  partner  : Nat
  /-- TANDEM_COUNT is not 0. -/
  tandem   : Bool
  /-- Every feed edge has its replay buffer mirrored. -/
  mirror   : Bool
  ckpt     : Nat
  ckptSlot : Nat
  /-- Replay buffers of its feed edges, address and bytes: where the feed mirror is written back (R359, R367 step 3; log 152). -/
  feeds    : List (Nat × Nat) := []
  deriving DecidableEq, Repr

/-- Messages of LOCKET_BIND between a module and its buddy (R355). -/
inductive OfferMsg where
  /-- SOURCE offers a copy with so many bytes of static ranges. -/
  | offer (src job staticBytes : Nat) (info : SrcInfo)
  /-- A static range, with its address on the source and its bytes. -/
  | static (src job addr : Nat) (bytes : Bytes) (last : Bool)
  /-- The buddy's acknowledgement, or its refusal when the ranges exceed HALF_BYTES. -/
  | ack (src job : Nat) (ok : Bool)
  deriving DecidableEq, Repr

/-- The state block of a seal for one slot: K, history oldest first, pending amax (R357). -/
structure SlotSeal where
  slot    : Nat
  k       : Int
  hist    : List Word32
  pending : Word32
  deriving DecidableEq, Repr

/-- A state block (R357). -/
structure StateBlockMsg where
  step     : Nat
  firstMb  : Nat
  descAddr : Nat
  /-- Local stage index and CURRENT version number. -/
  versions : List (Nat × Nat)
  slots    : List SlotSeal
  /-- Ranges that the seal's GATHERs copied, for which the buddy waits (R370). -/
  copied   : Nat := 0
  deriving DecidableEq, Repr

/-- STATE_BLOCK row: the block arriving at the buddy, or the acknowledgement arriving at the source. -/
inductive SealMsg where
  | block (src job : Nat) (skip : Bool) (b : StateBlockMsg)
  | ack (src job step : Nat)
  deriving DecidableEq, Repr

/-- One gear's entry in a cadence-lock report (R380): gear, achievable cadence in Mbeat/s. -/
structure LockMsg where
  src      : Nat
  job      : Nat
  /-- Gears used in the last 1 ms and their achievable cadences. -/
  gears    : List (Nat × Nat)
  power    : Nat
  critical : Bool
  /-- Estimates that back a lead-out request: power in W and voltage in mV at L × (1 + x) for x = 1 to 10 percent. -/
  estimate : List (Nat × Nat)
  cap      : Nat
  budget   : Nat
  deriving DecidableEq, Repr

/-- Locks and grants sent by the lead (R380-R382). -/
structure LockOut where
  src    : Nat
  job    : Nat
  /-- Locked cadence of each gear, gears 0 to 7, in Mbeat/s. -/
  locks  : List Nat
  /-- Lead-out granted to the receiver, percent. -/
  grant  : Nat
  /-- Budget of the receiver in W after raises and payments. -/
  budget : Nat
  deriving DecidableEq, Repr

/-- A switch request, start request or switch instant (R333). -/
structure SwitchMsg where
  src   : Nat
  job   : Nat
  start : Bool
  rank  : Nat
  /-- The instant, in fabric time; for an instant message only. -/
  at_   : Nat
  /-- The report of an aging step to the lead, or the rank that the lead then holds (R333 step 5). -/
  aged  : Bool := false
  deriving DecidableEq, Repr

/-- A fabric-time message (R412). -/
structure TimeMsg where
  src     : Nat
  port    : Nat
  fabric  : Nat
  date    : Nat
  /-- Fabric time at which the date was set; none for a sender that has received no date. -/
  dateAt  : Option Nat
  source  : Nat
  /-- Arrival and departure, at the peer, of the message this one answers; none if it answers none. -/
  turn    : Option (Nat × Nat)
  deriving DecidableEq, Repr

/-- What the parts answer during the power-on sequence (R415): the outcomes that the tests and trainings of
its steps have, which only the parts themselves decide. -/
structure BootEnv where
  /-- Enclosure position latched from ID[7:0] in step 2. -/
  idPins     : Nat
  /-- Physical tiles (die × 72 + row × 8 + column) that fail BIST in step 6. -/
  bistTiles  : List Nat
  /-- Scratch banks (logical tile, bank) that fail BIST in step 6. -/
  bistBanks  : List (Nat × Nat)
  /-- Remapped rows (channel, bank, row) whose package still has a repair resource (R182). -/
  repairable : List (Nat × Nat × Nat)
  /-- Channels that do not train at 10,667 MT/s, or whose margin is below the floor, in step 7. -/
  badChannels : List Nat
  /-- Ports whose training and identity exchange succeed in step 9. -/
  goodPorts  : List Nat
  /-- Ports whose identity exchange finds another peer than the link map's. -/
  miswired   : List Nat
  /-- Ports whose lane recorded as failed in the ledger passes its new margining (R285). -/
  goodLanes  : List Nat
  /-- Lanes (port, lane) that do not train in step 9 (R285). -/
  deadLanes  : List (Nat × Nat) := []
  /-- Whether the selected host port trains in step 10, and whether the standby port does. -/
  hostTrains : Bool
  standbyTrains : Bool
  /-- Fabric time of the first time message received, if one came by READY. -/
  fabric     : Option Nat
  deriving DecidableEq, Repr

/-- What a quiescent report says of the copy that the module hosts: its source, the newest sealed step, the source's durable
checkpoints. -/
structure HostReport where
  source : Nat
  sealed : Option Nat
  info   : SrcInfo
  ckpts  : List Nat
  deriving DecidableEq, Repr

/-- A quiescent report (R364): pending step and link map (port, module), with the module's own durable checkpoints and hosting. -/
structure QuietMsg where
  src   : Nat
  job   : Nat
  step  : Nat
  links : List (Nat × Nat)
  ckpts : List Nat
  host  : Option HostReport
  /-- Entries in use of the module's route table, class × 256 + destination: which modules' tables name the failed one (R367 step 2,
  log 152). -/
  named : List Nat := []
  deriving DecidableEq, Repr

/-- Orders whose acknowledgement carries nothing else (R364). -/
inductive OrderKind where
  | alias_
  | replay
  | durable
  | retire
  deriving DecidableEq, Repr

/-- A takeover message between the lead, a spare candidate and the survivors (R367). -/
inductive TakeoverMsg where
  /-- The lead offers job `job` of failed module `x`, of which it names buddy and Locket; `sealed` is the step to restore. -/
  | offer (lead job x buddy sealed : Nat) (info : SrcInfo)
  /-- The candidate's answer at the lead. -/
  | answer (src job : Nat) (accept : Bool)
  /-- What the spare has pulled: the sealed half's ranges (address, bytes), and the state block; `poisoned` if a unit was. -/
  | restored (job : Nat) (ranges : List (Nat × Bytes)) (block : StateBlockMsg) (poisoned : Bool)
  /-- At the lead: whether the spare has admitted the job, with the restored route table (class × 256 + destination, PORTS, TRANSIT) and
  the spare's link map. -/
  | admitted (src job : Nat) (ok : Bool) (routes : List (Nat × Nat × Bool)) (links : List (Nat × Nat))
  /-- At the lead: a module's REPOINT order has been carried out; the spare's after its pipeline and its Tandem check. -/
  | carried (src job : Nat) (ok : Bool)
  /-- At the buddy: the spare pulls the sealed half and the feed mirror (R367 step 3). -/
  | pull (src job : Nat)
  /-- At the partner: the spare pulls the CURRENT version of the tensor of Tandem entry `entry`. -/
  | pullTensor (src job entry stage slot0 pitch len : Nat)
  /-- At the spare: that version; `poisoned` if a unit of it was. -/
  | tensor (job entry : Nat) (bytes : Bytes) (poisoned : Bool)
  /-- At the lead: an order has been carried out, or was refused (R364). -/
  | ack (src job : Nat) (order : OrderKind) (ok : Bool)
  /-- The lead halts the job (R351, R364). -/
  | halt (src job : Nat)
  deriving DecidableEq, Repr

/-- One record of a margining run (R424), as measured: the RESULT follows from it by the tables of R188, R308 and R426. -/
structure MarginRec where
  kind  : Nat
  unit  : Nat
  item  : Nat
  eyeT  : Nat
  eyeV  : Nat
  ber   : Int
  deriving DecidableEq, Repr

/-- The commands: one constructor per row of the table. -/
inductive Instr where
  -- common command records (R48, R49)
  | nop (q : QRef)
  | wait (q : QRef)
  | signal (q : QRef)
  | pushList (q : QRef)
  | queueControl (q : QRef)
  -- engine events
  | commandWaitSatisfied (q : QRef)
  | commandComplete (q : QRef) (i : Nat)
  | completionRingRetry (q : QRef)
  | deferredApply (job : Nat) (k : DeferKind)
  -- tile command records (R98, R127)
  | mm (q : QRef)
  | accInit (q : QRef)
  | accDrain (q : QRef)
  | attnStep (q : QRef)
  | attnFinal (q : QRef)
  | vprogLoad (q : QRef)
  | vrun (q : QRef)
  -- vector instructions (R135): the tile's VXE issues the next instruction of its VRUN
  | vnop (tile : Nat)
  | vld (tile : Nat)
  | vldh (tile : Nat)
  | vst (tile : Nat)
  | vsth (tile : Nat)
  | vlda (tile : Nat)
  | vsta (tile : Nat)
  | vadd (tile : Nat)
  | vsub (tile : Nat)
  | vmul (tile : Nat)
  | vfma (tile : Nat)
  | vmin (tile : Nat)
  | vmax (tile : Nat)
  | vabs (tile : Nat)
  | vneg (tile : Nat)
  | vmovi (tile : Nat)
  | vsel (tile : Nat)
  | vcvti (tile : Nat)
  | vscl (tile : Nat)
  | vaddw (tile : Nat)
  | vmulw (tile : Nat)
  | vfmaw (tile : Nat)
  | vaddh (tile : Nat)
  | vmulh (tile : Nat)
  | vfmah (tile : Nat)
  | vcmp (tile : Nat)
  | mlogic (tile : Nat)
  | vexp (tile : Nat)
  | vrcp (tile : Nat)
  | vrsqrt (tile : Nat)
  | vlog (tile : Nat)
  | vtanh (tile : Nat)
  | vrsum (tile : Nat)
  | vrmax (tile : Nat)
  -- Mover command records and stream steps (R170, R172, R194)
  | moveData (q : QRef)
  | fill (q : QRef)
  | wstream (q : QRef)
  | chunkIssue (q : QRef) (i : Nat)
  | chunkCommit (q : QRef) (i : Nat)
  -- Strand command records (R243)
  | stageBind (q : QRef)
  | edgeBind (q : QRef)
  | pipeStart (q : QRef)
  | feedPost (q : QRef)
  | versionPublish (q : QRef)
  | schedPolicySet (q : QRef)
  | edgeRepoint (q : QRef)
  | replayStep (q : QRef)
  | pipeStop (q : QRef)
  -- Strand engine steps; g is a tile group, e an edge slot of the running job
  | itemChoose (g : Nat)
  | itemPush (g : Nat)
  | itemComplete (g : Nat)
  | unitForward (e : Nat) (bwd : Bool)
  | closingNotice (e : Nat) (bwd : Bool)
  | dataFlit (port vc : Nat)
  | notice (port vc : Nat)
  | credit (port vc : Nat)
  | openingNotice (m : OpenMsg)
  | closingAck (src job edgeId : Nat)
  | edgeDown (e : Nat)
  | stepBoundary
  | yieldPoint
  -- Ring command records and steps (R251)
  | groupBind (q : QRef)
  | reduce (q : QRef)
  | gather (q : QRef)
  | normClose (q : QRef)
  | reshard (q : QRef)
  | groupRepoint (q : QRef)
  | partialPkt (port : Nat)
  | resultPkt (port vc : Nat)
  | closePkt (port : Nat)
  | shardTimeout (tag : Nat)
  | normContributionSend
  | normContribution (port : Nat)
  | normWindowClose (step : Nat)
  | normTotal (port : Nat)
  | normTotalTimeout
  | poisonSourceReport (job src : Nat)
  | poisonCountsClear (job : Nat)
  -- Locket command records and steps (R352)
  | locketBind (q : QRef)
  | locketSeal (q : QRef)
  | ckptIntervalSet (q : QRef)
  | tandem (q : QRef)
  | tandemFingerprintRequest (m : FpMsg)
  | buddyOffer (m : OfferMsg)
  | locketCopy (src job addr : Nat) (bytes : Bytes)
  | stateBlock (m : SealMsg)
  | feedMirror (src job off : Nat) (bytes : Bytes)
  -- job-control command records
  | gearTableLoad (q : QRef)
  | timetableLoad (q : QRef)
  -- work-ring packets (R64): the packet at HEAD; `far` is the packet as read over VC5 from a peer owner's ring
  | submit (far : BitVec 512)
  | jobCancel (far : BitVec 512)
  | controlList (far : BitVec 512)
  -- BAR0 and doorbell (R66-R70)
  | doorbell (v : Word32)
  | doorbellMessage (port : Nat)
  | irqStatusClear (v : Word32)
  | irqMaskWrite (v : Word32)
  | mboxGo (v : Word32)
  | mboxOutReadyClear (v : Word32)
  | mboxErrClear (v : Word32)
  | mboxOutPost (msg : MboxPost)
  | bar0Write (off size : Nat) (v : BitVec 64)
  -- telemetry, cadence and governor
  | telemetryPublish
  | cadenceGate (meters : List Nat) (steps : List Nat)
  | occupancyMismatch (die : Nat)
  | governorGate (meanMs mean100us : Nat)
  | capFastLimit (mean100us : Nat)
  | throttleEngage (sensor reading : Nat)
  | throttleStep (reading : Nat)
  | throttleRelease (reading : Nat)
  | thermalTrip (sensor reading : Nat)
  | coolantEvent (inlet outlet : Int)
  | lockReportSend (meanMs : Nat) (estimate : List (Nat × Nat))
  | lockReport (m : LockMsg)
  | lockBroadcast (job : Nat)
  | lockReceive (m : LockOut)
  | pedalHoldExpire
  | droopHoldStart (die mv : Nat)
  | droopHoldEnd (die mv : Nat)
  | droopHoldTimeout (die : Nat)
  -- memory controllers
  | channelRetrainStart (ch : Nat)
  | channelRetrainEnd (ch : Nat) (converged : Bool)
  | holdQueueRetry (ch : Nat) (mover : Nat)
  | patrolRead (unit : PatrolUnit)
  | writeRunDrain (ch : Nat)
  | refreshRateCheck (temps : List Int)
  | rowRemap (ch bank row : Nat) (uncorr : Bool)
  | channelFail (ch : Nat)
  -- remote memory on VC5 (R289): the oldest VC5 flit of a port
  | readReq (port : Nat)
  | writeReq (port : Nat)
  | writeData (port : Nat)
  | readData (port : Nat)
  | doneMsg (port : Nat)
  | ownQuery (port : Nat)
  | ownAnswer (port : Nat)
  -- Spoke ports
  | portTrainingAttempt (port : Nat)
  | portTrainingComplete (port : Nat) (ok : Bool) (peerMod peerPort expected : Nat)
  | flitReceive (port : Nat) (f : SpokeFlit)
  | controlFlit (port : Nat) (f : SpokeFlit)
  | ackSend (port : Nat)
  | portRetrain (port : Nat)
  | portDown (port : Nat)
  | laneSubstitution (port lane : Nat)
  | laneBerWindow (port lane : Nat) (ber : Int)
  | portStandby (port : Nat)
  | portWake (port : Nat)
  | transitForward (port vc : Nat)
  | routePatch (port : Nat)
  | patchAck (port : Nat)
  | unreachable (port : Nat)
  | mctpPacket (port : Nat)
  | timeMessageSend
  | timeMessage (m : TimeMsg)
  -- die links; `far` names the end of the link that receives: false the lower-numbered die, true the higher
  | dieFlitReceive (link : Nat) (far : Bool) (f : DieFlit)
  | dieControlFlit (link : Nat) (far : Bool) (f : DieFlit)
  | propose (link : Nat) (f : DieFlit)
  | accept (link : Nat) (f : DieFlit)
  | commit (link : Nat) (far : Bool) (f : DieFlit)
  | widthChangeTimeout (link : Nat)
  | dieLinkRetrain (link : Nat) (how : DieRetrain)
  | wireSubstitution (link : Nat) (far : Bool) (lane wire : Nat)
  | dieLinkDown (link : Nat) (laser : Bool)
  | barrierArrive (die : Nat)
  | beaconFail (die : Nat)
  -- jobs and timetable
  | windowStopTime (w : Nat)
  | agingPeriod
  | commandBoundary
  | switchComplete
  | switchRequest (m : SwitchMsg)
  | switchInstant (m : SwitchMsg)
  | switchInstantReached (job : Nat)
  | startInstantTimeout (job : Nat)
  -- spares and recovery
  | tileFail (tile : Nat)
  | scratchBankFail (tile bank : Nat) (uncorr : Bool)
  | regulatorPhaseFail (die phase : Nat)
  | wearSample (slow : List Nat) (rest : WearRest)
  | wearLedgerWrite (kind idx slope date : Nat)
  | hostPortFailover (trains : Bool)
  | moduleFailed
  | failureNotice (src job : Nat)
  | suspect (src job x : Nat)
  | probeTimeout (job x : Nat)
  | recover (src job : Nat)
  | aliasOrder (src job x y : Nat)
  | repoint (src job : Nat)
  | replayOrder (src job step : Nat)
  | durable (src job step : Nat)
  | quiescentReport (m : QuietMsg)
  | quiescentTimeout (job : Nat)
  | takeoverOffer (m : TakeoverMsg)
  | takeoverAcceptTimeout (job : Nat)
  | stragglerReport (src job step : Nat)
  | retire (src job step : Nat)
  -- management subsystem
  | mssRestart
  | requestUpdate
  | firmwareData (off : Nat) (bytes : Bytes)
  | transferComplete
  | verifyComplete
  | applyComplete
  | activateFirmware
  | sensorRead (id : Nat)
  | effecterPowerCap (v : Nat)
  | effecterStandbyEnable (v : Nat)
  | effecterPedal (v : Nat)
  | marginMemory (v : Word32)
  | marginDieLinks (v : Word32)
  | marginSpoke (v : Word32)
  /-- `refused`: ports whose far end refused the transmit stress run. -/
  | marginRunComplete (recs : List MarginRec) (refused : List Nat)
  | stressRequest (src port : Nat)
  | effecterEject (v : Nat)
  | effecterDate (v : Nat)
  -- power-on, eject and supply
  | powerOnSequence (env : BootEnv)
  | undervoltageShutdown (mv : Nat)
  | undervoltageRecovery (mv : Nat)
  | overvoltageOff (mv : Nat)
  | inputLoss (mv : Nat)
  | perst (hostPort : Nat)
  | shock (x y z : Nat)
  -- test access port
  | tapUnlock (challenge sig : BitVec 768)
  -- power events, flit sending, flash writes, MCTP
  | standbyConverterUp (mv : Nat)
  | pwrEnQualified (mv : Nat)
  | perstDeassert (hostPort : Nat)
  | dieControlFlitSend (link : Nat) (far : Bool)
  | mctpEndpointMessage (kind : Nat) (v : Nat)
  | edgeClosing (src job edgeId : Nat)
  -- rows without operands: the test access port, state changes, flash writes
  | idcode
  | bypass
  | samplePreload
  | extest
  | extestPulse
  | extestTrain
  | testLogicReset
  | logFlashWrite
  | enterRun
  | resetPin
  | ejectRequest
  | forceEject
  | drainComplete
  | surpriseRemoval
  deriving DecidableEq, Repr

end Sys2Proof
end

