-- ==== Sys2Proof/Decode.lean ====
section
/-! DEFINITION. The commands have no bits in the table: no word spells one. -/
namespace Sys2Proof

/-- The command that a word of the table spells: none, for the table gives no row bits. -/
def decodeTableWord (_nbits _w : Nat) : Option Instr := none

end Sys2Proof
end

