-- ==== Sys2Proof/Config.lean ====
section
/-! DEFINITION. What an implementation fixes and the spec leaves open: opaque constants, of which nothing can be proved. -/
namespace Sys2Proof

/-- A value that the spec leaves open, drawn afresh for each count of the state's field `free`. -/
opaque Config.freeNat : Nat → Nat

/-- An undefined byte (R171, R205, R276, R339, R345), drawn afresh for each count. -/
opaque Config.freeByte : Nat → Byte

/-- Beats that pass in the 10 ns from a management time on (R249). -/
opaque Config.beatsAt : Nat → Nat

/-- TYPE of the class word of a GATHER's Locket copy (R264, R273), and the class word of a mirrored feed entry (R359). -/
opaque Config.copyType : Nat
opaque Config.mirrorWord : Nat

/-- A byte of a channel whose contents a margining run has destroyed (R188), by the run's count and the address. -/
opaque Config.wipedByte : Nat → Nat → Byte

/-- O and log-sum-exp of ATTN_FINAL for a running sum below 0 or −0 (R121): codes of the sum and of the word of O, or of the
maximum. -/
opaque Config.finalWord : Nat → Nat → Nat
opaque Config.finalLse : Nat → Nat → Nat

/-- Payload of a VC0 message whose layout the spec leaves to the module (R289, R351): by its content, the command it is at the receiver. -/
opaque Config.msgPayload : Instr → Nat

/-- The wear monitor of its die to which a physical tile is assigned (R343), and the scratch word of a bank (R345). -/
opaque Config.monitorOf : Nat → Nat
opaque Config.bankWord : Nat → Nat → Nat

/-- What a park region holds of a job's Strand, queue and stream state, in the module's own layout (R339), drawn at each switch. -/
opaque Config.parkImage : Nat → Bytes

/-- Whether a signature r ‖ s over a message verifies under a public key X ‖ Y (R393, R394, R423): ECDSA P-384 and SHA-384 are
named by the spec and not given. -/
opaque Config.signatureOk : Bytes → Bytes → Bytes → Bool

end Sys2Proof
end

