-- ==== Sys2Proof/Machine/Bits.lean ====
section
/-! DEFINITION. Bit fields of little-endian items (R5), bytes, and the hash of R88. -/
namespace Sys2Proof.Machine

/-- Field of `w` bits whose lowest bit is `lo`, of an item read as one little-endian number (R5). -/
def bits (x lo w : Nat) : Nat := (x >>> lo) % 2 ^ w

/-- One bit of an item. -/
def bitAt (x lo : Nat) : Bool := bits x lo 1 == 1

/-- A field read as a signed two's-complement number. -/
def sbits (x lo w : Nat) : Int :=
  let v := bits x lo w
  if v < 2 ^ (w - 1) then (v : Int) else (v : Int) - (2 ^ w : Nat)

/-- An integer as a two's-complement field of `w` bits. -/
def toField (w : Nat) (i : Int) : Nat := (i % ((2 ^ w : Nat) : Int)).toNat

/-- The `n` bytes of a number, least significant first (R5). -/
def leBytes : Nat → Nat → Bytes
  | 0, _ => []
  | n + 1, x => BitVec.ofNat 8 x :: leBytes n (x >>> 8)

/-- The number that bytes spell, least significant first (R5). -/
def ofLe : Bytes → Nat
  | [] => 0
  | b :: bs => b.toNat + ofLe bs * 256

/-- A field placed at bit `lo`. -/
def place (lo w v : Nat) : Nat := (v % 2 ^ w) <<< lo

/-- A number with the field of `w` bits at `lo` replaced. -/
def setBits (x lo w v : Nat) : Nat := x - place lo w (bits x lo w) + place lo w v

def boolNat (b : Bool) : Nat := if b then 1 else 0

/-- Quotient rounded up. -/
def ceilDiv (a b : Nat) : Nat := (a + b - 1) / b

/-- A count that stays at the top of its field. -/
def satAdd (w a b : Nat) : Nat := min (a + b) (2 ^ w - 1)

/-- Number of items of a list that satisfy a test. -/
def countIf {α : Type} (p : α → Bool) (l : List α) : Nat := (l.filter p).length

/-- The numbers lo, lo+1, ..., lo+n-1. -/
def rangeFrom (lo n : Nat) : List Nat := (List.range n).map (lo + ·)

/-- Whether two ranges given by start and length share a point. -/
def overlaps (a n b m : Nat) : Bool := n != 0 && m != 0 && decide (a < b + m) && decide (b < a + n)

/-- Whether [a, a+n) lies inside [b, b+m). -/
def inside (a n b m : Nat) : Bool := decide (b ≤ a) && decide (a + n ≤ b + m)

/-- Lowest set bit of a number below 2^w, counted from 0. -/
def lowestBit (w x : Nat) : Nat := ((List.range w).find? (fun i => bitAt x i)).getD 0

/-- The stochastic generator G of R88. -/
def srHash (seed idx : Nat) : Nat :=
  let m := 2 ^ 32
  let h := (seed + 0x9E3779B9 * idx) % m
  let h := h ^^^ (h >>> 16)
  let h := (h * 0x85EBCA6B) % m
  let h := h ^^^ (h >>> 13)
  let h := (h * 0xC2B2AE35) % m
  h ^^^ (h >>> 16)

/-- One bit-serial step of the reflected CRC with polynomial `poly`. -/
def crcBit (poly c : Nat) : Nat := if c % 2 = 1 then (c >>> 1) ^^^ poly else c >>> 1

def crcByte (poly c : Nat) (b : Byte) : Nat :=
  let c := c ^^^ b.toNat
  crcBit poly (crcBit poly (crcBit poly (crcBit poly (crcBit poly (crcBit poly (crcBit poly (crcBit poly c)))))))

/-- Reflected 32-bit CRC over bytes in order, initial value and final inversion all ones. -/
def crcReflected (poly : Nat) (bs : Bytes) : Nat :=
  (bs.foldl (crcByte poly) 0xFFFFFFFF) ^^^ 0xFFFFFFFF

end Sys2Proof.Machine
end

