-- ==== Sys2Proof/Machine/Formats.lean ====
section
/-! DEFINITION. Number formats and conversions (R74-R97): exact values, decoding, one rounding, encoding of
scalars and of blocks. -/
namespace Sys2Proof.Machine

/-- An exact value: (−1)^neg × m × 2^e, an infinity, or NaN. A zero keeps its sign. -/
inductive Val where
  | nan
  | inf (neg : Bool)
  | fin (neg : Bool) (m : Nat) (e : Int)
  deriving DecidableEq, Repr

namespace Val
def zero : Val := .fin false 0 0
def isNan : Val → Bool | .nan => true | _ => false
def isInf : Val → Bool | .inf _ => true | _ => false
def isFin : Val → Bool | .fin .. => true | _ => false
def isZero : Val → Bool | .fin _ 0 _ => true | _ => false
def sign : Val → Bool | .nan => false | .inf n => n | .fin n _ _ => n
/-- The value times 2^k. -/
def scale (k : Int) : Val → Val
  | .fin n m e => .fin n m (e + k)
  | v => v
def neg : Val → Val
  | .nan => .nan
  | .inf n => .inf (!n)
  | .fin n m e => .fin (!n) m e
def abs : Val → Val
  | .nan => .nan
  | .inf _ => .inf false
  | .fin _ m e => .fin false m e
def ofInt (i : Int) : Val := .fin (decide (i < 0)) i.natAbs 0
end Val

/-- m × 2^e as a multiple of 2^f, for f ≤ e. -/
def shiftTo (m : Nat) (e f : Int) : Nat := m <<< (e - f).toNat

/-- Order of two magnitudes m₁ × 2^e₁ and m₂ × 2^e₂. -/
def magLt (m₁ : Nat) (e₁ : Int) (m₂ : Nat) (e₂ : Int) : Bool :=
  let f := min e₁ e₂
  decide (shiftTo m₁ e₁ f < shiftTo m₂ e₂ f)

def magLe (m₁ : Nat) (e₁ : Int) (m₂ : Nat) (e₂ : Int) : Bool := !magLt m₂ e₂ m₁ e₁

/-- ⌊log₂ (m × 2^e)⌋ for m ≠ 0. -/
def log2Mag (m : Nat) (e : Int) : Int := (Nat.log2 m : Int) + e

/-- How infinities and NaNs of a format are encoded (R77). -/
inductive Specials where
  | ieee
  | e4m3
  | none
  deriving DecidableEq, Repr

/-- A floating-point encoding of R77. -/
structure FpFmt where
  ebits : Nat
  mbits : Nat
  bias  : Nat
  spec  : Specials
  deriving DecidableEq, Repr

def fp32 : FpFmt := ⟨8, 23, 127, .ieee⟩
def w40  : FpFmt := ⟨8, 31, 127, .ieee⟩
def bf16 : FpFmt := ⟨8, 7, 127, .ieee⟩
def fp16 : FpFmt := ⟨5, 10, 15, .ieee⟩
def e4m3 : FpFmt := ⟨4, 3, 7, .e4m3⟩
def e5m2 : FpFmt := ⟨5, 2, 15, .ieee⟩
def e2m3 : FpFmt := ⟨2, 3, 1, .none⟩
def e3m2 : FpFmt := ⟨3, 2, 3, .none⟩
def e2m1 : FpFmt := ⟨2, 1, 1, .none⟩

namespace FpFmt
def width (f : FpFmt) : Nat := 1 + f.ebits + f.mbits
/-- Exponent of the smallest subnormal: 1 − bias − m. -/
def emin (f : FpFmt) : Int := 1 - (f.bias : Int) - (f.mbits : Int)
/-- The magnitude code one past the largest finite code. -/
def overCode (f : FpFmt) : Nat :=
  match f.spec with
  | .ieee => (2 ^ f.ebits - 1) <<< f.mbits
  | .e4m3 => 0x7F
  | .none => 2 ^ (f.ebits + f.mbits)
/-- The canonical NaN of R93. -/
def nanCode (f : FpFmt) : Nat :=
  match f.spec with
  | .ieee => ((2 ^ f.ebits - 1) <<< f.mbits) + 2 ^ (f.mbits - 1)
  | .e4m3 => 0x7F
  | .none => 0
def infCode (f : FpFmt) (neg : Bool) : Nat :=
  place (f.ebits + f.mbits) 1 (boolNat neg) + ((2 ^ f.ebits - 1) <<< f.mbits)
end FpFmt

/-- Decoding of a scalar or element code (R77). -/
def decodeFp (f : FpFmt) (w : Nat) : Val :=
  let neg := bitAt w (f.ebits + f.mbits)
  let e := bits w f.mbits f.ebits
  let fr := bits w 0 f.mbits
  let special := match f.spec with
    | .ieee => e == 2 ^ f.ebits - 1
    | .e4m3 => e == 15 && fr == 7
    | .none => false
  if special then
    if f.spec == .ieee && fr == 0 then .inf neg else .nan
  else if e = 0 then .fin neg fr f.emin
  else .fin neg (2 ^ f.mbits + fr) (f.emin + (e : Int) - 1)

/-- Rounding of m × 2^e to a whole number of 2^u by mode (0 RNE, 1 RTZ, 2 SR with generator output g): R87. -/
def roundTo (mode g m : Nat) (e u : Int) : Nat :=
  if u ≤ e then shiftTo m e u
  else
    let k := (u - e).toNat
    let q := m >>> k
    let r := m % 2 ^ k
    if r = 0 then q
    else match mode with
      | 0 => if 2 * r > 2 ^ k || (2 * r == 2 ^ k && q % 2 == 1) then q + 1 else q
      | 1 => q
      | _ => if g < (r * 2 ^ 32) >>> k then q + 1 else q

/-- Magnitude code on the format's grid extended with an unbounded exponent range (R87). -/
def roundCode (f : FpFmt) (mode g m : Nat) (e : Int) : Nat :=
  if m = 0 then 0
  else
    let p := (f.mbits : Int)
    let u := max (log2Mag m e - p) f.emin
    let q := roundTo mode g m e u
    ((u + p + f.bias).toNat <<< f.mbits) + q - 2 ^ f.mbits

/-- What one scalar conversion gives: the code, OVERFLOW, INVALID, and whether the code is a NaN made by them (R92). -/
structure Conv where
  code   : Nat
  ovf    : Bool := false
  inv    : Bool := false
  nanBad : Bool := false
  deriving DecidableEq, Repr

/-- Conversion into a floating-point scalar (R91-R93). -/
def toFp (f : FpFmt) (mode g : Nat) (v : Val) : Conv :=
  match v with
  | .nan => { code := f.nanCode }
  | .inf n => if f.spec == .ieee then { code := f.infCode n } else { code := f.nanCode, ovf := true, nanBad := true }
  | .fin n m e =>
    let c := roundCode f mode g m e
    let s := place (f.ebits + f.mbits) 1 (boolNat n)
    if c < f.overCode then { code := s + c }
    else if f.spec == .ieee then { code := f.infCode n, ovf := true }
    else { code := f.nanCode, ovf := true, nanBad := true }

/-- Rounding of an exact value to FP32 with RNE. -/
def toFp32 (v : Val) : Conv := toFp fp32 0 0 v

/-- Conversion into an integer format of w bits (R91, R92). -/
def toInt (w : Nat) (signed : Bool) (mode g : Nat) (v : Val) : Conv :=
  let lo : Int := if signed then - ((2 ^ (w - 1) : Nat) : Int) else 0
  let hi : Int := if signed then ((2 ^ (w - 1) : Nat) : Int) - 1 else ((2 ^ w : Nat) : Int) - 1
  match v with
  | .nan => { code := 0, inv := true }
  | .inf n => { code := toField w (if n then lo else hi), ovf := true }
  | .fin n m e =>
    let q : Int := roundTo mode g m e 0
    let q := if n then -q else q
    if lo ≤ q && q ≤ hi then { code := toField w q }
    else { code := toField w (if n then lo else hi), ovf := true }

/-- Families of format codes of R74. -/
inductive FmtKind where
  | fp (f : FpFmt)
  | int (w : Nat) (signed : Bool)
  /-- Bead block with its element format. -/
  | bead (f : FpFmt)
  /-- MX block with its element format. -/
  | mx (f : FpFmt)
  | mxint8
  deriving DecidableEq, Repr

/-- The format codes of R74; none for an unlisted code. -/
def fmtKind (c : Nat) : Option FmtKind :=
  match c with
  | 0x00 => some (.fp fp32)
  | 0x01 => some (.fp w40)
  | 0x02 => some (.fp bf16)
  | 0x03 => some (.fp fp16)
  | 0x04 => some (.fp e4m3)
  | 0x05 => some (.fp e5m2)
  | 0x06 => some (.int 8 true)
  | 0x07 => some (.int 8 false)
  | 0x08 => some (.int 4 true)
  | 0x09 => some (.int 4 false)
  | 0x0A => some (.bead e4m3)
  | 0x0B => some (.bead e2m3)
  | 0x0C => some (.bead e2m1)
  | 0x0D => some (.mx e4m3)
  | 0x0E => some (.mx e5m2)
  | 0x0F => some (.mx e2m3)
  | 0x10 => some (.mx e3m2)
  | 0x11 => some (.mx e2m1)
  | 0x12 => some .mxint8
  | _ => none

def fmtListed (c : Nat) : Bool := decide (c ≤ 0x12)
def fmtBlock (c : Nat) : Bool := decide (0x0A ≤ c) && decide (c ≤ 0x12)
def fmtInteger (c : Nat) : Bool := decide (0x06 ≤ c) && decide (c ≤ 0x09)
def fmtBead (c : Nat) : Bool := decide (0x0A ≤ c) && decide (c ≤ 0x0C)

/-- Whether the tensor scale applies to the format (R74, R86). -/
def fmtScaled (c : Nat) : Bool := decide (0x03 ≤ c) && decide (c ≤ 0x09)

/-- Formats into which SR is accepted (R89). -/
def fmtSr (c : Nat) : Bool := (decide (0x02 ≤ c) && decide (c ≤ 0x05)) || fmtBead c

/-- Element width in bits (R74). -/
def fmtWidth (c : Nat) : Nat :=
  match c with
  | 0x00 => 32
  | 0x01 => 40
  | 0x02 => 16
  | 0x03 => 16
  | 0x08 => 4
  | 0x09 => 4
  | 0x0B => 6
  | 0x0C => 4
  | 0x0F => 6
  | 0x10 => 6
  | 0x11 => 4
  | _ => 8

/-- Conversion of an already scaled value into a scalar format. -/
def toScalar (c mode g : Nat) (v : Val) : Conv :=
  match fmtKind c with
  | some (.fp f) => toFp f mode g v
  | some (.int w s) => toInt w s mode g v
  | _ => { code := 0 }

/-- Decoding of a scalar code without tensor scale. -/
def ofScalar (c w : Nat) : Val :=
  match fmtKind c with
  | some (.fp f) => decodeFp f w
  | some (.int n s) => Val.ofInt (if s then sbits w 0 n else (bits w 0 n : Int))
  | _ => .nan

/-- Decoding of element code q in a block of scale code x with facet shift sh (R82, R84). -/
def ofBlockElem (c x sh q : Nat) : Val :=
  if x = 0xFF then .nan
  else
    let k : Int := (x : Int) - 127 - sh
    match fmtKind c with
    | some (.bead f) => (decodeFp f q).scale k
    | some (.mx f) => (decodeFp f q).scale k
    | some .mxint8 => (Val.ofInt (sbits q 0 8)).scale (k - 6)
    | _ => .nan

/-- Largest finite element as m × 2^e (R95). -/
def blockMax (c : Nat) : Nat × Int :=
  match c with
  | 0x0A => (7, 6)
  | 0x0D => (7, 6)
  | 0x0E => (7, 13)
  | 0x0B => (15, -1)
  | 0x0F => (15, -1)
  | 0x10 => (7, 2)
  | 0x0C => (3, 1)
  | 0x11 => (3, 1)
  | _ => (127, -6)

/-- What one block encoding gives: scale code, four facet shifts, element codes, OVERFLOW and lost elements (R95, R97). -/
structure BlockConv where
  scale  : Nat
  shifts : List Nat
  elems  : List Nat
  ovf    : Bool := false
  lost   : Nat := 0
  deriving DecidableEq, Repr

/-- Largest magnitude of finite values, as m × 2^e; m = 0 if all are zero. -/
def maxMag : List Val → Nat × Int
  | [] => (0, 0)
  | v :: vs =>
    let r := maxMag vs
    match v with
    | .fin _ m e => if m != 0 && (r.1 == 0 || magLt r.1 r.2 m e) then (m, e) else r
    | _ => r

/-- A block's element magnitude codes for exponent E and one shift per element (R95 step 7). -/
def blockElems (c mode seed : Nat) (E : Int) (shift : Nat → Nat) : Nat → List (Nat × Val) → List Nat
  | _, [] => []
  | j, (idx, v) :: vs =>
    let g := srHash seed idx
    let q := match v with
      | .fin n m e =>
        let e' := e - E + (shift j : Int)
        match fmtKind c with
        | some (.bead f) => let r := roundCode f mode g m e'; if r = 0 then 0 else place (f.ebits + f.mbits) 1 (boolNat n) + r
        | some (.mx f) => let r := roundCode f mode g m e'; if r = 0 then 0 else place (f.ebits + f.mbits) 1 (boolNat n) + r
        | _ =>
          let r := roundTo mode g m e' (-6)
          toField 8 (if n then -(r : Int) else (r : Int))
      | _ => 0
    q :: blockElems c mode seed E shift (j + 1) vs

/-- Facet shift of R95 step 6: the largest s from 0 to 3 for which A × 2^(s − E) ≤ M. -/
def facetShift (c : Nat) (E : Int) (a : Nat × Int) : Nat :=
  let mx := blockMax c
  if a.1 = 0 then 0
  else if magLe a.1 (a.2 + 3 - E) mx.1 mx.2 then 3
  else if magLe a.1 (a.2 + 2 - E) mx.1 mx.2 then 2
  else if magLe a.1 (a.2 + 1 - E) mx.1 mx.2 then 1
  else 0

/-- Encoding of one block of 32 values, each with its element index for SR (R95). -/
def encodeBlock (c mode seed : Nat) (vs : List (Nat × Val)) : BlockConv :=
  let vals := vs.map (·.2)
  let zeros := List.replicate 32 0
  if vals.any (fun v => !v.isFin) then
    ⟨0xFF, [0, 0, 0, 0], zeros, vals.any Val.isInf, 0⟩
  else
    let a := maxMag vals
    if a.1 = 0 then ⟨0, [0, 0, 0, 0], zeros, false, 0⟩
    else
      let mx := blockMax c
      let E0 := log2Mag a.1 a.2 - log2Mag mx.1 mx.2
      let E := if magLe a.1 (a.2 - E0) mx.1 mx.2 then E0 else E0 + 1
      if E > 127 then ⟨0xFF, [0, 0, 0, 0], zeros, true, 0⟩
      else
        let E := if E < -127 then -127 else E
        let sh := if fmtBead c then
            (List.range 4).map (fun f => facetShift c E (maxMag ((vals.drop (8 * f)).take 8)))
          else [0, 0, 0, 0]
        let el := blockElems c mode seed E (fun j => sh.getD (j / 8) 0) 0 vs
        ⟨(E + 127).toNat, sh, el,
          false, ((vals.zip el).filter (fun p => !p.1.isZero && p.2 == 0)).length⟩

end Sys2Proof.Machine
end

