-- ==== Sys2Proof/Machine/Flags.lean ====
section
/-! DEFINITION. The numeric flags of a command (R59, R60, R94, R97, R149) and their computation. -/
namespace Sys2Proof.Machine

/-- Flags gathered over a command's results in output order. -/
structure NumFlags where
  inv    : Bool := false
  ovf    : Bool := false
  /-- Elements flushed to zero by block encodings. -/
  lost   : Nat := 0
  /-- Row and column of the first output element made NaN. -/
  nan    : Option (Nat × Nat) := none
  /-- Largest finite source magnitude, m × 2^e. -/
  amax   : Nat × Int := (0, 0)
  recomp : Bool := false
  deriving DecidableEq, Repr

namespace NumFlags

def none : NumFlags := {}

/-- Flags of `a` followed, in output order, by those of `b`. -/
def join (a b : NumFlags) : NumFlags :=
  { inv := a.inv || b.inv
    ovf := a.ovf || b.ovf
    lost := a.lost + b.lost
    nan := match a.nan with
      | some p => some p
      | Option.none => b.nan
    amax := if a.amax.1 == 0 || (b.amax.1 != 0 && magLt a.amax.1 a.amax.2 b.amax.1 b.amax.2) then b.amax else a.amax
    recomp := a.recomp || b.recomp }

/-- The flags of two steps over the same elements: the NaN named is the first in row-major order (R119). -/
def first (a b : NumFlags) : NumFlags :=
  { a.join b with
    nan := match a.nan, b.nan with
      | some p, some q => some (if q.1 < p.1 ∨ (q.1 = p.1 ∧ q.2 < p.2) then q else p)
      | some p, Option.none => some p
      | Option.none, q => q }

/-- Flags of one scalar conversion at the given coordinates, from the unscaled source. -/
def ofConv (c : Conv) (src : Val) (row col : Nat) : NumFlags :=
  { inv := c.inv
    ovf := c.ovf
    nan := if c.nanBad then some (row, col) else Option.none
    amax := match src with
      | .fin _ m e => (m, e)
      | _ => (0, 0) }

/-- Flags of one arithmetic result (R141): an invalid operation, or a rounded result. -/
def ofArith (inv ovf nan : Bool) (row col : Nat) : NumFlags :=
  { inv := inv, ovf := ovf, nan := if nan then some (row, col) else Option.none }

end NumFlags

/-- Amax rounded to FP32 toward +∞ and limited to the largest finite value (R149). -/
def amaxCode (a : Nat × Int) : Nat :=
  if a.1 = 0 then 0
  else
    let u := max (log2Mag a.1 a.2 - 23) fp32.emin
    let q := if u ≤ a.2 then shiftTo a.1 a.2 u
      else
        let k := (u - a.2).toNat
        (a.1 >>> k) + (if a.1 % 2 ^ k = 0 then 0 else 1)
    min (((u + 150).toNat <<< 23) + q - 2 ^ 23) 0x7F7FFFFF

/-- Sum of two exact finite values; a zero sum is +0 unless both are −0. -/
def addFin (n₁ : Bool) (m₁ : Nat) (e₁ : Int) (n₂ : Bool) (m₂ : Nat) (e₂ : Int) : Val :=
  let e := min e₁ e₂
  let a : Int := shiftTo m₁ e₁ e
  let b : Int := shiftTo m₂ e₂ e
  let s := (if n₁ then -a else a) + (if n₂ then -b else b)
  if s = 0 then .fin (n₁ && n₂) 0 e else .fin (decide (s < 0)) s.natAbs e

/-- Exact sum, with INVALID for ∞ − ∞. -/
def addVal (a b : Val) : Val × Bool :=
  match a, b with
  | .nan, _ => (.nan, false)
  | _, .nan => (.nan, false)
  | .inf x, .inf y => if x == y then (.inf x, false) else (.nan, true)
  | .inf x, _ => (.inf x, false)
  | _, .inf y => (.inf y, false)
  | .fin n₁ m₁ e₁, .fin n₂ m₂ e₂ => (addFin n₁ m₁ e₁ n₂ m₂ e₂, false)

/-- Exact product, with INVALID for 0 × ∞. -/
def mulVal (a b : Val) : Val × Bool :=
  match a, b with
  | .nan, _ => (.nan, false)
  | _, .nan => (.nan, false)
  | .inf x, .inf y => (.inf (x != y), false)
  | .inf x, .fin n m _ => if m = 0 then (.nan, true) else (.inf (x != n), false)
  | .fin n m _, .inf y => if m = 0 then (.nan, true) else (.inf (n != y), false)
  | .fin n₁ m₁ e₁, .fin n₂ m₂ e₂ => (.fin (n₁ != n₂) (m₁ * m₂) (e₁ + e₂), false)

/-- Exact a × b + c. -/
def fmaVal (a b c : Val) : Val × Bool :=
  let p := mulVal a b
  let s := addVal p.1 c
  (s.1, p.2 || s.2)

/-- Order of the FP32 comparison: none with a NaN; −0 equals +0. -/
def cmpVal (a b : Val) : Option Ordering :=
  match a, b with
  | .nan, _ => none
  | _, .nan => none
  | .inf x, .inf y => some (if x == y then .eq else if x then .lt else .gt)
  | .inf x, _ => some (if x then .lt else .gt)
  | _, .inf y => some (if y then .gt else .lt)
  | .fin n₁ m₁ e₁, .fin n₂ m₂ e₂ =>
    let e := min e₁ e₂
    let a : Int := shiftTo m₁ e₁ e
    let b : Int := shiftTo m₂ e₂ e
    let a := if n₁ then -a else a
    let b := if n₂ then -b else b
    some (if a < b then .lt else if a = b then .eq else .gt)

/-- Larger of two values; NaN wins, and −0 ranks below +0 (R139). -/
def maxVal (a b : Val) : Val :=
  match cmpVal a b with
  | none => .nan
  | some .lt => b
  | some .gt => a
  | some .eq => if a.sign then b else a

/-- Smaller of two values; NaN wins, and −0 ranks below +0 (R139). -/
def minVal (a b : Val) : Val :=
  match cmpVal a b with
  | none => .nan
  | some .lt => a
  | some .gt => b
  | some .eq => if a.sign then a else b

/-- A running exact sum of products (R107, R108): the finite part, and which special terms reached it. -/
structure Sum where
  m    : Int := 0
  e    : Int := 0
  pinf : Bool := false
  ninf : Bool := false
  nan  : Bool := false
  inv  : Bool := false
  deriving DecidableEq, Repr

def Sum.add (s : Sum) (p : Val × Bool) : Sum :=
  let s := { s with inv := s.inv || p.2 }
  match p.1 with
  | .nan => { s with nan := true }
  | .inf n => if n then { s with ninf := true } else { s with pinf := true }
  | .fin n m e =>
    if m = 0 then s
    else
      let f := min s.e e
      let a : Int := s.m * ((2 ^ (s.e - f).toNat : Nat) : Int)
      let b : Int := shiftTo m e f
      { s with m := a + (if n then -b else b), e := f }

/-- The exact sum and whether an invalid operation reached it; an exact zero is +0. -/
def Sum.value (s : Sum) : Val × Bool :=
  let inv := s.inv || (s.pinf && s.ninf)
  if s.nan || inv then (.nan, inv)
  else if s.pinf then (.inf false, false)
  else if s.ninf then (.inf true, false)
  else (.fin (decide (s.m < 0)) s.m.natAbs s.e, false)

/-- Exact sum of a list of values (R140, R157). -/
def sumVals (vs : List Val) : Val × Bool :=
  (vs.foldl (fun s v => Sum.add s (v, false)) ({} : Sum)).value

end Sys2Proof.Machine
end

