-- ==== Sys2Proof/Machine/Sparse.lean ====
section
/-! DEFINITION. Sparse maps in one canonical form, and byte memory: addresses strictly rising, and no entry equal
to what an unlisted address reads as. -/
namespace Sys2Proof.Machine

/-- Value of a key of a sparse map; an unlisted key reads as `d`. -/
def sget {α : Type} (d : α) : List (Nat × α) → Nat → α
  | [], _ => d
  | (k, v) :: t, x => if k = x then v else sget d t x

/-- A sparse map with one key written; writing `d` removes the entry. -/
def sput {α : Type} [DecidableEq α] (d : α) : List (Nat × α) → Nat → α → List (Nat × α)
  | [], x, v => if v = d then [] else [(x, v)]
  | (k, w) :: t, x, v =>
    if x < k then (if v = d then (k, w) :: t else (x, v) :: (k, w) :: t)
    else if x = k then (if v = d then t else (x, v) :: t)
    else (k, w) :: sput d t x v

/-- Strictly rising keys above `lo`, no entry equal to `d`. -/
def swfFrom {α : Type} [DecidableEq α] (d : α) : Nat → List (Nat × α) → Bool
  | _, [] => true
  | lo, (k, v) :: t => decide (lo ≤ k) && decide (v ≠ d) && swfFrom d (k + 1) t

/-- The canonical form of a sparse map. -/
def swf {α : Type} [DecidableEq α] (d : α) (l : List (Nat × α)) : Bool := swfFrom d 0 l

/-- Byte memory: listed bytes; an unlisted address reads as `Memory.blank`. -/
abbrev Memory := List Host.Cell

/-- What a byte that nothing has written reads as. -/
def Memory.blank : Byte := 0

/-- The canonical form of a memory. -/
def Memory.wf (m : Memory) : Bool := swf Memory.blank m

/-- One byte. -/
def Memory.byte (m : Memory) (a : Nat) : Byte := sget Memory.blank m a

/-- The next `n` bytes from address `a`, out of cells none of which lies below `a`. -/
def Memory.readFrom : Nat → Nat → Memory → Bytes
  | 0, _, _ => []
  | n + 1, a, [] => Memory.blank :: Memory.readFrom n (a + 1) []
  | n + 1, a, (c, b) :: t =>
    if c = a then b :: Memory.readFrom n (a + 1) t else Memory.blank :: Memory.readFrom n (a + 1) ((c, b) :: t)

/-- `n` bytes from address `a`. -/
def Memory.read (m : Memory) (a n : Nat) : Bytes :=
  Memory.readFrom n a (m.dropWhile (fun c => decide (c.1 < a)))

/-- `n` bytes from address `a` as one little-endian number. -/
def Memory.num (m : Memory) (a n : Nat) : Nat := ofLe (m.read a n)

/-- The cells that bytes from address `a` need. -/
def Memory.cells : Nat → Bytes → Memory
  | _, [] => []
  | a, b :: bs => if b = Memory.blank then Memory.cells (a + 1) bs else (a, b) :: Memory.cells (a + 1) bs

/-- Bytes written from address `a` upwards. -/
def Memory.write (m : Memory) (a : Nat) (bs : Bytes) : Memory :=
  m.takeWhile (fun c => decide (c.1 < a)) ++ Memory.cells a bs ++
    m.dropWhile (fun c => decide (c.1 < a + bs.length))

/-- Every byte of [a, a+n) set to the blank value. -/
def Memory.clear (m : Memory) (a n : Nat) : Memory :=
  m.takeWhile (fun c => decide (c.1 < a)) ++ m.dropWhile (fun c => decide (c.1 < a + n))

/-- A list of writes, applied in order. -/
def Memory.writes (m : Memory) (ws : List (Nat × Bytes)) : Memory :=
  ws.foldl (fun m w => m.write w.1 w.2) m

end Sys2Proof.Machine
end

