-- ==== Sys2Proof/Machine/State.lean ====
section
/-! DEFINITION. The state of the PK960 as plain data: every register, queue, buffer, counter, mode and pin that the
spec gives the module, each with the rule that names it. Defaults are the reset values. -/
namespace Sys2Proof.Machine

/-! ## Commands in the engines (R46-R61) -/

/-- The work of an item (R208, R211). -/
inductive ItemKind where
  | f
  | b
  | w
  | opt
  | reset
  deriving DecidableEq, Repr

/-- What the Strand engine attaches to a list it pushes (R213, R215): local stage, item, micro-batch number or
optimizer group, and the version slot bound (F, B and W items). -/
structure ItemTag where
  stage : Nat
  kind  : ItemKind
  n     : Nat
  slot  : Nat
  deriving DecidableEq, Repr

/-- A list reference in a queue (R51), with the number the module keeps it under. -/
structure ListRef where
  addr  : Nat
  count : Nat
  id    : Nat := 0
  item  : Option ItemTag := none
  deriving DecidableEq, Repr

/-- Result fields of a command that has started (R58-R60). -/
structure Res where
  /-- Status code of a class other than 0x4; 0 if none applies. -/
  code   : Nat := 0
  inv    : Bool := false
  ovf    : Bool := false
  recomp : Bool := false
  poison : Bool := false
  lost   : Nat := 0
  nan    : Option (Nat × Nat) := none
  arg    : Nat := 0
  /-- Accepted and not yet applied (R62). -/
  deferred : Bool := false
  /-- The published count of beats; none where the spec publishes none. -/
  beats  : Option Nat := none
  deriving DecidableEq, Repr

/-- A ready resource of the vector engine's scoreboard (R143): kind 0 vector register, 1 mask register, 2 scratch
bytes, 3 accumulator row; first, length, and the beat from which it can be read. -/
structure Ready where
  kind : Nat
  lo   : Nat
  len  : Nat
  beat : Nat
  deriving DecidableEq, Repr

/-- A VRUN in progress (R138, R143, R144). -/
structure VRun where
  tile  : Nat
  iter  : Nat := 0
  pc    : Nat := 0
  /-- Exponents read from SLOT0 and SLOT1 at the start (R148). -/
  k0    : Int := 0
  k1    : Int := 0
  flags : NumFlags := {}
  amax0 : Nat × Int := (0, 0)
  amax1 : Nat × Int := (0, 0)
  /-- Beat at which the issue slot is free, and the completion beat of the last instruction. -/
  slot  : Nat := 0
  last  : Nat := 0
  ready : List Ready := []
  /-- Spans stored so far (R219). -/
  stores : List (Nat × Nat) := []
  deriving DecidableEq, Repr

/-- A chunk of a stream whose reads are issued (R194): index and bytes for each tile, with the address written. -/
structure Chunk where
  g      : Nat
  writes : List (Nat × Bytes)
  deriving DecidableEq, Repr

/-- A WSTREAM run in progress (R190-R197). -/
structure Stream where
  desc    : Nat
  start   : Nat
  total   : Nat
  ver     : Nat
  /-- Stage and version slot held under VER_MODE 2 (R201, R235). -/
  holds   : Option (Nat × Nat)
  issued  : Nat := 0
  signalled : Nat := 0
  /-- Chunks whose reads are issued and not committed, oldest first. -/
  chunks  : List Chunk := []
  /-- Transactions of the issued chunks' reads at a peer: number, chunk, tile of the stream. -/
  reads   : List (Nat × (Nat × Nat)) := []
  waited  : Bool := false
  late    : Nat := 0
  waits   : Nat := 0
  /-- Poisoned units met, and the channel of the first. -/
  bad     : Nat := 0
  badCh   : Nat := 0
  down    : Bool := false
  /-- The next chunk's reads wait at a channel in retrain: their age, and the transactions outstanding there (R15, R179). -/
  held    : Option (Nat × Nat) := none
  deriving DecidableEq, Repr

/-- A copy between this module and peers in progress (R170, R171): the read outstanding at the source peer with what has come of
it, and the writes outstanding at the destination peer. -/
structure PeerMove where
  rd      : Option Nat := none
  got     : List (Nat × Bytes) := []
  /-- 256-byte pieces of the source that came with POISON. -/
  tainted : List Nat := []
  /-- Exponents of source and destination, read at the start (R111, R148). -/
  k       : Int × Int := (0, 0)
  wrs     : List Nat := []
  /-- Poisoned units so far, and the channel of the first (R171). -/
  bad     : Nat := 0
  badCh   : Nat := 0
  down    : Option Nat := none
  deriving DecidableEq, Repr

/-- Work of a command that takes further steps after its start. -/
inductive Op where
  /-- The results are known; they are committed at completion. -/
  | plain
  | vrun (r : VRun)
  | move (m : PeerMove)
  /-- A MOVE or FILL whose requests wait in a channel's hold queue: its place in the order of age, its transactions outstanding, and the
  exponents read at its start (R148, R178, R179). -/
  | held (age n : Nat) (k : Int × Int)
  | stream (w : Stream)
  /-- REDUCE or GATHER: its bucket stands in the job's ring state under this tag. -/
  | bucket (tag : Nat)
  | norm
  | pipeStart
  | edgeOpen (e : Nat)
  | pipeStop
  | replay
  | seal
  | tandem
  /-- A FEED_POST whose entries' mirror copies are still on their way to the buddy (R359): the edge, the micro-batches, the buddy. -/
  | feed (slot : Nat) (mbs : List Nat) (buddy : Nat)
  deriving DecidableEq, Repr

/-- A command that has started and not completed. -/
structure Flight where
  /-- The 64-byte record (R46). -/
  record : Nat
  listId : Nat
  /-- Last command of its list. -/
  last   : Bool
  item   : Option ItemTag := none
  res    : Res := {}
  /-- Bytes to be committed at completion. -/
  writes : List (Nat × Bytes) := []
  /-- Units to be poison-marked at completion (R171). -/
  marks  : List Nat := []
  /-- Recorded amaxes: slot and FP32 code (R149). -/
  amax   : List (Nat × Nat) := []
  /-- Recomputes to be counted: slot and number (R152). -/
  recomps : List (Nat × Nat) := []
  /-- Engine paths held (R98, R133), and byte spans read and written (R101). -/
  paths  : Nat := 0
  reads  : List (Nat × Nat) := []
  span   : List (Nat × Nat) := []
  /-- What the spans it reads held before a Mover write landed over a tile's command, or a tile's write over a Mover's (R101). -/
  torn   : List (Nat × Bytes) := []
  op     : Op := .plain
  deriving DecidableEq, Repr

/-- A record fetched, with checks 1-3 passed, that waits (R56): its ownership queries at peers (R171), each with the
answer's code once it has come. -/
structure Waiting where
  /-- The record, and above its 512 bits the descriptor that was read with it (R193). -/
  record : Nat
  asks   : List (Nat × Option Nat) := []
  /-- The opening exchange of check 4 has begun (R245). -/
  begun  : Bool := false
  deriving DecidableEq, Repr

/-- A completion record that a full ring keeps back, with the signal that follows it (R55, R61). -/
structure Held where
  crec   : Nat
  sigOp  : Nat
  sigCtr : Nat
  sigVal : Nat
  irq    : Bool
  /-- A record is due; else the entry only keeps its signal in its place. -/
  need   : Bool := true
  deriving DecidableEq, Repr

/-- A job's instance of an engine queue and its binding (R50, R61, R325). -/
structure Queue where
  ref      : QRef
  ringLog2 : Nat
  ringAddr : Nat
  headAddr : Nat
  lists    : List ListRef := []
  /-- Index of the next record in the first list. -/
  pos      : Nat := 0
  cur      : Option Waiting := none
  flight   : List Flight := []
  halted   : Bool := false
  /-- The rejected record at which the queue halts was the last of its list. -/
  haltLast : Bool := false
  full     : Bool := false
  held     : List Held := []
  /-- Free-running count W of records written (R61). -/
  wcount   : Nat := 0
  deriving DecidableEq, Repr

/-! ## Strand (R207-R250) -/

/-- State of a version slot (R234). -/
inductive VerState where
  | free
  | current
  | held
  deriving DecidableEq, Repr

/-- A version slot with its number, its count of holders, the steps that pin it, and, with one slot, whether a micro-batch has
bound the version and VER_CTR is still to be advanced for it (R234-R236). -/
structure VerSlot where
  st     : VerState := .free
  num    : Nat := 0
  count  : Nat := 0
  pins   : List Nat := []
  bound  : Bool := false
  due    : Bool := false
  deriving DecidableEq, Repr

/-- An entry of a dispatch set (R212). -/
structure SetEntry where
  target : QRef
  addr   : Nat
  count  : Nat
  deriving DecidableEq, Repr

/-- A bound stage (R207, R209, R211). -/
structure Stage where
  idx       : Nat
  stageId   : Nat
  group     : Nat
  chunk     : Nat
  exit      : Bool
  warmup    : Nat
  wLimit    : Nat
  idle      : Nat
  mbSlots   : Nat
  verCtr    : Nat
  optGroups : Nat
  optCtr    : Nat
  tileFirst : Nat
  tileCount : Nat
  statusAddr : Nat
  /-- Dispatch sets by list-table index. -/
  sets      : List (List SetEntry)
  slots     : List VerSlot
  /-- Items completed: micro-batches counted from FIRST_MB. -/
  fDone     : Nat := 0
  bDone     : Nat := 0
  wDone     : Nat := 0
  /-- OPT items of the present step chosen and completed. -/
  optNext   : Nat := 0
  optDone   : Nat := 0
  /-- Version slot bound by each micro-batch of the steps under way (R215, R241), and the micro-batches that hold theirs. -/
  binds     : List (Nat × Nat) := []
  held      : List Nat := []
  /-- Micro-batches that are POISON at this stage, and their count since the last status record. -/
  poisonMb  : List Nat := []
  poisonCnt : Nat := 0
  critical  : Bool := false
  deriving DecidableEq, Repr

/-- State of an edge (R247). -/
inductive EdgeState where
  | bound
  | opened
  | down
  | closed
  deriving DecidableEq, Repr

/-- An entry on its way from this module (R219, R220). -/
structure SendEntry where
  n       : Nat
  version : Nat
  /-- Byte spans of the send buffers written by commands of the item. -/
  written : List (Nat × Nat) := []
  /-- The item has completed. -/
  itemDone : Bool := false
  poison  : Bool := false
  /-- Units handed on. -/
  sent    : List Nat := []
  deriving DecidableEq, Repr

/-- An entry at the receiving end (R218, R220). -/
structure RecvEntry where
  n       : Nat
  units   : List Nat := []
  noticed : Bool := false
  poison  : Bool := false
  version : Nat := 0
  bytes   : Nat := 0
  deriving DecidableEq, Repr

/-- One direction of an edge on this module: credits at the sending end, entries in sending, entries received. -/
structure EdgeDir where
  credits : Nat := 0
  /-- Entries released, counted from FIRST_MB. -/
  released : Nat := 0
  send    : List SendEntry := []
  recv    : List RecvEntry := []
  deriving DecidableEq, Repr

/-- A bound edge slot (R216). -/
structure Edge where
  slot    : Nat
  desc    : Nat
  peerMod : Nat
  st      : EdgeState := .bound
  fwd     : EdgeDir := {}
  bwd     : EdgeDir := {}
  /-- The peer's answer to the opening notice (R245). -/
  answer  : Option OpenMsg := none
  /-- A closing acknowledgement has come (R246). -/
  acked   : Bool := false
  /-- Feed edge: micro-batches announced by FEED_POST, counted from FIRST_MB; those still to be delivered from the replay
  buffer: the next, and the end (R241). -/
  feedNext : Nat := 0
  refeed   : Nat × Nat := (0, 0)
  deriving DecidableEq, Repr

/-- An item that a tile group has outstanding (R208, R213): lists still to be pushed, lists pushed and not complete. -/
structure Outstanding where
  tag    : ItemTag
  /-- The first push has been made (R213). -/
  started : Bool := false
  toPush : List SetEntry
  openLists : List Nat := []
  poison : Bool := false
  deriving DecidableEq, Repr

/-- Beats of a group by state (R249). -/
structure GroupBeats where
  busy       : Nat := 0
  waitIn     : Nat := 0
  waitCredit : Nat := 0
  waitStep   : Nat := 0
  deriving DecidableEq, Repr

/-- A tile group's place in its sequence (R226, R227). -/
structure Group where
  id      : Nat
  /-- Forward and backward items of the sequence chosen so far. -/
  fwd     : Nat := 0
  bwd     : Nat := 0
  /-- Deferred W items, oldest first: stage and micro-batch (R228). -/
  deferred : List (Nat × Nat) := []
  out     : Option Outstanding := none
  /-- Place of the sequence from which its warmup counts: under STEP_OVERLAP a replay starts it anew (R226, R241). -/
  start   : Nat := 0
  /-- Beats of the present step by state (R249). -/
  beats   : GroupBeats := {}
  deriving DecidableEq, Repr

/-- State of the pipeline (R247). -/
inductive PipeState where
  | idle
  | running
  | replaying
  | stopping
  deriving DecidableEq, Repr

/-- The pipeline of a job on the module (R245). -/
structure Pipe where
  st        : PipeState := .idle
  firstMb   : Nat := 0
  firstStep : Nat := 0
  mbPerStep : Nat := 1
  policy    : Nat := 0
  overlap   : Bool := false
  normWait  : Bool := false
  fwdOnly   : Bool := false
  iblock    : Nat := 0
  stepCtr   : Nat := 0
  /-- Steps whose boundary has passed, counted from FIRST_STEP. -/
  steps     : Nat := 0
  /-- The engine does not choose items (R242, R246). -/
  stopped   : Bool := false
  /-- Steps marked poisoned whose contribution has not been sent (R238, R269). -/
  poisoned  : List Nat := []
  /-- Beats of the present step on the module (R250). -/
  span      : Nat := 0
  /-- The present step is a replay (R241); its step 2 and 3 are done; stages whose RESET set is still to be pushed. -/
  replay    : Bool := false
  restored  : Bool := false
  resets    : List Nat := []
  /-- No item of the pipeline, or of the replayed step, has been dispatched yet (R384). -/
  fresh     : Bool := false
  deriving DecidableEq, Repr

/-- What a job binds on the Strand engine: stages, edges, synchronisation groups, the pipeline, and the opening notices held for
edges not yet bound (R229–R232, R245). -/
structure Strand where
  stages  : List Stage := []
  edges   : List Edge := []
  groups  : List Group := []
  pipe    : Pipe := {}
  notices : List OpenMsg := []
  deriving DecidableEq, Repr

/-! ## Numerics (R145-R157) -/

/-- State of the step gate (R153). -/
inductive Gate where
  | undecided
  | opened
  | skip
  | hold
  deriving DecidableEq, Repr

/-- The numerics block of a job and the step's counts (R145, R153, R155). -/
structure Numerics where
  slotBase  : Nat := 0
  slotCount : Nat := 0
  gateEn    : Bool := false
  skipOnFlag : Bool := false
  gateCtr   : Nat := 0
  slotTable : Nat := 0
  stepRec   : Nat := 0
  maxNorm   : Word32 := 0
  gate      : Gate := .undecided
  flagCount : Nat := 0
  recompCount : Nat := 0
  lostTotal : Nat := 0
  skipRun   : Nat := 0
  deriving DecidableEq, Repr

/-- A scale slot (R147-R152). -/
structure Slot where
  fmt      : Nat := 0
  headroom : Nat := 0
  auto     : Bool := false
  k        : Int := 0
  /-- History, oldest first; at most 16 FP32 codes. -/
  hist     : List Word32 := []
  pending  : Word32 := 0
  recomp   : Nat := 0
  /-- Copy kept at the last step boundary (R151). -/
  savedK   : Int := 0
  savedHist : List Word32 := []
  deriving DecidableEq, Repr

/-! ## Ring engines (R251-R281) -/

/-- A bound reduction group (R253). -/
structure RGroup where
  num     : Nat
  tree    : Bool
  axis    : Nat
  self    : Nat
  epoch   : Nat
  timeout : Nat
  members : List Nat
  deriving DecidableEq, Repr

/-- A Ring packet as it travels (R264): class word and payload. -/
structure RPkt where
  src     : Nat
  vc      : Nat
  cls     : BitVec 64
  payload : BitVec 2048
  /-- Cause of R276 under which this module makes up a packet that does not come; 0 for one that came. -/
  cause   : Nat := 0
  deriving DecidableEq, Repr

/-- A REDUCE or GATHER between check 4 and its completion. -/
structure Bucket where
  tag     : Nat
  gather  : Bool
  record  : Nat
  queue   : QRef
  group   : Nat
  epoch   : Nat
  use     : Nat
  k       : Int := 0
  /-- Destination of the results (with the version slot of a GATHER applied). -/
  dst     : Nat := 0
  /-- Packets still due: partials, results, close packets. -/
  partDue : Nat := 0
  resDue  : Nat := 0
  closeDue : Nat := 0
  /-- Packets taken so far, of partials, results and close packets. -/
  partGot : Nat := 0
  resGot  : Nat := 0
  closeGot : Nat := 0
  /-- Under TREE: packets that wait for the other child's, from the left and from the right. -/
  left    : List RPkt := []
  right   : List RPkt := []
  closeSent : Bool := false
  /-- Modules whose CLOSE packet came, and the first poison among those packets (R266, R276). -/
  closers : List Nat := []
  closeBad : Option (Nat × Nat) := none
  amax    : Nat := 0
  /-- Side sum (R268) and its flags. -/
  side    : Nat := 0
  sideNan : Bool := false
  sideInf : Bool := false
  adj     : Nat := 0
  inv     : Bool := false
  ovf     : Bool := false
  nan     : Option Nat := none
  /-- Elements of an AR bucket that became NaN or ∞ in a partial of this member (R267). -/
  made    : List Nat := []
  /-- First poison: cause and source (R276). -/
  poison  : Option (Nat × Nat) := none
  writes  : List (Nat × Bytes) := []
  marks   : List Nat := []
  /-- Management time of check 4 or of the last packet (R276 cause 2). -/
  since   : Nat := 0
  deriving DecidableEq, Repr

/-- Norm accumulator of an open step (R268): value in units of 2^−320, flags, poison with its source. -/
structure NormAcc where
  step   : Nat
  value  : Nat := 0
  nan    : Bool := false
  inf    : Bool := false
  poison : Option Nat := none
  deriving DecidableEq, Repr

/-- A contribution held at the root (R270). -/
structure Contribution where
  src    : Nat
  value  : Nat
  nan    : Bool
  inf    : Bool
  poison : Option Nat
  deriving DecidableEq, Repr

/-- The root's collection for a step (R270). -/
structure NormRoot where
  step   : Nat
  got    : List Contribution := []
  /-- Management time at which the first contribution came. -/
  since  : Nat := 0
  /-- The window has closed. -/
  closed : Bool := false
  /-- Contributors named by the NORM_CLOSE that formed the total. -/
  list   : List Nat := []
  /-- The total sent: class word and payload. -/
  total  : Option (BitVec 64 × BitVec 2048) := none
  deriving DecidableEq, Repr

/-- A NORM_CLOSE that has passed check 4 (R269). -/
structure NormClose where
  queue   : QRef
  step    : Nat
  root    : Nat
  list    : List Nat
  timeout : Nat
  sent    : Bool := false
  since   : Nat := 0
  deriving DecidableEq, Repr

/-- Ring state of a job: the group table with pending descriptors, tags, norm exchange and poison counts. -/
structure RingSt where
  groups   : List RGroup := []
  pending  : List RGroup := []
  buckets  : List Bucket := []
  /-- Use count of each tag, with the group last used (R275). -/
  uses     : List (Nat × (Nat × Nat)) := []
  early    : List RPkt := []
  accs     : List NormAcc := []
  /-- Oldest step whose NORM_CLOSE has not executed. -/
  openStep : Nat := 0
  closes   : List NormClose := []
  roots    : List NormRoot := []
  /-- Poisoned completions by source, and decisions OPEN or SKIP in a row (R277). -/
  poisons  : List (Nat × Nat) := []
  goodRun  : Nat := 0
  /-- Sources already reported to the lead (R277). -/
  reported : List Nat := []
  deriving DecidableEq, Repr

/-! ## Jobs (R324-R341) -/

/-- A route-table entry (R299): class × 256 + destination, ports, TRANSIT, and the ports that patches dropped, whose flits
are still to be acknowledged before a flow goes on (R306). -/
structure Route where
  key     : Nat
  ports   : BitVec 36
  transit : Bool
  dropped : BitVec 36 := 0
  deriving DecidableEq, Repr

/-- An accepted deferral (R62, R63): its kind, the record or packet that made it, and the queue to which the second
record goes. -/
structure Deferral where
  kind   : DeferKind
  record : Nat
  queue  : QRef
  /-- Copy of the table that the command names (R376, R335), and the fabric time of its acceptance. -/
  data   : Nat := 0
  since  : Nat := 0
  /-- Its boundary has come (R63). -/
  due    : Bool := false
  deriving DecidableEq, Repr

/-- A range in a hosted half, in its order of arrival (R356): address on the source module, bytes, and offset in the half. -/
structure HostedRange where
  addr  : Nat
  len   : Nat
  off   : Nat
  deriving DecidableEq, Repr

/-- A hosted half (R356): the step it is sealed for, with its state block, and its ranges. -/
structure Half where
  sealed : Option StateBlockMsg := none
  ranges : List HostedRange := []
  /-- A range found no room in the half. -/
  short  : Bool := false
  deriving DecidableEq, Repr

/-- A LOCKET_SEAL that awaits its acknowledgement (R357): its queue, the step, and the block sent. -/
structure Sealing where
  queue : QRef
  step  : Nat
  skip  : Bool
  block : StateBlockMsg
  /-- Ranges of the seal: address and bytes. -/
  ranges : List (Nat × Nat)
  deriving DecidableEq, Repr

/-- A TANDEM in progress (R363): entry under check and the partner's answer to it. -/
structure TandemRun where
  queue  : QRef
  entry  : Nat
  answer : Option (Option (BitVec 64)) := none
  deriving DecidableEq, Repr

/-- The Locket of a job (R352-R363). -/
structure Locket where
  bound    : Bool := false
  /-- The descriptor as read at LOCKET_BIND, and its address. -/
  desc     : Nat := 0
  descAddr : Nat := 0
  /-- Static ranges (address, bytes), Tandem entries and patch entries as read. -/
  statics  : List (Nat × Nat) := []
  tandems  : List Nat := []
  patches  : List Nat := []
  interval : Nat := 0
  /-- The queue of a LOCKET_BIND that awaits the buddy's acknowledgement, and the buddy's answer. -/
  binding  : Option QRef := none
  answer   : Option Bool := none
  sealing  : Option Sealing := none
  lastSeal : Option Nat := none
  /-- Count k of durable checkpoints (R360). -/
  durables : Nat := 0
  /-- Ranges of the GATHERs completed since the last seal, in order, and whether one completed with POISON (R356, R357). -/
  ranges   : List (Nat × Nat) := []
  gatherBad : Bool := false
  /-- Ranges of the last seal that carried any. -/
  lastRanges : List (Nat × Nat) := []
  /-- Hosting of SOURCE: the two halves and the static ranges (R355, R356); the bytes lie in the hosting region. -/
  half0    : Half := {}
  half1    : Half := {}
  srcStatics : List HostedRange := []
  srcInfo  : Option SrcInfo := none
  /-- A state block that waits for the last range of its seal (R370): its source, and the block. -/
  awaited  : Option (Nat × StateBlockMsg) := none
  tandem   : Option TandemRun := none
  deriving DecidableEq, Repr

/-- Where a recovery stands at its lead (R365-R368). -/
inductive RecovPhase where
  | idle
  /-- Quiescent reports are awaited. -/
  | reports
  /-- A candidate has been asked. -/
  | asking
  /-- A spare has accepted; patches and, on the buddy path, its admission are awaited. -/
  | patching
  /-- The spare has admitted the job; the patches of its own route table are awaited. -/
  | routing
  /-- REPOINT has been sent. -/
  | repointing
  deriving DecidableEq, Repr

/-- Recovery of a job, as its lead (and every module, for the last fields) keeps it (R351, R364-R370). -/
structure Recov where
  /-- Suspected module and the module that reported it (R351). -/
  suspects : List (Nat × Nat) := []
  /-- Probes sent: module and time. -/
  probes   : List (Nat × Nat) := []
  failed   : List Nat := []
  phase    : RecovPhase := .idle
  /-- A HOLD decision awaits the quiescent reports (R365). -/
  hold     : Bool := false
  /-- Reports are awaited since this time. -/
  since    : Option Nat := none
  reports  : List QuietMsg := []
  /-- Takeover (R367): failed module, restored step, index of the candidate asked, when, and the spare that accepted. -/
  taking   : Option (Nat × Nat) := none
  cand     : Nat := 0
  askedAt  : Option Nat := none
  spare    : Option Nat := none
  /-- The durable path is taken, for this step (R368). -/
  durable  : Option Nat := none
  /-- Patches not yet acknowledged: module and epoch; one has failed; the last patch epoch used. -/
  patches  : List (Nat × Nat) := []
  patchBad : Bool := false
  epoch    : Nat := 0
  /-- Modules whose REPOINT has not been carried out. -/
  repoint  : List Nat := []
  /-- Recovery runs on this module: no lag is counted, locks stay (R369, R389). -/
  active   : Bool := false
  /-- This module is quiescing: its report is still to be sent to this lead (R364). -/
  quiesce  : Option Nat := none
  /-- A REPOINT order is being carried out for this lead. -/
  owing    : Option Nat := none
  /-- A DURABLE order is being carried out: the step, restored once the pipeline has stopped (R368). -/
  restoring : Option Nat := none
  /-- Reports kept of earlier rounds, for what modules that failed since have told (R368, R370). -/
  kept     : List QuietMsg := []
  /-- Stragglers that a RETIRE will reach when their place is taken, with the step (R369, R421). -/
  retiring : List (Nat × Nat) := []
  /-- Takeovers carried out and not yet logged: failed module, spare, restored step; and modules whose REPLAY_STEP is still to complete
  (R367 step 7). -/
  taken    : List (Nat × Nat × Nat) := []
  replays  : List Nat := []
  /-- Spares that a durable restart admits, whose route tables the lead patches (R368). -/
  restarts : List Nat := []
  /-- The module has reported itself as one that drains (R421). -/
  drained  : Bool := false
  /-- A REPLAY order is being carried out for this lead. -/
  replaying : Option Nat := none
  /-- Outcome of the Tandem check of a takeover (R367 step 6). -/
  checked  : Option Bool := none
  /-- The job is halted (R351): no module of it chooses items. -/
  halted   : Bool := false
  deriving DecidableEq, Repr

/-- An acknowledgement of a route patch at its sender (R306, R367). -/
def Recov.patchAck (r : Recov) (src epoch code : Nat) : Recov :=
  { r with patches := r.patches.filter (fun p => !(p.1 == src && p.2 == epoch)), patchBad := r.patchBad || code != 0 }

/-- Switch instants of a job: what the module was told, and what the lead holds (R333). -/
structure Instants where
  stopAt   : Option Nat := none
  startAt  : Option Nat := none
  /-- Stop or start requests sent by this module and not yet answered. -/
  askedStop : Bool := false
  askedStart : Bool := false
  /-- Lead: time of the last instant, modules that asked for a start, time of the first of them. -/
  last     : Option Nat := none
  starters : List Nat := []
  first    : Nat := 0
  /-- Lead: a stop request has come for which the next instant is still to be set. -/
  due      : Bool := false
  deriving DecidableEq, Repr

/-- Cadence lock of a job (R380-R382) and the lag of its step (R369). -/
structure Lock where
  /-- Locked cadence of each gear; none before the first lock. -/
  locks    : Option (List Nat) := none
  grant    : Nat := 0
  /-- What lead-out adds to the budget of the active gear, in W (R382). -/
  lead     : Int := 0
  at_      : Nat := 0
  /-- The module's 1 ms mean power when the job was last measured (R383). -/
  mean     : Nat := 0
  /-- A group is CRITICAL: lead-out is asked for in the next report (R382). -/
  critical : Bool := false
  ask      : Bool := false
  /-- The grant was withdrawn in the present step (R382, R389). -/
  withdrawn : Bool := false
  /-- Lead: reports of the last 10 ms with their times; grants and budgets set at the last boundary. -/
  reports  : List (Nat × LockMsg) := []
  grants   : List (Nat × Nat) := []
  budgets  : List (Nat × Nat) := []
  /-- Lead: estimated power of each module with a grant. -/
  powers   : List (Nat × Nat) := []
  /-- Sums over the step's gates of module cadence and assigned cadence, in Mbeat/s. -/
  cadSum   : Nat := 0
  setSum   : Nat := 0
  lagging  : Nat := 0
  /-- Steps whose lag is not counted (R369). -/
  excuse   : Nat := 0
  deriving DecidableEq, Repr

/-- Standing of a job in the job table (R71, R327, R340). -/
inductive JobState where
  | running
  | parked
  | draining
  deriving DecidableEq, Repr

/-- An admitted job, or one whose end is in progress (R324-R328). -/
structure Job where
  id       : Nat
  cls      : Nat
  rank     : Nat
  admin    : Bool
  lead     : Nat
  deputy   : Nat
  ctrBase  : Nat
  ctrCount : Nat
  parkAddr : Nat
  /-- Address of the job descriptor (R324). -/
  descAddr : Nat := 0
  slowBytes : Nat
  st       : JobState
  hasRun   : Bool := false
  /-- Extents: first page and pages of 2 MiB (R326). -/
  extents  : List (Nat × Nat)
  routes   : List Route
  /-- Last patch epoch applied to the route table (R306). -/
  routeEpoch : Option Nat := none
  queues   : List Queue
  numerics : Numerics
  strand   : Strand := {}
  ring     : RingSt := {}
  locket   : Locket := {}
  deferrals : List Deferral := []
  /-- Module-ID aliases (R364). -/
  aliases  : List (Nat × Nat) := []
  /-- Tag and ring index of the cancel packet under way (R65), and whether the job's end has reached its last step. -/
  cancel   : Option (Nat × Nat) := none
  recov    : Recov := {}
  inst     : Instants := {}
  lock     : Lock := {}
  /-- Number that the next list pushed to a queue of the job receives: the model's own, which ties a flight to its list (log 13). -/
  listSeq  : Nat := 1
  deriving DecidableEq, Repr

/-! ## BAR0 and the work ring (R64-R72) -/

/-- LAST_ERROR of the status page (R71). -/
structure LastError where
  code   : Nat := 0
  engine : Nat := 0
  inst   : Nat := 0
  job    : Nat := 0
  deriving DecidableEq, Repr

/-- The telemetry words of the status page (R42, R71). -/
structure Telemetry where
  seq     : Nat := 0
  cadence : Nat := 0
  occ     : Nat := 0
  timeUs  : Nat := 0
  dies    : List Nat := [0, 0, 0, 0]
  volts   : List Nat := [0, 0, 0, 0]
  deriving DecidableEq, Repr

/-- The registers of BAR0 (R67-R71). -/
structure Bar0 where
  irqStatus : BitVec 8 := 0
  irqMask   : BitVec 8 := 0xFF
  inLen     : BitVec 11 := 0
  busy      : Bool := false
  outReady  : Bool := false
  mboxErr   : Bool := false
  outLen    : BitVec 11 := 0
  mboxIn    : List (Nat × Byte) := []
  mboxOut   : Bytes := []
  /-- Outbound messages that the MSS holds while OUT_READY is 1 (R70). -/
  outQueue  : List Bytes := []
  lastError : LastError := {}
  /-- Class counts, classes 0x0 to 0xF, 32 bits saturating (R71). -/
  counts    : List Nat := List.replicate 16 0
  tel       : Telemetry := {}
  deriving DecidableEq, Repr

/-- The work ring (R64-R66): location, size and owner from the boot image, HEAD, the last TAIL accepted. -/
structure WorkRing where
  base  : Nat := 0
  log2  : Nat := 4
  peer  : Bool := false
  owner : Nat := 0
  head  : BitVec 16 := 0
  tail  : BitVec 16 := 0
  /-- Free-running count of results written, for PHASE. -/
  wcount : Nat := 0
  deriving DecidableEq, Repr

/-! ## Memory (R161-R188) -/

/-- Standing of a 64-byte unit that is not clean: poison-marked (R165), or uncorrectable (R163). -/
inductive Mark where
  | clean
  | poison
  | uncorr
  /-- One symbol in error: read corrected; gone once it is written back. -/
  | soft
  /-- One symbol in error, and still so after the corrected data are written back. -/
  | hard
  deriving DecidableEq, Repr

/-- A row that has failed (R180-R182): channel, bank, row, failure count, spare row in use, repaired at boot. -/
structure FailedRow where
  ch    : Nat
  bank  : Nat
  row   : Nat
  count : Nat
  spare : Option Nat
  deriving DecidableEq, Repr

/-- A memory channel (R173-R185). -/
structure Channel where
  failed   : Bool := false
  /-- In retrain: requests are held (R178). -/
  held     : Bool := false
  /-- Requests in the hold queue, and refused transactions kept by each Mover (R179). -/
  hold     : Nat := 0
  refused  : List (Nat × Nat) := []
  nonConv  : Nat := 0
  ceCount  : Nat := 0
  /-- Times of the correctable errors of the last minute (R178). -/
  ceRecent : List Nat := []
  lastTrain : Nat := 0
  /-- Package temperature at the last training; none until the first reading after it. -/
  trainTemp : Option Int := none
  temp     : Int := 0
  fast     : Bool := false
  /-- Next unit the patrol reads (R176). -/
  patrol   : Nat := 0
  /-- Writes queued, and the time of the oldest (R173). -/
  writes   : Nat := 0
  oldest   : Nat := 0
  /-- Distinct rows with uncorrectable failures, with their times (R183). -/
  badRows  : List (Nat × Nat) := []
  deriving DecidableEq, Repr

/-- A pool of the user space (R166). -/
structure Pool where
  die   : Option Nat
  gib   : Nat
  deriving DecidableEq, Repr

/-- The memory controllers and the memory's repair state. -/
structure Lpddr where
  pools    : List Pool := []
  channels : List (Nat × Channel) := []
  rows     : List FailedRow := []
  /-- Retired pages by address of their first byte (R181). -/
  retired  : List Nat := []
  /-- Failed channels in the order in which their stripes moved (R184). -/
  moved    : List Nat := []
  /-- Channels that failed since power-on: every unit they held that is not written since is poison-marked (R184, R431). -/
  lost     : List Nat := []
  /-- Start of the latest retrain (R178). -/
  lastStart : Option Nat := none
  /-- Rows that have failed and are still to be remapped: channel, bank, row (R175, R177). -/
  failing  : List (Nat × Nat × Nat) := []
  /-- Requests that have met a channel in retrain, counted: their order of age (R15, R178). -/
  ages     : Nat := 0
  /-- Peers' requests in the hold queues, each with its age (R178). -/
  peers    : List (Nat × SpokeFlit) := []
  /-- Channels whose contents a margining run has destroyed, with the count of that run (R188). -/
  wiped    : List (Nat × Nat) := []
  /-- Channels that a margining run has written anew, each with the number of `lost` channels before it (R188, R431). -/
  renewed  : List (Nat × Nat) := []
  deriving DecidableEq, Repr

/-! ## Spoke ports (R282-R309) -/

/-- State of a Spoke port (R284). -/
inductive PortState where
  | dark
  | down
  | training
  | up
  | standby
  | miswired
  deriving DecidableEq, Repr

/-- A flit in a port's queues: channel VC0-VC6, the mask of ports it was dealt over (R304), its place in the order of dealing. -/
structure QFlit where
  vc   : Nat
  mask : BitVec 36
  flit : SpokeFlit
  age  : Nat := 0
  deriving DecidableEq, Repr

/-- A Spoke port: link map entry (R297), lanes (R285), queues, sequence numbers and credits (R290-R294). -/
structure Port where
  st       : PortState := .down
  peerMod  : Nat := 0
  peerPort : Nat := 0
  share    : Nat := 10
  /-- Lane now spare, and the failed lane whose place the spare took. -/
  spare    : Nat := 4
  failed   : Option Nat := none
  /-- Flits waiting for the arbiter. -/
  txq      : List QFlit := []
  /-- Flits to be resent before anything else (R292). -/
  resend   : List QFlit := []
  /-- Unacknowledged flits, oldest first. -/
  replay   : List QFlit := []
  txSeq    : BitVec 12 := 0
  rxSeq    : BitVec 12 := 0
  nakSent  : Bool := false
  /-- Flits accepted and not yet taken, oldest first. -/
  rx       : List SpokeFlit := []
  /-- Running totals for VC0-VC7 in classes L then G: slots freed here, slots freed at the peer as last told,
  flits sent. -/
  freed    : List (BitVec 16) := List.replicate 16 0
  peerFreed : List (BitVec 16) := List.replicate 16 0
  used     : List (BitVec 16) := List.replicate 16 0
  /-- Flits accepted since the last acknowledgement, and replays of one SEQ without progress. -/
  unacked  : Nat := 0
  replays  : Nat := 0
  /-- Whether each of the last 100 flit slots carried transit (R291), newest first. -/
  window   : List Bool := []
  rot      : Nat := 0
  /-- Failed training attempts in a row (R284). -/
  fails    : Nat := 0
  /-- In a retrain that keeps the replay buffer (R294), as against a training attempt from DOWN. -/
  retrain  : Bool := false
  /-- Management time of the last flit sent or accepted (R388). -/
  lastFlit : Nat := 0
  /-- Transmit stress run in progress (R308). -/
  stress   : Bool := false
  /-- Pre-FEC BER of each lane, log10 × 100 (R285, R409). -/
  ber      : List (Nat × Int) := []
  deriving DecidableEq, Repr

/-- A forwarding-table entry (R301), with the ports that patches dropped (R306). -/
structure Forward where
  primary  : BitVec 36 := 0
  fallback : BitVec 36 := 0
  dropped  : BitVec 36 := 0
  deriving DecidableEq, Repr

/-- A transaction that this module serves for a peer, or has asked of one (R289). -/
structure Txn where
  xid   : Nat
  peer  : Nat
  job   : Nat
  addr  : Nat
  len   : Nat
  write : Bool
  /-- Bytes of a write received so far, and whether a unit of it was poisoned. -/
  got   : Nat := 0
  bad   : Bool := false
  deriving DecidableEq, Repr

/-- A flit that waits for its flow's flits on dropped ports (R306): the dropped ports, the new mask, key and flit. -/
structure Parked where
  old  : BitVec 36
  mask : BitVec 36
  key  : Nat
  flit : SpokeFlit
  deriving DecidableEq, Repr

/-- The ports of one mask that lead to one next module (R304). -/
structure Bundle where
  mask    : BitVec 36
  peer    : Nat
  /-- Ports that take part since the last restart. -/
  members : BitVec 36
  /-- Rotation by channel: place of the port that sends next. -/
  rot     : List Nat := List.replicate 8 0
  /-- In a re-forming: the flits that wait for its end, in the order in which they will be dealt. -/
  waiting : Option (List QFlit) := none
  deriving DecidableEq, Repr

/-- Module-wide Spoke state. -/
structure Spoke where
  forward : List (Nat × Forward) := []
  /-- Last patch epoch applied to the forwarding table (R306). -/
  epoch   : Option Nat := none
  parked  : List Parked := []
  /-- Destination and time of UNREACHABLE messages received (R307), and of those sent (source, destination, time). -/
  unreach : List (Nat × Nat) := []
  told    : List (Nat × Nat × Nat) := []
  /-- Bundles in use (R304), and the count of flits dealt over them. -/
  bundles : List Bundle := []
  dealt   : Nat := 0
  xid     : Nat := 0
  /-- Write transactions of peers being served. -/
  serving : List Txn := []
  deriving DecidableEq, Repr

/-! ## Tiles (R9, R98-R144) -/

/-- Vector state of the tiles, keyed by tile and index, and the tiles' counters. -/
structure Tiles where
  /-- Lane values by (tile × 32 + register) × 64 + lane (R124). -/
  vregs  : List (Nat × Lane) := []
  /-- Mask registers by tile × 8 + mask (R125). -/
  masks  : List (Nat × BitVec 128) := []
  /-- Instruction store by tile × 256 + entry (R126). -/
  istore : List (Nat × BitVec 64) := []
  /-- Numeric event counters (R116) and completion counters (R41), by tile. -/
  events : List (Nat × Word32) := []
  steps  : List (Nat × Nat) := []
  deriving DecidableEq, Repr

/-! ## Outputs -/

/-- What the module sends out, in order. -/
inductive Out where
  /-- A VC0 probe of a suspected module (R351). -/
  | probe (dst : Nat)
  /-- A flit on a Spoke port. -/
  | flit (port : Nat) (f : SpokeFlit)
  /-- A flit on a die link, from the lower (false) or higher (true) die, with the mask of its lanes; 0 where the spec names none. -/
  | dieFlit (link : Nat) (far : Bool) (lanes : Nat) (f : DieFlit)
  /-- MSI-X vector raised (R69). -/
  | msix (v : Nat)
  /-- A message to a module whose layout the spec leaves to the module, as the command it is there. -/
  | msg (dst : Nat) (i : Instr)
  /-- An MCTP message answered or sent (R411). -/
  | mctp (b : Bytes)
  /-- A PLDM event, completion or reading (R401, R409): kind and values. -/
  | pldm (kind : Nat) (vals : List Int)
  /-- A TAP or pin output: kind and value. -/
  | pin (kind : Nat) (v : Nat)
  deriving DecidableEq, Repr

/-! ## Dies and die links (R8, R39-R41, R310-R323, R346) -/

/-- A die: meters, hold, beacon, regulator. -/
structure Die where
  cad      : Nat := 0
  /-- Completion-counter rate of the last gate with work, kbeat/s, and gates of departure in a row (R41). -/
  rate     : Nat := 0
  departed : Nat := 0
  replaced : Bool := false
  /-- Systolic steps of its tiles' completion counters that the gates have read (R41). -/
  counted  : Nat := 0
  /-- Start of a droop hold (R31). -/
  hold     : Option Nat := none
  beaconFail : Bool := false
  arrived  : Bool := false
  /-- Core voltage in steps of 2.5 mV (R379). -/
  volt     : Nat := 0
  /-- Failed phases, with the spare phase that took each one's place (R346). -/
  phases   : List (Nat × Option Nat) := []
  /-- Phases lost without a spare: each lowers the power share by 1/24. -/
  shareLost : Nat := 0
  deriving DecidableEq, Repr

/-- Width state of one end (R318, R319). -/
inductive WState where
  | normal
  | proposed
  | accepted
  | committed
  deriving DecidableEq, Repr

/-- One end of a die link (R314-R321). -/
structure LinkEnd where
  /-- Own lane mask: the lanes this end can use. -/
  mask     : Nat := 0
  /-- Committed width: epoch and mask (R319); none after a partial reset (R320). -/
  width    : Option (Nat × Nat) := none
  quarter  : Bool := true
  wstate   : WState := .normal
  /-- Epoch and agreed mask of the change in progress, and when it began. -/
  newEpoch : Nat := 0
  agreed   : Nat := 0
  began    : Nat := 0
  /-- Masks to which receiver and transmitter are switched. -/
  rxMask   : Nat := 0
  txMask   : Nat := 0
  /-- Epoch last heard from the peer. -/
  peerEpoch : Nat := 0
  txSeq    : BitVec 10 := 0
  rxSeq    : BitVec 10 := 0
  nakSent  : Bool := false
  /-- Flits waiting for a credit or for the end of a width change, and those not acknowledged (R317). -/
  txq      : List DieFlit := []
  replay   : List DieFlit := []
  resend   : List DieFlit := []
  rx       : List DieFlit := []
  replays  : Nat := 0
  /-- Running totals of classes 0-3: slots freed here, freed at the peer as last told, flits sent (R316, R318). -/
  freed    : List (BitVec 16) := [0, 0, 0, 0]
  peerFreed : List (BitVec 16) := [0, 0, 0, 0]
  used     : List (BitVec 16) := [0, 0, 0, 0]
  /-- Wire map (R321): lane, wire replaced, spare used; of the direction that this end receives, and of the one that it sends, which the far
  end tells. -/
  wires    : List (Nat × Nat × Nat) := []
  txWires  : List (Nat × Nat × Nat) := []
  /-- Substitutions that follow the next commit: lane and wire; lanes on a spare that await their retest (R321). -/
  sub      : List (Nat × Nat) := []
  testing  : List Nat := []
  /-- Mask offered in the PROPOSE or ACCEPT of the change in progress (R319). -/
  offered  : Nat := 0
  /-- Flits accepted since this end last acknowledged, and when an acknowledgement last came, or was first due (R317). -/
  unacked  : Nat := 0
  ackAt    : Nat := 0
  /-- Lane that the next data flit is dealt to, or the first one of the mask above it (R319). -/
  lane     : Nat := 0
  deriving DecidableEq, Repr

/-- A die link with its lower-numbered and higher-numbered end (R8, R403 numbering). -/
structure DieLink where
  near   : LinkEnd := {}
  far    : LinkEnd := {}
  out    : Bool := false
  /-- Failed width changes in a row (R322). -/
  failed : Nat := 0
  deriving DecidableEq, Repr

/-! ## Power (R371-R389) -/

/-- A pedal hold (R384): situation, job, gear active when it began, power floor, start. -/
structure Pedal where
  bit   : Nat
  job   : Nat
  gear  : Nat
  floor : Nat
  since : Nat
  deriving DecidableEq, Repr

/-- The toolchain's gear table (R377) as one number: header, then the gears. -/
def defaultGears : Nat :=
  let gear (i t v s : Nat) : Nat := place (128 + 64 * i) 16 t + place (144 + 64 * i) 10 v + place (160 + 64 * i) 7 s
  place 0 3 0 + place 3 3 0 + place 6 3 1 + place 9 3 2 + place 12 3 3 + place 15 3 4 + place 18 3 5 + place 21 3 6 +
  place 24 4 3 + place 28 4 10 + place 32 7 60 + place 40 3 7 + place 48 16 5000 +
  gear 0 1500 800 100 + gear 1 1500 800 100 + gear 2 1300 750 100 + gear 3 1330 720 100 + gear 4 950 620 100 +
  gear 5 1500 800 100 + gear 6 1500 800 100 + gear 7 1500 800 100

/-- The governor's state. -/
structure Power where
  cap       : Nat := 2000
  capBoot   : Nat := 2000
  standbyEn : Bool := false
  shockMg   : Nat := 2000
  table     : Nat := defaultGears
  bootTable : Nat := defaultGears
  gear      : Nat := 4
  /-- Gears used since the last report, with the achievable cadence (R380). -/
  used      : List (Nat × Nat) := []
  /-- Phase tags of commands started or in flight in the present gate (R378). -/
  tags      : List Nat := []
  /-- Setpoint in kbeat/s (R379). -/
  setpoint  : Nat := 0
  /-- Reductions of the setpoint, in parts per million: budget, cap limit, thermal throttle. -/
  budgetCut : Nat := 0
  capCut    : Nat := 0
  heatCut   : Nat := 0
  throttled : Bool := false
  /-- Cap fast limit: duty at 75 % (R374). -/
  capDuty   : Bool := false
  /-- Duty limit in percent, by budget and by ramp (R379, R383). -/
  budgetDuty : Nat := 100
  rampDuty  : Nat := 100
  /-- Occupancy of the last gate, in 0.01 % (R41). -/
  occ       : Nat := 0
  /-- Power: 1 ms mean and 100 µs mean, in W. -/
  power     : Nat := 0
  power100  : Nat := 0
  /-- The 1 ms means of the last 10 ms, newest first (R384), and the gates since the newest. -/
  hist      : List Nat := []
  histGates : Nat := 0
  pedals    : List Pedal := []
  /-- The gear that was active when the pedal work of a fall of power began (R378, R383). -/
  fade      : Option Nat := none
  /-- A PLDM pedal request stands (R410). -/
  pedalReq  : Bool := false
  /-- Pedal energy of the four job-table entries, in µJ (R384, R409). -/
  energy    : List Nat := [0, 0, 0, 0]
  deriving DecidableEq, Repr

/-! ## Timetable and switching (R329-R341) -/

/-- A window of the timetable (R334). -/
structure Window where
  startUs : Nat
  job     : Nat
  rt      : Bool
  guardUs : Nat
  deriving DecidableEq, Repr

/-- The loaded timetable (R334). -/
structure Timetable where
  frameUs : Nat
  frame0  : Nat
  windows : List Window
  deriving DecidableEq, Repr

/-- A stop of the running job in progress (R332, R336): job, fabric time at which it was asked, window whose stop time it is,
whether at the next command boundary (else at a yield point). -/
structure Stop where
  job    : Nat
  at_    : Nat
  window : Option Nat
  hard   : Bool
  /-- Stopped at a switch instant (R333): the overrun is charged to no window. -/
  instant : Bool := false
  /-- The job that a start instant has run next (R333). -/
  next    : Option Nat := none
  /-- The choice was made at a window's stop time, and stands (R341). -/
  chosen  : Bool := false
  deriving DecidableEq, Repr

/-- A switch in progress, with the phases that wait (R338). -/
structure Switch where
  outgoing : Option Nat
  incoming : Option Nat
  /-- The incoming job's state is in place; the power is being brought to its level (phase 6). -/
  raised   : Bool := false
  /-- Its remote edges await their peers (phase 7). -/
  asked    : Bool := false
  /-- The first exchange of its cadence lock has begun (phase 8). -/
  locking  : Option Nat := none
  deriving DecidableEq, Repr

/-- Scheduling state of the module. -/
structure Sched where
  table   : Option Timetable := none
  /-- The window whose stop time, or frame start, came last (R336). -/
  window  : Nat := 0
  /-- Fabric time of the last aging step (R330). -/
  aged    : Nat := 0
  stop    : Option Stop := none
  switch  : Option Switch := none
  /-- Charges by window, in 10 ns units (R337). -/
  charges : List (Nat × Nat) := []
  /-- Window records: largest O and count of overruns (R337). -/
  records : List (Nat × (Nat × Nat)) := []
  /-- A window whose stop time a charge has moved, and the fabric time up to which it is in force early (R337). -/
  early   : Option (Nat × Nat) := none
  /-- Windows in which a job does not run, its charge having left them too short (R337). -/
  skipped : List Nat := []
  deriving DecidableEq, Repr

/-! ## Tiles as parts (R9, R10, R342-R345) -/

/-- The physical tiles: logical map, failed ones, wear flags, scratch banks. -/
structure Parts where
  /-- Physical tile (die × 72 + row × 8 + column) of each logical tile. -/
  map     : List Nat := []
  failed  : List Nat := []
  /-- Tiles flagged by wear trending (R343), physical. -/
  flagged : List Nat := []
  /-- Scratch banks in use as spares: logical tile, failed bank, spare (R345). -/
  banks   : List (Nat × Nat × Nat) := []
  /-- Hourly samples of each source, newest first, at most 168 (R343). Sources: kind × 65536 + index, kind 0 a wear monitor (die × 32 +
  monitor, in 0.01 %), 1 a lane's pre-FEC BER (port × 8 + lane, in 10^−12), 2 a phase's current-share deviation (die × 32 + phase, in
  0.01 %). -/
  wear    : List (Nat × List Nat) := []
  deriving DecidableEq, Repr

/-! ## Management (R390-R413) -/

/-- An entry of the log that awaits its write to flash (R407). -/
structure LogEntry where
  time   : Nat
  code   : Nat
  engine : Nat
  inst   : Nat
  job    : Nat
  event  : Nat
  detail : Nat
  deriving DecidableEq, Repr

/-- Progress of a firmware update (R401). -/
inductive UpdStage where
  | idle
  | writing
  | written
  | verified
  | applied
  deriving DecidableEq, Repr

/-- A margining run in progress (R424): target, instance, stress, requester. -/
structure Margin where
  target : Nat
  inst   : Nat
  stress : Bool
  deriving DecidableEq, Repr

/-- Fabric time as followed (R412): source and the direct peer followed; measured link delays by port. -/
structure TimeSt where
  source  : Nat := 0
  peer    : Option Nat := none
  taken   : Bool := false
  delays  : List (Nat × Nat) := []
  /-- Rate correction in ppm, −100 to 100. -/
  slew    : Int := 0
  /-- Arrival times of the last message of each peer, to be answered; send times of ours. -/
  arrivals : List (Nat × Nat) := []
  sent    : Nat := 0
  deriving DecidableEq, Repr

/-- The date (R412): value, fabric time at which it was set, management time since which it counts. -/
structure DateSt where
  date  : Nat := 0
  setAt : Option Nat := none
  since : Nat := 0
  held  : Bool := false
  deriving DecidableEq, Repr

/-- The management subsystem. -/
structure Mss where
  /-- Boot flash (R392): listed bytes; an unlisted byte is erased and reads 0xFF. -/
  flash    : List (Nat × Byte) := []
  /-- Log entries and ledger records (kind, body) held in SRAM, oldest first (R404, R407). -/
  logQ     : List LogEntry := []
  ledgerQ  : List (Nat × Bytes) := []
  /-- Next log index, newest ledger SEQ. -/
  logIndex : Nat := 0
  ledgerSeq : Nat := 0
  /-- Ledger bank in use and the offset of its next free byte; the chain's records in force: SEQ, kind, body (R404, R405). -/
  ledBank  : Nat := 0
  ledPos   : Nat := 0
  force    : List (Nat × (Nat × Bytes)) := []
  bootCount : Nat := 0
  restart  : Option Nat := none
  upd      : UpdStage := .idle
  updLen   : Nat := 0
  margin   : Option Margin := none
  time     : TimeSt := {}
  date     : DateSt := {}
  /-- Endpoint ID assigned by the bus owner (R411). -/
  eid      : Nat := 0
  /-- MCTP packets from peers and messages from the mailbox, not yet processed: source module, bytes. -/
  inbox    : List (Nat × Bytes) := []
  /-- Sensor values that the MSS keeps, by sensor ID (R409). -/
  sensors  : List (Nat × Int) := []
  /-- Training cache: half in use, whether one was used at the last boot (R406). -/
  cacheHalf : Nat := 0
  cacheUsed : Bool := false
  retired  : Bool := false
  lastShock : Option Nat := none
  /-- Trip latch: core voltage stays off until every sensor is below 85 °C (R386). -/
  tripped  : Bool := false
  /-- Since the trip, no reading below 85 °C has come (R386). -/
  hot      : Bool := false
  deriving DecidableEq, Repr

/-- TAP instructions (R423). -/
inductive TapIr where
  | idcode
  | bypass
  | sample
  | extest
  | extestPulse
  | extestTrain
  deriving DecidableEq, Repr

/-- Where a takeover stands at its spare (R367). -/
inductive TakeStage where
  | pulling
  /-- The sealed half is here; tensors of the Tandem entries are still pulled. -/
  | tensors
  /-- On the durable path the job is admitted; patches of its route table are awaited (R368). -/
  | routing
  | admitted
  | started
  | checking
  deriving DecidableEq, Repr

/-- A takeover in which this module is the spare (R367). -/
structure TakeSt where
  lead    : Nat
  job     : Nat
  failed  : Nat
  buddy   : Nat
  step    : Nat
  info    : SrcInfo
  stage   : TakeStage := .pulling
  /-- The state block pulled, and the Tandem entries whose tensor is still to come. -/
  block   : Option StateBlockMsg := none
  due     : List Nat := []
  /-- Entries of the route table that the lead is to patch. -/
  keys    : List Nat := []
  deriving DecidableEq, Repr

/-- Module states (R72). -/
inductive MState where
  | off
  | standby
  | boot
  | ready
  | run
  | drain
  | ejectReady
  | fault
  deriving DecidableEq, Repr

/-- Identity and state of the module, its pins and its host ports. -/
structure ModSt where
  st      : MState := .standby
  /-- Variant: PK960-T (R14). -/
  tVar    : Bool := false
  id      : Nat := 0
  /-- Active host port is B (R18, R347). -/
  portB   : Bool := false
  /-- Boot bank 1 was selected at the last boot. -/
  bank    : Bool := false
  version : Nat := 0
  mainOn  : Bool := false
  /-- Input in mV as last reported, position latched from ID[7:0]. -/
  inputMv : Nat := 54000
  idPins  : Nat := 0
  /-- Levels of PWR_EN, and of HOLD_N as last sampled in READY: high (R414, R417). -/
  pwrEn   : Bool := true
  holdN   : Bool := false
  /-- The module is withdrawn (R414). -/
  absent  : Bool := false
  /-- PERST asserted on host ports A and B; the active port's link is up; both host ports have failed (R347, R417). -/
  perstA  : Bool := false
  perstB  : Bool := false
  hostUp  : Bool := false
  hostLost : Bool := false
  /-- The standby host port was brought into use since power-on (R347). -/
  hostSwitched : Bool := false
  /-- The power-on sequence waits in step 10 for PERST to be deasserted, with what the parts answered (R428). -/
  bootWait : Option BootEnv := none
  /-- Off for an overvoltage, until the input is below 61 V (R418). -/
  overvolt : Bool := false
  /-- In DRAIN, and waiting for a recovery in which this module is lead or deputy to end (R428). -/
  drainWait : Bool := false
  /-- Time since which the module has been in DRAIN with no job admitted (R421 step 4). -/
  drainFrom : Option Nat := none
  tap     : TapIr := .idcode
  tapOpen : Bool := false
  /-- An EXTEST instruction was loaded, and the TAP has not been back in Test-Logic-Reset since (R423). -/
  tapTest : Bool := false
  take    : Option TakeSt := none
  deriving DecidableEq, Repr

/-- The module. -/
structure State where
  pending : List Instr := []
  now     : Nat := 0
  fabric  : Nat := 0
  free    : Nat := 0
  out     : List Out := []
  mod     : ModSt := {}
  bar     : Bar0 := {}
  wring   : WorkRing := {}
  mem     : Memory := []
  marks   : List (Nat × Mark) := []
  ctrs    : List (Nat × Word32) := []
  slots   : List (Nat × Slot) := []
  tiles   : Tiles := {}
  parts   : Parts := {}
  jobs    : List Job := []
  running : Option Nat := none
  sched   : Sched := {}
  /-- Engines that serve their queues in turn (R50): by engine code × 256 + instance, the queue whose turn is next. -/
  turns   : List (Nat × Nat) := []
  /-- Offers of Locket copies that wait for this module to bind as their host (R355). -/
  offers  : List OfferMsg := []
  /-- Opening notices for a job that this module has not admitted (R245). -/
  notices : List OpenMsg := []
  lp      : Lpddr := {}
  ports   : List Port := List.replicate 36 {}
  spoke   : Spoke := {}
  dies    : List Die := List.replicate 4 {}
  links   : List DieLink := List.replicate 6 {}
  pwr     : Power := {}
  mss     : Mss := {}
  deriving DecidableEq, Repr

/-- Why a step could stop with a fault. The spec gives every command of the table an effect, and an event whose
condition does not hold cannot come; so no command of this model raises this, and its presence is safe. -/
inductive Fault where
  /-- Raised by no command: the hardware has no stuck state (R57, R65). Safe. -/
  | stuck
  deriving DecidableEq, Repr

/-- Why a command could be refused. -/
inductive Refusal where
  /-- A row whose meaning is not written yet, by its mnemonic. Safe: nothing can be proved of it. -/
  | notModelled (mnemonic : String)
  deriving DecidableEq, Repr

/-- The module right after reset: in STANDBY (R414), everything else as the fields' reset values say. -/
def State.reset : State := {}

end Sys2Proof.Machine
end

