-- ==== Sys2Proof/Machine/Ops.lean ====
section
/-! DEFINITION. The named operations over the module's state that every family of commands uses: error codes (R73), free
values, interrupt causes (R69), log and ledger, addresses (R11, R19, R166), memory with its marks (R164, R165),
counters (R52, R53), jobs and queues. -/
namespace Sys2Proof.Machine

/-! ## Error codes (R73) -/

def eFormat : Nat := 0x1002
def eField : Nat := 0x1001
def eAlign : Nat := 0x1003
def eAddress : Nat := 0x1004
def eState : Nat := 0x2001
def ePending : Nat := 0x2002
def eModule : Nat := 0x2011
def eJob : Nat := 0x2021
def eEpoch : Nat := 0x2031
def eVersion : Nat := 0x2041
def eEdge : Nat := 0x2051
def eMemory : Nat := 0x3001
def ePark : Nat := 0x3011
def eCredit : Nat := 0x3021
def eTag : Nat := 0x3031
def eSpare : Nat := 0x3041
def eOverflow : Nat := 0x4001
def eInvalid : Nat := 0x4002
def eStepSkip : Nat := 0x4011
def ePoison : Nat := 0x5001
def eTandem : Nat := 0x5011
def eLinkDown : Nat := 0x6001
def eLane : Nat := 0x6011
def eUncorr : Nat := 0x7001
def eRetire : Nat := 0x7011
def eChannel : Nat := 0x7021
def eCap : Nat := 0x8001
def eThrottle : Nat := 0x8011
def eHold : Nat := 0x8021
def eProtect : Nat := 0x9001
def eSignature : Nat := 0x9011
def eShard : Nat := 0xA001
def eOverrun : Nat := 0xA011
def eStraggler : Nat := 0xA021
def eFault : Nat := 0xF001

/-- A die in a droop hold starts no handshake (R31). -/
def dieHeld (s : State) (d : Nat) : Bool := s.mss.tripped || (s.dies[d]?).any (fun x => x.hold.isSome)

/-- The die of the active host port (R18). -/
def hostDie (s : State) : Nat := if s.mod.portB then 2 else 0

/-- Some die is in a droop hold. -/
def anyHeld (s : State) : Bool := s.dies.any (fun x => x.hold.isSome)

namespace State

/-! ## Free values -/

/-- A value the spec leaves open, and the state with its count advanced. -/
def draw (s : State) : Nat × State := (Config.freeNat s.free, { s with free := s.free + 1 })

/-- `n` undefined bytes. -/
def drawBytes (s : State) (n : Nat) : Bytes × State :=
  ((List.range n).map (fun i => Config.freeByte (s.free + i)), { s with free := s.free + n })

/-! ## Interrupts, errors, log -/

/-- An interrupt cause set (R69). -/
def irq (s : State) (n : Nat) : State :=
  { s with bar := { s.bar with irqStatus := s.bar.irqStatus ||| (1#8 <<< n) } }

/-- LAST_ERROR overwritten (R71). -/
def lastError (s : State) (code engine inst job : Nat) : State :=
  { s with bar := { s.bar with lastError := ⟨code, engine, inst, job⟩ } }

/-- The class count of a status advanced, saturating; class 0x0 is not counted (R71). -/
def countClass (s : State) (code : Nat) : State :=
  let c := code / 4096
  if c = 0 then s
  else { s with bar := { s.bar with counts := s.bar.counts.set c (satAdd 32 (s.bar.counts.getD c 0) 1) } }

/-- A log entry placed in SRAM for its write to flash (R407). -/
def logAt (s : State) (code engine inst job event detail : Nat) : State :=
  { s with mss := { s.mss with logQ := s.mss.logQ ++ [⟨s.now, code, engine, inst, job, event, detail⟩] } }

/-- A log entry of an error code. -/
def log (s : State) (code engine inst job : Nat) (detail : Nat := 0) : State :=
  s.logAt code engine inst job 0 detail

/-- A ledger record placed for its append (R403, R404). -/
def ledger (s : State) (kind : Nat) (body : Bytes) : State :=
  { s with mss := { s.mss with ledgerQ := s.mss.ledgerQ ++ [(kind, body)] } }

def emit (s : State) (o : Out) : State := { s with out := s.out ++ [o] }

/-! ## Addresses -/

def scratchBase : Nat := 0xF00000000000
def accBase : Nat := 0xF10000000000
def hostBase : Nat := 0xF80000000000

/-- Scratch window of a tile (R11). -/
def scratchAddr (tile off : Nat) : Nat := scratchBase + tile * 0x400000 + off

/-- Accumulator word of a tile (R11, R99). -/
def accAddr (tile row bank : Nat) : Nat := accBase + tile * 0x40000 + row * 0x100 + bank * 4

/-- End of the user space: the sum of the pool sizes (R166). -/
def userEnd (s : State) : Nat := (s.lp.pools.map (fun p => p.gib * 2 ^ 30)).sum

def inUser (s : State) (a n : Nat) : Bool := decide (a + n ≤ s.userEnd)
def inScratch (a n : Nat) : Bool := inside a n scratchBase 0x40000000
def inAcc (a n : Nat) : Bool := inside a n accBase 0x4000000
def inHost (a n : Nat) : Bool := inside a n hostBase 0x80000000000

/-- A range of a tile's window, or of the host window, lies behind a die that holds (R31, R32). -/
def windowHeld (s : State) (a n : Nat) : Bool :=
  anyHeld s &&
  ((inScratch a n && decide (0 < n) && (rangeFrom ((a - scratchBase) / 0x400000) ((a + n - 1 - scratchBase) / 0x400000 - (a - scratchBase) / 0x400000 + 1)).any
      (fun t => dieHeld s (t / 64))) ||
    (inAcc a n && dieHeld s ((a - accBase) / 0x40000 / 64)) || (inHost a n && dieHeld s (hostDie s)))

/-- A range wholly within one region of the address map (R19, R166). -/
def mapped (s : State) (a n : Nat) : Bool := s.inUser a n || inScratch a n || inAcc a n || inHost a n

/-- The host window cannot be reached (R347, R417). -/
def hostDown (s : State) : Bool := !s.mod.hostUp || s.mod.hostLost

/-- A range wholly within the user space or the host window. -/
def inStore (s : State) (a n : Nat) : Bool := s.inUser a n || inHost a n

/-- The pool that holds a user address, its start address and its place in the table. -/
def poolOf : List Pool → Nat → Nat → Nat → Option (Pool × Nat × Nat)
  | [], _, _, _ => none
  | p :: ps, start, i, a =>
    if a < start + p.gib * 2 ^ 30 then some (p, start, i) else poolOf ps (start + p.gib * 2 ^ 30) (i + 1) a

/-- XOR of the w-bit chunks of a number, `n` chunks from bit 0 (R167). -/
def foldXor (w : Nat) : Nat → Nat → Nat
  | 0, _ => 0
  | n + 1, x => (x % 2 ^ w) ^^^ foldXor w n (x >>> w)

/-- log₂ of the channels a pool spans (R167). -/
def poolW (tVar : Bool) (p : Pool) : Nat :=
  (if p.die.isNone then 7 else 5) - (if tVar then 1 else 0)

/-- Physical channel of pool channel index k (R167 step 4). -/
def poolChannel (tVar : Bool) (p : Pool) (k : Nat) : Nat :=
  match p.die with
  | some d => 32 * d + k
  | none => if tVar then 32 * (k / 16) + k % 16 else k

/-- Channel, bank and row of a user address (R167). -/
def locate (s : State) (a : Nat) : Option (Nat × Nat × Nat) :=
  match poolOf s.lp.pools 0 0 a with
  | none => none
  | some (p, start, i) =>
    let st := (a - start) >>> 11
    let w := poolW s.mod.tVar p
    let ch := poolChannel s.mod.tVar p ((st % 2 ^ w) ^^^ foldXor w 64 (st >>> w))
    let earlier := (s.lp.pools.take i).filter (fun q => q.die.isNone || q.die == some (ch / 32))
    let b := (earlier.map (fun q => q.gib * 2 ^ 19 / 2 ^ poolW s.mod.tVar q)).sum
    let n := b + (st >>> w)
    some (ch, (n % 16) ^^^ foldXor 4 64 (n >>> 4), n >>> 4)

/-! ## Memory with marks -/

/-- The 64-byte units that a range touches. -/
def unitsOf (a n : Nat) : List Nat := if n = 0 then [] else rangeFrom (a / 64) ((a + n - 1) / 64 - a / 64 + 1)

/-- The channels of the variant (R14). -/
def channelIds (s : State) : List Nat := (List.range 128).filter (fun c => !s.mod.tVar || decide (c % 32 < 16))

/-- Stripes of a channel: user data, the row-spare region above them, and the stripe-spare region above that (R162). -/
def userStripes : Nat := 12189696
def spareRowsAt : Nat := userStripes
def spareStripesAt : Nat := userStripes + 16384

/-- Stripes of a channel's stripe-spare region that one failed channel's stripes may take. DESIGN CHOICE (log 150): the spec gives the
region's size (R162) and no layout. -/
def spareSlice (tVar : Bool) : Nat := if tVar then 376832 else 125610

/-- Row of a channel-local stripe, and its bank (R167 step 6). -/
def stripeRow (n : Nat) : Nat × Nat := ((n % 16) ^^^ foldXor 4 64 (n / 16), n / 16)
def rowStripe (bank row : Nat) : Nat := row * 16 + (bank ^^^ foldXor 4 64 row)

/-- The places, channel and channel-local stripe, on which stripe `n` of channel `c` has lain: its own, then, each time the channel that held
it failed, one of the channels that remained, stripe by stripe in channel order (R184). `gone` are the channels that failed before, `fs`
those after, `slice` the stripes that a failed channel may take on each of the others. -/
def trailFrom (ids : List Nat) (slice : Nat) : List Nat → List Nat → Nat → Nat → List (Nat × Nat)
  | _, [], c, n => [(c, n)]
  | gone, f :: fs, c, n =>
    if f = c then
      let left := ids.filter (fun i => !(f :: gone).contains i)
      (c, n) :: trailFrom ids slice (f :: gone) fs (left.getD (n % left.length) 0) (spareStripesAt + slice * gone.length + n / left.length)
    else trailFrom ids slice (f :: gone) fs c n

/-- Places on which a unit has lain, in order. -/
def trailOf (s : State) (u : Nat) : List (Nat × Nat) :=
  match s.locate (u * 64) with
  | some (c, b, r) =>
    if s.lp.moved.isEmpty then [(c, rowStripe b r)] else trailFrom s.channelIds (spareSlice s.mod.tVar) [] s.lp.moved c (rowStripe b r)
  | none => []

/-- Channels on which a unit has lain, in order. -/
def hostsOf (s : State) (u : Nat) : List Nat := (s.trailOf u).map (·.1)

/-- The channel on which a unit lies now. -/
def channelNow (s : State) (u : Nat) : Option Nat := (s.hostsOf u).getLast?

/-- Channel, bank and row of the place where a user address lies now. -/
def locateNow (s : State) (a : Nat) : Option (Nat × Nat × Nat) := ((s.trailOf (a / 64)).getLast?).map (fun p => (p.1, stripeRow p.2))

/-- Offset of a user address within its pool (R181, R408). -/
def poolOffset (s : State) (a : Nat) : Nat := ((poolOf s.lp.pools 0 0 a).map (fun p => a - p.2.1)).getD a

/-! ## Channels -/

def chan? (s : State) (c : Nat) : Option Channel := (s.lp.channels.find? (fun x => x.1 == c)).map (·.2)

def updChan (s : State) (c : Nat) (f : Channel → Channel) : State :=
  { s with lp := { s.lp with channels := s.lp.channels.map (fun x => if x.1 == c then (x.1, f x.2) else x) } }

/-- A correctable error on a channel, corrected and counted (R163, R175); those of the last minute are kept with their times (R178). -/
def countCe (s : State) (c : Nat) : State :=
  s.updChan c (fun x => { x with
    ceCount := x.ceCount + 1, ceRecent := x.ceRecent.filter (fun t => decide (s.now < t + 6000000000)) ++ [s.now] })

/-- Units of a range that lie on a channel. -/
def chanUnits (s : State) (c a n : Nat) : Nat :=
  if s.inUser a n then countIf (fun u => s.channelNow u == some c) (unitsOf a n) else 0

/-- Writes join the write queues of their channels (R173). -/
def queueWrites (s : State) (ws : List (Nat × Nat)) : State :=
  { s with lp := { s.lp with channels := s.lp.channels.map (fun (c : Nat × Channel) =>
      let w := (ws.map (fun x => s.chanUnits c.1 x.1 x.2)).sum
      if w = 0 then c
      else (c.1, { c.2 with writes := c.2.writes + w, oldest := if c.2.writes = 0 then s.now else c.2.oldest })) } }

/-- A unit's data were lost with a channel that failed since power-on, and since a margining run last wrote its channel anew (R184, R188). -/
def inLost (s : State) (u : Nat) : Bool :=
  let hs := s.hostsOf u
  let k := ((s.lp.renewed.filter (fun x => hs.contains x.1)).map (·.2)).foldl max 0
  hs.any (s.lp.lost.drop k).contains

/-- The run that destroyed a unit's contents, if no whole unit was written there since (R188). -/
def wipedBy (s : State) (u : Nat) : Option Nat :=
  if s.lp.wiped.isEmpty || s.marks.any (fun m => m.1 == u) then none
  else (s.lp.wiped.find? (fun w => (s.hostsOf u).contains w.1)).map (·.2)

/-- Bytes as a read finds them: those listed, and free values where a margining run has destroyed them. -/
def read (s : State) (a n : Nat) : Bytes :=
  if s.lp.wiped.isEmpty then s.mem.read a n
  else (List.range n).map (fun i =>
    match s.wipedBy ((a + i) / 64) with
    | some k => Config.wipedByte k (a + i)
    | none => s.mem.byte (a + i))

def num (s : State) (a n : Nat) : Nat := if s.lp.wiped.isEmpty then s.mem.num a n else ofLe (s.read a n)

/-- Memory as a read of [a, a+n) finds it. -/
def sight (s : State) (a n : Nat) : Memory := if s.lp.wiped.isEmpty then s.mem else s.mem.write a (s.read a n)

/-- Standing of a unit: as listed, else poison-marked if its channel has failed, else clean (R165, R184). -/
def markOf (s : State) (u : Nat) : Mark :=
  match s.marks.find? (fun m => m.1 == u) with
  | some m => m.2
  | none => if !s.lp.lost.isEmpty && s.inLost u then .poison else .clean

/-- Units in [a, a+n) whose mark is one of those that `p` names. -/
def unitsThat (s : State) (p : Mark → Bool) (a n : Nat) : List (Nat × Mark) :=
  if s.lp.lost.isEmpty then s.marks.filter (fun m => overlaps (m.1 * 64) 64 a n && p m.2)
  else ((unitsOf a n).map (fun u => (u, s.markOf u))).filter (fun m => p m.2)

/-- Units in [a, a+n) that a read cannot deliver: uncorrectable or poisoned. -/
def badUnits (s : State) (a n : Nat) : List (Nat × Mark) := s.unitsThat (fun m => decide (m = .poison ∨ m = .uncorr)) a n

/-- Units in [a, a+n) that are not clean. -/
def markedUnits (s : State) (a n : Nat) : List (Nat × Mark) := s.unitsThat (fun m => decide (m ≠ .clean)) a n

/-- Units of a source that come bad, where it is read: those of module memory that are not clean, and those of the host window whose PCIe
completion comes poisoned (R204), which ones a free value. -/
def arrivals (s : State) (a n : Nat) : List (Nat × Mark) × State :=
  let bad := s.badUnits a n
  if inHost a n && decide (0 < n) then
    let us := unitsOf a n
    let hit := ((List.range us.length).zip us).filter (fun p => Config.freeNat (s.free + p.1) % 2 == 1 && !bad.any (fun m => m.1 == p.2))
    (bad ++ hit.map (fun p => (p.2, Mark.poison)), { s with free := s.free + us.length })
  else (bad, s)

/-- A mark recorded for a unit; a clean unit is listed only where its channel has failed or its contents were destroyed. -/
def setMark (s : State) (u : Nat) (m : Mark) : State :=
  { s with marks := s.marks.filter (fun x => decide (x.1 < u)) ++
      (if m = .clean && !s.inLost u && (s.wipedBy u).isNone then [] else [(u, m)]) ++ s.marks.filter (fun x => decide (u < x.1)) }

/-- Units that a write covers whole are no longer those that a margining run destroyed. A unit written in part stays undefined. -/
def unwipe (s : State) (a n : Nat) : State :=
  if s.lp.wiped.isEmpty then s
  else (unitsOf a n).foldl (fun s u => if inside (u * 64) 64 a n && (s.wipedBy u).isSome then s.setMark u .clean else s) s

/-- Marks after a write of [a, a+n): a full-unit write clears, a partial one leaves the poison mark (R164, R165). -/
def marksAfter (s : State) (a n : Nat) : State :=
  ((s.markedUnits a n).foldl (fun s m =>
    s.setMark m.1 (if inside (m.1 * 64) 64 a n || decide (m.2 = .soft ∨ m.2 = .hard) then .clean else .poison)) s).unwipe a n

/-- Bytes written to any address of the map. -/
def write (s : State) (a : Nat) (bs : Bytes) : State :=
  { (s.marksAfter a bs.length) with mem := s.mem.write a bs }

def writes (s : State) (ws : List (Nat × Bytes)) : State :=
  ws.foldl (fun s w => s.write w.1 w.2) s

/-- Poison marks set on units. -/
def poisonUnits (s : State) (us : List Nat) : State :=
  us.foldl (fun s u => s.setMark u .poison) s

/-- DETAIL of a memory error (R408). -/
def memDetail (s : State) (a : Nat) : Nat :=
  match s.locateNow a with
  | some (c, b, r) => Machine.place 0 7 c + Machine.place 8 4 b + Machine.place 12 20 r + Machine.place 48 48 (s.poolOffset a)
  | none => 0

/-- Physical channel of an address as R171 reports it: the one on which its unit lies now. -/
def faultChannel (s : State) (a : Nat) : Nat := (s.channelNow (a / 64)).getD 0xFF

/-- The row of a user address has failed (R175), and its remap is due. -/
def rowDue (s : State) (a : Nat) : State :=
  match s.locateNow a with
  | some x => if s.lp.failing.contains x then s else { s with lp := { s.lp with failing := s.lp.failing ++ [x] } }
  | none => s

/-- A job's read meets the units listed: each uncorrectable one is logged and then poison-marked, and its row has failed (R175, R177). -/
def meetBad (s : State) (job : Nat) (us : List (Nat × Mark)) : State :=
  us.foldl (fun s u =>
    if u.2 = Mark.uncorr then
      (((s.log eUncorr 7 (s.faultChannel (u.1 * 64)) job (s.memDetail (u.1 * 64)))).poisonUnits [u.1]).rowDue (u.1 * 64)
    else s) s

/-- A read of [a, a+n) corrects the units with one symbol in error (R163): each is counted on its channel and written back; one that is still
in error then fails its row, and stays so until the row's copy (R175). -/
def correct (s : State) (a n : Nat) : State :=
  (s.unitsThat (fun m => decide (m = .soft ∨ m = .hard)) a n).foldl (fun s u =>
    let t := s.countCe (s.faultChannel (u.1 * 64))
    if u.2 = Mark.soft then t.setMark u.1 .clean else t.rowDue (u.1 * 64)) s

/-- A read of module memory by the module for a job: errors of one symbol corrected, bad units met (R163, R175, R177). -/
def meet (s : State) (job a n : Nat) : State := (s.correct a n).meetBad job (s.badUnits a n)

/-- Bytes of a range as the module reads them for a job: bad units met, their bytes undefined (R177). -/
def fetch (s : State) (job a n : Nat) : Bytes × State :=
  (s.badUnits a n).foldl (fun (p : Bytes × State) u =>
    let lo := max a (u.1 * 64) - a
    let hi := min (a + n) (u.1 * 64 + 64) - a
    let (bs, s) := p.2.drawBytes (hi - lo)
    (p.1.take lo ++ bs ++ p.1.drop hi, s)) (s.read a n, s.meet job a n)

/-- The bytes of ranges, address and length, one behind the other. -/
def fetchAll (s : State) (job : Nat) (rs : List (Nat × Nat)) : Bytes × State :=
  rs.foldl (fun (p : Bytes × State) r => let q := p.2.fetch job r.1 r.2; (p.1 ++ q.1, q.2)) ([], s)

/-- A record or a copy that an engine stores: the bytes reach memory, and the writes their channels' queues (R173). -/
def store (s : State) (a : Nat) (bs : Bytes) : State := (s.write a bs).queueWrites [(a, bs.length)]

/-- A range lies in part on a channel in retrain (R178). -/
def inRetrain (s : State) (a n : Nat) : Bool :=
  s.lp.channels.any (fun c => c.2.held) &&
  (unitsOf a n).any (fun u => (s.channelNow u).any (fun p => s.lp.channels.any (fun c => c.1 == p && c.2.held)))

/-- A range lies in part at a channel, tile or host port whose die holds (R31, R32). -/
def stalledRange (s : State) (a n : Nat) : Bool :=
  s.windowHeld a n || anyHeld s && (unitsOf a n).any (fun u => (s.channelNow u).any (fun p => dieHeld s (p / 32)))

/-- Requests to the range wait: at a channel in retrain, or at a channel, tile or host port whose die holds. -/
def heldRange (s : State) (a n : Nat) : Bool := s.stalledRange a n || s.inRetrain a n

/-! ## Counters (R52, R53) -/

def ctr (s : State) (n : Nat) : Word32 := sget 0 s.ctrs n
def setCtr (s : State) (n : Nat) (v : Word32) : State := { s with ctrs := sput 0 s.ctrs n v }
def addCtr (s : State) (n k : Nat) : State := s.setCtr n (s.ctr n + BitVec.ofNat 32 k)

end State

/-- Serial comparison of R53: counter ≥ value. -/
def ctrGe (c v : Word32) : Bool := decide ((c - v).toNat < 2 ^ 31)

/-- Serial comparison of two numbers of w bits: a is newer than b. -/
def newer (w a b : Nat) : Bool :=
  let d := (a + 2 ^ w - b % 2 ^ w) % 2 ^ w
  d != 0 && decide (d < 2 ^ (w - 1))

namespace State

/-! ## Jobs and queues -/

def job? (s : State) (id : Nat) : Option Job := s.jobs.find? (fun j => j.id == id)

/-- Keys of the job-table entries with a JOB_ID: that of the admitted job is the JOB_ID itself; a job whose end is in progress while
its JOB_ID is admitted anew keeps a key above 2^16 (R327, log 32). -/
def keys (s : State) (id : Nat) : List Nat := (s.jobs.filter (fun j => j.id % 2 ^ 16 == id)).map (·.id)

/-- The job that runs on the module, if one does. -/
def runJob (s : State) : Option Job := s.running.bind s.job?

def updJob (s : State) (id : Nat) (f : Job → Job) : State :=
  { s with jobs := s.jobs.map (fun j => if j.id == id then f j else j) }

end State

/-- A job that still counts as admitted (R328). -/
def Job.admitted (j : Job) : Bool := decide (j.st ≠ JobState.draining)

def Job.queue? (j : Job) (r : QRef) : Option Queue := j.queues.find? (fun q => q.ref == r)

def Job.setQueue (j : Job) (q : Queue) : Job :=
  { j with queues := j.queues.map (fun p => if p.ref == q.ref then q else p) }

def Job.ownsCtr (j : Job) (n : Nat) : Bool := decide (j.ctrBase ≤ n) && decide (n < j.ctrBase + j.ctrCount)

def Job.ownsSlot (j : Job) (n : Nat) : Bool :=
  decide (j.numerics.slotBase ≤ n) && decide (n < j.numerics.slotBase + j.numerics.slotCount)

/-- The 2 MiB pages of a range all lie in the extents (R171, R326): walk the range extent by extent. -/
def extentCover (ext : List (Nat × Nat)) : Nat → Nat → Nat → Bool
  | 0, _, n => n == 0
  | k + 1, a, n =>
    if n = 0 then true
    else match ext.find? (fun e => decide (e.1 ≤ a) && decide (a < e.1 + e.2 * 0x200000)) with
      | none => false
      | some e =>
        let room := e.1 + e.2 * 0x200000 - a
        if n ≤ room then true else extentCover ext k (a + room) (n - room)

/-- Every byte of a range of user memory lies in the job's extents; windows and host memory are the running job's. -/
def Job.owns (j : Job) (a n : Nat) : Bool :=
  decide (State.scratchBase ≤ a) || extentCover j.extents (j.extents.length + 1) a n

/-- A module ID as the job's alias table has it (R364). -/
def Job.alias? (j : Job) (m : Nat) : Nat := ((j.aliases.find? (fun p => p.1 == m)).map (·.2)).getD m

/-- The entry of the job's route table for a class and destination (R299). -/
def Job.route (j : Job) (cls dst : Nat) : Option Route := j.routes.find? (fun r => r.key == cls * 256 + dst)

/-- A module of the job: its class-P entry is not 0 (R217). -/
def Job.hasModule (j : Job) (m : Nat) : Bool := (j.route 0 m).any (fun r => r.ports != 0)

namespace State

def slot (s : State) (n : Nat) : Slot := sget {} s.slots n
def setSlot (s : State) (n : Nat) (v : Slot) : State := { s with slots := sput {} s.slots n v }

/-- An amax merged into a slot's pending amax (R149 step 2). -/
def mergeAmax (s : State) (n code : Nat) : State :=
  let v := s.slot n
  s.setSlot n { v with pending := BitVec.ofNat 32 (max v.pending.toNat code) }

end State

/-- Codes of R72. -/
def MState.code (m : MState) : Nat :=
  match m with
  | .off => 0
  | .standby => 1
  | .boot => 2
  | .ready => 3
  | .run => 4
  | .drain => 5
  | .ejectReady => 6
  | .fault => 7

/-- The states in which the MSS holds every TAP in BYPASS; READY has its own rule (R423). -/
def tapRests (m : MState) : Bool := decide (m = .boot) || decide (m = .run) || decide (m = .drain)

/-- The module enters a state: a change is logged (R408) and sets its causes (R69 bits 4 and 7). -/
def State.enter (s : State) (m : MState) : State :=
  if s.mod.st = m then s
  else
    let t := (s.logAt 0 7 0 0 1 (s.mod.st.code + 16 * m.code)).irq 4
    let t := { t with mod := { t.mod with st := m, tap := if tapRests m then .bypass else t.mod.tap } }
    if m = MState.fault then t.irq 7 else t

/-- Vectors raised between two values of the registers (R69). -/
def msixRaised (st₀ mk₀ st₁ mk₁ : BitVec 8) : List Out :=
  ((List.range 8).filter (fun n =>
    (st₁ &&& ~~~mk₁).getLsbD n && !(st₀ &&& ~~~mk₀).getLsbD n)).map Out.msix

/-- What ends every command: the queue of commands is as it was, and each cause that becomes set and unmasked raises its MSI-X
vector (R69). -/
def settle (a b : State) : State :=
  { b with
    pending := a.pending
    out := b.out ++ msixRaised a.bar.irqStatus a.bar.irqMask b.bar.irqStatus b.bar.irqMask }

/-- A command's outcome: its effect, settled. -/
def done (a b : State) : Host.Outcome State Fault Refusal := .next (settle a b)

end Sys2Proof.Machine
end

