-- ==== Sys2Proof/Machine/Fabric.lean ====
section
/-! DEFINITION. Sending over the Spoke ports: flits (R286-R289), bundles and flows (R303, R304), the output arbiter with its
credits (R290, R291), retry (R292), control flits (R293), reachability (R307). -/
namespace Sys2Proof.Machine

/-! ## Fields of a flit (R286) -/

def fSeq (f : SpokeFlit) : Nat := bits f.toNat 32 12
def fLvc (f : SpokeFlit) : Nat := bits f.toNat 44 4
def fDst (f : SpokeFlit) : Nat := bits f.toNat 48 8
def fSrc (f : SpokeFlit) : Nat := bits f.toNat 56 8
def fCls (f : SpokeFlit) : Nat := bits f.toNat 64 64
def fPay (f : SpokeFlit) : Nat := bits f.toNat 128 2048

/-- CRC-32C (R288), polynomial 0x1EDC6F41 in its reflected form. -/
def crc32c (bs : Bytes) : Nat := crcReflected 0x82F63B78 bs

/-- CRC of a flit over its bytes 4-271 (R288). -/
def flitCrc (f : Nat) : Nat := crc32c (leBytes 268 (f >>> 32))

/-- A flit without CRC and SEQ. -/
def mkFlit (lvc dst src cls pay : Nat) : SpokeFlit :=
  BitVec.ofNat 2176 (place 44 4 lvc + place 48 8 dst + place 56 8 src + place 64 64 cls + place 128 2048 pay)

/-- A flit given its sequence number and CRC. -/
def sealFlit (f : SpokeFlit) (seq : Nat) : SpokeFlit :=
  let x := setBits (setBits f.toNat 32 12 seq) 0 32 0
  BitVec.ofNat 2176 (x + flitCrc x)

/-- The LVC code is listed (R287). -/
def lvcListed (l : Nat) : Bool := decide (l ≤ 5) || (decide (9 ≤ l) && decide (l ≤ 13)) || l == 15

/-- Link channel of an LVC: VC6 for transit. -/
def lvcChannel (l : Nat) : Nat := if 9 ≤ l then 6 else l

/-- Channel on which a flit is delivered: its original one. -/
def lvcOrigin (l : Nat) : Nat := if 9 ≤ l then l - 8 else l

def flitGood (f : SpokeFlit) : Bool := bits f.toNat 0 32 == flitCrc f.toNat && lvcListed (fLvc f)

/-! ## Ports -/

/-- The die that carries a Spoke port (R16). -/
def portDie (p : Nat) : Nat := p / 9

def globalPort (p : Nat) : Bool := [8, 16, 17, 26, 34, 35].contains p

/-- Class of a flit at a module: 0 in its source's group, 1 elsewhere (R290). -/
def flitClass (f : SpokeFlit) (m : Nat) : Nat := if fSrc f / 16 = m / 16 then 0 else 1

/-- Receive slots of a channel, and those of class G only (R290). -/
def vcSlots (c : Nat) : Nat :=
  match c with
  | 0 => 32
  | 1 => 192
  | 2 => 192
  | 3 => 160
  | 4 => 160
  | 5 => 128
  | 6 => 160
  | _ => 0

/-- Slots in use at the peer in a channel and class, as this end knows them. -/
def inUse (p : Port) (c cls : Nat) : Nat :=
  (p.used.getD (cls * 8 + c) 0 - p.peerFreed.getD (cls * 8 + c) 0).toNat

/-- A credit for a flit of the class: a class-L flit leaves the class-G-only slots free (R290). -/
def hasCredit (p : Port) (c cls : Nat) : Bool :=
  decide (inUse p c 0 + inUse p c 1 < vcSlots c) &&
  (cls == 1 || decide (inUse p c 0 + 16 < vcSlots c))

/-- Share of VC6 in the last 100 slots is below TRANSIT_SHARE (R291). -/
def underShare (p : Port) : Bool := decide (countIf id p.window < p.share)

/-- Index in `txq` of the oldest flit of a channel that has a credit. -/
def nextOf (p : Port) (c : Nat) : Option Nat :=
  match p.txq.findIdx? (fun x => x.vc == c) with
  | none => none
  | some i => if (p.txq[i]?).any (fun x => hasCredit p c (flitClass x.flit p.peerMod)) then some i else none

/-- VC1 to VC5 in rotation from the channel after the last one served. -/
def rotated (p : Port) : List Nat := (List.range 5).map (fun i => (p.rot + i) % 5 + 1)

/-- Which flit the arbiter serves next, behind control flits and replays (R291). -/
def arbiter (p : Port) : Option Nat :=
  match nextOf p 0 with
  | some i => some i
  | none =>
    match (if underShare p then nextOf p 6 else none) with
    | some i => some i
    | none =>
      match (rotated p).findSome? (nextOf p) with
      | some i => some i
      | none => nextOf p 6

namespace State

def port (s : State) (n : Nat) : Port := s.ports.getD n {}
def setPort (s : State) (n : Nat) (p : Port) : State := { s with ports := s.ports.set n p }
def updPort (s : State) (n : Nat) (f : Port → Port) : State := s.setPort n (f (s.port n))

/-- The port sends a new flit: SEQ, CRC, replay copy, credit and share accounts (R290-R292). -/
def sendIdx (s : State) (n i : Nat) : State :=
  let p := s.port n
  match p.txq[i]? with
  | none => s
  | some q =>
    let c := q.vc
    let g := sealFlit q.flit p.txSeq.toNat
    let k := flitClass q.flit p.peerMod * 8 + c
    let p := { p with
      txq := p.txq.eraseIdx i
      replay := p.replay ++ [{ q with flit := g }]
      txSeq := p.txSeq + 1
      used := p.used.set k (p.used.getD k 0 + 1)
      window := (decide (c = 6) :: p.window).take 100
      rot := if 1 ≤ c ∧ c ≤ 5 then c % 5 else p.rot
      lastFlit := s.now }
    (s.setPort n p).emit (.flit n g)

/-- Replays go out before new flits (R291). -/
def pumpResend (s : State) (n : Nat) : Nat → State
  | 0 => s
  | k + 1 =>
    let p := s.port n
    match p.resend with
    | [] => s
    | f :: t => pumpResend ((s.setPort n { p with resend := t, lastFlit := s.now }).emit (.flit n f.flit)) n k

def pumpNew (s : State) (n : Nat) : Nat → State
  | 0 => s
  | k + 1 =>
    let p := s.port n
    if 512 ≤ p.replay.length then s
    else match arbiter p with
      | none => s
      | some i => pumpNew (s.sendIdx n i) n k

/-- A port that is UP sends what its arbiter allows; not while its die holds (R31, R32). -/
def pump (s : State) (n : Nat) : State :=
  let p := s.port n
  if p.st ≠ PortState.up ∨ dieHeld s (portDie n) then s
  else
    let s := s.pumpResend n p.resend.length
    s.pumpNew n p.txq.length

/-- A control flit: ACK_SEQ, flags, credit totals and the rest of its payload from byte 32 (R293). -/
def sendControl (s : State) (n flags extra : Nat) : State :=
  let p := s.port n
  let totals := ((List.range 16).map (fun i => place (16 * i) 16 (p.freed.getD i 0).toNat)).sum
  let f := mkFlit 15 p.peerMod s.mod.id flags (totals + place 256 32 extra)
  (s.setPort n { p with unacked := 0 }).emit (.flit n (sealFlit f (p.rxSeq.toNat + 4095)))

/-! ## Choosing a port -/

/-- Carries flits now, or after a retrain that loses nothing. -/
def inService (p : Port) : Bool := decide (p.st = PortState.up) || (decide (p.st = PortState.training) && p.retrain)

def maskPorts (m : BitVec 36) : List Nat := (List.range 36).filter (fun i => m.getLsbD i)

/-- The ports of a mask that a flit may take: those in service, else those that a wake brings up (R388). -/
def usable (s : State) (m : BitVec 36) : List Nat :=
  let l := maskPorts m
  let a := l.filter (fun i => inService (s.port i))
  if a.isEmpty then (l.filter (fun i => decide ((s.port i).st = PortState.standby))).take 1 else a

/-- Ascending list without repeats. -/
def insertUp (x : Nat) : List Nat → List Nat
  | [] => [x]
  | y :: t => if x < y then x :: y :: t else if x = y then y :: t else y :: insertUp x t

/-- The next module that a flow takes (R303). -/
def flowModule (s : State) (ps : List Nat) (key src dst : Nat) : Nat :=
  let ms := ps.foldl (fun l i => insertUp (s.port i).peerMod l) []
  let h := (key * 0x9E3779B9 + src * 256 + dst) % 2 ^ 32
  ms.getD ((h >>> 16) % ms.length) 0

/-! ## Bundles (R304) -/

def portsMask (l : List Nat) : BitVec 36 := l.foldl (fun m i => m ||| (1#36 <<< i)) 0

/-- Ports of a mask that lead to a module. -/
def toward (s : State) (m : BitVec 36) (peer : Nat) : List Nat := (maskPorts m).filter (fun i => (s.port i).peerMod == peer)

/-- The bundle of a mask toward a module; before its first flit every port in service, or asleep, takes part. -/
def bundle (s : State) (m : BitVec 36) (peer : Nat) : Bundle :=
  (s.spoke.bundles.find? (fun b => b.mask == m && b.peer == peer)).getD
    { mask := m, peer := peer
      members := portsMask ((s.toward m peer).filter (fun i => inService (s.port i) || decide ((s.port i).st = PortState.standby))) }

def putBundle (s : State) (b : Bundle) : State :=
  { s with spoke := { s.spoke with
    bundles := s.spoke.bundles.filter (fun x => !(x.mask == b.mask && x.peer == b.peer)) ++ [b] } }

def dropBundle (s : State) (b : Bundle) : State :=
  { s with spoke := { s.spoke with bundles := s.spoke.bundles.filter (fun x => !(x.mask == b.mask && x.peer == b.peer)) } }

/-- Ports of a bundle that carry flits now. -/
def liveMembers (s : State) (b : Bundle) : List Nat := (maskPorts b.members).filter (fun i => inService (s.port i))

/-- The bundle that deals, and its ports: with no member in service it begins anew over `ps`. -/
def dealing (s : State) (b : Bundle) (ps : List Nat) : Bundle × List Nat :=
  let live := s.liveMembers b
  if live.isEmpty then ({ b with members := portsMask ps, rot := List.replicate 8 0 }, ps) else (b, live)

/-- The next port of a channel's rotation. -/
def dealPort (x : Bundle × List Nat) (vc : Nat) : Nat := x.2.getD (x.1.rot.getD vc 0 % x.2.length) (x.2.headD 0)

/-- One flit of a bundle goes to the next port of its channel's rotation. -/
def dealOne (s : State) (b : Bundle) (ps : List Nat) (q : QFlit) : State :=
  let x := s.dealing b ps
  let i := dealPort x q.vc
  let s := s.putBundle { x.1 with rot := x.1.rot.set q.vc ((x.1.rot.getD q.vc 0 + 1) % x.2.length) }
  (s.updPort i (fun p => { p with txq := p.txq ++ [q] })).pump i

/-- The port of a mask that a flit would be dealt to now; none while its bundle re-forms, or where no port can take it. -/
def nextPort (s : State) (m : BitVec 36) (key : Nat) (f : SpokeFlit) : Option Nat :=
  match s.usable m with
  | [] => none
  | ps =>
    let nm := s.flowModule ps key (fSrc f) (fDst f)
    let b := s.bundle m nm
    if b.waiting.isSome then none
    else some (dealPort (s.dealing b (ps.filter (fun i => (s.port i).peerMod == nm))) (lvcChannel (fLvc f)))

/-- A flit put on a port of a mask: flow, then rotation over the bundle (R303, R304); while the bundle re-forms it waits. None: no port
can take it. -/
def sendMask (s : State) (m : BitVec 36) (key : Nat) (f : SpokeFlit) : Option State :=
  match s.usable m with
  | [] => none
  | ps =>
    let nm := s.flowModule ps key (fSrc f) (fDst f)
    let q : QFlit := { vc := lvcChannel (fLvc f), mask := m, flit := f, age := s.spoke.dealt }
    let s := { s with spoke := { s.spoke with dealt := s.spoke.dealt + 1 } }
    let b := s.bundle m nm
    match b.waiting with
    | some ws => some (s.putBundle { b with waiting := some (ws ++ [q]) })
    | none => some (s.dealOne b (ps.filter (fun i => (s.port i).peerMod == nm)) q)

/-- Flow key of a flit (R303). -/
def flowKey (f : SpokeFlit) : Nat :=
  match lvcOrigin (fLvc f) with
  | 1 => bits (fCls f) 2 16
  | 2 => bits (fCls f) 2 16
  | 3 => bits (fCls f) 0 20
  | 4 => bits (fCls f) 0 20
  | 5 => bits (fCls f) 20 14
  | _ => 0

def sameFlow (f g : SpokeFlit) : Bool :=
  lvcOrigin (fLvc f) == lvcOrigin (fLvc g) && fDst f == fDst g && fSrc f == fSrc g && flowKey f == flowKey g

/-- Flits of the flow are queued or unacknowledged on one of the ports, or wait in a bundle of them that re-forms. -/
def flowOn (s : State) (m : BitVec 36) (f : SpokeFlit) : Bool :=
  s.spoke.bundles.any (fun b => b.mask &&& m != 0 && (b.waiting.getD []).any (fun q => sameFlow f q.flit)) ||
  (maskPorts m).any (fun i =>
    let p := s.port i
    p.replay.any (fun x => sameFlow f x.flit) || p.txq.any (fun x => sameFlow f x.flit))

/-- A flit sent on a mask whose entry lost the ports `old` to a patch: a flow with flits there waits (R306 step 3). -/
def sendFlow (s : State) (old m : BitVec 36) (f : SpokeFlit) : Option State :=
  if s.flowOn old f || s.spoke.parked.any (fun x => sameFlow f x.flit) then
    some { s with spoke := { s.spoke with parked := s.spoke.parked ++ [⟨old, m, flowKey f, f⟩] } }
  else s.sendMask m (flowKey f) f

/-- An UNREACHABLE for the module came within the last 1 ms (R307). -/
def saidUnreachable (s : State) (m : Nat) : Bool := s.spoke.unreach.any (fun u => u.1 == m && decide (s.now ≤ u.2 + 100000))

/-- A module that a job's class can reach now (R299, R307). -/
def reachable (s : State) (j : Job) (cls dst : Nat) : Bool :=
  match j.route cls dst with
  | none => false
  | some r => r.ports != 0 && !(s.usable r.ports).isEmpty && !s.saidUnreachable dst

/-- A flit of a job sent by its route table (R298, R299, R305). None: the destination is unreachable. -/
def sendJob (s : State) (j : Job) (cls dst vc word pay : Nat) : Option State :=
  if !s.reachable j cls dst then none
  else match j.route cls dst with
    | none => none
    | some r => s.sendFlow r.dropped r.ports (mkFlit (if r.transit then vc + 8 else vc) dst s.mod.id word pay)

def forward (s : State) (m : Nat) : Forward := sget {} s.spoke.forward m

/-- Ports of a forwarding entry in use: PRIMARY, or FALLBACK when no primary port is UP (R301). -/
def forwardMask (s : State) (m : Nat) : BitVec 36 :=
  let e := s.forward m
  if (maskPorts e.primary).any (fun i => inService (s.port i)) then e.primary
  else if (maskPorts e.fallback).any (fun i => inService (s.port i)) then e.fallback
  else e.primary

/-- A VC0 flit (R289, R301); one that no port can take is lost. -/
def sendVc0 (s : State) (dst msg job args pay : Nat) : State :=
  let f := mkFlit 0 dst s.mod.id (place 0 8 msg + place 8 16 job + place 24 40 args) pay
  (s.sendFlow (s.forward dst).dropped (s.forwardMask dst) f).getD s

/-- Whether VC0 reaches a module. -/
def near (s : State) (m : Nat) : Bool := m == s.mod.id || !(s.usable (s.forwardMask m)).isEmpty

/-- A module that messages reach now. -/
def canReach (s : State) (m : Nat) : Bool := s.near m && !s.saidUnreachable m

/-- MSG and JOB_ID of the management word under which a message travels (R289): pipeline exchange, fabric time, switch request and instant;
everything else is MCTP traffic. -/
def msgFrame (i : Instr) : Nat × Nat :=
  match i with
  | .openingNotice m => (6, m.job)
  | .edgeClosing _ job _ => (6, job)
  | .closingAck _ job _ => (6, job)
  | .timeMessage _ => (7, 0)
  | .switchRequest m => (8, m.job)
  | .switchInstant m => (8, m.job)
  | _ => (1, 0)

/-- A message whose layout the spec does not give: a VC0 flit with a free payload, and its content as the command it is at the receiver. -/
def send (s : State) (dst : Nat) (i : Instr) : State :=
  if s.near dst then
    let (msg, job) := msgFrame i
    (if dst = s.mod.id then s else s.sendVc0 dst msg job 0 (Config.msgPayload i)).emit (.msg dst i)
  else s

/-! ## Taking received flits -/

/-- Index of the oldest flit of a channel on a port that ends here (`mine`) or does not. -/
def rxIdx (s : State) (n vc : Nat) (mine : Bool) : Option Nat :=
  (s.port n).rx.findIdx? (fun f => (if mine then lvcOrigin (fLvc f) else lvcChannel (fLvc f)) == vc &&
    ((fDst f == s.mod.id) == mine))

/-- A flit leaves its receive slot, whose credit total advances (R293). -/
def dropRx (s : State) (n i : Nat) : State :=
  s.updPort n (fun p =>
    match p.rx[i]? with
    | none => p
    | some f =>
      let k := flitClass f s.mod.id * 8 + lvcChannel (fLvc f)
      { p with rx := p.rx.eraseIdx i, freed := p.freed.set k (p.freed.getD k 0 + 1) })

/-- The oldest flit of a channel for this module, if it satisfies a test, taken off its port; while the port's die holds, flits wait in the
receive buffer (R32). -/
def takeRx (s : State) (n vc : Nat) (p : SpokeFlit → Bool) : Option (SpokeFlit × State) :=
  match if dieHeld s (portDie n) then none else s.rxIdx n vc true with
  | none => none
  | some i =>
    match (s.port n).rx[i]? with
    | none => none
    | some f => if p f then some (f, s.dropRx n i) else none

/-- UNREACHABLE sent to a flit's source, at most once a millisecond for a source and destination (R307). -/
def tellUnreachable (s : State) (src dst : Nat) : State :=
  if s.spoke.told.any (fun t => t.1 == src && t.2.1 == dst && decide (s.now < t.2.2 + 100000)) then s
  else
    let told := s.spoke.told.filter (fun t => !(t.1 == src && t.2.1 == dst)) ++ [(src, dst, s.now)]
    ({ s with spoke := { s.spoke with told := told } }).sendVc0 src 5 0 dst 0

/-- A flit cannot be sent on: one that this module forwards is answered to its source (R307). -/
def flitLost (s : State) (f : SpokeFlit) : State := if fSrc f = s.mod.id then s else s.tellUnreachable (fSrc f) (fDst f)

/-- Waiting flits whose flow is acknowledged go out, oldest first. -/
def releaseParked (s : State) : State :=
  s.spoke.parked.foldl (fun s x => (s.sendFlow x.old x.mask x.flit).getD (s.flitLost x.flit))
    { s with spoke := { s.spoke with parked := [] } }

/-- A bundle restarts (R304 step 4): every port in service takes part, and the flits that waited are dealt from the lowest. -/
def restartBundle (s : State) (b : Bundle) (ws : List QFlit) : State :=
  let ps := (s.toward b.mask b.peer).filter (fun i => inService (s.port i))
  ws.foldl (fun s q => s.dealOne (s.bundle b.mask b.peer) ps q)
    (s.putBundle { b with members := portsMask ps, rot := List.replicate 8 0, waiting := none })

/-- Bundles that re-form restart once their remaining ports' flits are acknowledged (R304 step 2); with no port of the mask in service, one that
has returned included, the flits are lost (R294). -/
def reform (s : State) : State :=
  s.spoke.bundles.foldl (fun s b =>
    match b.waiting with
    | none => s
    | some ws =>
      if !(s.toward b.mask b.peer).any (fun i => inService (s.port i)) then ws.foldl (fun s q => s.flitLost q.flit) (s.dropBundle b)
      else if (s.liveMembers b).any (fun i => (s.port i).replay.any (fun q => q.mask == b.mask)) then s
      else s.restartBundle b ws) s

/-- A flit put into its place in the order of dealing. -/
def insertQ (q : QFlit) : List QFlit → List QFlit
  | [] => [q]
  | x :: t => if q.age ≤ x.age then q :: x :: t else x :: insertQ q t

/-- A port has left service with the flits `un` unacknowledged and `tx` unsent. Each of its bundles stops: the unacknowledged flits come
first, then every flit of the bundle not yet sent, in the order of dealing (R304 steps 1 to 3). -/
def stopBundles (s : State) (n : Nat) (un tx : List QFlit) : State :=
  (s.spoke.bundles.filter (fun b => b.members.getLsbD n)).foldl (fun s b =>
    let mine (q : QFlit) : Bool := q.mask == b.mask
    let rest := (maskPorts b.members).filter (fun i => i != n)
    let queued := (rest.flatMap (fun i => (s.port i).txq.filter mine)) ++ tx.filter mine
    let s := rest.foldl (fun s i => s.updPort i (fun p => { p with txq := p.txq.filter (fun q => !mine q) })) s
    s.putBundle { b with
      members := b.members &&& ~~~(1#36 <<< n)
      waiting := some (un.filter mine ++ b.waiting.getD [] ++ queued.foldr insertQ []) }) s

end State
end Sys2Proof.Machine
end

