-- ==== Sys2Proof/Machine/Checks.lean ====
section
/-! DEFINITION. The checks of R56 in the order of R429, and how a failure is located (R430). -/
namespace Sys2Proof.Machine

/-- One condition of a check. `pass`: 0 check 1; 1 to 5 the passes of check 2 (enumerations, ranges, alignment,
addresses, formats); 6 check 3; 7 check 4; 8 check 5. -/
structure Chk where
  pass : Nat
  bad  : Bool
  code : Nat
  arg  : Nat := 0
  row  : Nat := 0xFFFF
  /-- Which of the items that ARG and the row do not tell apart: 0 the record, 1 a table it names, 2 a later item of an admission. -/
  item : Nat := 0
  deriving DecidableEq, Repr

/-- A failure as the record reports it. -/
structure Fail where
  code : Nat
  arg  : Nat := 0
  row  : Nat := 0xFFFF
  deriving DecidableEq, Repr

/-- ARG of a field at `bit` of `width` bits in its item (R59, R430). -/
def fieldArg (bit width : Nat) : Nat := bit % 512 + width * 512 + (bit / 512) * 2 ^ 25

/-- A reserved range, reported by its lowest nonzero bit (R430). -/
def ckZero (x lo w : Nat) : Chk :=
  let v := bits x lo w
  { pass := 0, bad := v != 0, code := eField, arg := fieldArg (lo + lowestBit w v) 1 }

def ckEnum (bit w : Nat) (bad : Bool) : Chk := { pass := 1, bad := bad, code := eField, arg := fieldArg bit w }
def ckRange (bit w : Nat) (bad : Bool) : Chk := { pass := 2, bad := bad, code := eField, arg := fieldArg bit w }
def ckAlign (bit w : Nat) (bad : Bool) : Chk := { pass := 3, bad := bad, code := eAlign, arg := fieldArg bit w }
def ckAddr (bit w : Nat) (bad : Bool) : Chk := { pass := 4, bad := bad, code := eAddress, arg := fieldArg bit w }
def ckFmt (bit w : Nat) (bad : Bool) : Chk := { pass := 5, bad := bad, code := eFormat, arg := fieldArg bit w }
/-- Check 3: the failure carries no field (class 0x9, R59). -/
def ckOwn (bad : Bool) : Chk := { pass := 6, bad := bad, code := eProtect }
def ckState (code : Nat) (bad : Bool) (arg : Nat := 0) : Chk := { pass := 7, bad := bad, code := code, arg := arg }
def ckCap (code : Nat) (bad : Bool) (arg : Nat := 0) : Chk := { pass := 8, bad := bad, code := code, arg := arg }

/-- Check 3 on a field of an item other than the record: the failure names the field (R193, R210). -/
def ckOwnF (bit w : Nat) (bad : Bool) : Chk := { pass := 6, bad := bad, code := eProtect, arg := fieldArg bit w }

/-- Checks 2 and 3 made at check 4, because what they rest on was not known at the fetch: before those of check 4, in the order given. -/
def lateChecks (l : List Chk) : List Chk := l.map (fun c => { c with pass := 7 })

/-- Checks on a field of another item: `extra` joins ARG for a failure that names a field, and `row` is NAN_ROW. -/
def onItem (extra row : Nat) (l : List Chk) : List Chk :=
  l.map (fun c => { c with arg := if c.arg = 0 then 0 else c.arg + extra, row := row })

/-- Checks on another item than the record, where ARG and the row do not tell the two apart. -/
def ofItem (n : Nat) (l : List Chk) : List Chk := l.map (fun c => { c with item := n })

/-- Lowest bit of the field that a check names, within its item (R430). -/
def Chk.pos (c : Chk) : Nat := c.arg % 512 + c.arg / 2 ^ 25 % 8 * 512

/-- Two checks on fields of the same item: ARG without position and width agrees, and so does the place in an array. -/
def Chk.sameItem (a b : Chk) : Bool :=
  a.item == b.item && a.row == b.row && a.arg / 2 ^ 16 % 512 == b.arg / 2 ^ 16 % 512 && a.arg / 2 ^ 28 == b.arg / 2 ^ 28

/-- Of the failing conditions of one pass, those on the item of the first one: the one that stands at the lowest bit (R429 step 3).
A condition that names no field keeps its place, and so do those of checks 4 and 5. -/
def lowestField (c : Chk) (l : List Chk) : Chk :=
  l.foldl (fun c d => if d.arg != 0 && c.arg != 0 && decide (c.pass < 7) && c.sameItem d && decide (d.pos < c.pos) then d else c) c

/-- The first failure of the lowest failing pass among passes lo to hi − 1. A list of conditions stands in the order of its items; the
order within an item does not matter (R429). -/
def firstFail (l : List Chk) : Nat → Nat → Option Fail
  | _, 0 => none
  | lo, n + 1 =>
    match l.filter (fun c => c.bad && c.pass == lo) with
    | c :: cs => let c := lowestField c cs; some ⟨c.code, c.arg, c.row⟩
    | [] => firstFail l (lo + 1) n

/-! ## The common header (R46) -/

def hKind (r : Nat) : Nat := bits r 0 8
def hPhase (r : Nat) : Nat := bits r 8 3
def hIrq (r : Nat) : Bool := bitAt r 11
def hCrec (r : Nat) : Bool := bitAt r 12
def hFence (r : Nat) : Bool := bitAt r 13
def hLast (r : Nat) : Bool := bitAt r 15
def hWaitCtr (r : Nat) : Nat := bits r 16 12
def hWaitOp (r : Nat) : Nat := bits r 28 2
def hSigOp (r : Nat) : Nat := bits r 30 2
def hWaitVal (r : Nat) : Nat := bits r 32 32
def hSigCtr (r : Nat) : Nat := bits r 64 12
def hSigVal (r : Nat) : Nat := bits r 80 16
def hJob (r : Nat) : Nat := bits r 96 16
def hSeq (r : Nat) : Nat := bits r 112 16

/-- Engine codes of R49. -/
def engTile : Nat := 0
def engMover : Nat := 1
def engStrand : Nat := 2
def engRing : Nat := 3
def engLocket : Nat := 4
def engJob : Nat := 5

/-- Queues per instance, instances, and entries of a queue (R49, R50). -/
def engQueues (e : Nat) : Nat :=
  match e with
  | 0 => 1
  | 1 => 8
  | 2 => 2
  | 3 => 4
  | 4 => 2
  | _ => 1

def engInsts (e : Nat) : Nat :=
  match e with
  | 0 => 256
  | 1 => 16
  | 3 => 4
  | _ => 1

def engEntries (e : Nat) : Nat :=
  match e with
  | 0 => 16
  | 4 => 32
  | _ => 64

/-- Kinds that an engine's queues accept (R48, R98, R127, R170, R189, R243, R251, R352). -/
def accepts (e k : Nat) : Bool :=
  decide (k ≤ 4) ||
  match e with
  | 0 => (decide (0x10 ≤ k) && decide (k ≤ 0x14)) || k == 0x20 || k == 0x21
  | 1 => k == 0x40 || k == 0x41 || k == 0x48
  | 2 => decide (0x60 ≤ k) && decide (k ≤ 0x68)
  | 3 => decide (0x80 ≤ k) && decide (k ≤ 0x85)
  | 4 => decide (0xA0 ≤ k) && decide (k ≤ 0xA3)
  | 5 => k == 0xF0 || k == 0xF1
  | _ => false

/-- Checks on the header of a record of job j's queue: `atCount` is whether it is the record at the list's count (R46,
R47, R54). DESIGN CHOICE (log 117): with WAIT_OP = 0 or SIG_OP = 0 the header names no counter, and the field is not tested. -/
def hdrChecks (j : Job) (eng r : Nat) (atCount : Bool) : List Chk :=
  [ ckZero r 14 1, ckZero r 76 4,
    ckEnum 0 8 (!accepts eng (hKind r)),
    ckEnum 28 2 (hWaitOp r == 3), ckEnum 30 2 (hSigOp r == 3),
    ckRange 15 1 (atCount && !hLast r),
    ckOwn (hWaitOp r != 0 && !j.ownsCtr (hWaitCtr r)),
    ckOwn (hSigOp r != 0 && !j.ownsCtr (hSigCtr r)),
    ckOwn (hJob r != j.id) ]

/-- Target queue of PUSH_LIST, QUEUE_CONTROL and a binding exists (R49, R50): engine, queue, instance fields at their
bits. -/
def ckTarget (eng q inst eb qb ib : Nat) : List Chk :=
  [ ckEnum eb 4 (decide (5 < eng)),
    ckRange qb 4 (decide (engQueues eng ≤ q)),
    ckRange ib 8 (decide (engInsts eng ≤ inst)) ]

end Sys2Proof.Machine
end

