-- ==== Sys2Proof/Machine/Queues.lean ====
section
/-! DEFINITION. Command queues (R47-R61): fetching a record, waiting, starting, completing, rejecting, completion
records and rings, signals, deferrals. -/
namespace Sys2Proof.Machine

/-! ## Micro-batches and steps (R230). Inside, a micro-batch is counted from FIRST_MB. -/

def Pipe.mb (p : Pipe) (a : Nat) : Nat := (p.firstMb + a) % 2 ^ 32
/-- First micro-batch of the present step. -/
def Pipe.base (p : Pipe) : Nat := p.steps * p.mbPerStep
/-- Number of the present step. -/
def Pipe.step (p : Pipe) : Nat := (p.firstStep + p.steps) % 2 ^ 32
/-- Step of a micro-batch number. -/
def Pipe.stepOf (p : Pipe) (n : Nat) : Nat :=
  (p.firstStep + (n + 2 ^ 32 - p.firstMb % 2 ^ 32) % 2 ^ 32 / p.mbPerStep) % 2 ^ 32

/-- A step marked poisoned (R238). -/
def Pipe.taint (p : Pipe) (step : Nat) : Pipe :=
  if p.poisoned.contains step then p else { p with poisoned := p.poisoned ++ [step] }

namespace State

/-! ## Micro-batch poison (R238) -/

/-- Micro-batch n becomes POISON at a stage: counted and logged once, later entries poisoned, the step marked. -/
def poisonMb (s : State) (jid stage n : Nat) : State :=
  match s.job? jid with
  | none => s
  | some j =>
    match j.strand.stages.find? (fun t => t.idx == stage) with
    | none => s
    | some t =>
      if t.poisonMb.contains n then s
      else
        let mark (st : Strand) : Strand :=
          { st with
            stages := st.stages.map (fun u => if u.idx == stage then
              { u with poisonMb := u.poisonMb ++ [n], poisonCnt := satAdd 16 u.poisonCnt 1 } else u)
            edges := st.edges.map (fun e =>
              let up := bits e.desc 32 12 == t.stageId && bitAt e.desc 17
              let dn := bits e.desc 48 12 == t.stageId && bitAt e.desc 18
              let tint (d : EdgeDir) : EdgeDir :=
                { d with send := d.send.map (fun x => if x.n == n then { x with poison := true } else x) }
              { e with fwd := if up then tint e.fwd else e.fwd, bwd := if dn then tint e.bwd else e.bwd })
            pipe := st.pipe.taint (st.pipe.stepOf n) }
        (s.updJob jid (fun j => { j with strand := mark j.strand })).log ePoison engStrand stage jid n

/-! ## Completion records (R58-R61) -/

/-- STATUS of R60. -/
def statusOf (r : Res) : Nat :=
  if r.code ≠ 0 then r.code else if r.inv then eInvalid else if r.ovf then eOverflow else 0

/-- A completion record without its PHASE bit (R59). -/
def mkRecord (status seq job kind : Nat) (r : Res) (nanRow nanCol ctx time : Nat) : Nat :=
  Machine.place 0 16 status + Machine.place 16 16 seq + Machine.place 32 16 job + Machine.place 48 8 kind +
  Machine.place 56 1 (boolNat r.inv) + Machine.place 57 1 (boolNat r.ovf) + Machine.place 58 1 (boolNat r.recomp) +
  Machine.place 59 1 (boolNat (r.lost != 0)) + Machine.place 60 1 (boolNat r.deferred) +
  Machine.place 61 1 (boolNat r.poison) + Machine.place 64 16 nanRow + Machine.place 80 16 nanCol +
  Machine.place 96 32 (min r.lost 0xFFFFFFFF) + Machine.place 128 32 r.arg + Machine.place 160 32 (min ctx 0xFFFFFFFF) +
  Machine.place 192 64 time

/-- CTX: within −2 % and +4 % of a published count (R27), free where none is published. -/
def ctxBeats (s : State) (b : Option Nat) : Nat × State :=
  let (v, s) := s.draw
  match b with
  | none => (v % 2 ^ 32, s)
  | some n =>
    let lo := ceilDiv (98 * n) 100
    let hi := 104 * n / 100
    (lo + v % (hi - lo + 1), s)

/-- Room for record W by the consumer's head word (R61). -/
def ringRoom (s : State) (q : Queue) : Bool :=
  decide ((q.wcount + 2 ^ 32 - s.num q.headAddr 4) % 2 ^ 32 < 2 ^ (q.ringLog2 + 4))

/-- A signal applied (R46, R52). -/
def signal (s : State) (op ctr val : Nat) : State :=
  match op with
  | 1 => s.addCtr ctr val
  | 2 => s.setCtr ctr (BitVec.ofNat 32 val)
  | _ => s

/-- Record W written with its PHASE (R61); the class count advances (R71). -/
def putRecord (s : State) (jid : Nat) (q : Queue) (crec : Nat) : State :=
  let r := 2 ^ (q.ringLog2 + 4)
  let ph := if (q.wcount / r) % 2 = 0 then 1 else 0
  let s := s.store (q.ringAddr + 32 * (q.wcount % r)) (leBytes 32 (crec + ph * 2 ^ 63))
  (s.countClass (crec % 2 ^ 16)).updJob jid (fun j =>
    match j.queue? q.ref with
    | some p => j.setQueue { p with wcount := (p.wcount + 1) % 2 ^ 32 }
    | none => j)

/-- The record of a command, when one is due, then its signal and interrupt (R55, R60); a full ring keeps them back and
sets FULL (R61). -/
def report (s : State) (jid : Nat) (ref : QRef) (need : Bool) (h : Held) : State :=
  match (s.job? jid).bind (fun j => j.queue? ref) with
  | none => s
  | some q =>
    if !q.held.isEmpty || (need && !s.ringRoom q) then
      s.updJob jid (fun j => j.setQueue { q with held := q.held ++ [h], full := true })
    else
      let s := if need then s.putRecord jid q h.crec else s
      let s := s.signal h.sigOp h.sigCtr h.sigVal
      if h.irq then s.irq 1 else s

/-- Counts of the step (R155): commands of a phase other than OPT with OVERFLOW or INVALID, recomputes, lost elements. -/
def countStep (s : State) (jid phase : Nat) (r : Res) : State :=
  s.updJob jid (fun j =>
    let n := j.numerics
    { j with numerics :=
      { n with
        flagCount := if (r.inv || r.ovf) && phase != 3 then satAdd 32 n.flagCount 1 else n.flagCount
        recompCount := if r.recomp then satAdd 32 n.recompCount 1 else n.recompCount
        lostTotal := satAdd 32 n.lostTotal r.lost } })

/-- NUM_IRQ of the kinds that have it (R110, R114, R117, R131). -/
def numIrq (r : Nat) : Bool :=
  match hKind r with
  | 0x10 => bitAt r 140
  | 0x12 => bitAt r 136
  | 0x13 => bitAt r 150
  | 0x21 => bitAt r 145
  | _ => false

/-- Whether a record is written (R60). -/
def needRecord (r : Nat) (res : Res) : Bool :=
  hCrec r || statusOf res != 0 || res.inv || res.ovf || res.recomp || res.lost != 0 || res.deferred || res.poison

/-- The record and signal of an executed command (R55-R60). -/
def reportDone (s : State) (jid : Nat) (ref : QRef) (r : Nat) (res : Res) : State :=
  let (ctx, s) := s.ctxBeats res.beats
  let st := statusOf res
  let nan := res.nan.getD (0xFFFF, 0xFFFF)
  let crec := mkRecord st (hSeq r) jid (hKind r) res nan.1 nan.2 ctx s.now
  s.report jid ref (needRecord r res)
    { crec := crec, sigOp := hSigOp r, sigCtr := hSigCtr r, sigVal := hSigVal r, need := needRecord r res,
      irq := hIrq r || (numIrq r && st / 4096 == 4) }

/-! ## Lists -/

/-- The head list loses its next record; when the record was its last, the list leaves the queue (R47). -/
def advance (q : Queue) (last : Bool) : Queue :=
  if last then { q with lists := q.lists.tail, pos := 0, cur := none } else { q with pos := q.pos + 1, cur := none }

/-- A list of an item has completed (R213). -/
def listDone (s : State) (jid : Nat) (ref : QRef) (listId : Nat) (tag : Option ItemTag) : State :=
  match tag, s.job? jid with
  | some t, some j =>
    let busy := (j.queue? ref).any (fun q => q.flight.any (fun f => f.listId == listId) ||
      q.lists.any (fun l => l.id == listId))
    if busy then s
    else s.updJob jid (fun j => { j with strand := { j.strand with
      groups := j.strand.groups.map (fun g =>
        match g.out with
        | some o => if o.tag = t then { g with out := some { o with openLists := o.openLists.filter (· != listId) } } else g
        | none => g) } })
  | _, _ => s

/-- A reference appended to a queue; the list gets the job's next list number. -/
def pushList (s : State) (jid : Nat) (ref : QRef) (addr count : Nat) (tag : Option ItemTag) : State :=
  s.updJob jid (fun j =>
    match j.queue? ref with
    | none => j
    | some q => { j.setQueue { q with lists := q.lists ++ [⟨addr, count, j.listSeq, tag⟩] } with listSeq := j.listSeq + 1 })

/-- A queue with a free entry (R50). DESIGN CHOICE (log 148): a list that is being executed keeps its entry until its last record is
started. -/
def queueRoom (q : Queue) : Bool := decide (q.lists.length < engEntries q.ref.eng)

/-! ## Rejection (R57) -/

/-- A rejected command: its record whatever CREC says, IRQ_STATUS.ERR, LAST_ERROR, the queue halts at it. DESIGN CHOICE (log 125):
ERR and LAST_ERROR are set at the rejection, also when a full completion ring still holds its record back. -/
def reject (s : State) (jid : Nat) (ref : QRef) (r : Nat) (last : Bool) (f : Fail) : State :=
  let (ctx, s) := s.ctxBeats none
  let s := s.updJob jid (fun j =>
    match j.queue? ref with
    | some q => j.setQueue { q with halted := true, haltLast := last, cur := none }
    | none => j)
  let crec := mkRecord f.code (hSeq r) (hJob r) (hKind r) { arg := f.arg } f.row 0xFFFF ctx s.now
  let s := s.report jid ref true { crec := crec, sigOp := 0, sigCtr := 0, sigVal := 0, irq := false }
  (s.irq 2).lastError f.code ref.eng ref.inst (hJob r)

/-! ## Completion -/

/-- Units that writes touch and do not cover. -/
def partUnits (ws : List (Nat × Bytes)) (us : List Nat) : List Nat :=
  us.filter (fun u => !(List.range 64).all (fun i => ws.any (fun w => decide (w.1 ≤ u * 64 + i) && decide (u * 64 + i < w.1 + w.2.length))))

/-- A partial write reads its unit first, and corrects it (R163, R164). -/
def correctParts (s : State) (ws : List (Nat × Bytes)) : State :=
  (partUnits ws ((ws.flatMap (fun w => s.markedUnits w.1 w.2.length)).map (·.1)).eraseDups).foldl (fun s u => s.correct (u * 64) 64) s

/-- Writes committed, with the bad units of which they write a part only (R164); a bad unit that they write whole is clean. -/
def commit (s : State) (ws : List (Nat × Bytes)) : State × List (Nat × Mark) :=
  let hit := (ws.flatMap (fun w => s.badUnits w.1 w.2.length)).eraseDups
  let whole (m : Nat × Mark) : Bool :=
    (List.range 64).all (fun i => ws.any (fun w => decide (w.1 ≤ m.1 * 64 + i) && decide (m.1 * 64 + i < w.1 + w.2.length)))
  ((hit.filter whole).foldl (fun s m => s.setMark m.1 .clean) (s.writes ws), hit.filter (fun m => !whole m))

/-- Result fields after the poisoned destination units of R171. -/
def withBad (res : Res) (n ch : Nat) : Res :=
  if n = 0 then res
  else if res.code = eLinkDown then { res with poison := true }
  else if res.code = eUncorr then
    { res with poison := true, arg := res.arg % 256 + 256 * min (res.arg / 256 + n) 0xFFFFFF }
  else if res.code = 0 then { res with code := eUncorr, poison := true, arg := ch + 256 * min n 0xFFFFFF }
  else { res with poison := true }

/-- Numeric event counter of a tile (R116). -/
def countEvent (s : State) (ref : QRef) (res : Res) : State :=
  if ref.eng = engTile && (res.inv || res.ovf) then
    let n : Word32 := BitVec.ofNat 32 (satAdd 32 (sget 0 s.tiles.events ref.inst).toNat 1)
    { s with tiles := { s.tiles with events := sput 0 s.tiles.events ref.inst n } }
  else s

/-- Byte spans that a command of an item F(n) or B(n) has written, noted for the send buffers (R219). -/
def noteSpans (s : State) (jid : Nat) (item : Option ItemTag) (sp : List (Nat × Nat)) : State :=
  match item with
  | none => s
  | some t =>
    let add (d : EdgeDir) : EdgeDir :=
      { d with send := d.send.map (fun e => if e.n == t.n && !e.itemDone then { e with written := e.written ++ sp } else e) }
    s.updJob jid (fun j =>
      let ids := (j.strand.stages.filter (fun u => u.idx == t.stage)).map (·.stageId)
      { j with strand := { j.strand with edges := j.strand.edges.map (fun e =>
        if t.kind = ItemKind.f && bitAt e.desc 17 && ids.contains (bits e.desc 32 12) then { e with fwd := add e.fwd }
        else if t.kind = ItemKind.b && bitAt e.desc 18 && ids.contains (bits e.desc 48 12) then { e with bwd := add e.bwd }
        else e) } })

/-- The spans that a command writes at its completion, and those that a VRUN has stored, are noted. -/
def noteWritten (s : State) (jid : Nat) (f : Flight) : State :=
  s.noteSpans jid f.item (f.writes.map (fun w => (w.1, w.2.length)) ++ (match f.op with
    | .vrun r => r.stores
    | _ => []))

/-- The writes of a flight reach memory: bytes, poison marks, and the bad units that it wrote in part (R164, R171). -/
def land (s : State) (jid : Nat) (f : Flight) : State × Flight :=
  let (s, bad) := (s.correctParts f.writes).commit f.writes
  let s := (((s.meetBad jid bad).noteWritten jid f).poisonUnits f.marks).queueWrites (f.writes.map (fun w => (w.1, w.2.length)))
  (s, { f with
    writes := [], marks := []
    res := withBad f.res bad.length (((bad.head?).map (fun m => s.faultChannel (m.1 * 64))).getD 0) })

/-- A write over what a command in flight reads on the other side of a tile's ports, a Mover's or a tile's, is not ordered against it
(R101): the command keeps what the span held. A VRUN reads at each issue, and keeps nothing. -/
def tear (s : State) (jid eng : Nat) (ws : List (Nat × Nat)) : State :=
  let cut (f : Flight) : List (Nat × Bytes) :=
    match f.op with
    | .vrun _ => []
    | _ => ws.flatMap (fun w => f.reads.filterMap (fun p =>
        let lo := max w.1 p.1
        let hi := min (w.1 + w.2) (p.1 + p.2)
        if lo < hi then some (lo, s.mem.read lo (hi - lo)) else none))
  s.updJob jid (fun j => { j with queues := j.queues.map (fun q =>
    if (eng = engTile ∧ q.ref.eng = engMover) ∨ (eng = engMover ∧ q.ref.eng = engTile) then
      { q with flight := q.flight.map (fun f => { f with torn := cut f ++ f.torn }) }
    else q) })

/-- A started command completes (R55): results, then the record, then the signal; then what follows from its list and its
poison. -/
def complete (s : State) (jid : Nat) (ref : QRef) (f : Flight) : State :=
  let (s, f) := (s.tear jid ref.eng (f.writes.map (fun w => (w.1, w.2.length)))).land jid f
  let res := f.res
  let s := f.amax.foldl (fun s a => s.mergeAmax a.1 a.2) s
  let s := f.recomps.foldl (fun s a => let v := s.slot a.1; s.setSlot a.1 { v with recomp := satAdd 16 v.recomp a.2 }) s
  let s := s.countStep jid (hPhase f.record) res
  let s := s.countEvent ref res
  let s := s.reportDone jid ref f.record res
  let s := match f.item with
    | some t => if res.poison && (t.kind = ItemKind.f || t.kind = ItemKind.b || t.kind = ItemKind.w) then s.poisonMb jid t.stage t.n else s
    | none => s
  s.listDone jid ref f.listId f.item

/-- The flight at index i taken out of its queue and completed. -/
def completeAt (s : State) (jid : Nat) (q : Queue) (i : Nat) (f : Flight) : State :=
  (s.updJob jid (fun j => j.setQueue { q with flight := q.flight.eraseIdx i })).complete jid q.ref f

/-! ## Deferrals (R62, R63) -/

/-- Two deferrals of one kind of command: a job may have one RESHARD pending, of whatever group (R63). -/
def sameKind : DeferKind → DeferKind → Bool
  | .reshard _, .reshard _ => true
  | a, b => decide (a = b)

/-- Check 4 against a pending deferral of the same kind. -/
def ckPending (j : Job) (k : DeferKind) : Chk := ckState ePending (j.deferrals.any (fun d => sameKind d.kind k))

/-- The second record of a deferral (R62). -/
def secondRecord (s : State) (jid : Nat) (d : Deferral) (code arg : Nat) : State :=
  let (ctx, s) := s.ctxBeats none
  let crec := mkRecord code (hSeq d.record) jid (hKind d.record) { arg := arg } 0xFFFF 0xFFFF ctx s.now
  s.report jid d.queue true { crec := crec, sigOp := 0, sigCtr := 0, sigVal := 0, irq := hIrq d.record }

def dropDeferral (s : State) (jid : Nat) (k : DeferKind) : State :=
  s.updJob jid (fun j => { j with deferrals := j.deferrals.filter (fun d => !sameKind d.kind k) })

end State

/-! ## Issue -/

/-- What starting a command gives: the state, the flight, and whether the command acts at once. -/
structure Started where
  s       : State
  flight  : Flight
  instant : Bool

/-- How a kind of command is fetched and started. -/
structure CmdSpec where
  kind   : Nat
  /-- The descriptor read with the record at its fetch (R193). -/
  item   : State → Nat → Nat := fun _ _ => 0
  /-- The record can be fetched now (R130). -/
  fetch  : State → Job → Queue → Nat → Bool
  /-- Checks 1 to 3 on the body and the items it names. -/
  checks : State → Job → Queue → Nat → List Chk
  /-- Conditions on which the command waits, beside its header's wait and FENCE. -/
  ready  : State → Job → Queue → Nat → Bool
  /-- Checks 4 and 5. -/
  late   : State → Job → Queue → Nat → List Chk
  /-- The command's effect at its start. -/
  start  : State → Job → Queue → Nat → Flight → Started
  /-- What a record whose checks 1 to 3 passed still asks of peers (R171). -/
  asks   : State → Job → Queue → Nat → State × List (Nat × Option Nat) := fun s _ _ _ => (s, [])
  /-- What check 4 does for a command that the gate completes (R275). -/
  skip   : State → Job → Nat → State := fun s _ _ => s
  /-- What a rejection by checks 4 and 5 leaves behind (R356). -/
  refused : State → Job → State := fun s _ => s
  /-- ARG of a rejection by a peer's answer. -/
  askArg : Nat := 0
  /-- An exchange with peers that check 4 makes, after which the command goes on waiting (R245); none: nothing to wait for. -/
  exchange : State → Job → Queue → Waiting → Option State := fun _ _ _ _ => none

/-- The header's wait is satisfied (R46, R53). -/
def waitOver (s : State) (r : Nat) : Bool :=
  match hWaitOp r with
  | 1 => ctrGe (s.ctr (hWaitCtr r)) (BitVec.ofNat 32 (hWaitVal r))
  | 2 => decide ((s.ctr (hWaitCtr r)).toNat = hWaitVal r)
  | _ => true

/-- A record as its engine holds it from the fetch on: its 512 bits, and above them the descriptor read with it. -/
def CmdSpec.whole (sp : CmdSpec) (s : State) (r : Nat) : Nat := r + 2 ^ 512 * sp.item s r

/-- A fresh flight for the record at the head of a queue. -/
def newFlight (q : Queue) (r : Nat) : Flight :=
  { record := r % 2 ^ 512, listId := (q.lists.head?.map (·.id)).getD 0, last := hLast r, item := (q.lists.head?).bind (·.item) }

/-- A command's phase tag counts in the present gate (R378). -/
def State.noteTag (s : State) (p : Nat) : State :=
  if s.pwr.tags.contains p then s else { s with pwr := { s.pwr with tags := s.pwr.tags ++ [p] } }

/-- A flight pushed on its queue, whose next record then is due; a command that acts at once completes at once, unless a tile
must complete an earlier one first (R47). -/
def launch (s : State) (jid : Nat) (ref : QRef) (st : Started) : State :=
  match (st.s.job? jid).bind (fun j => j.queue? ref) with
  | none => s
  | some q =>
    let q := State.advance q st.flight.last
    let st := { st with s := st.s.noteTag (hPhase st.flight.record) }
    if st.instant && (ref.eng != engTile || q.flight.isEmpty) then
      (st.s.updJob jid (fun j => j.setQueue q)).complete jid ref st.flight
    else st.s.updJob jid (fun j => j.setQueue { q with flight := q.flight ++ [st.flight] })

/-- The gate of R154 at check 4: none, a rejection, or a completion without data. A GATHER carries the tag OPT (R272). -/
def gateOf (j : Job) (r : Nat) : Option (Option Res) :=
  if !j.numerics.gateEn || (hPhase r != 3 && hKind r != 0x82) then none
  else match j.numerics.gate with
    | .opened => none
    | .undecided => some none
    | .skip => some (some { code := eStepSkip })
    | .hold => some (some { code := ePoison, poison := true })

/-- The last record of its list: LAST, or the record at the count. -/
def endsList (q : Queue) (r : Nat) : Bool :=
  hLast r || (q.lists.head?.map (fun l => decide (l.count ≤ q.pos + 1))).getD true

/-- The job stops at its command boundary (R332). -/
def stopsHard (s : State) (j : Job) : Bool := s.sched.stop.any (fun t => t.job == j.id && t.hard)

/-- No command of the job starts: it stops at its command boundary, it waits to end with its pipeline IDLE, or it ends (R332,
R340). -/
def holding (s : State) (j : Job) : Bool :=
  stopsHard s j || decide (j.st = JobState.draining) ||
  (decide (j.strand.pipe.st = PipeState.idle) && j.deferrals.any (fun d => decide (d.kind = DeferKind.jobCancel)))

/-- The die of an engine (R9, R12). -/
def engDie (r : QRef) : Nat :=
  match r.eng with
  | 0 => r.inst / 64
  | 1 => r.inst / 4
  | 3 => r.inst
  | 4 => 2
  | _ => 1

/-- The running job, as the Strand engine serves it: not while die 1 holds. -/
def strandJob (s : State) : Option Job := if dieHeld s 1 then none else s.runJob

/-- The command starts only once every earlier command of its queue has completed: FENCE is set, or its engine is the Strand
engine or job control, which R47 does not list among the engines that may overlap commands (DEDUCED, log 109). -/
def alone (ref : QRef) (r : Nat) : Bool := hFence r || ref.eng == engStrand || ref.eng == engJob

/-- A tile sequencer completes its commands in order (R47), so a record that fails is rejected once those before it have
completed (DEDUCED, log 110). -/
def rejectTurn (s : State) (q : Queue) (ref : QRef) (jid r : Nat) (f : Fail) : State :=
  if ref.eng == engTile && !q.flight.isEmpty then s else s.reject jid ref r (endsList q r) f

/-! ## Arbitration (R50) -/

/-- Mover and Ring engines serve their queues in turn; a Strand or Locket engine serves queue 0 first. -/
def inTurn (eng : Nat) : Bool := eng == engMover || eng == engRing

/-- A queue's place in the order of service of its engine: its distance from the queue whose turn is next. -/
def State.place (s : State) (ref : QRef) : Nat :=
  let n := engQueues ref.eng
  if inTurn ref.eng then (ref.q + n - sget 0 s.turns (ref.eng * 256 + ref.inst) % n) % n else ref.q

/-- No queue of the same engine that could go on stands before this one. -/
def myTurn (s : State) (j : Job) (ref : QRef) (wants : Queue → Bool) : Bool :=
  j.queues.all (fun p => !(p.ref.eng == ref.eng && p.ref.inst == ref.inst && decide (s.place p.ref < s.place ref) && wants p))

/-- A queue was served: the next one's turn comes. -/
def State.takeTurn (s : State) (ref : QRef) : State :=
  if inTurn ref.eng then { s with turns := sput 0 s.turns (ref.eng * 256 + ref.inst) ((ref.q + 1) % engQueues ref.eng) } else s

/-! ## Tile and Mover accesses that overlap (R101) -/

/-- Writes in flight that a command of queue `ref` is not ordered against: those of Movers for a tile, of tiles for a Mover. -/
def racing (j : Job) (ref : QRef) : List (Nat × Bytes) :=
  let of (eng : Nat) := (j.queues.filter (fun p => p.ref.eng == eng)).flatMap (fun p => p.flight.flatMap (fun f =>
    f.writes ++ (match f.op with
      | .stream w => w.chunks.flatMap (·.writes)
      | _ => [])))
  if ref.eng = engTile then of engMover else if ref.eng = engMover then of engTile else []

/-- Writes cut at the 64-byte units. -/
def byUnit (ws : List (Nat × Bytes)) : List (Nat × Nat × Bytes) :=
  ws.flatMap (fun w => (State.unitsOf w.1 w.2.length).map (fun u =>
    let lo := max w.1 (64 * u)
    (u, lo, (w.2.drop (lo - w.1)).take (64 * u + 64 - lo))))

/-- Memory as a starting command sees it: each unit that an unordered write in flight touches reads wholly old or wholly new, and
which one is a free value. -/
def State.seen (s : State) (ws : List (Nat × Bytes)) : State :=
  let pieces := byUnit ws
  let us := (pieces.map (·.1)).eraseDups
  let new := (List.range us.length).zip us |>.filter (fun p => Config.freeNat (s.free + p.1) % 2 = 1) |>.map (·.2)
  { s with free := s.free + us.length, mem := (pieces.filter (fun p => new.contains p.1)).foldl (fun m p => m.write p.2.1 p.2.2) s.mem }

/-- The command's start, on memory as it sees it. -/
def begin (sp : CmdSpec) (s : State) (j : Job) (q : Queue) (r : Nat) : Started :=
  let f := newFlight q r
  match racing j q.ref with
  | [] => sp.start s j q r f
  | ws =>
    let st := sp.start (s.seen ws) j q r f
    { st with s := { st.s with mem := s.mem } }

/-- What a command in flight reads and an unordered write changes meanwhile (R101): the contents it has noted, and the writes still in
flight. -/
def tornBy (j : Job) (ref : QRef) (f : Flight) : List (Nat × Bytes) :=
  f.torn ++ (racing j ref).filter (fun w => f.reads.any (fun p => overlaps w.1 w.2.length p.1 p.2))

/-- A fetched command does not go on yet: no command of the job starts, its die holds, a peer's answer or its wait is due, an
earlier command must complete first, a record is kept back, or its own conditions do not hold. -/
def stays (sp : CmdSpec) (s : State) (j : Job) (q : Queue) (w : Waiting) : Bool :=
  holding s j || dieHeld s (engDie q.ref) || w.asks.any (fun a => a.2.isNone) || !waitOver s w.record ||
    (alone q.ref w.record && !q.flight.isEmpty) || !q.held.isEmpty || !sp.ready s j q w.record

/-- Start of a fetched command, if its wait is over (R56 checks 4 and 5, R154); else it goes on waiting. -/
def tryStart (sp : CmdSpec) (s : State) (j : Job) (q : Queue) (w : Waiting) : State :=
  let r := w.record
  if dieHeld s (engDie q.ref) then s
  else match w.asks.find? (fun a => a.2.any (fun c => c != 0 && c != eLinkDown)) with
  | some a => s.reject j.id q.ref r (endsList q r) ⟨a.2.getD 0, sp.askArg, 0xFFFF⟩
  | none =>
    if stays sp s j q w then s
    else match gateOf j r with
      | some none => rejectTurn s q q.ref j.id r ⟨eState, 0, 0xFFFF⟩
      | some (some res) => launch s j.id q.ref ⟨sp.skip s j r, { newFlight q r with res := res }, true⟩
      | none =>
        match firstFail (sp.late s j q r) 7 2 with
        | some f => rejectTurn (sp.refused s j) q q.ref j.id r f
        | none =>
          match sp.exchange s j q w with
          | some s => s
          | none => launch s j.id q.ref (begin sp s j q r)

/-- The queue's engine can take up its next record. -/
def canFetch (q : Queue) : Bool := !q.halted && q.held.isEmpty && q.cur.isNone && !q.lists.isEmpty

/-- Always: no further condition, no further check. -/
def always (_ : State) (_ : Job) (_ : Queue) (_ : Nat) : Bool := true
def noChecks (_ : State) (_ : Job) (_ : Queue) (_ : Nat) : List Chk := []

/-- A command of the header alone. -/
def startPlain (s : State) (_ : Job) (_ : Queue) (_ : Nat) (f : Flight) : Started := ⟨s, f, true⟩

/-- A deferrable command is accepted: its first record carries DEFERRED, and it joins the job's deferrals (R62). -/
def startDeferred (k : DeferKind) (data : Nat) (s : State) (j : Job) (q : Queue) (r : Nat) (f : Flight) : Started :=
  ⟨s.updJob j.id (fun j => { j with deferrals := j.deferrals ++
      [{ kind := k, record := r, queue := q.ref, data := data, since := s.fabric }] }),
    { f with res := { deferred := true } }, true⟩

end Sys2Proof.Machine
end

