-- ==== Sys2Proof/Machine/Versions.lean ====
section
/-! DEFINITION. Weight versions of a stage (R234-R237): binding, holds, step pins, retirement. -/
namespace Sys2Proof.Machine

def Job.stage? (j : Job) (i : Nat) : Option Stage := j.strand.stages.find? (fun t => t.idx == i)

def Job.setStage (j : Job) (t : Stage) : Job :=
  { j with strand := { j.strand with stages := j.strand.stages.map (fun u => if u.idx == t.idx then t else u) } }

/-- Index of the CURRENT slot. -/
def Stage.cur (t : Stage) : Nat := (t.slots.findIdx? (fun v => decide (v.st = VerState.current))).getD 0

def Stage.slot (t : Stage) (i : Nat) : VerSlot := t.slots.getD i {}

def Stage.setSlot (t : Stage) (i : Nat) (v : VerSlot) : Stage := { t with slots := t.slots.set i v }

/-- The slot that the next VERSION_PUBLISH makes CURRENT (R236). -/
def Stage.next (t : Stage) : Nat := if t.slots.length = 1 then 0 else (t.cur + 1) % t.slots.length

/-- Reference count of a slot, its step pin included (R235). -/
def VerSlot.refs (v : VerSlot) : Nat := v.count + v.pins.length

/-- What retires in a stage now: the slots after, and how often VER_CTR advances (R236). -/
def Stage.retire (t : Stage) : Stage × Nat :=
  if t.slots.length = 1 then
    let v := t.slot 0
    if v.due && v.refs == 0 then (t.setSlot 0 { v with due := false }, 1) else (t, 0)
  else
    let gone (v : VerSlot) : Bool := decide (v.st = VerState.held) && v.refs == 0
    ({ t with slots := t.slots.map (fun v => if gone v then { v with st := .free } else v) }, countIf gone t.slots)

namespace State

/-- A stage changed, with the retirements that follow. -/
def putStage (s : State) (jid : Nat) (t : Stage) : State :=
  let (t, n) := t.retire
  let s := s.updJob jid (fun j => j.setStage t)
  if n = 0 then s else s.addCtr t.verCtr n

def updStage (s : State) (jid idx : Nat) (f : Stage → Stage) : State :=
  match (s.job? jid).bind (fun j => j.stage? idx) with
  | none => s
  | some t => s.putStage jid (f t)

/-- One more holder of a slot. -/
def holdVer (s : State) (jid stage slot : Nat) : State :=
  s.updStage jid stage (fun t => let v := t.slot slot; t.setSlot slot { v with count := v.count + 1 })

/-- A hold ends (R235). -/
def dropVer (s : State) (jid stage slot : Nat) : State :=
  s.updStage jid stage (fun t => let v := t.slot slot; t.setSlot slot { v with count := v.count - 1 })

/-- A micro-batch of a step binds a slot at the dispatch of its F, and the step pins it (R235, R236). -/
def bindVer (s : State) (jid stage slot n step : Nat) : State :=
  s.updStage jid stage (fun t =>
    let v := t.slot slot
    let t := { t with
      binds := t.binds.filter (fun (b : Nat × Nat) => b.1 != n) ++ [(n, slot)], held := t.held ++ [n] }
    t.setSlot slot { v with
      count := v.count + 1, pins := if v.pins.contains step then v.pins else v.pins ++ [step]
      due := v.due || !v.bound, bound := true })

/-- The hold of a micro-batch ends (R235); its binding stays known until its step is over (R241). -/
def unbindVer (s : State) (jid stage n : Nat) : State :=
  match (s.job? jid).bind (fun j => j.stage? stage) with
  | none => s
  | some t =>
    match t.binds.find? (fun b => b.1 == n) with
    | none => s
    | some b =>
      if !t.held.contains n then s
      else (s.updStage jid stage (fun t => { t with held := t.held.filter (· != n) })).dropVer jid stage b.2

/-- A step's pins are released (R231, R235). -/
def unpin (s : State) (jid step : Nat) : State :=
  match s.job? jid with
  | none => s
  | some j => j.strand.stages.foldl (fun s t =>
      s.updStage jid t.idx (fun t =>
        { t with slots := t.slots.map (fun v => { v with pins := v.pins.filter (· != step) }) })) s

end State
end Sys2Proof.Machine
end

