-- ==== Sys2Proof/Machine/StageBind.lean ====
section
/-! DEFINITION. STAGE_BIND (R209-R212, R234): the stage descriptor, its list table and its dispatch sets. -/
namespace Sys2Proof.Machine

/-! ## The stage descriptor (R209) -/

def sId (d : Nat) : Nat := bits d 0 12
def sGroup (d : Nat) : Nat := bits d 16 4
def sChunk (d : Nat) : Nat := bits d 20 3
def sExit (d : Nat) : Bool := bitAt d 23
def sMbLog2 (d : Nat) : Nat := bits d 40 3
def sVerSlots (d : Nat) : Nat := bits d 43 3 + 1
def sVerCtr (d : Nat) : Nat := bits d 48 12
def sTable (d : Nat) : Nat := bits d 64 48
def sOptGroups (d : Nat) : Nat := bits d 144 8
def sOptCtr (d : Nat) : Nat := bits d 156 12
def sTileFirst (d : Nat) : Nat := bits d 176 8
def sTileCount (d : Nat) : Nat := bits d 184 9
def sStatus (d : Nat) : Nat := bits d 256 48

/-- References of the list table (R211). -/
def sRefs (d : Nat) : Nat := 3 * 2 ^ sMbLog2 d + 1 + sOptGroups d

/-- The list table can be read. -/
def sReadable (s : State) (d : Nat) : Bool :=
  decide (sMbLog2 d ≤ 5) && sTable d % 16 == 0 && s.inStore (sTable d) (16 * sRefs d)

/-- ARG bits of a field of item `i` of the list table, or of the descriptor (R210). -/
def sExtra (i : Nat) : Nat := 2 ^ 31 + i * 2 ^ 16

/-- Checks 1 to 3 on the descriptor (R210). -/
def sDescChecks (s : State) (j : Job) (d : Nat) : List Chk :=
  onItem (sExtra 0) 0xFFFF
    [ ckZero d 12 4, ckZero d 29 3, ckZero d 39 1, ckZero d 46 2, ckZero d 60 4, ckZero d 112 16, ckZero d 152 4,
      ckZero d 168 8, ckZero d 193 63, ckZero d 304 208,
      ckEnum 37 2 (bits d 37 2 == 3), ckEnum 40 3 (decide (5 < sMbLog2 d)),
      ckRange 0 12 (decide (2047 < sId d)),
      ckRange 23 1 (!sExit d && sMbLog2 d == 0),
      ckRange 32 5 (bits d 32 5 == 0),
      ckRange 144 8 ((sOptGroups d == 0 && sOptCtr d != 0) || (sOptGroups d != 0 && sOptCtr d == sVerCtr d)),
      ckRange 176 8 (decide (256 < sTileFirst d + sTileCount d)),
      ckRange 184 9 (sTileCount d == 0),
      ckAlign 64 48 (sTable d % 16 != 0), ckAlign 256 48 (sStatus d % 64 != 0),
      ckAddr 64 48 (!sReadable s d), ckAddr 256 48 (!s.inStore (sStatus d) 64),
      ckOwnF 48 12 (!j.ownsCtr (sVerCtr d)),
      ckOwnF 64 48 (!j.owns (sTable d) (16 * sRefs d)),
      ckOwnF 156 12 (sOptGroups d != 0 && !j.ownsCtr (sOptCtr d)),
      ckOwnF 256 48 (!j.owns (sStatus d) 64) ]

/-! ## Set references and dispatch-set entries (R211, R212) -/

def rAddr (x : Nat) : Nat := bits x 0 48
def rCount (x : Nat) : Nat := bits x 48 10

/-- The set of a reference can be read. -/
def rReadable (s : State) (x : Nat) : Bool :=
  decide (rCount x ≤ 512) && rAddr x % 32 == 0 && (rCount x == 0 || s.inStore (rAddr x) (32 * rCount x))

def refChecks (s : State) (j : Job) (i x : Nat) : List Chk :=
  onItem (sExtra i) 0xFFFF
    [ ckZero x 58 70, ckRange 48 10 (decide (512 < rCount x)), ckAlign 0 48 (rAddr x % 32 != 0),
      ckAddr 0 48 (rCount x != 0 && !s.inStore (rAddr x) (32 * rCount x)),
      ckOwnF 0 48 (rCount x != 0 && !j.owns (rAddr x) (32 * rCount x)) ]

def enTarget (e : Nat) : QRef := ⟨bits e 0 4, bits e 8 8, bits e 4 4⟩
def enAddr (e : Nat) : Nat := bits e 128 48
def enCount (e : Nat) : Nat := bits e 176 16

/-- Checks on entry `k` of the set of reference `i`, for a stage with the given descriptor. -/
def entryChecks (s : State) (j : Job) (d i k e : Nat) : List Chk :=
  let t := enTarget e
  let tileOut := t.eng == engTile && !(decide (sTileFirst d ≤ t.inst) && decide (t.inst < sTileFirst d + sTileCount d))
  onItem (sExtra i) k
    [ ckZero e 16 112, ckZero e 208 48,
      ckEnum 0 4 (!(t.eng == 0 || t.eng == 1 || t.eng == 3 || t.eng == 4)),
      ckRange 4 4 (decide (engQueues t.eng ≤ t.q)),
      ckRange 8 8 (decide (engInsts t.eng ≤ t.inst) || tileOut),
      ckRange 176 16 (enCount e == 0),
      ckAlign 128 48 (enAddr e % 64 != 0),
      ckAddr 128 48 (!s.inStore (enAddr e) (64 * enCount e)),
      ckOwnF 128 48 (!j.owns (enAddr e) (64 * enCount e)),
      ckOwnF 192 16 (bits e 192 16 != j.id) ] ++
  [ ckState eState ((j.queue? t).isNone) ]

/-- The entries of a reference's set. -/
def setOf (s : State) (x : Nat) : List Nat :=
  if rReadable s x then (List.range (rCount x)).map (fun k => s.num (rAddr x + 32 * k) 32) else []

/-- The references of a stage's list table. -/
def refsOf (s : State) (d : Nat) : List Nat :=
  if sReadable s d then (List.range (sRefs d)).map (fun i => s.num (sTable d + 16 * i) 16) else []

/-- What STAGE_BIND reads, in words of 32 bytes: the references, each marked in bit 128, and in bit 129 where its set can be read; then
the entries of the sets that can (R210, R212). -/
def stageWords (s : State) (d : Nat) : List Nat :=
  let rs := refsOf s d
  rs.map (fun x => x % 2 ^ 128 + place 128 1 1 + place 129 1 (boolNat (rReadable s x))) ++ rs.flatMap (setOf s)

/-- Sets of the references as they were read, from word `p` of the item. -/
def setsFrom (r : Nat) : List Nat → Nat → List (Nat × List Nat)
  | [], _ => []
  | x :: xs, p =>
    let n := if bitAt x 129 then rCount x else 0
    (x % 2 ^ 128, (List.range n).map (fun k => bits r (1024 + 256 * (p + k)) 256)) :: setsFrom r xs (p + n)

/-- The references and sets read with a STAGE_BIND record. -/
def setsIn (r d : Nat) : List (Nat × List Nat) :=
  let rs := if bitAt r (1024 + 128) then (List.range (sRefs d)).map (fun i => bits r (1024 + 256 * i) 256) else []
  setsFrom r rs rs.length

/-- Checks on the list table, each reference followed by its entries (R429). -/
def tableChecks (s : State) (j : Job) (r d : Nat) : List Chk :=
  let rs := setsIn r d
  ((List.range rs.length).zip rs).flatMap (fun p =>
    refChecks s j p.1 p.2.1 ++ ((List.range p.2.2.length).zip p.2.2).flatMap (fun q => entryChecks s j d p.1 q.1 q.2))

/-! ## STAGE_BIND -/

def bindDescAddr (r : Nat) : Nat := bits r 144 48
/-- The descriptor as it was read with the record. -/
def bindDesc (r : Nat) : Nat := bits r 512 512
/-- What is read with a record that names a descriptor at DESC_ADDR. -/
def bindItem (s : State) (r : Nat) : Nat := s.num (bindDescAddr r) 64

/-- The descriptor that a record names at DESC_ADDR can be read. -/
def descReadable (s : State) (r : Nat) : Bool := bindDescAddr r % 64 == 0 && s.inStore (bindDescAddr r) 64

/-- What is read with STAGE_BIND: the descriptor, its list table and its sets. -/
def stageItem (s : State) (r : Nat) : Nat :=
  let d := bindItem s r
  if descReadable s r then d + 2 ^ 512 * (stageWords s d).foldr (fun w n => w + 2 ^ 256 * n) 0 else d

/-- Checks on DESC_ADDR (R209, R216). -/
def descAddrChecks (s : State) (j : Job) (r : Nat) : List Chk :=
  [ ckAlign 144 48 (bindDescAddr r % 64 != 0), ckAddr 144 48 (!s.inStore (bindDescAddr r) 64),
    ckOwn (!j.owns (bindDescAddr r) 64) ]

def stageChecks (s : State) (j : Job) (_ : Queue) (r : Nat) : List Chk :=
  let d := bindDesc r
  [ ckZero r 132 12, ckZero r 192 320 ] ++ descAddrChecks s j r ++
  (if descReadable s r then (sDescChecks s j d ++ tableChecks s j r d).filter (fun c => c.pass != 7) else [])

/-- Relations to the job's other stages (R207, R210). -/
def stageLate (s : State) (j : Job) (_ : Queue) (r : Nat) : List Chk :=
  let d := bindDesc r
  let st := j.strand
  let ours (t : Stage) : Bool := t.tileFirst == sTileFirst d && t.tileCount == sTileCount d
  [ ckState eState (decide (st.pipe.st ≠ PipeState.idle)),
    ckState eState ((j.stage? (bits r 128 4)).isSome),
    ckState eState (st.stages.any (fun t => t.stageId == sId d)),
    ckState eState (st.stages.any (fun t =>
      if t.group == sGroup d then !ours t else overlaps t.tileFirst t.tileCount (sTileFirst d) (sTileCount d))),
    ckState eState (st.stages.any (fun t => t.group == sGroup d && t.chunk == sChunk d)) ] ++
  (tableChecks s j r d).filter (fun c => c.pass == 7)

/-- The stage that a record with its descriptor and sets binds: slot 0 CURRENT, the others FREE (R234). -/
def stageOf (r : Nat) : Stage :=
  let d := bindDesc r
  { idx := bits r 128 4, stageId := sId d, group := sGroup d, chunk := sChunk d, exit := sExit d, warmup := bits d 24 5
    wLimit := bits d 32 5, idle := bits d 37 2, mbSlots := 2 ^ sMbLog2 d, verCtr := sVerCtr d, optGroups := sOptGroups d
    optCtr := sOptCtr d, tileFirst := sTileFirst d, tileCount := sTileCount d, statusAddr := sStatus d
    sets := (setsIn r d).map (fun x => x.2.map (fun e => ⟨enTarget e, enAddr e, enCount e⟩))
    slots := { st := .current, num := bits d 128 16 } :: List.replicate (sVerSlots d - 1) {} }

def stageStart (s : State) (j : Job) (_ : Queue) (r : Nat) (f : Flight) : Started :=
  let t := stageOf r
  let s := s.updJob j.id (fun j => { j with strand := { j.strand with stages := j.strand.stages ++ [t] } })
  ⟨s.addCtr t.verCtr (sVerSlots (bindDesc r) - 1), f, true⟩

def stageSpec : CmdSpec :=
  { kind := 0x60, item := stageItem, fetch := always, checks := stageChecks, ready := always, late := stageLate, start := stageStart }

end Sys2Proof.Machine
end

