-- ==== Sys2Proof/Machine/EdgeBind.lean ====
section
/-! DEFINITION. Edges (R216-R218): the edge descriptor, one direction of an edge, EDGE_BIND, and the opening notice (R245). -/
namespace Sys2Proof.Machine

/-! ## The edge descriptor (R216) -/

def gId (d : Nat) : Nat := bits d 0 16
def gFeed (d : Nat) : Bool := bitAt d 16
def gUp (d : Nat) : Bool := bitAt d 17
def gDn (d : Nat) : Bool := bitAt d 18
def gPeer (d : Nat) : Nat := bits d 24 8
def gUpStage (d : Nat) : Nat := bits d 32 12
def gDnStage (d : Nat) : Nat := bits d 48 12
def gReplayDepth (d : Nat) : Nat := bits d 76 2
def gFeedCtr (d : Nat) : Nat := bits d 272 12
def gReplayAddr (d : Nat) : Nat := bits d 288 48

/-- Exactly one end of the edge is on another module. -/
def gRemote (d : Nat) : Bool := !gFeed d && (gUp d != gDn d)

/-- One direction of an edge: activations, or gradients (`bwd`) (R218). -/
structure DirView where
  depth : Nat
  /-- Receive units of 64 bytes per receiving tile, and send units per sending tile. -/
  units : Nat
  sunits : Nat
  split : Bool
  rbuf  : Nat
  sbuf  : Nat
  /-- Item after which an entry is released: 0 F, 1 B, 2 W. -/
  rel   : Nat
  /-- STAGE_IDs of the sending and receiving ends, and whether they are on this module. -/
  snd   : Nat
  rcv   : Nat
  sndHere : Bool
  rcvHere : Bool
  deriving DecidableEq, Repr

def dirView (d : Nat) (bwd : Bool) : DirView :=
  if bwd then
    { depth := 2 ^ bits d 67 3, units := bits d 96 16, sunits := bits d 128 16, split := bitAt d 75, rbuf := bits d 176 22
      sbuf := bits d 240 22, rel := bits d 72 2, snd := gDnStage d, rcv := gUpStage d, sndHere := gDn d && !gFeed d
      rcvHere := gUp d }
  else
    { depth := 2 ^ bits d 64 3, units := bits d 80 16, sunits := bits d 112 16, split := bitAt d 74, rbuf := bits d 144 22
      sbuf := bits d 208 22, rel := bits d 70 2, snd := gUpStage d, rcv := gDnStage d, sndHere := gUp d, rcvHere := gDn d }

def Edge.view (e : Edge) (bwd : Bool) : DirView := dirView e.desc bwd
def Edge.dir (e : Edge) (bwd : Bool) : EdgeDir := if bwd then e.bwd else e.fwd
def Edge.setDir (e : Edge) (bwd : Bool) (x : EdgeDir) : Edge := if bwd then { e with bwd := x } else { e with fwd := x }

def Job.edge? (j : Job) (slot : Nat) : Option Edge := j.strand.edges.find? (fun e => e.slot == slot)
def Job.setEdge (j : Job) (e : Edge) : Job :=
  { j with strand := { j.strand with edges := j.strand.edges.map (fun x => if x.slot == e.slot then e else x) } }

/-- The stage of the job with a STAGE_ID on this module. -/
def Job.stageNamed (j : Job) (id : Nat) : Option Stage := j.strand.stages.find? (fun t => t.stageId == id)

/-- In-edges and out-edges of a stage. -/
def Job.inEdges (j : Job) (t : Stage) : List Edge := j.strand.edges.filter (fun e => gDn e.desc && gDnStage e.desc == t.stageId)
def Job.outEdges (j : Job) (t : Stage) : List Edge :=
  j.strand.edges.filter (fun e => gUp e.desc && !gFeed e.desc && gUpStage e.desc == t.stageId)

/-- Edges on which a stage sends (`snd`) or receives in a direction. -/
def Job.sends (j : Job) (t : Stage) (bwd : Bool) : List Edge :=
  if bwd then (j.inEdges t).filter (fun e => !gFeed e.desc) else j.outEdges t
def Job.receives (j : Job) (t : Stage) (bwd : Bool) : List Edge := if bwd then j.outEdges t else j.inEdges t

/-- Bytes of a feed entry (R240): U times the tiles it is split over. -/
def feedEntryBytes (d tiles : Nat) : Nat :=
  let v := dirView d false
  v.units * 64 * (if v.split then tiles else 1)

/-! ## EDGE_BIND (R217) -/

/-- Local buffers of an edge: bit of the offset and of the units field, and entries held. -/
def gBufs (d : Nat) : List (Nat × Nat × Nat) :=
  (if gDn d then [(144, 80, 2 ^ bits d 64 3)] else []) ++
  (if gUp d && !gFeed d then [(176, 96, 2 ^ bits d 67 3), (208, 112, 2)] else []) ++
  (if gDn d && !gFeed d then [(240, 128, 2)] else [])

def edgeDescChecks (j : Job) (d : Nat) : List Chk :=
  let feed := gFeed d
  let here (u : Nat) : Bool := (gBufs d).any (fun b => b.2.1 == u) && bits d u 16 == 0
  let nf (w lo : Nat) : Chk := ckZero (if feed then d else 0) lo w
  let yf (w lo : Nat) : Chk := ckZero (if feed then 0 else d) lo w
  onItem (sExtra 0) 0xFFFF (
    [ ckZero d 19 5, nf 12 32, ckZero d 44 4, nf 3 67, nf 2 72, yf 2 76, ckZero d 78 2, nf 16 96, nf 16 112, nf 16 128,
      ckZero d 166 10, nf 22 176, ckZero d 198 10, nf 22 208, ckZero d 230 10, nf 22 240, ckZero d 262 10, yf 12 272,
      ckZero d 284 4, ckZero (if feed && gReplayDepth d != 0 then 0 else d) 288 48, ckZero d 336 176,
      ckEnum 64 3 (decide (5 < bits d 64 3)), ckEnum 67 3 (!feed && decide (5 < bits d 67 3)),
      ckEnum 70 2 (bits d 70 2 == 3), ckEnum 72 2 (!feed && (bits d 72 2 == 0 || bits d 72 2 == 3)),
      ckRange 16 1 (if feed then !(gDn d && !gUp d) else !gUp d && !gDn d),
      ckRange 24 8 ((gPeer d != 0) != gRemote d),
      ckRange 80 16 (here 80), ckRange 96 16 (here 96), ckRange 112 16 (here 112), ckRange 128 16 (here 128) ] ++
    (gBufs d).map (fun b => ckAlign b.1 22 (bits d b.1 22 % 64 != 0)) ++
    [ ckAlign 288 48 (gReplayAddr d % 64 != 0) ] ++
    (gBufs d).map (fun b => ckAddr b.1 22 (decide (0x400000 < bits d b.1 22 + b.2.2 * (bits d b.2.1 16 * 64)))) ++
    [ ckOwnF 24 8 (gPeer d != 0 && !j.hasModule (gPeer d)),
      ckOwnF 272 12 (feed && !j.ownsCtr (gFeedCtr d)) ])

def edgeChecks (s : State) (j : Job) (_ : Queue) (r : Nat) : List Chk :=
  [ ckZero r 134 10, ckZero r 192 320 ] ++ descAddrChecks s j r ++
  (if descReadable s r then edgeDescChecks j (bindDesc r) else [])

/-- The ends of an edge that are on this module: STAGE_ID, whether it is the downstream end, and port index. -/
def gEnds (d : Nat) : List (Nat × Bool × Nat) :=
  (if gDn d then [(gDnStage d, true, bits d 62 2)] else []) ++
  (if gUp d && !gFeed d then [(gUpStage d, false, bits d 60 2)] else [])

/-- MB_SLOTS of the stage that receives a direction here is below its depth. -/
def shallow (j : Job) (d : Nat) (bwd : Bool) : Bool :=
  let v := dirView d bwd
  v.rcvHere && (j.stageNamed v.rcv).any (fun t => decide (t.mbSlots < v.depth))

def edgeLate (s : State) (j : Job) (_ : Queue) (r : Nat) : List Chk :=
  let d := bindDesc r
  [ ckState eState (decide (j.strand.pipe.st ≠ PipeState.idle)),
    ckState eState ((j.edge? (bits r 128 6)).isSome || j.strand.edges.any (fun e => gId e.desc == gId d)),
    ckState eState ((gEnds d).any (fun x => (j.stageNamed x.1).isNone)),
    ckState eState (j.strand.edges.any (fun e => (gEnds e.desc).any (fun x => (gEnds d).contains x))) ] ++
  [ ckCap eCredit (shallow j d false) (sExtra 0 + fieldArg 64 3),
    ckCap eCredit (!gFeed d && shallow j d true) (sExtra 0 + fieldArg 67 3) ]

/-! ## Opening notices (R245) -/

/-- Tiles of this module's end of an edge. -/
def ownTiles (j : Job) (d : Nat) : Nat :=
  ((j.stageNamed (if gUp d then gUpStage d else gDnStage d)).map (·.tileCount)).getD 0

/-- The opening notice for an edge, or the answer to one. -/
def openMsg (s : State) (j : Job) (e : Edge) (answer : Bool) : OpenMsg :=
  let d := e.desc
  { src := s.mod.id, job := j.id, edgeId := gId d, answer := answer, fwdLog2 := bits d 64 3, bwdLog2 := bits d 67 3
    fwdUnits := bits d 80 16, bwdUnits := bits d 96 16, fsendUnits := bits d 112 16, bsendUnits := bits d 128 16
    fwdSplit := bits d 74 1, bwdSplit := bits d 75 1, tiles := ownTiles j d }

/-- R218: the entry that the sending tiles make is the one that the receiving tiles take. -/
def sizeOk (v : DirView) (tcSnd tcRcv : Nat) : Bool := v.sunits * tcSnd == v.units * (if v.split then tcRcv else 1)

/-- Both directions of an edge agree for the tile counts of its ends. -/
def sizesOk (d tcUp tcDn : Nat) : Bool := sizeOk (dirView d false) tcUp tcDn && sizeOk (dirView d true) tcDn tcUp

/-- A peer's answer matches the edge: depths, UNITS and split fields, and every size of R218. -/
def answerOk (s : State) (j : Job) (e : Edge) (m : OpenMsg) : Bool :=
  let o := openMsg s j e true
  let same := m.fwdLog2 == o.fwdLog2 && m.bwdLog2 == o.bwdLog2 && m.fwdUnits == o.fwdUnits && m.bwdUnits == o.bwdUnits &&
    m.fsendUnits == o.fsendUnits && m.bsendUnits == o.bsendUnits && m.fwdSplit == o.fwdSplit && m.bwdSplit == o.bwdSplit
  same && (if gUp e.desc then sizesOk e.desc o.tiles m.tiles else sizesOk e.desc m.tiles o.tiles)

/-- Notices held for an edge, answered once it is bound (R245). -/
def State.answerHeld (s : State) (jid : Nat) (e : Edge) : State :=
  match s.job? jid with
  | none => s
  | some j =>
    let hit (m : OpenMsg) : Bool := m.edgeId == gId e.desc
    let s := s.updJob jid (fun j => { j with strand := { j.strand with notices := j.strand.notices.filter (fun m => !hit m) } })
    (j.strand.notices.filter hit).foldl (fun s m => s.send m.src (.openingNotice (openMsg s j e true))) s

def edgeStart (s : State) (j : Job) (_ : Queue) (r : Nat) (f : Flight) : Started :=
  let d := bindDesc r
  let e : Edge := { slot := bits r 128 6, desc := d, peerMod := gPeer d }
  let s := s.updJob j.id (fun j => { j with strand := { j.strand with edges := j.strand.edges ++ [e] } })
  ⟨s.answerHeld j.id e, f, true⟩

def edgeSpec : CmdSpec :=
  { kind := 0x61, item := bindItem, fetch := always, checks := edgeChecks, ready := always, late := edgeLate, start := edgeStart }

end Sys2Proof.Machine
end

