-- ==== Sys2Proof/Machine/Remote.lean ====
section
/-! DEFINITION. Remote memory on VC5 (R289, R171): serving a peer's requests, and asking peers. -/
namespace Sys2Proof.Machine

/-- Remote-memory word (R289). -/
def vc5Word (op : Nat) (poison : Bool) (job xid off : Nat) : Nat :=
  place 0 3 op + place 3 1 (boolNat poison) + place 4 16 job + place 20 14 xid + place 34 24 off

/-- Address and length payload of READ_REQ, WRITE_REQ and OWN_QUERY. -/
def rangePay (a n : Nat) : Nat := place 0 48 a + place 64 32 n

def xOp (f : SpokeFlit) : Nat := bits (fCls f) 0 3
def xPoison (f : SpokeFlit) : Bool := bitAt (fCls f) 3
def xJob (f : SpokeFlit) : Nat := bits (fCls f) 4 16
def xXid (f : SpokeFlit) : Nat := bits (fCls f) 20 14
def xOff (f : SpokeFlit) : Nat := bits (fCls f) 34 24
def xAddr (f : SpokeFlit) : Nat := bits (fPay f) 0 48
def xLen (f : SpokeFlit) : Nat := bits (fPay f) 64 32

/-- Pieces of 256 bytes of a transfer, each with its index. -/
def pieces : Nat → Nat → Bytes → List (Nat × Bytes)
  | 0, _, _ => []
  | _, _, [] => []
  | k + 1, i, b => (i, b.take 256) :: pieces k (i + 1) (b.drop 256)

def piecesOf (b : Bytes) : List (Nat × Bytes) := pieces (b.length / 256 + 1) 0 b

namespace State

/-- A VC5 flit for a job: by its class-M route entry (R299); for a job that this module has not admitted, by the forwarding table. -/
def sendVc5 (s : State) (job dst word pay : Nat) : Option State :=
  match s.job? job with
  | some j => s.sendJob j 4 dst 5 word pay
  | none =>
    if s.saidUnreachable dst then none
    else s.sendFlow (s.forward dst).dropped (s.forwardMask dst) (mkFlit 5 dst s.mod.id word pay)

/-- Classes by which traffic of no axis may travel: D, T, S, P, M, the first with a route to the module. DESIGN CHOICE (log 123). -/
def normClass (j : Job) (dst : Nat) : Nat :=
  ([1, 2, 3, 0, 4].find? (fun c => (j.route c dst).any (fun r => r.ports != 0))).getD 1

/-- A Locket copy on VC4 (R263, R287, R359): 256 bytes a flit, under the class word given for each piece; its content reaches the buddy's
Locket engine as the command it is there. None: the buddy is unreachable (R299). -/
def sendCopy (s : State) (j : Job) (cls dst : Nat) (word : Nat × Bytes → Nat) (m : Instr) (bs : Bytes) : Option State :=
  ((piecesOf bs).foldl (fun t p => t.bind (fun t => t.sendJob j cls dst 4 (word p) (ofLe p.2))) (some s)).map (·.emit (.msg dst m))

/-- The next transaction number. -/
def newXid (s : State) : Nat × State :=
  (s.spoke.xid, { s with spoke := { s.spoke with xid := (s.spoke.xid + 1) % 2 ^ 14 } })

/-- A request of a job to a peer; none: the peer is unreachable (a route entry of 0 included, R299). -/
def ask (s : State) (j : Job) (peer op a n : Nat) : Option (Nat × State) :=
  let (x, s) := s.newXid
  (s.sendJob j 4 peer 5 (vc5Word op false j.id x 0) (rangePay a n)).map (fun s => (x, s))

/-- A peer asked whether the job owns a range: key, and the answer at once where the peer is unreachable (R171). -/
def askOwn (s : State) (j : Job) (peer a n : Nat) : State × (Nat × Option Nat) :=
  match s.ask j peer 5 a n with
  | some (x, s) => (s, (peer * 2 ^ 14 + x, none))
  | none => (s, (peer * 2 ^ 14, some eLinkDown))

/-- The range lies in the module's pools and in the job's extents here (R170, R171). -/
def peerOwns (s : State) (job a n : Nat) : Bool :=
  s.inUser a n && (s.job? job).any (fun j => j.owns a n)

/-- Read data and DONE of a peer's read (R289); each piece that holds a poisoned unit travels with POISON. -/
def serveRead (s : State) (src job xid a n : Nat) : State :=
  let bad := s.badUnits a n
  let s' := (s.correct a n).meetBad job bad
  let s' := (piecesOf (s.read a n)).foldl (fun t p =>
    let p0 := bad.any (fun m => overlaps (m.1 * 64) 64 (a + 256 * p.1) p.2.length)
    (t.sendVc5 job src (vc5Word 3 p0 job xid p.1) (ofLe p.2)).getD t) s'
  (s'.sendVc5 job src (vc5Word 4 false job xid 0) (if bad.isEmpty then 0 else eUncorr)).getD s'

def sendDone (s : State) (src job xid code : Nat) : State :=
  (s.sendVc5 job src (vc5Word 4 false job xid 0) code).getD s

end State

/-- The oldest VC5 flit of a port, if it carries the operation. -/
def onVc5 (n op : Nat) (s : State) (k : SpokeFlit → State → State) : State :=
  match s.takeRx n 5 (fun f => xOp f == op) with
  | some (f, s) => k f s
  | none => s

/-- READ_REQ: served after the ownership check; a peer's ring read names no job and needs none (R398). -/
def serveReadReq (f : SpokeFlit) (s : State) : State :=
  let ok := if xJob f = 0 then s.inUser (xAddr f) (xLen f) else s.peerOwns (xJob f) (xAddr f) (xLen f)
  if ok then s.serveRead (fSrc f) (xJob f) (xXid f) (xAddr f) (xLen f)
  else s.sendDone (fSrc f) (xJob f) (xXid f) eProtect

/-- The range of this module's memory that a READ_REQ or WRITE_DATA touches. -/
def flitRange (s : State) (f : SpokeFlit) : Option (Nat × Nat) :=
  match xOp f with
  | 0 => some (xAddr f, xLen f)
  | 2 => (s.spoke.serving.find? (fun t => t.xid == xXid f && t.peer == fSrc f)).map (fun t => (t.addr + 256 * xOff f, min 256 (t.len - 256 * xOff f)))
  | _ => none

/-- The oldest VC5 flit of a port touches a channel in retrain or one whose die holds: it waits there. -/
def waitsHere (n : Nat) (s : State) : Bool :=
  match s.rxIdx n 5 true with
  | none => false
  | some i => ((s.port n).rx[i]?).any (fun f => (flitRange s f).any (fun r => s.heldRange r.1 r.2))

/-- A peer's request enters the hold queues of the channels in retrain that it touches, with its age; with no room in one of them, or where
a die holds, it stays in the receive buffer (R15, R32, R178, R179). -/
def holdPeer (n op : Nat) (s : State) : State :=
  match s.takeRx n 5 (fun f => xOp f == op) with
  | none => s
  | some (f, t) =>
    match flitRange s f with
    | none => s
    | some r =>
      let units (c : Nat × Channel) : Nat := if c.2.held then s.chanUnits c.1 r.1 r.2 else 0
      if s.stalledRange r.1 r.2 || s.lp.channels.any (fun c => decide (512 < c.2.hold + units c)) then s
      else { t with lp := { t.lp with
        ages := t.lp.ages + 1, peers := t.lp.peers ++ [(t.lp.ages, f)]
        channels := t.lp.channels.map (fun (c : Nat × Channel) => (c.1, { c.2 with hold := c.2.hold + units c })) } }

/-- A VC5 request that reads or writes memory: served, or held. -/
def peerRequest (n op : Nat) (s : State) (k : SpokeFlit → State → State) : State :=
  if waitsHere n s then holdPeer n op s else onVc5 n op s k

def execReadReq (port : Nat) (s : State) : Host.Outcome State Fault Refusal := done s (peerRequest port 0 s serveReadReq)

/-- WRITE_REQ: the transaction opens, or is refused; the result of a work-ring packet names no job, as the ring reads do. -/
def serveWriteReq (f : SpokeFlit) (s : State) : State :=
  let ok := if xJob f = 0 then s.inUser (xAddr f) (xLen f) else s.peerOwns (xJob f) (xAddr f) (xLen f)
  if ok then
    let t : Txn := { xid := xXid f, peer := fSrc f, job := xJob f, addr := xAddr f, len := xLen f, write := true }
    let ts := s.spoke.serving.filter (fun x => !(x.xid == t.xid && x.peer == t.peer)) ++ [t]
    { s with spoke := { s.spoke with serving := ts } }
  else s.sendDone (fSrc f) (xJob f) (xXid f) eProtect

def execWriteReq (port : Nat) (s : State) : Host.Outcome State Fault Refusal := done s (onVc5 port 1 s serveWriteReq)

/-- WRITE_DATA: bytes of an open transaction; a poisoned piece is poison-marked; the last one is answered with DONE. -/
def serveWriteData (f : SpokeFlit) (s : State) : State :=
  match s.spoke.serving.find? (fun t => t.xid == xXid f && t.peer == fSrc f) with
  | none => s
  | some t =>
    let o := xOff f * 256
    let n := min 256 (t.len - o)
    let a := t.addr + o
    let part := (s.badUnits a n).filter (fun m => !inside (m.1 * 64) 64 a n)
    let s := (((s.correctParts [(a, leBytes n (fPay f))]).write a (leBytes n (fPay f))).meetBad t.job part).queueWrites [(a, n)]
    let s := if xPoison f then s.poisonUnits (State.unitsOf a n) else s
    let t : Txn := { t with got := t.got + n, bad := t.bad || !part.isEmpty }
    let rest := s.spoke.serving.filter (fun x => !(x.xid == t.xid && x.peer == t.peer))
    if t.len ≤ t.got then
      ({ s with spoke := { s.spoke with serving := rest } }).sendDone t.peer t.job t.xid (if t.bad then eUncorr else 0)
    else { s with spoke := { s.spoke with serving := rest ++ [t] } }

def execWriteData (port : Nat) (s : State) : Host.Outcome State Fault Refusal :=
  done s (peerRequest port 2 s serveWriteData)

/-- OWN_QUERY: answered with OK or E_PERM_PROTECT (R171). -/
def serveOwn (f : SpokeFlit) (s : State) : State :=
  let code := if s.peerOwns (xJob f) (xAddr f) (xLen f) then 0 else eProtect
  (s.sendVc5 (xJob f) (fSrc f) (vc5Word 6 false (xJob f) (xXid f) 0) code).getD s

def execOwnQuery (port : Nat) (s : State) : Host.Outcome State Fault Refusal := done s (onVc5 port 5 s serveOwn)

end Sys2Proof.Machine
end

