-- ==== Sys2Proof/Machine/Pedal.lean ====
section
/-! DEFINITION. Fields of a gear table (R377) and pedal holds (R384). -/
namespace Sys2Proof.Machine

/-! ## The gear table (R377), as one number of 80 bytes -/

def gtMap (t p : Nat) : Nat := bits t (3 * p) 3
def gtGive (t : Nat) : Nat := bits t 24 4
def gtLead (t : Nat) : Nat := bits t 28 4
def gtPct (t : Nat) : Nat := bits t 32 7
def gtEn (t b : Nat) : Bool := bitAt t (40 + b)
def gtMs (t : Nat) : Nat := bits t 48 16
def gtTarget (t g : Nat) : Nat := bits t (128 + 64 * g) 16
def gtVmax (t g : Nat) : Nat := bits t (144 + 64 * g) 10
def gtShare (t g : Nat) : Nat := bits t (160 + 64 * g) 7

/-! ## Pedal holds (R384) -/

/-- Situations of R384. -/
def pedalOnStart : Nat := 0
def pedalOnTest : Nat := 1
def pedalOnRecovery : Nat := 2

/-- SHARE × cap, in W. Each of the four dies has a quarter of it, of which every phase lost without a spare takes 1/24 (R346; DEDUCED,
log 154). -/
def baseBudget (s : State) (g : Nat) : Nat :=
  gtShare s.pwr.table g * s.pwr.cap * (96 - min 96 (s.dies.map (·.shareLost)).sum) / 9600

/-- Mean input power over the last 10 ms. -/
def Power.mean10 (p : Power) : Nat := if p.hist = [] then p.power else p.hist.sum / p.hist.length

namespace State

/-- A situation begins: a hold starts if PEDAL_EN enables it and PEDAL_PCT is not 0. -/
def pedalStart (s : State) (bit job : Nat) : State :=
  let t := s.pwr.table
  if !gtEn t bit || gtPct t == 0 then s
  else
    let h : Pedal := { bit := bit, job := job, gear := s.pwr.gear, floor := s.pwr.mean10 * gtPct t / 100, since := s.now }
    { s with pwr := { s.pwr with pedals := s.pwr.pedals.filter (fun p => p.bit != bit) ++ [h] } }

/-- A situation ends. -/
def pedalEnd (s : State) (bit : Nat) : State :=
  { s with pwr := { s.pwr with pedals := s.pwr.pedals.filter (fun p => p.bit != bit) } }

end State
end Sys2Proof.Machine
end

