-- ==== Sys2Proof/Machine/Transcend.lean ====
section
/-! DEFINITION. The functions of R139 and R157, evaluated far enough beyond FP32 that one rounding is the correct
one: each gives an exact value or a value with a sticky bit below it. -/
namespace Sys2Proof.Machine

/-- Fraction bits of the fixed-point work. -/
def fxBits : Nat := 640

/-- Newton steps for the integer square root of n, from an estimate not below it. -/
def isqrtStep : Nat → Nat → Nat → Nat
  | 0, _, x => x
  | k + 1, n, x =>
    let y := (x + n / x) / 2
    if y < x then isqrtStep k n y else x

/-- ⌊√n⌋. -/
def isqrt (n : Nat) : Nat :=
  if n = 0 then 0 else isqrtStep (Nat.log2 n + 2) n (2 ^ (Nat.log2 n / 2 + 1))

/-- Terms of the exponential series, r a signed fixed-point number: 1 + r (1 + r/2 (1 + r/3 ...)). -/
def expSeries : Nat → Nat → Int → Int → Int
  | 0, _, _, acc => acc
  | k + 1, _, r, acc =>
    expSeries k 0 r ((2 ^ fxBits : Nat) + (r * acc / (2 ^ fxBits : Nat)) / ((k : Int) + 1))

def squareTimes : Nat → Nat → Nat
  | 0, x => x
  | k + 1, x => squareTimes k (x * x / 2 ^ fxBits)

/-- e^x as a fixed-point number, for |x| ≤ 128, x = ±m × 2^e. -/
def expFixed (n : Bool) (m : Nat) (e : Int) : Nat :=
  let k := e + (fxBits : Int) - 16
  let a : Int := if 0 ≤ k then (m <<< k.toNat : Nat) else (m >>> (-k).toNat : Nat)
  let r := if n then -a else a
  squareTimes 16 (expSeries 80 0 r ((2 ^ fxBits : Nat) : Int)).toNat

/-- A value just above N × 2^(−fxBits): the sticky bit. -/
def sticky (neg : Bool) (n : Nat) (e : Int) : Val := .fin neg (2 * n + 1) (e - 1)

/-- |x| ≥ 2^k for a finite x. -/
def geqPow (m : Nat) (e k : Int) : Bool := m != 0 && decide (k ≤ log2Mag m e)

/-- VEXP before rounding. -/
def expVal : Val → Val
  | .nan => .nan
  | .inf n => if n then Val.zero else .inf false
  | .fin n m e =>
    if m = 0 then .fin false 1 0
    else if geqPow m e 7 then (if n then .fin false 1 (-400) else .fin false 1 400)
    else sticky false (expFixed n m e) (-(fxBits : Int))

/-- Odd powers of z over their index: z + z³/3 + z⁵/5 + ..., `k` terms from index i. -/
def atanhSeries : Nat → Nat → Int → Int → Int → Int
  | 0, _, _, _, acc => acc
  | k + 1, i, zp, z2, acc =>
    atanhSeries k (i + 2) (zp * z2 / (2 ^ fxBits : Nat)) z2 (acc + zp / (i : Int))

/-- 2 atanh(a / b) as a fixed-point number. -/
def atanh2 (a b : Int) : Int :=
  let z := a * (2 ^ fxBits : Nat) / b
  2 * atanhSeries 330 1 z (z * z / (2 ^ fxBits : Nat)) 0

/-- VLOG before rounding, with INVALID. -/
def logVal : Val → Val × Bool
  | .nan => (.nan, false)
  | .inf n => if n then (.nan, true) else (.inf false, false)
  | .fin n m e =>
    if m = 0 then (.inf true, false)
    else if n then (.nan, true)
    else
      let l := Nat.log2 m
      -- f = m / 2^l in [1, 2); taken in [3/4, 3/2) by halving
      let half := decide (3 * 2 ^ l ≤ 2 * m)
      let d : Nat := if half then 2 ^ (l + 1) else 2 ^ l
      let k : Int := e + l + (if half then 1 else 0)
      if m = d && k = 0 then (Val.zero, false)
      else
        let x := atanh2 ((m : Int) - d) ((m : Int) + d) + k * atanh2 1 3
        (sticky (decide (x < 0)) x.natAbs (-(fxBits : Int)), false)

/-- VRCP before rounding. -/
def rcpVal : Val → Val
  | .nan => .nan
  | .inf n => .fin n 0 0
  | .fin n m e =>
    if m = 0 then .inf n
    else
      let p := Nat.log2 m + 64
      let q := 2 ^ p / m
      if 2 ^ p % m = 0 then .fin n q (-e - p) else sticky n q (-e - p)

/-- √(a / b) × 2^h exactly or with a sticky bit, for b ≠ 0. -/
def sqrtRatio (a b : Nat) (h : Int) : Val :=
  let p := Nat.log2 b + 80
  let x := a <<< (2 * p)
  let r := isqrt (x / b)
  if r * r * b = x then .fin false r (h - p) else sticky false r (h - p)

/-- VRSQRT before rounding, with INVALID. -/
def rsqrtVal : Val → Val × Bool
  | .nan => (.nan, false)
  | .inf n => if n then (.nan, true) else (Val.zero, false)
  | .fin n m e =>
    if m = 0 then (.inf n, false)
    else if n then (.nan, true)
    else
      let m' := if e % 2 = 0 then m else 2 * m
      let e' := if e % 2 = 0 then e else e - 1
      (sqrtRatio 1 m' (-(e' / 2)), false)

/-- VTANH before rounding. -/
def tanhVal : Val → Val
  | .nan => .nan
  | .inf n => .fin n 1 0
  | .fin n m e =>
    if m = 0 then .fin n 0 0
    else if geqPow m e 5 then .fin n (2 ^ 64 - 1) (-64)
    else if !geqPow m e (-40) then .fin n (m * 2 ^ 200 - 1) (e - 200)
    else
      let x := expFixed false m (e + 1)
      let o := 2 ^ fxBits
      sticky n ((x - o) * o / (x + o)) (-(fxBits : Int))

/-- Clip factor of R157: 1.0, or MAX_NORM / √NORM2 before rounding. -/
def clipVal (maxNorm norm2 : Val) : Val :=
  match maxNorm, norm2 with
  | .fin _ a ea, .fin _ b eb =>
    if a = 0 || b = 0 || magLe b eb (a * a) (2 * ea) then .fin false 1 0
    else
      let b' := if eb % 2 = 0 then b else 2 * b
      let eb' := if eb % 2 = 0 then eb else eb - 1
      sqrtRatio (a * a) b' (ea - eb' / 2)
  | _, _ => .fin false 1 0

end Sys2Proof.Machine
end

