-- ==== Sys2Proof/Machine/StepGate.lean ====
section
/-! DEFINITION. Numerics across steps (R147-R157): the slots' update, copy and restore, the gate's decision and the step record. -/
namespace Sys2Proof.Machine

/-- Largest finite value of a slot format (R147), as m × 2^e. -/
def slotMax (fmt : Nat) : Nat × Int :=
  match fmt with
  | 3 => (65504, 0)
  | 4 => (448, 0)
  | 5 => (57344, 0)
  | 6 => (127, 0)
  | 7 => (255, 0)
  | 8 => (7, 0)
  | _ => (15, 0)

/-- Magnitude of a positive finite FP32 code. -/
def codeMag (c : Nat) : Nat × Int :=
  match decodeFp fp32 c with
  | .fin _ m e => (m, e)
  | _ => (0, 0)

/-- The smallest k from −127 for which A × 2^(H − k) ≤ M, at most +127 (R150). -/
def slotExp (fmt headroom a : Nat) : Int :=
  let (m, e) := codeMag a
  let mx := slotMax fmt
  let fits (k : Int) : Bool := magLe m (e + headroom - k) mx.1 mx.2
  (((List.range 254).map (fun i => Int.ofNat i - 127)).find? fits).getD 127

/-- R150 for one slot. -/
def slotUpdate (v : Slot) : Slot :=
  if v.pending = 0 then v
  else
    let h := v.hist ++ [v.pending]
    let h := if 16 < h.length then h.drop 1 else h
    let a := (h.map (·.toNat)).foldl max 0
    { v with hist := h, k := if v.auto then slotExp v.fmt v.headroom a else v.k, pending := 0 }

/-- Bits 127:64 of a slot's descriptor at a boundary (R147): the slot after its update, its amax and recomputes before. -/
def slotReport (v : Slot) (amax recomp : Nat) : Nat :=
  place 0 8 (toField 8 v.k) + place 8 5 v.hist.length + place 16 32 amax + place 48 16 recomp

namespace State

/-- The slots at a step boundary: updated, reported, copied (R150, R151). -/
def updateSlots (s : State) (j : Job) : State :=
  (List.range j.numerics.slotCount).foldl (fun s i =>
    let n := j.numerics.slotBase + i
    let v := s.slot n
    let w := slotUpdate v
    let s := s.setSlot n { w with recomp := 0, savedK := w.k, savedHist := w.hist }
    s.store (j.numerics.slotTable + 16 * i + 8) (leBytes 8 (slotReport w v.pending.toNat v.recomp))) s

/-- The slots as a replay finds them (R151). -/
def restoreSlots (s : State) (j : Job) : State :=
  (List.range j.numerics.slotCount).foldl (fun s i =>
    let n := j.numerics.slotBase + i
    let v := s.slot n
    s.setSlot n { v with k := v.savedK, hist := v.savedHist, pending := 0, recomp := 0 }) s

def updNum (s : State) (jid : Nat) (f : Numerics → Numerics) : State :=
  s.updJob jid (fun j => { j with numerics := f j.numerics })

end State

/-- The step counts start again (R155). -/
def Numerics.clearCounts (n : Numerics) : Numerics := { n with flagCount := 0, recompCount := 0, lostTotal := 0 }

/-- A norm total as it reaches the gate: FP32 code, and whether it came marked POISON; none after the timeout (R269). -/
abbrev NormTotal := Option (Nat × Bool)

/-- The gate of R153. -/
def gateFor (t : NormTotal) : Gate :=
  match t with
  | none => .hold
  | some (c, poison) => if poison then .hold else if (decodeFp fp32 c).isFin then .opened else .skip

/-- The step record of R155. -/
def stepRecord (n : Numerics) (step skipRun : Nat) (t : NormTotal) : Nat :=
  let g := gateFor t
  let norm2 := (t.map (·.1)).getD 0x7FC00000
  let clip := if g = Gate.opened then
      (toFp32 (clipVal (decodeFp fp32 n.maxNorm.toNat) (decodeFp fp32 norm2))).code
    else 0x7FC00000
  place 0 32 step + place 32 2 (match g with
    | .opened => 1
    | .skip => 2
    | _ => 3) +
  place 34 1 (boolNat (t.any (fun x => !(decodeFp fp32 x.1).isFin))) + place 35 1 (boolNat (n.flagCount != 0)) +
  place 36 1 (boolNat (t.all (·.2))) + place 37 1 (boolNat n.gateEn) + place 64 32 norm2 + place 96 32 clip +
  place 128 32 n.flagCount + place 160 32 n.recompCount + place 192 32 n.lostTotal + place 224 16 skipRun

namespace State

/-- The decision of a step's gate (R153, R155-R157): record, gate, GATE_CTR; then the step's pins (R235), the run of skips
(R156), the run of good decisions (R277), a hold's pedal (R384). -/
def decideGate (s : State) (jid step : Nat) (t : NormTotal) : State :=
  match s.job? jid with
  | none => s
  | some j =>
    let n := j.numerics
    let g := gateFor t
    let run := match g with
      | .skip => satAdd 16 n.skipRun 1
      | .opened => 0
      | _ => n.skipRun
    let s := s.store n.stepRec (leBytes 64 (stepRecord n step run t))
    let s := s.updJob jid (fun j => { j with
      numerics := { j.numerics.clearCounts with gate := g, skipRun := run }
      ring := { j.ring with goodRun := if g = Gate.hold then 0 else j.ring.goodRun + 1 } })
    let s := s.addCtr n.gateCtr 1
    let s := if g = Gate.hold then s.pedalStart pedalOnRecovery jid else s.unpin jid step
    if g = Gate.skip ∧ run % 8 = 0 then s.log eStepSkip 7 0 jid step else s

end State
end Sys2Proof.Machine
end

