-- ==== Sys2Proof/Machine/Pipeline.lean ====
section
/-! DEFINITION. The pipeline of a job (R207-R250): numbering, entries and credits, feed edges, replay and stop, and the
Strand commands PIPE_START to PIPE_STOP. -/
namespace Sys2Proof.Machine

/-! ## Micro-batches (R230) -/

/-- The micro-batch, counted from FIRST_MB, whose number is `n` and which is at least `lo`. -/
def Pipe.from_ (p : Pipe) (lo n : Nat) : Nat := lo + (n + 2 ^ 32 - p.mb lo) % 2 ^ 32

def Job.setPipe (j : Job) (p : Pipe) : Job := { j with strand := { j.strand with pipe := p } }
def Job.setGroup (j : Job) (g : Group) : Job :=
  { j with strand := { j.strand with groups := j.strand.groups.map (fun x => if x.id == g.id then g else x) } }

def Job.mapGroups (j : Job) (f : Group → Group) : Job := { j with strand := { j.strand with groups := j.strand.groups.map f } }

/-- Stages of a tile group, CHUNK ascending. -/
def Job.groupStages (j : Job) (g : Nat) : List Stage :=
  (List.range 8).flatMap (fun c => j.strand.stages.filter (fun t => t.group == g && t.chunk == c))

/-- Nothing is outstanding on the job's groups. -/
def Job.quiet (j : Job) : Bool := j.strand.groups.all (fun g => g.out.isNone)

/-! ## Entries (R218-R222) -/

/-- Units of a whole entry as the sending tiles make it. -/
def DirView.sendUnits (v : DirView) (tiles : Nat) : Nat := v.sunits * tiles

/-- Units of a whole entry as the receiving tiles take it. -/
def DirView.recvUnits (v : DirView) (tiles : Nat) : Nat := v.units * (if v.split then tiles else 1)

/-- The entry has arrived: its notice and all its units (R220). -/
def RecvEntry.arrived (x : RecvEntry) (units : Nat) : Bool := x.noticed && decide (units ≤ x.units.length)

/-- Entry of a micro-batch number has arrived on an edge at its local receiving stage. -/
def entryHere (e : Edge) (bwd : Bool) (t : Stage) (n : Nat) : Bool :=
  decide (e.st = EdgeState.opened) &&
  (e.dir bwd).recv.any (fun x => x.n == n && x.arrived ((e.view bwd).recvUnits t.tileCount))

/-- A credit and the free send buffer for a micro-batch number are held on an edge (R222). -/
def canSend (e : Edge) (bwd : Bool) (t : Stage) (n : Nat) : Bool :=
  decide (e.st = EdgeState.opened) && (e.dir bwd).credits != 0 &&
  (e.dir bwd).send.all (fun x => x.n % 2 != n % 2 || decide ((e.view bwd).sendUnits t.tileCount ≤ x.sent.length))

/-- Scratch places where unit `u` of an entry lands: receiving tiles and offset (R218). -/
def unitPlaces (v : DirView) (t : Stage) (n u : Nat) : List Nat :=
  let at_ (tile w : Nat) : Nat := State.scratchAddr tile (v.rbuf + (n % v.depth) * (v.units * 64) + w * 64)
  if v.split then [at_ (t.tileFirst + u / v.units) (u % v.units)]
  else (List.range t.tileCount).map (fun i => at_ (t.tileFirst + i) u)

/-- A fresh direction at the opening of its edge, from the present step on: credits of its depth, nothing held (R221). -/
def freshDir (p : Pipe) (v : DirView) : EdgeDir := { credits := if v.sndHere then v.depth else 0, released := p.base }

def openEdge (p : Pipe) (e : Edge) : Edge :=
  { e with st := .opened, fwd := freshDir p (e.view false), bwd := freshDir p (e.view true), answer := none, acked := false }

namespace State

def updPipe (s : State) (jid : Nat) (f : Pipe → Pipe) : State := s.updJob jid (fun j => j.setPipe (f j.strand.pipe))
def updEdge (s : State) (jid slot : Nat) (f : Edge → Edge) : State :=
  s.updJob jid (fun j =>
    match j.edge? slot with
    | some e => j.setEdge (f e)
    | none => j)

/-! ## Feed edges (R240, R241) -/

/-- Replay-buffer address of a feed entry. -/
def replayAt (p : Pipe) (d bytes a : Nat) : Nat := gReplayAddr d + (a % (gReplayDepth d * p.mbPerStep)) * bytes

/-- A feed entry as it lies in scratch: the whole entry. -/
def feedBytes (s : State) (d : Nat) (t : Stage) (n : Nat) : Bytes :=
  let v := dirView d false
  let at_ (i : Nat) : Nat := scratchAddr (t.tileFirst + i) (v.rbuf + (n % v.depth) * (v.units * 64))
  (List.range (if v.split then t.tileCount else 1)).flatMap (fun i => s.read (at_ i) (v.units * 64))

/-- A feed entry written back into the receiving tiles. -/
def putFeed (s : State) (d : Nat) (t : Stage) (n : Nat) (b : Bytes) : State :=
  let v := dirView d false
  (List.range t.tileCount).foldl (fun s i =>
    s.write (scratchAddr (t.tileFirst + i) (v.rbuf + (n % v.depth) * (v.units * 64)))
      (if v.split then (b.drop (i * v.units * 64)).take (v.units * 64) else b)) s

/-- Entry `a` of a feed edge counts as arrived. -/
def arriveFeed (s : State) (jid : Nat) (e : Edge) (t : Stage) (n : Nat) : State :=
  let x : RecvEntry := { n := n, units := List.range ((e.view false).recvUnits t.tileCount), noticed := true }
  s.updEdge jid e.slot (fun e => { e with fwd := { e.fwd with recv := e.fwd.recv ++ [x] } })

/-- The next entry of a replayed feed edge is delivered from the replay buffer, where its buffer index is free (R241 step 6). -/
def refeedOne (s : State) (jid slot : Nat) : State :=
  match s.job? jid with
  | none => s
  | some j =>
    match j.edge? slot with
    | none => s
    | some e =>
      let (a, stop) := e.refeed
      let p := j.strand.pipe
      if !gFeed e.desc || decide (stop ≤ a) || decide (e.fwd.released + (e.view false).depth ≤ a) then s
      else match j.stageNamed (gDnStage e.desc) with
        | none => s
        | some t =>
          let n := p.mb a
          let b := s.read (replayAt p e.desc (feedEntryBytes e.desc t.tileCount) a) (feedEntryBytes e.desc t.tileCount)
          let s := s.putFeed e.desc t n b
          (s.arriveFeed jid e t n).updEdge jid slot (fun e => { e with refeed := (a + 1, stop) })

def refeed (s : State) (jid slot : Nat) : Nat → State
  | 0 => s
  | k + 1 => refeed (s.refeedOne jid slot) jid slot k

/-! ## Releases and credits (R221) -/

/-- A credit of a direction comes to its sending end. -/
def addCredit (s : State) (jid slot : Nat) (bwd : Bool) : State :=
  s.updEdge jid slot (fun e =>
    let x := e.dir bwd
    e.setDir bwd { x with credits := min (x.credits + 1) (e.view bwd).depth })

/-- Stage word of R289. -/
def stageWord (kind edge : Nat) : Nat := Machine.place 0 2 kind + Machine.place 2 16 edge

/-- VC of a direction: VC1 activations, VC2 gradients (R220). -/
def dirVc (bwd : Bool) : Nat := if bwd then 2 else 1

/-- A stage flit to the peer of an edge; lost where the peer cannot be reached. -/
def sendStage (s : State) (jid : Nat) (e : Edge) (bwd : Bool) (word pay : Nat) : State :=
  match s.job? jid with
  | none => s
  | some j => (s.sendJob j 0 (j.alias? e.peerMod) (dirVc bwd) word pay).getD s

/-- Entry `n` of a direction is released at its receiving end (R221 steps 3 and 4). -/
def release (s : State) (jid : Nat) (e : Edge) (bwd : Bool) (n : Nat) : State :=
  let v := e.view bwd
  let s := s.updEdge jid e.slot (fun e =>
    let x := e.dir bwd
    e.setDir bwd { x with recv := x.recv.filter (fun r => r.n != n), released := x.released + 1 })
  if gFeed e.desc then (s.addCtr (gFeedCtr e.desc) 1).refeed jid e.slot 1
  else if decide (e.st ≠ EdgeState.opened) then s
  else if v.sndHere then s.addCredit jid e.slot bwd
  else s.sendStage jid e bwd (stageWord 2 (gId e.desc) + Machine.place 32 32 n) 0

/-! ## Replay and stop (R241, R246) -/

/-- A REDUCE of a step is outstanding. -/
def reducing (j : Job) (step : Nat) : Bool :=
  j.ring.buckets.any (fun b => !b.gather && Machine.bits b.record 168 32 == step)

/-- R241 steps 2 and 3, once no item is outstanding. -/
def replayRestore (s : State) (jid : Nat) : State :=
  match s.job? jid with
  | none => s
  | some j =>
    let p := j.strand.pipe
    let base := p.base
    let seq (t : Stage) : Stage :=
      { t with fDone := base, bDone := base, wDone := base, optNext := 0, optDone := 0, poisonMb := [] }
    let edge (e : Edge) : Edge :=
      let stop := max base (max e.feedNext (base + p.mbPerStep))
      if e.st = EdgeState.opened then
        let feed := gFeed e.desc
        { openEdge p e with
          feedNext := if feed then stop else e.feedNext, refeed := if feed then (base, stop) else (0, 0) }
      else e
    let chunks (g : Group) : Nat := (j.groupStages g.id).length
    let grp (g : Group) : Group :=
      let k := if p.overlap then base * chunks g else 0
      { g with fwd := k, bwd := k, start := k, deferred := [] }
    -- a mirrored entry still to arrive comes from the replay buffer
    let s := s.updJob jid (fun j => { j with queues := j.queues.map (fun q => { q with flight := q.flight.map (fun f =>
      match f.op with
      | .feed e _ b => { f with op := .feed e [] b }
      | _ => f) }) })
    -- holds of the step's micro-batches end
    let s := j.strand.stages.foldl (fun s t => t.held.foldl (fun s n => s.unbindVer jid t.idx n) s) s
    let s := s.updJob jid (fun j => { j with
      strand := { j.strand with
        stages := j.strand.stages.map seq
        edges := j.strand.edges.map edge
        groups := j.strand.groups.map grp
        pipe := { p with
          restored := true, resets := j.strand.stages.map (·.idx)
          poisoned := p.poisoned.filter (fun x => x != p.step && x != (p.step + 1) % 2 ^ 32) } }
      ring := { j.ring with
        openStep := p.step
        accs := j.ring.accs.filter (fun a => a.step != p.step && a.step != (p.step + 1) % 2 ^ 32)
        roots := j.ring.roots.filter (fun x => x.step != p.step) }
      numerics := { j.numerics.clearCounts with gate := .undecided } })
    let s := match s.job? jid with
      | some j => s.restoreSlots j
      | none => s
    s.setCtr p.stepCtr (BitVec.ofNat 32 p.steps)

/-- The replay goes on when no item and no REDUCE of the step is outstanding (R281): restore, then, after the RESET sets, the step
runs again. -/
def replayAdvance (s : State) (jid : Nat) : State :=
  match s.job? jid with
  | none => s
  | some j =>
    let p := j.strand.pipe
    if p.st ≠ PipeState.replaying ∨ !j.quiet ∨ (!p.restored ∧ reducing j p.step) then s
    else
      let s := if p.restored then s else s.replayRestore jid
      match s.job? jid with
      | none => s
      | some j =>
        if j.strand.pipe.resets ≠ [] then s
        else
          let s := s.updPipe jid (fun p => { p with st := .running, restored := false, fresh := true })
          j.strand.edges.foldl (fun s e => if gFeed e.desc then s.refeed jid e.slot (e.view false).depth else s) s

/-- The stop goes on when nothing is outstanding: edges become CLOSED and their peers are told (R246 step 2). -/
def stopAdvance (s : State) (jid : Nat) : State :=
  match s.job? jid with
  | none => s
  | some j =>
    if j.strand.pipe.st ≠ PipeState.stopping ∨ !j.quiet then s
    else
      let todo := j.strand.edges.filter (fun e => decide (e.st ≠ EdgeState.closed))
      let told := todo.filter (fun e => gRemote e.desc)
      let s := s.updJob jid (fun j => { j with strand := { j.strand with
        edges := j.strand.edges.map (fun e => if e.st = EdgeState.closed then e else { e with st := .closed, acked := !gRemote e.desc }) } })
      told.foldl (fun s e => s.send (j.alias? e.peerMod) (.edgeClosing s.mod.id (jid % 2 ^ 16) (gId e.desc))) s

/-- Every peer has acknowledged: stages and edges become UNBOUND and the pipeline IDLE (R246 step 3). The marks of poisoned steps stay: the
contributions of those steps may still be to come (R269). -/
def unbindAll (s : State) (jid : Nat) : State :=
  s.updJob jid (fun j => { j with strand := { notices := j.strand.notices, pipe := { poisoned := j.strand.pipe.poisoned } } })

end State

/-- Nothing of a stop is still awaited. -/
def stopOver (j : Job) : Bool :=
  j.quiet && j.strand.edges.all (fun e => decide (e.st = EdgeState.closed) && (e.acked || !gRemote e.desc))

/-! ## PIPE_START (R245, R247) -/

/-- Pipeline as the record describes it. -/
def pipeOf (r : Nat) : Pipe :=
  { st := .running, firstMb := bits r 128 32, firstStep := bits r 160 32, mbPerStep := bits r 192 16, policy := bits r 208 2
    overlap := bitAt r 210, normWait := bitAt r 211, fwdOnly := bitAt r 212, iblock := bits r 216 5, stepCtr := bits r 224 12
    fresh := true }

/-- IBLOCK under a policy (R244, R245): 1-31 under policy 1, 0 otherwise. -/
def badIblock (policy ib : Nat) : Bool := if policy = 1 then ib == 0 else ib != 0

def pipeChecks (_ : State) (j : Job) (_ : Queue) (r : Nat) : List Chk :=
  let p := pipeOf r
  [ ckZero r 213 3, ckZero r 221 3, ckZero r 236 276,
    ckEnum 208 2 (p.policy == 3),
    ckRange 192 16 (p.mbPerStep == 0 || (p.policy == 1 && p.iblock != 0 && p.mbPerStep % p.iblock != 0)),
    ckRange 216 5 (badIblock p.policy p.iblock),
    ckOwn (!j.ownsCtr p.stepCtr) ]

/-- Group numbers in use. -/
def groupIds (j : Job) : List Nat := (List.range 16).filter (fun g => j.strand.stages.any (fun t => t.group == g))

/-- The groups fit a policy (R247): one stage each under policies 0 and 2, CHUNK 0 to V − 1. -/
def groupsFit (j : Job) (policy : Nat) : Bool :=
  (groupIds j).all (fun g =>
    let ts := j.groupStages g
    (policy == 1 || ts.length == 1) && decide (ts.map (·.chunk) = List.range ts.length))

/-- The group's CHUNK 0 stage allows no fill while one of its stages has optimizer groups (R232). -/
def idleUnfit (j : Job) : Bool :=
  (groupIds j).any (fun g =>
    (j.groupStages g).any (fun t => t.optGroups != 0) && (j.groupStages g).any (fun t => t.chunk == 0 && t.idle == 0))

/-- Replay buffer of a feed edge: address and bytes. -/
def replayRange (j : Job) (mbPerStep : Nat) (e : Edge) : Option (Nat × Nat) :=
  if gFeed e.desc && gReplayDepth e.desc != 0 then
    (j.stageNamed (gDnStage e.desc)).map (fun t =>
      (gReplayAddr e.desc, gReplayDepth e.desc * mbPerStep * feedEntryBytes e.desc t.tileCount))
  else none

/-- An edge whose exchange fails: a local edge whose sizes disagree, or a peer whose answer does (R245). -/
def edgeUnfit (s : State) (j : Job) (begun : Bool) (e : Edge) : Bool :=
  if gFeed e.desc then false
  else if gRemote e.desc then begun && e.answer.any (fun m => !answerOk s j e m)
  else
    let tc (id : Nat) : Nat := ((j.stageNamed id).map (·.tileCount)).getD 0
    !sizesOk e.desc (tc (gUpStage e.desc)) (tc (gDnStage e.desc))

/-- Remote edges whose peer has not answered. -/
def unanswered (j : Job) : Bool := j.strand.edges.any (fun e => gRemote e.desc && e.answer.isNone)

/-- The lowest slot among edges. -/
def lowestSlot (es : List Edge) : Option Nat := (es.map (·.slot)).min?

def pipeLate (s : State) (j : Job) (q : Queue) (r : Nat) : List Chk :=
  let p := pipeOf r
  let st := j.strand
  let begun := q.cur.any (·.begun)
  let unfit := st.edges.filter (edgeUnfit s j begun)
  let full := !begun || !unanswered j
  let ranges := st.edges.filterMap (replayRange j p.mbPerStep)
  [ ckState eState (decide (st.pipe.st ≠ PipeState.idle) || st.stages.isEmpty),
    ckState eEdge (st.stages.any (fun t => (j.outEdges t).isEmpty != t.exit)),
    ckState eState (!groupsFit j p.policy),
    ckState eState (p.fwdOnly && st.edges.any (fun e => (e.view false).rel != 0)),
    ckState eState (p.overlap && idleUnfit j),
    ckState eAddress (ranges.any (fun x => !s.inUser x.1 x.2)),
    ckState eProtect (ranges.any (fun x => !j.owns x.1 x.2)),
    ckState eEdge (full && !unfit.isEmpty) ((lowestSlot unfit).getD 0) ]

/-- Check 4 sends each remote edge end its opening notice and waits for every answer (R245). -/
def pipeExchange (s : State) (j : Job) (q : Queue) (w : Waiting) : Option State :=
  let rem := j.strand.edges.filter (fun e => gRemote e.desc)
  if rem.isEmpty then none
  else if w.begun then (if unanswered j then some s else none)
  else
    let s := s.updJob j.id (fun j =>
      let j := { j with strand := { j.strand with edges := j.strand.edges.map (fun (e : Edge) => { e with answer := none }) } }
      j.setQueue { q with cur := some { w with begun := true } })
    some (rem.foldl (fun s e => s.send (j.alias? e.peerMod) (.openingNotice (openMsg s j e false))) s)

/-- All edges open together, the feed depths are added to their counters, and the pipeline is RUNNING. -/
def pipeStartRun (s : State) (j : Job) (_ : Queue) (r : Nat) (f : Flight) : Started :=
  let awaited (step : Nat) : Bool := j.ring.closes.any (fun c => !c.sent && c.step == step)
  let p := { pipeOf r with poisoned := j.strand.pipe.poisoned.filter awaited }
  let groups := (groupIds j).map (fun g => ({ id := g } : Group))
  let s := s.updJob j.id (fun j => { j with
    strand := { j.strand with
      pipe := p, groups := groups
      stages := j.strand.stages.map (fun t => { t with fDone := 0, bDone := 0, wDone := 0, optNext := 0, optDone := 0 })
      edges := j.strand.edges.map (fun e => { openEdge p e with feedNext := 0, refeed := (0, 0) }) }
    ring := { j.ring with openStep := p.firstStep, accs := j.ring.accs.filter (fun a => awaited a.step), roots := j.ring.roots.filter (fun x => x.total.isNone) } })
  let s := j.strand.edges.foldl (fun s e => if gFeed e.desc then s.addCtr (gFeedCtr e.desc) (e.view false).depth else s) s
  ⟨s.pedalStart pedalOnStart j.id, f, true⟩

def pipeSpec : CmdSpec :=
  { kind := 0x62, fetch := always, checks := pipeChecks, ready := always, late := pipeLate, start := pipeStartRun,
    exchange := pipeExchange }

/-! ## FEED_POST (R240, R247) -/

def feedChecks (_ : State) (_ : Job) (_ : Queue) (r : Nat) : List Chk :=
  [ ckZero r 134 26, ckZero r 198 314, ckRange 192 6 (bits r 192 6 == 0 || decide (32 < bits r 192 6)) ]

/-- All micro-batches announced belong to the step being replayed: the command has no effect (R241 step 6). -/
def feedNoop (j : Job) (r : Nat) : Bool :=
  let p := j.strand.pipe
  p.replay && (List.range (bits r 192 6)).all (fun i => p.stepOf ((bits r 160 32 + i) % 2 ^ 32) == p.step)

def feedEdge (j : Job) (r : Nat) : Option Edge :=
  (j.edge? (bits r 128 6)).bind (fun e => if gFeed e.desc && decide (e.st = EdgeState.opened) then some e else none)

def feedLate (_ : State) (j : Job) (_ : Queue) (r : Nat) : List Chk :=
  let p := j.strand.pipe
  let n := bits r 192 6
  let oddMb := (feedEdge j r).any (fun e => p.mb e.feedNext != bits r 160 32)
  let beyond := (feedEdge j r).any (fun e => decide (e.fwd.released + (e.view false).depth < e.feedNext + n))
  let open_ := ckState eEdge (feedEdge j r).isNone
  if feedNoop j r then [ open_ ] else [ open_, ckState eState oddMb, ckCap eCredit beyond ]

/-- A feed edge whose entries are mirrored (R359). -/
def mirrored (j : Job) (e : Edge) : Bool := gReplayDepth e.desc != 0 && j.locket.bound && bitAt j.locket.desc 17

/-- The buddy of a job's Locket. -/
def buddyOf (j : Job) : Nat := j.alias? (bits j.locket.desc 0 8)

/-- One announced entry: its copies to the replay buffer and the mirror come first (R240, R359); the micro-batch of a mirrored one, which
arrives once the mirror's copy has left. None: the buddy is unreachable, and the entry does not count as arrived (R299, log 123). -/
def feedOne (s : State) (jid slot : Nat) : Option (State × List Nat) :=
  match s.job? jid with
  | none => some (s, [])
  | some j =>
    match j.edge? slot with
    | none => some (s, [])
    | some e =>
      match j.stageNamed (gDnStage e.desc) with
      | none => some (s, [])
      | some t =>
        let p := j.strand.pipe
        let n := p.mb e.feedNext
        let bytes := feedEntryBytes e.desc t.tileCount
        let b := s.feedBytes e.desc t n
        let at_ := State.replayAt p e.desc bytes e.feedNext
        let s := if gReplayDepth e.desc = 0 then s else s.store at_ b
        let dst := buddyOf j
        let next (s : State) : State := s.updEdge jid slot (fun e => { e with feedNext := e.feedNext + 1 })
        if mirrored j e then
          (s.sendCopy j (State.normClass j dst) dst (fun _ => Config.mirrorWord)
            (.feedMirror s.mod.id jid (at_ - gReplayAddr e.desc) b) b).map (fun s => (next s, [n]))
        else some (next (s.arriveFeed jid e t n), [])

/-- The announced entries: the micro-batches still to arrive, and whether the buddy was reached for all. -/
def feedMany (jid slot : Nat) : Nat → State → State × List Nat × Bool
  | 0, s => (s, [], true)
  | k + 1, s =>
    match feedOne s jid slot with
    | none => (s, [], false)
    | some (s, ns) => let (s, ms, ok) := feedMany jid slot k s; (s, ns ++ ms, ok)

/-- Mirrored entries whose copies the buddy has taken count as arrived. -/
def feedArrive (s : State) (jid slot : Nat) (mbs : List Nat) : State :=
  mbs.foldl (fun s n =>
    match s.job? jid with
    | none => s
    | some j =>
      match j.edge? slot with
      | none => s
      | some e =>
        match j.stageNamed (gDnStage e.desc) with
        | none => s
        | some t => s.arriveFeed jid e t n) s

/-- A mirror copy is still on its way: its flow has flits that are queued or unacknowledged (DESIGN CHOICE, log 153). -/
def mirrorOnWay (s : State) (j : Job) (dst : Nat) : Bool :=
  let f := mkFlit 4 dst s.mod.id Config.mirrorWord 0
  let c := State.normClass j dst
  (j.route c dst).any (fun r => s.flowOn (r.ports ||| r.dropped) (if r.transit then mkFlit 12 dst s.mod.id Config.mirrorWord 0 else f)) ||
  s.spoke.parked.any (fun x => State.sameFlow f x.flit)

def feedStart (s : State) (j : Job) (_ : Queue) (r : Nat) (f : Flight) : Started :=
  if feedNoop j r then ⟨s, f, true⟩
  else
    let (s, mbs, reached) := feedMany j.id (bits r 128 6) (bits r 192 6) s
    let f := if reached then f else { f with res := { code := eLinkDown, poison := true } }
    if mbs.isEmpty then ⟨s, f, true⟩ else ⟨s, { f with op := .feed (bits r 128 6) mbs (buddyOf j) }, false⟩

def feedSpec : CmdSpec :=
  { kind := 0x63, fetch := always, checks := feedChecks, ready := always, late := feedLate, start := feedStart }

/-! ## VERSION_PUBLISH (R236) -/

def publishChecks (_ : State) (_ : Job) (_ : Queue) (r : Nat) : List Chk := [ ckZero r 132 12, ckZero r 160 352 ]

def publishLate (_ : State) (j : Job) (_ : Queue) (r : Nat) : List Chk :=
  let t := j.stage? (bits r 128 4)
  [ ckState eState (t.all (fun t =>
      if t.slots.length = 1 then (t.slot 0).refs != 0 else decide ((t.slot t.next).st ≠ VerState.free))),
    ckState eVersion (t.any (fun t => ((t.slot t.cur).num + 1) % 2 ^ 16 != bits r 144 16)) ]

/-- The next slot becomes CURRENT with the number given; with one slot it is renumbered in place. -/
def publish (v : Nat) (t : Stage) : Stage :=
  if t.slots.length = 1 then t.setSlot 0 { t.slot 0 with num := v, bound := false, due := false }
  else
    let nx := t.next
    (t.setSlot t.cur { t.slot t.cur with st := .held }).setSlot nx { t.slot nx with st := .current, num := v }

def publishStart (s : State) (j : Job) (_ : Queue) (r : Nat) (f : Flight) : Started :=
  ⟨s.updStage j.id (bits r 128 4) (publish (bits r 144 16)), f, true⟩

def publishSpec : CmdSpec :=
  { kind := 0x64, fetch := always, checks := publishChecks, ready := always, late := publishLate, start := publishStart }

/-! ## SCHED_POLICY_SET (R225, R247) -/

def policyChecks (_ : State) (_ : Job) (_ : Queue) (r : Nat) : List Chk :=
  [ ckZero r 130 2, ckZero r 137 375, ckEnum 128 2 (bits r 128 2 == 3),
    ckRange 132 5 (bits r 128 2 != 3 && badIblock (bits r 128 2) (bits r 132 5)) ]

/-- The pipeline is not RUNNING, or groups or IBLOCK do not fit the new policy: what the re-check finds (R62, R247). -/
def policyUnfit (j : Job) (policy ib : Nat) : Bool :=
  decide (j.strand.pipe.st ≠ PipeState.running) || !groupsFit j policy ||
  (policy == 1 && (ib == 0 || j.strand.pipe.mbPerStep % ib != 0))

def policyLate (_ : State) (j : Job) (_ : Queue) (r : Nat) : List Chk :=
  [ ckState eState (decide (j.strand.pipe.st ≠ PipeState.running)), State.ckPending j .schedPolicy ]

def policySpec : CmdSpec :=
  { kind := 0x65, fetch := always, checks := policyChecks, ready := always, late := policyLate,
    start := startDeferred .schedPolicy 0 }

/-! ## EDGE_REPOINT (R239) -/

def repointChecks (_ : State) (_ : Job) (_ : Queue) (r : Nat) : List Chk := [ ckZero r 134 2, ckZero r 144 368 ]

def repointLate (_ : State) (j : Job) (_ : Queue) (r : Nat) : List Chk :=
  let e := j.edge? (bits r 128 6)
  [ ckState eEdge (e.all (fun e => decide (e.st = EdgeState.closed))),
    ckState eState (e.any (fun e => decide (e.st ≠ EdgeState.down))) ]

/-- The new peer is named and gets an opening notice for the edge; the edge opens with its answer. -/
def repointEdge (s : State) (j : Job) (slot peer : Nat) : State :=
  match j.edge? slot with
  | none => s
  | some e =>
    let s := s.updEdge j.id slot (fun e => { e with peerMod := peer, answer := none })
    s.send (j.alias? peer) (.openingNotice (openMsg s j e false))

def repointStart (s : State) (j : Job) (_ : Queue) (r : Nat) (f : Flight) : Started :=
  ⟨repointEdge s j (bits r 128 6) (bits r 136 8), { f with op := .edgeOpen (bits r 128 6) }, false⟩

def repointSpec : CmdSpec :=
  { kind := 0x66, fetch := always, checks := repointChecks, ready := always, late := repointLate, start := repointStart }

/-! ## REPLAY_STEP and PIPE_STOP (R241, R246) -/

def replayChecks (_ : State) (_ : Job) (_ : Queue) (r : Nat) : List Chk := [ ckZero r 160 352 ]

/-- A step that cannot be replayed (R247). -/
def replayUnfit (j : Job) (step : Nat) : Bool :=
  let p := j.strand.pipe
  decide (p.st ≠ PipeState.running) || p.step != step || p.fwdOnly ||
  j.strand.edges.any (fun e => gFeed e.desc && gReplayDepth e.desc == 0)

def replayLate (_ : State) (j : Job) (_ : Queue) (r : Nat) : List Chk := [ ckState eState (replayUnfit j (bits r 128 32)) ]

/-- R241 step 1. -/
def State.replayBegin (s : State) (jid : Nat) : State :=
  ((s.updPipe jid (fun p => { p with st := .replaying, replay := true, restored := false })).pedalStart pedalOnRecovery jid)
    |>.replayAdvance jid

def replayStart (s : State) (j : Job) (_ : Queue) (_ : Nat) (f : Flight) : Started :=
  ⟨s.replayBegin j.id, { f with op := .replay }, false⟩

def replaySpec : CmdSpec :=
  { kind := 0x67, fetch := always, checks := replayChecks, ready := always, late := replayLate, start := replayStart }

def stopChecks (_ : State) (_ : Job) (_ : Queue) (r : Nat) : List Chk := [ ckZero r 128 384 ]

def stopLate (_ : State) (j : Job) (_ : Queue) (_ : Nat) : List Chk :=
  let st := j.strand.pipe.st
  [ ckState eState (decide (st = PipeState.idle ∨ st = PipeState.stopping)) ]

/-- R246 step 1. -/
def State.stopBegin (s : State) (jid : Nat) : State :=
  (s.updPipe jid (fun p => { p with st := .stopping, replay := false, restored := false, resets := [] })).stopAdvance jid

def stopStart (s : State) (j : Job) (_ : Queue) (_ : Nat) (f : Flight) : Started :=
  ⟨s.stopBegin j.id, { f with op := .pipeStop }, false⟩

def stopSpec : CmdSpec :=
  { kind := 0x68, fetch := always, checks := stopChecks, ready := always, late := stopLate, start := stopStart }

end Sys2Proof.Machine
end

