-- ==== Sys2Proof/Machine/Operands.lean ====
section
/-! DEFINITION. Tensors in byte memory: where an element lies (R78, R79, R83, R84, R102), reading elements exactly
(R90), and converting values into stored elements (R85-R97). -/
namespace Sys2Proof.Machine

/-- Blocks of 32 elements in a storage group (R83, R84). -/
def groupBlocks (c : Nat) : Nat := if fmtBead c then 32 else 64

/-- Bytes of a storage group: header or scale plane of 64 bytes, then 4w bytes a block. -/
def groupBytes (c : Nat) : Nat := 64 + groupBlocks c * (4 * fmtWidth c)

/-- Offset of a block's header or scale from the start of the tensor. -/
def blockHdr (c b : Nat) : Nat :=
  (b / groupBlocks c) * groupBytes c + (b % groupBlocks c) * (if fmtBead c then 2 else 1)

/-- Offset of a block's elements from the start of the tensor. -/
def blockBody (c b : Nat) : Nat :=
  (b / groupBlocks c) * groupBytes c + 64 + (b % groupBlocks c) * (4 * fmtWidth c)

/-- Bytes from the start of a tensor through the storage of its element n. -/
def tensorEnd (c n : Nat) : Nat :=
  if fmtBlock c then blockBody c (n / 32) + 4 * fmtWidth c
  else if c = 1 then (n / 64) * 320 + 320
  else ceilDiv ((n + 1) * fmtWidth c) 8

/-- Spans that continue one another joined into one. -/
def joinSpans : List (Nat × Nat) → List (Nat × Nat)
  | [] => []
  | (a, n) :: t =>
    match joinSpans t with
    | [] => [(a, n)]
    | (b, m) :: u => if a + n = b then (a, n + m) :: u else (a, n) :: (b, m) :: u

/-- Numbers `first` to `first + n − 1` cut at the multiples of `per`: quotient, first remainder, count. `fuel` bounds the pieces. -/
def cutAt (per : Nat) : Nat → Nat → Nat → List (Nat × Nat × Nat)
  | 0, _, _ => []
  | _, _, 0 => []
  | fuel + 1, first, n + 1 =>
    let k := min (n + 1) (per - first % per)
    (first / per, first % per, k) :: cutAt per fuel (first + k) (n + 1 - k)

/-- Byte offsets, from the start of a tensor, of the storage that elements `first` to `first + n − 1` touch: of a block its header or
scale and its elements, of W40 the bytes in both planes (R78, R79, R83, R84). -/
def elemSpans (c first n : Nat) : List (Nat × Nat) :=
  if n = 0 then []
  else if fmtBlock c then
    let b0 := first / 32
    (cutAt (groupBlocks c) (n + 1) b0 ((first + n - 1) / 32 - b0 + 1)).flatMap (fun p =>
      let b := p.1 * groupBlocks c + p.2.1
      [(blockHdr c b, p.2.2 * (if fmtBead c then 2 else 1)), (blockBody c b, p.2.2 * (4 * fmtWidth c))])
  else if c = 1 then
    (cutAt 64 (n + 1) first n).flatMap (fun p => [(p.1 * 320 + 4 * p.2.1, 4 * p.2.2), (p.1 * 320 + 256 + p.2.1, p.2.2)])
  else [(first * fmtWidth c / 8, ceilDiv ((first + n) * fmtWidth c) 8 - first * fmtWidth c / 8)]

/-- The 32 elements of a tensor from element 32b, without tensor scale. -/
def readChunk (m : Memory) (base c b : Nat) : List Val :=
  let w := fmtWidth c
  if fmtBlock c then
    let h := m.num (base + blockHdr c b) (if fmtBead c then 2 else 1)
    let x := m.num (base + blockBody c b) (4 * w)
    (List.range 32).map (fun j =>
      ofBlockElem c (bits h 0 8) (if fmtBead c then bits h (8 + 2 * (j / 8)) 2 else 0) (bits x (w * j) w))
  else if c = 1 then
    let o := base + (b / 2) * 320
    let hi := m.num (o + (b % 2) * 128) 128
    let lo := m.num (o + 256 + (b % 2) * 32) 32
    (List.range 32).map (fun j => ofScalar c (bits hi (32 * j) 32 * 256 + bits lo (8 * j) 8))
  else
    let x := m.num (base + b * 4 * w) (4 * w)
    (List.range 32).map (fun j => ofScalar c (bits x (w * j) w))

/-- Elements `first` to `first + n − 1` of a tensor, times 2^k. -/
def readElems (m : Memory) (base c first n : Nat) (k : Int) : List Val :=
  let b0 := first / 32
  let nb := if n = 0 then 0 else (first + n - 1) / 32 - b0 + 1
  ((((rangeFrom b0 nb).flatMap (readChunk m base c)).drop (first % 32)).take n).map (Val.scale k)

/-- Writes that continue one another joined into one. -/
def coalesce : List (Nat × Bytes) → List (Nat × Bytes)
  | [] => []
  | (a, bs) :: t =>
    match coalesce t with
    | [] => [(a, bs)]
    | (a', bs') :: t' => if a + bs.length = a' then (a, bs ++ bs') :: t' else (a, bs) :: (a', bs') :: t'

/-- A four-bit element written alone: the other half of its byte is kept. -/
def nibbleOne (m : Memory) (base n c : Nat) : Nat × Bytes :=
  (base + n / 2, leBytes 1 (setBits (m.byte (base + n / 2)).toNat (4 * (n % 2)) 4 c))

/-- Four-bit elements, element index ascending. -/
def nibbleWrites (m : Memory) (base : Nat) : List (Nat × Nat) → List (Nat × Bytes)
  | [] => []
  | [(n, c)] => [nibbleOne m base n c]
  | (n, c) :: (n', c') :: t =>
    if n % 2 = 0 && n' == n + 1 then (base + n / 2, leBytes 1 (c + 16 * c')) :: nibbleWrites m base t
    else nibbleOne m base n c :: nibbleWrites m base ((n', c') :: t)

/-- Scalar codes written at element indices, ascending. -/
def scalarWrites (m : Memory) (base c : Nat) (l : List (Nat × Nat)) : List (Nat × Bytes) :=
  if fmtWidth c = 4 then coalesce (nibbleWrites m base l)
  else if c = 1 then
    coalesce (l.map (fun p => (base + (p.1 / 64) * 320 + 4 * (p.1 % 64), leBytes 4 (p.2 / 256)))) ++
    coalesce (l.map (fun p => (base + (p.1 / 64) * 320 + 256 + p.1 % 64, leBytes 1 (p.2 % 256))))
  else coalesce (l.map (fun p => (base + p.1 * (fmtWidth c / 8), leBytes (fmtWidth c / 8) p.2)))

/-- Element codes of w bits packed in ascending bits (R79). -/
def packElems (w : Nat) : List Nat → Nat
  | [] => 0
  | q :: qs => q + (packElems w qs) <<< w

/-- The bytes of one encoded block: its header bytes and its element bytes. -/
def blockWrites (base c b : Nat) (r : BlockConv) : List (Nat × Bytes) :=
  let h := r.scale + r.shifts.getD 0 0 * 256 + r.shifts.getD 1 0 * 1024 + r.shifts.getD 2 0 * 4096 +
    r.shifts.getD 3 0 * 16384
  [ (base + blockHdr c b, leBytes (if fmtBead c then 2 else 1) (if fmtBead c then h else r.scale)),
    (base + blockBody c b, leBytes (4 * fmtWidth c) (packElems (fmtWidth c) r.elems)) ]

/-- How a conversion is asked for: format, rounding mode, seed and scale exponent. -/
structure OutSpec where
  fmt  : Nat
  mode : Nat
  seed : Nat
  k    : Int
  deriving DecidableEq, Repr

/-- Values converted into scalar elements; each item is (element index, SR index, coordinates, value). -/
def convScalars (m : Memory) (base : Nat) (o : OutSpec) (l : List (Nat × Nat × (Nat × Nat) × Val)) :
    List (Nat × Bytes) × NumFlags :=
  let cs := l.map (fun p =>
    let c := toScalar o.fmt o.mode (if o.mode = 2 then srHash o.seed p.2.1 else 0) (p.2.2.2.scale (-o.k))
    (p.1, c, NumFlags.ofConv c p.2.2.2 p.2.2.1.1 p.2.2.1.2))
  (scalarWrites m base o.fmt (cs.map (fun q => (q.1, q.2.1.code))),
    cs.foldl (fun f q => f.join q.2.2) NumFlags.none)

/-- Values converted into blocks; item j is element `first + j`, `first` a multiple of 32; a last block is padded
with zeros (R83). -/
def convBlocks (base : Nat) (o : OutSpec) (first : Nat) : Nat → List ((Nat × Nat) × Val) →
    List (Nat × Bytes) × NumFlags
  | 0, _ => ([], NumFlags.none)
  | _, [] => ([], NumFlags.none)
  | n + 1, l =>
    let here := l.take 32
    let pad := here.map (·.2) ++ List.replicate (32 - here.length) Val.zero
    let r := encodeBlock o.fmt o.mode o.seed ((rangeFrom first 32).zip pad)
    let co := (here.head?.map (·.1)).getD (0, 0)
    let f : NumFlags :=
      { ovf := r.ovf, lost := r.lost, nan := if r.ovf then some co else none, amax := maxMag (here.map (·.2)) }
    let rest := convBlocks base o (first + 32) n (l.drop 32)
    (blockWrites base o.fmt (first / 32) r ++ rest.1, f.join rest.2)

/-- A run of values converted into elements `first`, `first + 1`, ...; `sr j` is the SR index of item j of a scalar
output, `co j` its coordinates. -/
def convRun (m : Memory) (base : Nat) (o : OutSpec) (first : Nat) (vs : List Val) (sr : Nat → Nat)
    (co : Nat → Nat × Nat) : List (Nat × Bytes) × NumFlags :=
  let ix := (List.range vs.length).zip vs
  if fmtBlock o.fmt then convBlocks base o first (vs.length + 1) (ix.map (fun p => (co p.1, p.2)))
  else convScalars m base o (ix.map (fun p => (first + p.1, sr p.1, co p.1, p.2)))

end Sys2Proof.Machine
end

