-- ==== Sys2Proof/Machine/TileOps.lean ====
section
/-! DEFINITION. The matrix commands of a tile (R98-R121): MM, ACC_INIT, ACC_DRAIN, ATTN_STEP, ATTN_FINAL. -/
namespace Sys2Proof.Machine

/-! ## Regions, operands, checks -/

/-- Rows an accumulator region occupies (R99). -/
def regionRows (m n : Nat) : Nat := ceilDiv n 64 * m

/-- Row m of a region of M rows and N columns: its N words (R99). -/
def readRegionRow (mem : Memory) (tile row0 M N m : Nat) : List Nat :=
  (List.range (ceilDiv N 64)).flatMap (fun nb =>
    let x := mem.num (State.accAddr tile (row0 + nb * M + m) 0) 256
    (List.range (min 64 (N - 64 * nb))).map (fun i => bits x (32 * i) 32))

/-- The writes that put N words into row m of a region. -/
def writeRegionRow (tile row0 M m : Nat) (ws : List Nat) : List (Nat × Bytes) :=
  (List.range (ceilDiv ws.length 64)).map (fun nb =>
    (State.accAddr tile (row0 + nb * M + m) 0, ((ws.drop (64 * nb)).take 64).flatMap (leBytes 4)))

/-- An operand of R102: format, offset of its tensor, row pitch, start offset. -/
structure Operand where
  fmt    : Nat
  addr   : Nat
  stride : Nat
  k0     : Nat
  deriving DecidableEq, Repr

/-- Element r, k = 0 to n − 1 of an operand in a tile's scratch, times 2^e. -/
def Operand.row (o : Operand) (mem : Memory) (tile r n : Nat) (e : Int) : List Val :=
  readElems mem (State.scratchAddr tile o.addr) o.fmt (r * o.stride + o.k0) n e

/-- Scratch bytes of the operand, row by row: exactly those that its elements touch (R102). -/
def Operand.spans (o : Operand) (rows n : Nat) : List (Nat × Nat) :=
  joinSpans ((List.range rows).flatMap (fun r =>
    (elemSpans o.fmt (r * o.stride + o.k0) n).map (fun p => (o.addr + p.1, p.2))))

def Operand.beyond (o : Operand) (rows n : Nat) : Bool :=
  decide (0x400000 < o.addr + tensorEnd o.fmt ((rows - 1) * o.stride + o.k0 + n - 1))

/-- Misalignment of an address under R103: a block tensor off its 64-byte boundary. -/
def badBase (fmt addr : Nat) : Bool := fmtBlock fmt && addr % 64 != 0

/-- Misalignment of a pitch or offset under R103. -/
def badPitch (fmt x : Nat) : Bool := (fmtBlock fmt && x % 32 != 0) || ((fmt == 8 || fmt == 9) && x % 2 != 0)

/-- Misalignment of a length under R103. -/
def badLen (fmt x : Nat) : Bool := fmtBlock fmt && x % 32 != 0

/-- A scale field that R86 refuses: −128, or nonzero where the format takes 0. -/
def badK (fmt k : Nat) : Bool := k == 0x80 || (k != 0 && !fmtScaled fmt)

/-- A slot selected (KSRC = 1) beside an immediate exponent that is not 0, or for a format whose scale must be 0: the wording of R111
names KSRC first, so the failure stands there (R429). -/
def badKsrc (fmt k : Nat) (ksrc : Bool) : Bool := ksrc && (k != 0 || !fmtScaled fmt)

/-- A slot whose format is not the operand's (R148); a slot of another job is left to check 3. -/
def badSlotFmt (s : State) (j : Job) (ksrc : Bool) (slot fmt : Nat) : Bool :=
  ksrc && j.ownsSlot slot && (s.slot slot).fmt != fmt

/-- A scale exponent: immediate, or the slot's (R111). -/
def scaleOf (s : State) (ksrc : Bool) (slot : Nat) (k : Int) : Int := if ksrc then (s.slot slot).k else k

def inList (x : Nat) (l : List Nat) : Bool := l.contains x

/-- Formats of an MM operand (R104). -/
def mmFmt (c : Nat) : Bool := fmtListed c && c != 1

/-! ## Paths and the interlock (R98, R100, R101) -/

def pMxe : Nat := 1
def pVxe : Nat := 2
def pRead : Nat := 4
def pWrite : Nat := 8
def pUpd : Nat := 16
def pRow : Nat := 32
def pConv : Nat := 64

/-- What a tile command needs: paths, spans read, spans written. -/
structure Need where
  paths : Nat
  reads : List (Nat × Nat)
  span  : List (Nat × Nat)
  deriving DecidableEq, Repr

def spansMeet (a b : List (Nat × Nat)) : Bool := a.any (fun x => b.any (fun y => overlaps x.1 x.2 y.1 y.2))

/-- No earlier command in flight holds a path, writes what this one touches, or reads what it writes (R101). -/
def interlockFree (q : Queue) (n : Need) : Bool :=
  q.flight.all (fun f => (f.paths &&& n.paths) == 0 && !spansMeet (n.reads ++ n.span) f.span &&
    !spansMeet n.span f.reads)

def withNeed (f : Flight) (n : Need) : Flight := { f with paths := n.paths, reads := n.reads, span := n.span }

/-- Span of an accumulator region. -/
def regionSpan (tile row0 rows : Nat) : Nat × Nat := (State.accAddr tile row0 0, rows * 256)

def scratchSpan (tile : Nat) (p : Nat × Nat) : Nat × Nat := (State.scratchAddr tile p.1, p.2)

/-! ## Summation (R106-R108) -/

/-- Pairs cut into groups of 64 and each summed exactly. -/
def groupSums : Nat → List (Val × Val) → List Sum
  | 0, _ => []
  | _, [] => []
  | n + 1, l => ((l.take 64).foldl (fun (s : Sum) p => s.add (mulVal p.1 p.2)) {}) :: groupSums n (l.drop 64)

/-- One group sum added to an FP32 accumulator. -/
def addGroup (acc : Nat × Bool × Bool) (g : Sum) : Nat × Bool × Bool :=
  let (v, inv) := g.value
  let (t, inv2) := addVal (decodeFp fp32 acc.1) v
  let c := toFp32 t
  (c.code, acc.2.1 || inv || inv2, acc.2.2 || (c.ovf && t.isFin))

/-- One group sum added to an INT32 accumulator, saturating (R106). -/
def addGroupInt (acc : Nat × Bool × Bool) (g : Sum) : Nat × Bool × Bool :=
  let t := sbits acc.1 0 32 + g.m * ((2 ^ g.e.toNat : Nat) : Int)
  let hi : Int := 2147483647
  if t > hi then (toField 32 hi, acc.2.1, true)
  else if t < -hi - 1 then (toField 32 (-hi - 1), acc.2.1, true)
  else (toField 32 t, acc.2.1, acc.2.2)

/-- One output element: accumulator word, INVALID, OVERFLOW. -/
def mxeElem (int : Bool) (acc : Nat) (a b : List Val) : Nat × Bool × Bool :=
  (groupSums (a.length + 1) (a.zip b)).foldl (if int then addGroupInt else addGroup) (acc, false, false)

/-- A matrix product over rows a (numbered from i) and rows b into accumulator rows `old`: new rows, and flags in row-major
order (R112, R116). -/
def mxeProduct (int : Bool) (b : List (List Val)) : Nat → List (List Val × List Nat) → List (List Nat) × NumFlags
  | _, [] => ([], NumFlags.none)
  | i, (a, old) :: t =>
    let es := (b.zip old).map (fun p => mxeElem int p.2 a p.1)
    let fl := ((List.range es.length).zip es).foldl
      (fun (f : NumFlags) p => f.join (NumFlags.ofArith p.2.2.1 p.2.2.2 p.2.2.1 i p.1)) NumFlags.none
    let r := mxeProduct int b (i + 1) t
    (es.map (·.1) :: r.1, fl.join r.2)

/-- Width class of a format: 4, 8, 16 or 32 bits (R105). -/
def fmtClass (c : Nat) : Nat :=
  if c = 0 then 32 else if c = 2 || c = 3 then 16 else if c = 8 || c = 9 || c = 0x0C then 4 else 8

/-- Chunk length, row interval and bytes of 64 rows of B over a chunk, then D_MM (R105, R112). -/
def mmBeats (afmt bfmt m n k : Nat) : Nat :=
  let c := max (fmtClass afmt) (fmtClass bfmt)
  let kc := if c = 4 then 128 else 64
  let i := if c = 32 then 16 else if c = 16 then 2 else 1
  let per := kc * fmtWidth bfmt / 8 + (if fmtBlock bfmt then kc / 32 * (if fmtBead bfmt then 2 else 1) else 0)
  let lb := ceilDiv (64 * per) 448
  lb + ceilDiv n 64 * ceilDiv k kc * max (m * i) lb + 70

/-! ## MM (R110-R112) -/

structure MmArgs where
  a : Operand
  b : Operand
  int : Bool
  acc : Bool
  m : Nat
  n : Nat
  k : Nat
  row : Nat
  aK : Nat
  bK : Nat
  aSrc : Bool
  bSrc : Bool
  aSlot : Nat
  bSlot : Nat
  deriving DecidableEq, Repr

def mmArgs (r : Nat) : MmArgs :=
  { a := ⟨bits r 128 5, bits r 144 22, bits r 208 16, bits r 240 16⟩
    b := ⟨bits r 133 5, bits r 176 22, bits r 224 16, bits r 256 16⟩
    int := bitAt r 138, acc := bitAt r 139
    m := bits r 272 11, n := bits r 288 11, k := bits r 304 16, row := bits r 320 10
    aK := bits r 336 8, bK := bits r 344 8, aSrc := bitAt r 352, bSrc := bitAt r 353
    aSlot := bits r 360 12, bSlot := bits r 376 12 }

def mmChecks (s : State) (j : Job) (_ : Queue) (r : Nat) : List Chk :=
  let x := mmArgs r
  let ints := fmtInteger x.a.fmt && fmtInteger x.b.fmt
  let immInt (k : Nat) (src : Bool) := x.int && !src && k != 0
  [ ckZero r 141 3, ckZero r 166 10, ckZero r 198 10, ckZero r 283 5, ckZero r 299 5, ckZero r 330 6, ckZero r 354 6,
    ckZero r 372 4, ckZero r 388 124,
    ckEnum 128 5 (!fmtListed x.a.fmt), ckEnum 133 5 (!fmtListed x.b.fmt),
    ckRange 208 16 (x.a.stride == 0 || decide (x.a.stride < x.a.k0 + x.k)),
    ckRange 224 16 (x.b.stride == 0 || decide (x.b.stride < x.b.k0 + x.k)),
    ckRange 272 11 (x.m == 0 || decide (1024 < x.m)), ckRange 288 11 (x.n == 0 || decide (1024 < x.n)),
    ckRange 304 16 (x.k == 0), ckRange 320 10 (decide (1024 < x.row + regionRows x.m x.n)),
    ckRange 336 8 (badK x.a.fmt x.aK || immInt x.aK x.aSrc), ckRange 344 8 (badK x.b.fmt x.bK || immInt x.bK x.bSrc),
    ckRange 352 1 (badKsrc x.a.fmt x.aK x.aSrc), ckRange 353 1 (badKsrc x.b.fmt x.bK x.bSrc),
    ckAlign 144 22 (badBase x.a.fmt x.a.addr), ckAlign 176 22 (badBase x.b.fmt x.b.addr),
    ckAlign 208 16 (badPitch x.a.fmt x.a.stride), ckAlign 224 16 (badPitch x.b.fmt x.b.stride),
    ckAlign 240 16 (badPitch x.a.fmt x.a.k0), ckAlign 256 16 (badPitch x.b.fmt x.b.k0),
    ckAlign 304 16 (badLen x.a.fmt x.k || badLen x.b.fmt x.k),
    ckAddr 144 22 (x.a.beyond x.m x.k), ckAddr 176 22 (x.b.beyond x.n x.k),
    ckFmt 128 5 (!mmFmt x.a.fmt || (fmtInteger x.a.fmt && !fmtInteger x.b.fmt)),
    ckFmt 133 5 (!mmFmt x.b.fmt || (fmtInteger x.b.fmt && !fmtInteger x.a.fmt)),
    ckFmt 138 1 (x.int && !ints),
    ckFmt 360 12 (badSlotFmt s j x.aSrc x.aSlot x.a.fmt), ckFmt 376 12 (badSlotFmt s j x.bSrc x.bSlot x.b.fmt),
    ckOwn (x.aSrc && !j.ownsSlot x.aSlot), ckOwn (x.bSrc && !j.ownsSlot x.bSlot) ]

def mmNeed (q : Queue) (r : Nat) : Need :=
  let x := mmArgs r
  let t := q.ref.inst
  { paths := pMxe + pRead + pUpd
    reads := (x.a.spans x.m x.k ++ x.b.spans x.n x.k).map (scratchSpan t)
    span := [regionSpan t x.row (regionRows x.m x.n)] }

/-- A slot-fed exponent that is not 0 under ACC_MODE 1 (R106, check 4). -/
def mmLate (s : State) (_ : Job) (_ : Queue) (r : Nat) : List Chk :=
  let x := mmArgs r
  [ ckState eState (x.int && ((x.aSrc && decide ((s.slot x.aSlot).k ≠ 0)) || (x.bSrc && decide ((s.slot x.bSlot).k ≠ 0)))) ]

/-- Systolic steps of a tile counted (R41). DESIGN CHOICE (log 163): a product counts the beats published for it less 70, its L_B beats
included, when it starts; pedal work counts none. -/
def countSteps (s : State) (tile n : Nat) : State :=
  { s with tiles := { s.tiles with steps := sput 0 s.tiles.steps tile (sget 0 s.tiles.steps tile + n) } }

/-- The region that a product leaves and its flags: C += A × Bᵀ (R107, R112). -/
def mmResult (s : State) (tile : Nat) (x : MmArgs) : List (List Nat) × NumFlags :=
  let ka := scaleOf s x.aSrc x.aSlot (sbits x.aK 0 8)
  let kb := scaleOf s x.bSrc x.bSlot (sbits x.bK 0 8)
  let b := (List.range x.n).map (fun i => x.b.row s.mem tile i x.k kb)
  mxeProduct x.int b 0 ((List.range x.m).map (fun i =>
    (x.a.row s.mem tile i x.k ka,
      if x.acc then readRegionRow s.mem tile x.row x.m x.n i else List.replicate x.n 0)))

/-- The writes that put rows of words into a region. -/
def regionWrites (tile row0 M : Nat) (rows : List (List Nat)) : List (Nat × Bytes) :=
  ((List.range rows.length).zip rows).flatMap (fun p => writeRegionRow tile row0 M p.1 p.2)

def resOfFlags (f : NumFlags) (beats : Nat) : Res :=
  { inv := f.inv, ovf := f.ovf, recomp := f.recomp, lost := f.lost, nan := f.nan, beats := some beats }

def mmStart (s : State) (_ : Job) (q : Queue) (r : Nat) (f : Flight) : Started :=
  let x := mmArgs r
  let t := q.ref.inst
  let (rows, fl) := mmResult s t x
  let beats := mmBeats x.a.fmt x.b.fmt x.m x.n x.k
  ⟨countSteps s t (beats - 70),
    { withNeed f (mmNeed q r) with res := resOfFlags fl beats, writes := regionWrites t x.row x.m rows }, false⟩

def mmSpec : CmdSpec :=
  { kind := 0x10, fetch := always, checks := mmChecks, ready := fun _ _ q r => interlockFree q (mmNeed q r),
    late := mmLate, start := mmStart }

/-! ## ACC_INIT (R113) -/

def initChecks (_ : State) (_ : Job) (_ : Queue) (r : Nat) : List Chk :=
  let mode := bits r 128 2
  let m := bits r 192 11
  let n := bits r 208 11
  let st := bits r 176 16
  let addr := bits r 144 22
  let last := if mode = 1 then (m - 1) * st + n else n
  [ ckZero r 130 14 ] ++ (if mode = 0 then [ckZero r 144 22] else []) ++ [ ckZero r 166 10 ] ++
  (if mode = 1 then [] else [ckZero r 176 16]) ++
  [ ckZero r 203 5, ckZero r 219 5, ckZero r 234 278,
    ckEnum 128 2 (mode == 3),
    ckRange 176 16 (mode == 1 && decide (st < n)),
    ckRange 192 11 (m == 0 || decide (1024 < m)), ckRange 208 11 (n == 0 || decide (1024 < n)),
    ckRange 224 10 (decide (1024 < bits r 224 10 + regionRows m n)),
    ckAlign 144 22 (mode != 0 && addr % 4 != 0),
    ckAddr 144 22 (mode != 0 && decide (0x400000 < addr + 4 * last)) ]

def initNeed (q : Queue) (r : Nat) : Need :=
  let t := q.ref.inst
  let mode := bits r 128 2
  let m := bits r 192 11
  let n := bits r 208 11
  { paths := pRead + pRow
    reads :=
      if mode = 0 then []
      else (Operand.spans ⟨0, bits r 144 22, bits r 176 16, 0⟩ (if mode = 1 then m else 1) n).map (scratchSpan t)
    span := [regionSpan t (bits r 224 10) (regionRows m n)] }

def initStart (s : State) (_ : Job) (q : Queue) (r : Nat) (f : Flight) : Started :=
  let t := q.ref.inst
  let mode := bits r 128 2
  let m := bits r 192 11
  let n := bits r 208 11
  let words (i : Nat) : List Nat :=
    if mode = 0 then List.replicate n 0
    else
      let x := s.num (State.scratchAddr t (bits r 144 22 + (if mode = 1 then 4 * i * bits r 176 16 else 0))) (4 * n)
      (List.range n).map (fun k => bits x (32 * k) 32)
  ⟨s, { withNeed f (initNeed q r) with
    res := { beats := some (m * ceilDiv n 64 + 6) }
    writes := regionWrites t (bits r 224 10) m ((List.range m).map words) }, false⟩

def initSpec : CmdSpec :=
  { kind := 0x11, fetch := always, checks := initChecks, ready := fun _ _ q r => interlockFree q (initNeed q r),
    late := noChecks, start := initStart }

/-! ## ACC_DRAIN (R114, R115, R152) -/

structure DrainArgs where
  o : Operand
  mode : Nat
  clear : Bool
  recomp : Bool
  int : Bool
  m : Nat
  n : Nat
  row : Nat
  k : Nat
  src : Bool
  slot : Nat
  seed : Nat
  deriving DecidableEq, Repr

def drainArgs (r : Nat) : DrainArgs :=
  { o := ⟨bits r 128 5, bits r 144 22, bits r 176 16, 0⟩
    mode := bits r 133 2, clear := bitAt r 135, recomp := bitAt r 137, int := bitAt r 138
    m := bits r 192 11, n := bits r 208 11, row := bits r 224 10
    k := bits r 240 8, src := bitAt r 248, slot := bits r 256 12, seed := bits r 272 32 }

def drainChecks (s : State) (j : Job) (_ : Queue) (r : Nat) : List Chk :=
  let x := drainArgs r
  [ ckZero r 139 5, ckZero r 166 10, ckZero r 203 5, ckZero r 219 5, ckZero r 234 6, ckZero r 249 7, ckZero r 268 4,
    ckZero r 304 208,
    ckEnum 128 5 (!fmtListed x.o.fmt), ckEnum 133 2 (x.mode == 3),
    ckRange 176 16 (decide (x.o.stride < x.n)),
    ckRange 192 11 (x.m == 0 || decide (1024 < x.m)), ckRange 208 11 (x.n == 0 || decide (1024 < x.n)),
    ckRange 224 10 (decide (1024 < x.row + regionRows x.m x.n)),
    ckRange 240 8 (badK x.o.fmt x.k), ckRange 248 1 (badKsrc x.o.fmt x.k x.src),
    ckAlign 144 22 (badBase x.o.fmt x.o.addr), ckAlign 176 16 (badPitch x.o.fmt x.o.stride),
    ckAlign 208 11 (badLen x.o.fmt x.n),
    ckAddr 144 22 (x.o.beyond x.m x.n),
    ckFmt 128 5 (x.o.fmt == 1), ckFmt 133 2 (x.mode == 2 && !fmtSr x.o.fmt),
    ckFmt 256 12 (badSlotFmt s j x.src x.slot x.o.fmt),
    ckOwn (x.src && !j.ownsSlot x.slot) ]

def drainNeed (q : Queue) (r : Nat) : Need :=
  let x := drainArgs r
  let t := q.ref.inst
  let region := regionSpan t x.row (regionRows x.m x.n)
  { paths := pRow + pConv + pWrite
    reads := [region]
    span := (x.o.spans x.m x.n).map (scratchSpan t) ++ (if x.clear then [region] else []) }

/-- One pass of the conversion at exponent k, rows numbered from i (R115). -/
def drainPass (s : State) (t : Nat) (x : DrainArgs) (k : Int) : Nat → List (List Nat) → List (Nat × Bytes) × NumFlags
  | _, [] => ([], NumFlags.none)
  | i, row :: rest =>
    let vs := row.map (fun w => if x.int then Val.ofInt (sbits w 0 32) else decodeFp fp32 w)
    let a := convRun s.mem (State.scratchAddr t x.o.addr) ⟨x.o.fmt, x.mode, x.seed, k⟩ (i * x.o.stride) vs
      (fun n => i * x.n + n) (fun n => (i, n))
    let b := drainPass s t x k (i + 1) rest
    (a.1 ++ b.1, a.2.join b.2)

/-- The passes of R152: again from k + 2, at most +127, while an overflow persists; the passes and recomputes made. -/
def drainPasses (s : State) (t : Nat) (x : DrainArgs) (rows : List (List Nat)) :
    Nat → Int → Nat → (List (Nat × Bytes) × NumFlags) × Nat
  | 0, k, n => (drainPass s t x k 0 rows, n)
  | left + 1, k, n =>
    let p := drainPass s t x k 0 rows
    if p.2.ovf && decide (k < 127) then drainPasses s t x rows left (min (k + 2) 127) (n + 1) else (p, n)

def drainStart (s : State) (_ : Job) (q : Queue) (r : Nat) (f : Flight) : Started :=
  let x := drainArgs r
  let t := q.ref.inst
  let rows := (List.range x.m).map (readRegionRow s.mem t x.row x.m x.n)
  let k := scaleOf s x.src x.slot (sbits x.k 0 8)
  let (p, n) := drainPasses s t x rows (if x.recomp && fmtScaled x.o.fmt then 2 else 0) k 0
  let cleared := if x.clear then regionWrites t x.row x.m (List.replicate x.m (List.replicate x.n 0)) else []
  ⟨s, { withNeed f (drainNeed q r) with
    res := { resOfFlags p.2 ((x.m * ceilDiv x.n 64 + 6) * (n + 1)) with recomp := decide (n ≠ 0) }
    writes := p.1 ++ cleared
    amax := if x.src then [(x.slot, amaxCode p.2.amax)] else []
    recomps := if x.src && n != 0 then [(x.slot, n)] else [] }, false⟩

def drainSpec : CmdSpec :=
  { kind := 0x12, fetch := always, checks := drainChecks, ready := fun _ _ q r => interlockFree q (drainNeed q r),
    late := noChecks, start := drainStart }

/-! ## ATTN_STEP (R117-R120) -/

structure AttnArgs where
  q : Operand
  k : Operand
  v : Operand
  p : Operand
  first : Bool
  causal : Bool
  m : Nat
  bk : Nat
  d : Nat
  sRow : Nat
  oRow : Nat
  stRow : Nat
  scale : Nat
  qPos : Nat
  kPos : Nat
  qK : Nat
  kK : Nat
  vK : Nat
  deriving DecidableEq, Repr

def attnArgs (r : Nat) : AttnArgs :=
  let bk := bits r 304 11
  { q := ⟨bits r 128 5, bits r 152 22, bits r 240 16, 0⟩
    k := ⟨bits r 133 5, bits r 174 22, bits r 256 16, 0⟩
    v := ⟨bits r 138 5, bits r 196 22, bits r 272 16, 0⟩
    p := ⟨bits r 143 5, bits r 218 22, bk, 0⟩
    first := bitAt r 148, causal := bitAt r 149, m := bits r 288 9, bk := bk, d := bits r 320 9
    sRow := bits r 336 10, oRow := bits r 352 10, stRow := bits r 368 10
    scale := bits r 384 32, qPos := bits r 416 32, kPos := bits r 448 32
    qK := bits r 480 8, kK := bits r 488 8, vK := bits r 496 8 }

def attnFmts : List Nat := [2, 3, 4, 5, 0x0A]

def attnChecks (_ : State) (_ : Job) (_ : Queue) (r : Nat) : List Chk :=
  let x := attnArgs r
  let rs := regionRows x.m x.bk
  let ro := regionRows x.m x.d
  let rt := 2 * ceilDiv x.m 64
  let pBytes := x.p.spans x.m x.bk
  let hit :=
    overlaps x.sRow rs x.oRow ro || overlaps x.sRow rs x.stRow rt || overlaps x.oRow ro x.stRow rt ||
    spansMeet pBytes (x.q.spans x.m x.d) || spansMeet pBytes (x.k.spans x.bk x.d) || spansMeet pBytes (x.v.spans x.d x.bk)
  let joint : Chk := { pass := 2, code := eField, bad := hit }
  [ ckZero r 151 1, ckZero r 297 7, ckZero r 315 5, ckZero r 329 7, ckZero r 346 6, ckZero r 362 6, ckZero r 378 6,
    ckZero r 504 8,
    ckEnum 128 5 (!fmtListed x.q.fmt), ckEnum 133 5 (!fmtListed x.k.fmt), ckEnum 138 5 (!fmtListed x.v.fmt),
    ckEnum 143 5 (!fmtListed x.p.fmt),
    ckRange 240 16 (decide (x.q.stride < x.d)), ckRange 256 16 (decide (x.k.stride < x.d)),
    ckRange 272 16 (decide (x.v.stride < x.bk)),
    ckRange 288 9 (x.m == 0 || decide (256 < x.m)), ckRange 304 11 (x.bk == 0 || decide (1024 < x.bk)),
    ckRange 320 9 (x.d == 0 || decide (256 < x.d)),
    ckRange 336 10 (decide (1024 < x.sRow + rs)), ckRange 352 10 (decide (1024 < x.oRow + ro)),
    ckRange 368 10 (decide (1024 < x.stRow + rt)),
    ckRange 480 8 (badK x.q.fmt x.qK), ckRange 488 8 (badK x.k.fmt x.kK),
    ckRange 496 8 (badK x.v.fmt x.vK), joint,
    ckAlign 152 22 (badBase x.q.fmt x.q.addr), ckAlign 174 22 (badBase x.k.fmt x.k.addr),
    ckAlign 196 22 (badBase x.v.fmt x.v.addr),
    ckAlign 240 16 (badPitch x.q.fmt x.q.stride), ckAlign 256 16 (badPitch x.k.fmt x.k.stride),
    ckAlign 272 16 (badPitch x.v.fmt x.v.stride), ckAlign 304 11 (badLen x.v.fmt x.bk),
    ckAlign 320 9 (badLen x.q.fmt x.d || badLen x.k.fmt x.d),
    ckAddr 152 22 (x.q.beyond x.m x.d), ckAddr 174 22 (x.k.beyond x.bk x.d), ckAddr 196 22 (x.v.beyond x.d x.bk),
    ckAddr 218 22 (x.p.beyond x.m x.bk),
    ckFmt 128 5 (!inList x.q.fmt attnFmts), ckFmt 133 5 (!inList x.k.fmt attnFmts),
    ckFmt 138 5 (!inList x.v.fmt attnFmts), ckFmt 143 5 (!inList x.p.fmt [2, 3, 4, 5]) ]

def attnNeed (q : Queue) (r : Nat) : Need :=
  let x := attnArgs r
  let t := q.ref.inst
  let regs := [regionSpan t x.sRow (regionRows x.m x.bk), regionSpan t x.oRow (regionRows x.m x.d),
    regionSpan t x.stRow (2 * ceilDiv x.m 64)]
  { paths := pMxe + pVxe + pRead + pWrite + pUpd + pRow
    reads := (x.q.spans x.m x.d ++ x.k.spans x.bk x.d ++ x.v.spans x.d x.bk).map (scratchSpan t) ++ regs
    span := (x.p.spans x.m x.bk).map (scratchSpan t) ++ regs }

/-- FP32 arithmetic of the softmax steps: the rounded code with INVALID and OVERFLOW. -/
def fp32Op (v : Val × Bool) : Nat × Bool × Bool :=
  let c := toFp32 v.1
  (c.code, v.2, c.ovf && v.1.isFin)

def fp32Val (c : Nat) : Val := decodeFp fp32 c

/-- Steps 2 to 6 for one query q (R119). -/
structure Softmax where
  /-- Codes of P. -/
  p     : List Nat
  alpha : Nat
  mNew  : Nat
  lNew  : Nat
  flags : NumFlags
  deriving DecidableEq, Repr

def softmaxRow (x : AttnArgs) (q : Nat) (score : List Nat) (mOld lOld : Nat) : Softmax :=
  let ix := List.range score.length
  let s := (ix.zip score).map (fun p =>
    if x.causal && decide (x.qPos + q < x.kPos + p.1) then (fp32.infCode true, false, false)
    else fp32Op (mulVal (fp32Val p.2) (fp32Val x.scale)))
  let f2 := (ix.zip s).foldl (fun (f : NumFlags) p => f.join (NumFlags.ofArith p.2.2.1 p.2.2.2 p.2.2.1 q p.1)) NumFlags.none
  let mNew := (toFp32 ((s.map (fun e => fp32Val e.1)).foldl maxVal (fp32Val mOld))).code
  if mNew = fp32.infCode true then
    { p := List.replicate score.length 0, alpha := 0x3F800000, mNew := mNew,
      lNew := ((groupSums (score.length + 1) ((List.replicate score.length (Val.zero, Val.zero)))).foldl addGroup
        (lOld, false, false)).1, flags := f2 }
  else
    let diff (c : Nat) := fp32Op (addVal (fp32Val c) (Val.neg (fp32Val mNew)))
    let da := diff mOld
    let alpha := (toFp32 (expVal (fp32Val da.1))).code
    let ds := s.map (fun e => diff e.1)
    let p := ds.map (fun d => (toScalar x.p.fmt 0 0 (fp32Val (toFp32 (expVal (fp32Val d.1))).code)).code)
    let f4 := (ix.zip ds).foldl (fun (f : NumFlags) e => f.join (NumFlags.ofArith e.2.2.1 e.2.2.2 e.2.2.1 q e.1)) NumFlags.none
    let la := fp32Op (mulVal (fp32Val alpha) (fp32Val lOld))
    let l := (groupSums (p.length + 1) (p.map (fun c => (ofScalar x.p.fmt c, Val.fin false 1 0)))).foldl addGroup
      (la.1, false, false)
    { p := p, alpha := alpha, mNew := mNew, lNew := l.1,
      flags := (f2.first f4).join { inv := da.2.1, ovf := da.2.2 || la.2.2 || l.2.2 } }

/-- The word at a statistics position (R118). -/
def statAddr (tile stRow q : Nat) : Nat := State.accAddr tile (stRow + q / 64) (q % 64)

/-- An ATTN_STEP (R118-R120). DESIGN CHOICE (log 164): of a score and an element of O that both became NaN, the score is named. -/
def attnStart (s : State) (_ : Job) (qu : Queue) (r : Nat) (f : Flight) : Started :=
  let x := attnArgs r
  let t := qu.ref.inst
  let kRows := (List.range x.bk).map (fun i => x.k.row s.mem t i x.d (sbits x.kK 0 8))
  let sc := mxeProduct false kRows 0 ((List.range x.m).map (fun i =>
    (x.q.row s.mem t i x.d (sbits x.qK 0 8), List.replicate x.bk 0)))
  let lRow := x.stRow + ceilDiv x.m 64
  let sm := ((List.range x.m).zip sc.1).map (fun p => softmaxRow x p.1 p.2
    (if x.first then fp32.infCode true else s.num (statAddr t x.stRow p.1) 4)
    (if x.first then 0 else s.num (statAddr t lRow p.1) 4))
  let vRows := (List.range x.d).map (fun i => x.v.row s.mem t i x.bk (sbits x.vK 0 8))
  let old := ((List.range x.m).zip sm).map (fun p =>
    if x.first then (List.replicate x.d 0, false)
    else
      let os := (readRegionRow s.mem t x.oRow x.m x.d p.1).map
        (fun w => fp32Op (mulVal (fp32Val w) (fp32Val p.2.alpha)))
      (os.map (·.1), os.any (·.2.2)))
  let o := mxeProduct false vRows 0 ((sm.zip old).map (fun p => (p.1.p.map (ofScalar x.p.fmt), p.2.1)))
  let fl := ((sc.2.first ((sm.map (·.flags)).foldl NumFlags.join NumFlags.none)).join { ovf := old.any (·.2) }).join o.2
  let pW := ((List.range x.m).zip sm).flatMap (fun p =>
    scalarWrites s.mem (State.scratchAddr t x.p.addr) x.p.fmt ((List.range x.bk).map (fun n => p.1 * x.bk + n) |>.zip p.2.p))
  let stW := ((List.range x.m).zip sm).flatMap (fun p =>
    [(statAddr t x.stRow p.1, leBytes 4 p.2.mNew), (statAddr t lRow p.1, leBytes 4 p.2.lNew)])
  let b1 := mmBeats x.q.fmt x.k.fmt x.m x.bk x.d
  let b8 := mmBeats x.p.fmt x.v.fmt x.m x.d x.bk
  let beats := b1 + 8 * x.m * ceilDiv x.bk 64 + (if x.first then 0 else x.m * ceilDiv x.d 64) + b8 + 20
  ⟨countSteps s t (b1 + b8 - 140), { withNeed f (attnNeed qu r) with
    res := resOfFlags fl beats
    writes := regionWrites t x.sRow x.m sc.1 ++ pW ++ stW ++ regionWrites t x.oRow x.m o.1 }, false⟩

def attnSpec : CmdSpec :=
  { kind := 0x13, fetch := always, checks := attnChecks, ready := fun _ _ q r => interlockFree q (attnNeed q r),
    late := noChecks, start := attnStart }

/-! ## ATTN_FINAL (R121) -/

def finalChecks (_ : State) (_ : Job) (_ : Queue) (r : Nat) : List Chk :=
  let m := bits r 128 9
  let d := bits r 144 9
  let en := bitAt r 214
  [ ckZero r 137 7, ckZero r 153 7, ckZero r 170 6, ckZero r 186 6 ] ++ (if en then [] else [ckZero r 192 22]) ++
  [ ckZero r 215 297,
    ckRange 128 9 (m == 0 || decide (256 < m)), ckRange 144 9 (d == 0 || decide (256 < d)),
    ckRange 160 10 (decide (1024 < bits r 160 10 + regionRows m d)),
    ckRange 176 10 (decide (1024 < bits r 176 10 + 2 * ceilDiv m 64)),
    ckAlign 192 22 (en && bits r 192 22 % 4 != 0),
    ckAddr 192 22 (en && decide (0x400000 < bits r 192 22 + 4 * m)) ]

def finalNeed (q : Queue) (r : Nat) : Need :=
  let t := q.ref.inst
  let m := bits r 128 9
  let o := regionSpan t (bits r 160 10) (regionRows m (bits r 144 9))
  { paths := pVxe + pRow + pWrite
    reads := [o, regionSpan t (bits r 176 10) (2 * ceilDiv m 64)]
    span := o :: (if bitAt r 214 then [scratchSpan t (bits r 192 22, 4 * m)] else []) }

/-- One query of ATTN_FINAL: the row of O, the log-sum-exp, flags. A sum below 0, or −0, has no stated result: the words are free
values that depend on the operands alone (R109; log 76). DESIGN CHOICE (log 76): a sum that is NaN goes through the formula of a positive one,
so that O and LSE become NaN. -/
def finalRow (q : Nat) (o : List Nat) (mq lq : Nat) : List Nat × Nat × NumFlags :=
  if lq = 0 then (o.map (fun _ => 0), fp32.infCode true, NumFlags.none)
  else if (fp32Val lq).sign then
    (o.map (fun w => Config.finalWord lq w % 2 ^ 32), Config.finalLse lq mq % 2 ^ 32, NumFlags.none)
  else
    let rcp := fp32Op (rcpVal (fp32Val lq), false)
    let rc := rcp.1
    let ws := o.map (fun w => fp32Op (mulVal (fp32Val w) (fp32Val rc)))
    let lse := fp32Op (addVal (fp32Val mq) (fp32Val (toFp32 (logVal (fp32Val lq)).1).code))
    let fl := ((List.range ws.length).zip ws).foldl
      (fun (f : NumFlags) p => f.join (NumFlags.ofArith p.2.2.1 p.2.2.2 p.2.2.1 q p.1)) NumFlags.none
    (ws.map (·.1), lse.1, fl.join { inv := lse.2.1, ovf := rcp.2.2 || lse.2.2 })

def finalStart (s : State) (_ : Job) (qu : Queue) (r : Nat) (f : Flight) : Started :=
  let t := qu.ref.inst
  let m := bits r 128 9
  let d := bits r 144 9
  let st := bits r 176 10
  let rows := (List.range m).map (fun q => finalRow q
    (readRegionRow s.mem t (bits r 160 10) m d q)
    (s.num (statAddr t st q) 4) (s.num (statAddr t (st + ceilDiv m 64) q) 4))
  let lse := if bitAt r 214 then
      [(State.scratchAddr t (bits r 192 22), rows.flatMap (fun p => leBytes 4 p.2.1))] else []
  ⟨s, { withNeed f (finalNeed qu r) with
    res := resOfFlags ((rows.map (·.2.2)).foldl NumFlags.join NumFlags.none) (m * ceilDiv d 64 + 2 * ceilDiv m 64 + 20)
    writes := regionWrites t (bits r 160 10) m (rows.map (·.1)) ++ lse }, false⟩

def finalSpec : CmdSpec :=
  { kind := 0x14, fetch := always, checks := finalChecks, ready := fun _ _ q r => interlockFree q (finalNeed q r),
    late := noChecks, start := finalStart }

end Sys2Proof.Machine
end

