-- ==== Sys2Proof/Machine/RingFlow.lean ====
section
/-! DEFINITION. Packets on the Ring engines (R258-R268, R273, R275, R276): the cut of a bucket, the wire, the adder, the passing on
of results and close packets, and poison. -/
namespace Sys2Proof.Machine

/-! ## The bodies of REDUCE (R256) and GATHER (R272) -/

structure ReduceArgs where
  tag   : Nat
  group : Nat
  epoch : Nat
  step  : Nat
  ar    : Bool
  norm  : Bool
  lr    : Nat
  ksrc  : Bool
  src   : Nat
  dst   : Nat
  srcFmt : Nat
  wire  : Nat
  rankM1 : Nat
  count : Nat
  slot  : Nat
  deriving DecidableEq, Repr

def reduceArgs (r : Nat) : ReduceArgs :=
  { tag := bits r 128 20, group := bits r 148 4, epoch := bits r 152 16, step := bits r 168 32, ar := bitAt r 200
    norm := bitAt r 201, lr := bits r 202 2, ksrc := bitAt r 204, srcFmt := bits r 208 5, wire := bits r 213 5
    rankM1 := bits r 218 6, src := bits r 224 48, dst := bits r 272 48, count := bits r 320 32, slot := bits r 360 12 }

structure GatherArgs where
  tag    : Nat
  group  : Nat
  epoch  : Nat
  verSel : Bool
  locket : Bool
  local_ : Nat
  buddy  : Nat
  src    : Nat
  dst    : Nat
  total  : Nat
  pitch  : Nat
  lkAddr : Nat
  lkBytes : Nat
  deriving DecidableEq, Repr

def gatherArgs (r : Nat) : GatherArgs :=
  { tag := bits r 128 20, group := bits r 148 4, epoch := bits r 152 16, verSel := bitAt r 168, locket := bitAt r 169
    local_ := bits r 172 4, buddy := bits r 176 8, src := bits r 184 48, dst := bits r 232 48, total := bits r 280 40
    pitch := bits r 320 40, lkAddr := bits r 360 48, lkBytes := bits r 408 32 }

/-! ## Members and shards (R258, R273) -/

def RGroup.n (g : RGroup) : Nat := g.members.length
/-- Module at a member index, as the job's alias table has it. -/
def RGroup.at_ (g : RGroup) (j : Job) (i : Nat) : Nat := j.alias? (g.members.getD i 0)
def RGroup.next (g : RGroup) : Nat := (g.self + 1) % g.n
def RGroup.prev (g : RGroup) : Nat := (g.self + g.n - 1) % g.n
/-- Children of a member under TREE (R260). -/
def RGroup.kids (g : RGroup) (i : Nat) : List Nat := [2 * i + 1, 2 * i + 2].filter (fun k => decide (k < g.n))
def RGroup.parent (g : RGroup) : Nat := (g.self - 1) / 2

/-- A packet's place in a bucket: shard, first item, items (elements of a REDUCE, bytes of a GATHER). -/
abbrev Place3 := Nat × Nat × Nat

/-- Shards of `q` items of a bucket of `count`, cut into packets of `per`. -/
def shardPackets (count q per sh : Nat) : List Place3 :=
  let lo := sh * q
  let hi := min ((sh + 1) * q) count
  (List.range (ceilDiv (hi - lo) per)).map (fun p => (sh, lo + per * p, min per (hi - lo - per * p)))

def shardSize (b : Bucket) (g : RGroup) : Nat :=
  if b.gather then 64 * ceilDiv (gatherArgs b.record).total (64 * g.n)
  else if g.tree then (reduceArgs b.record).count
  else 128 * ceilDiv (reduceArgs b.record).count (128 * g.n)

def bucketCount (b : Bucket) : Nat := if b.gather then (gatherArgs b.record).total else (reduceArgs b.record).count

/-- Packets of a bucket's shard, in order. -/
def packetsOf (b : Bucket) (g : RGroup) (sh : Nat) : List Place3 :=
  shardPackets (bucketCount b) (shardSize b g) (if b.gather then 256 else 128) sh

/-- Members of the subtree below one, itself first, then its left and its right subtree. -/
def subtree (n : Nat) : Nat → Nat → List Nat
  | 0, _ => []
  | k + 1, i => if n ≤ i then [] else i :: (subtree n k (2 * i + 1) ++ subtree n k (2 * i + 2))

/-- Order in which the partials of a REDUCE under RING come from the previous member (R259). -/
def partialSeq (b : Bucket) (g : RGroup) : List Place3 :=
  if g.tree then packetsOf b g 0
  else (List.range (g.n - 1)).flatMap (fun t => packetsOf b g ((g.self + 2 * g.n - 2 - t) % g.n))

/-- Order in which results come: along the ring from the previous member, or down the tree. -/
def resultSeq (b : Bucket) (g : RGroup) : List Place3 :=
  if !g.tree then (List.range (g.n - 1)).flatMap (fun t => packetsOf b g ((g.self + 2 * g.n - 1 - t) % g.n))
  else if b.gather then (List.range g.n).flatMap (packetsOf b g)
  else packetsOf b g 0

/-- Order in which a child's shards of a GATHER come up the tree (R273 step 2). -/
def childSeq (b : Bucket) (g : RGroup) (c : Nat) : List Place3 := (subtree g.n (g.n + 1) c).flatMap (packetsOf b g)

/-! ## The wire (R261-R265) -/

/-- The class word of R264. -/
def ringWord (tag epoch : Nat) (k : Int) (adj type : Nat) (poison : Option Nat) (use : Nat) : Nat :=
  place 0 20 tag + place 20 16 epoch + place 36 8 (toField 8 k) + place 44 2 adj + place 46 2 type +
  place 48 1 (boolNat poison.isSome) + place 49 8 (poison.getD 0) + place 57 4 use

def RPkt.tag (p : RPkt) : Nat := bits p.cls.toNat 0 20
def RPkt.epoch (p : RPkt) : Nat := bits p.cls.toNat 20 16
def RPkt.k (p : RPkt) : Int := sbits p.cls.toNat 36 8
def RPkt.adj (p : RPkt) : Nat := bits p.cls.toNat 44 2
def RPkt.type (p : RPkt) : Nat := bits p.cls.toNat 46 2
def RPkt.use (p : RPkt) : Nat := bits p.cls.toNat 57 4

/-- Cause and source of a packet's poison (R276), for a receiver whose K is `k`; a GATHER has no K. -/
def RPkt.bad (p : RPkt) (k : Option Int) : Option (Nat × Nat) :=
  if p.cause ≠ 0 then some (p.cause, p.src)
  else if bitAt p.cls.toNat 48 then some (3, bits p.cls.toNat 49 8)
  else if k.any (fun k => p.k != k) then some (4, p.src)
  else none

/-- A wire code as an exact value, and whether it exceeded FP32 range (R261 step 1). -/
def wireVal (fmt : Nat) (k : Int) (c : Nat) : Val × Bool :=
  let v := (ofScalar fmt c).scale k
  match v with
  | .fin n m e => if m != 0 && decide (128 ≤ log2Mag m e) then (.inf n, true) else (v, false)
  | _ => (v, false)

/-- ADJ at which a packet is decoded; a BF16 wire has none (R263). -/
def adjOf (fmt : Nat) (p : RPkt) : Nat := if fmt = 3 then p.adj else 0

/-- The values of a packet. -/
def wireVals (fmt : Nat) (p : RPkt) (n : Nat) : List (Val × Bool) :=
  (List.range n).map (fun i => wireVal fmt (if fmt = 3 then p.k + adjOf fmt p else 0) (bits p.payload.toNat (16 * i) 16))

/-- FP32 codes as exact values. -/
def fp32Vals (l : List Nat) : List Val := l.map (decodeFp fp32)

/-- A packet as encoded (R265): ADJ, codes, and which values overflowed. -/
structure Encoded where
  adj   : Nat
  codes : List Nat
  ovfs  : List Bool
  deriving DecidableEq, Repr

def encodeAt (fmt : Nat) (k : Int) (vs : List Val) : List Conv :=
  vs.map (fun v => toScalar fmt 0 0 (v.scale (-k)))

/-- ADJ of R265 steps 2 and 3. -/
def chooseAdj (k : Int) (ain : Nat) (vs : List Val) : Nat :=
  let fits (a : Nat) : Bool := decide (k + a ≤ 127) && (encodeAt 3 (k + a) vs).all (fun c => !c.ovf)
  ((rangeFrom ain (4 - ain)).find? fits).getD (min 3 (127 - k).toNat)

/-- A packet of FP32 codes encoded for the wire (R263, R265). -/
def encodePacket (fmt : Nat) (k : Int) (ain : Nat) (xs : List Nat) : Encoded :=
  let vs := fp32Vals xs
  let adj := if fmt = 3 then chooseAdj k ain vs else 0
  let cs := encodeAt fmt (if fmt = 3 then k + adj else 0) vs
  { adj := adj, codes := cs.map (·.code), ovfs := cs.map (·.ovf) }

/-- One addition of R261: FP32 code, INVALID, OVERFLOW. -/
def ringAdd (a b : Val) : Nat × Bool × Bool :=
  let (v, inv) := addVal a b
  let c := toFp32 (if v.isZero then Val.zero else v)
  (c.code, inv, c.ovf && v.isFin)

/-- Element-wise sums of FP32 codes with decoded values: codes, and by element whether it became NaN or ∞. -/
def addRow (xs : List Nat) (ys : List (Val × Bool)) : List Nat × Bool × Bool × List Bool :=
  let rs := (xs.zip ys).map (fun p => let r := ringAdd (decodeFp fp32 p.1) p.2.1; (r.1, r.2.1, r.2.2 || p.2.2))
  (rs.map (·.1), rs.any (·.2.1), rs.any (·.2.2), rs.map (fun r => r.2.1 || r.2.2))

/-- Largest finite magnitude of FP32 codes, as a code. -/
def amaxOf (xs : List Nat) : Nat :=
  (xs.map (fun c => let a := c % 2 ^ 31; if a < 0x7F800000 then a else 0)).foldl max 0

/-! ## A bucket's book-keeping -/

/-- First poison of a bucket. -/
def Bucket.taint (b : Bucket) (p : Option (Nat × Nat)) : Bucket :=
  { b with poison := match b.poison with
    | some x => some x
    | none => p }

/-- Flags of elements from bucket index `lo`; `bad` names those made NaN or ∞ among results written. -/
def Bucket.flag (b : Bucket) (inv ovf : Bool) (lo : Nat) (bad : List Bool) : Bucket :=
  let first := (bad.findIdx? id).map (lo + ·)
  { b with inv := b.inv || inv, ovf := b.ovf || ovf, nan := match b.nan, first with
    | some a, some c => some (min a c)
    | none, c => c
    | a, none => a }

/-- Indices, counted from `lo`, at which a flag is set. -/
def indicesFrom (lo : Nat) (l : List Bool) : List Nat :=
  (((List.range l.length).zip l).filter (·.2)).map (fun q => lo + q.1)

/-- Bytes of a result to be written when the bucket completes. -/
def Bucket.put (b : Bucket) (a : Nat) (bs : Bytes) : Bucket := { b with writes := b.writes ++ [(a, bs)] }

/-- FP32 results written from element index `i` of the destination. -/
def Bucket.putCodes (b : Bucket) (i : Nat) (xs : List Nat) : Bucket := b.put (b.dst + 4 * i) (xs.flatMap (leBytes 4))

/-- Side sum of R268 over results. -/
def Bucket.square (b : Bucket) (xs : List Nat) : Bucket :=
  let vs := fp32Vals xs
  let sq (v : Val) : Nat := match v with
    | .fin _ m e => shiftTo (m * m) (2 * e) (-320)
    | _ => 0
  { b with side := b.side + (vs.map sq).sum, sideNan := b.sideNan || vs.any Val.isNan, sideInf := b.sideInf || vs.any Val.isInf }

namespace State

def ringGroup (j : Job) (b : Bucket) : Option RGroup := j.ring.groups.find? (fun g => g.num == b.group)

def updRing (s : State) (jid : Nat) (f : RingSt → RingSt) : State := s.updJob jid (fun j => { j with ring := f j.ring })

def putBucket (s : State) (jid : Nat) (b : Bucket) : State :=
  s.updRing jid (fun r => { r with buckets := r.buckets.map (fun x => if x.tag == b.tag then b else x) })

/-- A packet of a bucket sent to a member on the group's axis (R263, R298); an unreachable member poisons the bucket. -/
def sendPkt (s : State) (j : Job) (g : RGroup) (b : Bucket) (tgt type adj : Nat) (bad : Option (Nat × Nat)) (pay : Nat) :
    State × Bucket :=
  let w := ringWord b.tag b.epoch b.k adj type (bad.map (·.2)) b.use
  let dst := g.at_ j tgt
  match s.sendJob j g.axis dst (if b.gather then 4 else 3) w (if bad.isSome then 0 else pay) with
  | some s => (s, b)
  | none => (s, b.taint (some (5, dst)))

/-- Results that are undefined: free bytes, with their units poison-marked in module memory (R276). -/
def putBad (s : State) (b : Bucket) (a n : Nat) : State × Bucket :=
  let (bs, s) := s.drawBytes n
  (s, { (b.put a bs) with marks := b.marks ++ (if s.inUser a n then unitsOf a n else []) })

/-- The adder at one packet: this member's contribution, then what arrived, in the order of R259 and R260. Gives the FP32 codes,
the elements that became NaN or ∞, the packet's poison, and the state with the reads' marks met. -/
def addPackets (s : State) (j : Job) (b : Bucket) (pl : Place3) (ps : List RPkt) :
    State × Bucket × List Nat × List Bool × Option (Nat × Nat) :=
  let x := reduceArgs b.record
  let (_, lo, n) := pl
  let w := fmtWidth x.srcFmt / 8
  let units := s.badUnits (x.src + lo * w) (n * w)
  let s' := (s.correct (x.src + lo * w) (n * w)).meetBad j.id units
  let arrived := ps.findSome? (fun p => p.bad (some b.k))
  let bad := match arrived with
    | some p => some p
    | none => if units.isEmpty then none else some (1, s.mod.id)
  if bad.isSome then (s', b.taint bad, [], [], bad)
  else
    let own := (readElems (s.sight (x.src + lo * w) (n * w)) x.src x.srcFmt lo n 0).map (fun v => (toFp32 v).code)
    let (b, xs, hit) := ps.foldl (fun (acc : Bucket × List Nat × List Bool) p =>
      let r := addRow acc.2.1 (wireVals x.wire p n)
      (({ acc.1 with adj := max acc.1.adj (adjOf x.wire p) }).flag r.2.1 r.2.2.1 lo [], r.1,
        (acc.2.2.zip r.2.2.2).map (fun q => q.1 || q.2))) (b, own, List.replicate n false)
    (s', b, xs, hit, none)

/-- A partial encoded and sent on (R263, R265). -/
def sendPartial (s : State) (j : Job) (g : RGroup) (b : Bucket) (tgt : Nat) (pl : Place3) (ps : List RPkt) : State × Bucket :=
  let x := reduceArgs b.record
  let ain := (ps.map (·.adj)).foldl max 0
  let (s, b, xs, hit, bad) := s.addPackets j b pl ps
  match bad with
  | some _ => s.sendPkt j g b tgt 0 ain bad 0
  | none =>
    let e := encodePacket x.wire b.k ain xs
    let made := if x.ar then indicesFrom pl.2.1 ((hit.zip e.ovfs).map (fun q => q.1 || q.2)) else []
    let b := { b.flag false (e.ovfs.any id) pl.2.1 [] with
      adj := max b.adj e.adj, amax := max b.amax (amaxOf xs), made := b.made ++ made }
    s.sendPkt j g b tgt 0 e.adj none (packElems 16 e.codes)

/-- A result as it is on the wire, written here; an element that became NaN or ∞ in a partial of this member counts among those of NAN_ROW
and NAN_COL (R267). -/
def takeResult (s : State) (b : Bucket) (pl : Place3) (p : RPkt) : State × Bucket :=
  let x := reduceArgs b.record
  let (_, lo, n) := pl
  match p.bad (some b.k) with
  | some c => s.putBad (b.taint (some c)) (b.dst + 4 * lo) (4 * n)
  | none =>
    let vs := wireVals x.wire p n
    let xs := vs.map (fun v => (toFp32 v.1).code)
    let bad := ((List.range n).zip vs).map (fun q => q.2.2 || b.made.contains (lo + q.1))
    (s, (({ b with adj := max b.adj (adjOf x.wire p) }).flag false (vs.any (·.2)) lo bad).putCodes lo xs)

/-- Members to which a member hands results on. -/
def resultTo (g : RGroup) (pl : Place3) : List Nat :=
  if g.tree then g.kids g.self else if g.next = pl.1 then [] else [g.next]

def sendAll (s : State) (j : Job) (g : RGroup) (b : Bucket) (tgt : List Nat) (type adj : Nat) (bad : Option (Nat × Nat))
    (pay : Nat) : State × Bucket :=
  tgt.foldl (fun acc m => acc.1.sendPkt j g acc.2 m type adj bad pay) (s, b)

/-- Owner's result of one packet: written, and under AR encoded and handed on (R267, R268). -/
def finishPacket (s : State) (j : Job) (g : RGroup) (b : Bucket) (pl : Place3) (ps : List RPkt) : State × Bucket :=
  let x := reduceArgs b.record
  let (sh, lo, n) := pl
  let ain := (ps.map (·.adj)).foldl max 0
  let at_ := if x.ar then lo else lo - sh * shardSize b g
  let tgt := if x.ar then (if g.tree then g.kids g.self else [g.next]) else []
  let (s, b, xs, hit, bad) := s.addPackets j b pl ps
  match bad with
  | some _ =>
    let (s, b) := s.putBad b (b.dst + 4 * at_) (4 * n)
    s.sendAll j g b tgt 1 ain bad 0
  | none =>
    let b := { b with amax := max b.amax (amaxOf xs) }
    if x.ar then
      let e := encodePacket x.wire b.k ain xs
      let k : Int := if x.wire = 3 then b.k + e.adj else 0
      let vs := e.codes.map (wireVal x.wire k)
      let ys := vs.map (fun v => (toFp32 v.1).code)
      let bad3 := (hit.zip (e.ovfs.zip vs)).map (fun q => q.1 || q.2.1 || q.2.2.2)
      let b := (({ b with adj := max b.adj e.adj }).flag false (e.ovfs.any id || vs.any (·.2)) lo bad3).putCodes at_ ys
      let b := if x.norm then b.square ys else b
      s.sendAll j g b tgt 1 e.adj none (packElems 16 e.codes)
    else
      let b := (b.flag false false lo hit).putCodes at_ xs
      (s, if x.norm then b.square xs else b)

/-- One step of the adder at packet `pl`: on to the next member, or the owner's result. -/
def addStep (s : State) (j : Job) (g : RGroup) (b : Bucket) (pl : Place3) (ps : List RPkt) : State × Bucket :=
  if pl.1 = g.self && (!g.tree || g.self == 0) then s.finishPacket j g b pl ps
  else s.sendPartial j g b (if g.tree then g.parent else g.next) pl ps

/-- The partials of a member with two children meet in pairs (R260). -/
def pairUp (s : State) (j : Job) (g : RGroup) (b : Bucket) : Nat → State × Bucket
  | 0 => (s, b)
  | k + 1 =>
    match b.left, b.right with
    | l :: ls, r :: rs =>
      let i := (b.partGot - b.left.length - b.right.length) / 2
      let b := { b with left := ls, right := rs }
      match (partialSeq b g)[i]? with
      | none => (s, b)
      | some pl => let (s, b) := s.addStep j g b pl [l, r]; pairUp s j g b k
    | _, _ => (s, b)

def takePartial (s : State) (j : Job) (g : RGroup) (b : Bucket) (p : RPkt) : State × Bucket :=
  let kids := (g.kids g.self).map (g.at_ j)
  let i := b.partGot
  let b := { b with partGot := b.partGot + 1 }
  if g.tree && kids.length == 2 then
    let b := if kids.head? = some p.src then { b with left := b.left ++ [p] } else { b with right := b.right ++ [p] }
    s.pairUp j g b (b.left.length + b.right.length)
  else
    match (partialSeq b g)[i]? with
    | none => (s, b)
    | some pl => s.addStep j g b pl [p]

def takeReduceResult (s : State) (j : Job) (g : RGroup) (b : Bucket) (p : RPkt) : State × Bucket :=
  match (resultSeq b g)[b.resGot]? with
  | none => (s, b)
  | some pl =>
    let (s, b) := s.takeResult { b with resGot := b.resGot + 1 } pl p
    s.sendAll j g b (resultTo g pl) 1 p.adj (p.bad (some b.k)) p.payload.toNat

/-! ## GATHER (R273) -/

/-- A piece of a shard as it came: written here. -/
def takePiece (s : State) (b : Bucket) (pl : Place3) (p : RPkt) : State × Bucket :=
  match p.bad none with
  | some c => s.putBad (b.taint (some c)) (b.dst + pl.2.1) pl.2.2
  | none => (s, b.put (b.dst + pl.2.1) (leBytes pl.2.2 p.payload.toNat))

/-- A piece of this member's own shard: payload, or poison where a unit of it is bad. -/
def ownPiece (s : State) (j : Job) (b : Bucket) (g : RGroup) (pl : Place3) : State × RPkt :=
  let a := (gatherArgs b.record).src + (pl.2.1 - g.self * shardSize b g)
  let bad := s.badUnits a pl.2.2
  let p : RPkt := { src := s.mod.id, vc := 4, cls := 0, payload := BitVec.ofNat 2048 (s.num a pl.2.2),
                    cause := if bad.isEmpty then 0 else 1 }
  ((s.correct a pl.2.2).meetBad j.id bad, p)

/-- The root has every shard and sends them down the tree, in the order of the shards. -/
def sendDown (s : State) (j : Job) (g : RGroup) (b : Bucket) : State × Bucket :=
  let seq := (g.kids 0).flatMap (childSeq b g)
  (List.range g.n).foldl (fun acc sh => (packetsOf acc.2 g sh).foldl (fun (acc : State × Bucket) pl =>
    let (s, p) := if sh = 0 then acc.1.ownPiece j acc.2 g pl
      else (acc.1, (acc.2.left[seq.idxOf pl]?).getD { src := 0, vc := 4, cls := 0, payload := 0 })
    s.sendAll j g acc.2 (g.kids 0) 1 0 (p.bad none) p.payload.toNat) acc) (s, b)

/-- A piece that came up the tree: written at the root and kept for its way down, else handed to the parent. -/
def upPiece (s : State) (j : Job) (g : RGroup) (b : Bucket) (pl : Place3) (p : RPkt) : State × Bucket :=
  let b := { b with partGot := b.partGot + 1 }
  if g.self = 0 then
    let (s, b) := s.takePiece { b with left := b.left ++ [p] } pl p
    if b.partGot = b.partDue then s.sendDown j g b else (s, b)
  else s.sendPkt j g (b.taint (p.bad none)) g.parent 1 0 (p.bad none) p.payload.toNat

/-- Pieces held from the right child go up behind the left child's. -/
def upRight (s : State) (j : Job) (g : RGroup) (b : Bucket) : Nat → State × Bucket
  | 0 => (s, b)
  | k + 1 =>
    match b.right, ((g.kids g.self).flatMap (childSeq b g))[b.partGot]? with
    | p :: ps, some pl => let (s, b) := s.upPiece j g { b with right := ps } pl p; upRight s j g b k
    | _, _ => (s, b)

def takeGather (s : State) (j : Job) (g : RGroup) (b : Bucket) (p : RPkt) : State × Bucket :=
  let kids := (g.kids g.self).map (g.at_ j)
  if g.tree && kids.contains p.src then
    let lefts := ((g.kids g.self).head?.map (fun c => (childSeq b g c).length)).getD 0
    let (s, b) :=
      if kids.head? = some p.src then
        match ((g.kids g.self).flatMap (childSeq b g))[b.partGot]? with
        | some pl => s.upPiece j g b pl p
        | none => (s, b)
      else (s, { b with right := b.right ++ [p] })
    if lefts ≤ b.partGot then s.upRight j g b b.right.length else (s, b)
  else
    match (resultSeq b g)[b.resGot]? with
    | none => (s, b)
    | some pl =>
      let (s, b) := s.takePiece { b with resGot := b.resGot + 1 } pl p
      s.sendAll j g b (resultTo g pl) 1 0 (p.bad none) p.payload.toNat

/-! ## The close phase (R266) -/

/-- Partials and results are over. -/
def flowOver (b : Bucket) : Bool := decide (b.partDue ≤ b.partGot) && decide (b.resDue ≤ b.resGot)

/-- CLOSE packets due now: to the next member, up the tree once both children are heard, or down it. One sent after a poisoned one came is
poisoned (R276). -/
def closeStep (s : State) (j : Job) (g : RGroup) (b : Bucket) (came : Option RPkt) : State × Bucket :=
  let send (s : State) (b : Bucket) (tgt : List Nat) : State × Bucket := s.sendAll j g b tgt 2 0 b.closeBad b.amax
  if b.closeDue = 0 || !flowOver b then (s, b)
  else if !g.tree then
    let first := !b.closeSent
    let b := { b with closeSent := true }
    let n := if first then min (g.n - 1) (b.closeGot + 1) else if came.isSome && decide (b.closeGot + 1 ≤ g.n - 1) then 1 else 0
    (List.range n).foldl (fun acc _ => send acc.1 acc.2 [g.next]) (s, b)
  else
    let kids := (g.kids g.self).length
    if !b.closeSent && decide (kids ≤ b.closeGot) then
      send s { b with closeSent := true } (if g.self = 0 then g.kids 0 else [g.parent])
    else if g.self ≠ 0 && came.any (fun p => p.src == g.at_ j g.parent) then send s b (g.kids g.self)
    else (s, b)

def takeClose (s : State) (j : Job) (g : RGroup) (b : Bucket) (p : RPkt) : State × Bucket :=
  let b := { b.taint (p.bad none) with
    closeGot := b.closeGot + 1, closers := b.closers ++ [p.src], closeBad := b.closeBad.orElse (fun _ => p.bad none) }
  let b := if (p.bad none).isSome then b else { b with amax := max b.amax (bits p.payload.toNat 0 32) }
  s.closeStep j g b (some p)

/-! ## Delivery -/

/-- Packets of a type that a bucket still awaits from a member's module. -/
def awaits (j : Job) (g : RGroup) (b : Bucket) (type src : Nat) : Bool :=
  let up := (g.kids g.self).map (g.at_ j)
  let fromPrev := src == g.at_ j g.prev
  let fromParent := g.self != 0 && src == g.at_ j g.parent
  match type with
  | 0 => !b.gather && decide (b.partGot < b.partDue) &&
      (if !g.tree then fromPrev
       else if up.length == 2 then
         let took := (b.partGot - b.left.length - b.right.length) / 2
         (up.head? == some src && decide (took + b.left.length < b.partDue / 2)) ||
         (up.getLast? == some src && decide (took + b.right.length < b.partDue / 2))
       else up.contains src)
  | 1 =>
    if !g.tree then fromPrev && decide (b.resGot < b.resDue)
    else if b.gather && up.contains src then
      let lefts := ((g.kids g.self).head?.map (fun c => (childSeq b g c).length)).getD 0
      if up.head? = some src then decide (b.partGot < lefts) else decide (max b.partGot lefts + b.right.length < b.partDue)
    else fromParent && decide (b.resGot < b.resDue)
  | 2 => decide (b.closeGot < b.closeDue) && (if !g.tree then fromPrev else (up.contains src || fromParent) && !b.closers.contains src)
  | _ => false

/-- A packet given to its bucket: the timer starts again (R276 cause 2). -/
def deliver (s : State) (j : Job) (g : RGroup) (b : Bucket) (p : RPkt) : State × Bucket :=
  let type := if p.cause = 0 then p.type else p.vc
  if !awaits j g b type p.src then (s, b)
  else
    let b := { b with since := s.now }
    let (s, b) := match type with
      | 0 => s.takePartial j g b p
      | 1 => if b.gather then s.takeGather j g b p else s.takeReduceResult j g b p
      | _ => s.takeClose j g b p
    if type ≠ 2 && !b.closeSent then s.closeStep j g b none else (s, b)

/-- The packets that do not come, made up under a cause: those of one sender, or of all (R276 causes 2 and 5). In such a packet
`vc` holds the type. -/
def madeUp (cause type src : Nat) : RPkt := { src := src, vc := type, cls := 0, payload := 0, cause := cause }

def makeUp (s : State) (j : Job) (g : RGroup) (b : Bucket) (cause : Nat) (srcs : List Nat) : Nat → State × Bucket
  | 0 => (s, b)
  | k + 1 =>
    match ([0, 1, 2].flatMap (fun t => srcs.map (fun m => (t, m)))).find? (fun p => awaits j g b p.1 p.2) with
    | none => (s, b)
    | some p => let (s, b) := s.deliver j g b (madeUp cause p.1 p.2); makeUp s j g b cause srcs k

/-- Modules from which packets come. -/
def upstream (j : Job) (g : RGroup) : List Nat :=
  if g.tree then (g.kids g.self).map (g.at_ j) ++ (if g.self = 0 then [] else [g.at_ j g.parent]) else [g.at_ j g.prev]

/-- Every packet still due, from the modules given, is poisoned under a cause. -/
def poisonDue (s : State) (j : Job) (b : Bucket) (cause : Nat) (srcs : List Nat) : State :=
  match ringGroup j b with
  | none => s
  | some g =>
    let (s, b) := s.makeUp j g b cause srcs (b.partDue + b.resDue + b.closeDue)
    s.putBucket j.id b

/-- Nothing is due any more. -/
def bucketOver (b : Bucket) : Bool := flowOver b && decide (b.closeDue ≤ b.closeGot) && (b.closeDue == 0 || b.closeSent)

end State
end Sys2Proof.Machine
end

