-- ==== Sys2Proof/Machine/Ring.lean ====
section
/-! DEFINITION. The Ring commands but NORM_CLOSE (R251-R258, R272-R278), and the packets of buckets (R275, R276, R279). -/
namespace Sys2Proof.Machine

/-! ## Group descriptors (R253, R254) -/

def ringDescAddr (r : Nat) : Nat := bits r 148 48
def dGroup (d : Nat) : Nat := bits d 0 4
def dAlg (d : Nat) : Nat := bits d 4 2
def dN (d : Nat) : Nat := bits d 8 9
def dSelf (d : Nat) : Nat := bits d 24 8
def dEpoch (d : Nat) : Nat := bits d 32 16
def dMembers (d : Nat) : Nat := bits d 64 48

/-- The member list can be read. -/
def membersReadable (s : State) (d : Nat) : Bool :=
  decide (2 ≤ dN d) && decide (dN d ≤ 256) && dMembers d % 8 == 0 && s.inStore (dMembers d) (dN d)

/-- The descriptor as it was read with the record. -/
def ringDesc (r : Nat) : Nat := bits r 512 512

/-- What is read with a record that names a group descriptor: the descriptor, a mark where its member list can be read, and the list. -/
def ringItem (s : State) (r : Nat) : Nat :=
  let d := s.num (ringDescAddr r) 64
  d + (if membersReadable s d then place 512 1 1 + 2 ^ 520 * s.num (dMembers d) (dN d) else 0)

/-- The member list as it was read with the record. -/
def memberList (r : Nat) : List Nat :=
  if bitAt r 1024 then (List.range (dN (ringDesc r))).map (fun i => bits r (1032 + 8 * i) 8) else []

/-- ARG bit 31 of a field of a descriptor (R254, R210). -/
def ringDescMark : Nat := 2 ^ 31

def ringDescChecks (s : State) (j : Job) (r : Nat) : List Chk :=
  let d := ringDesc r
  let ms := (memberList r).map j.alias?
  onItem ringDescMark 0xFFFF
    [ ckZero d 17 7, ckZero d 58 6, ckZero d 112 400, ckEnum 4 2 (decide (2 ≤ dAlg d)),
      ckRange 8 9 (decide (dN d < 2) || decide (256 < dN d)), ckRange 24 8 (decide (dN d ≤ dSelf d)),
      ckRange 48 10 (decide (1000 < bits d 48 10)),
      ckRange 64 48 (!ms.isEmpty && (decide (ms.eraseDups.length < ms.length) || ms.getD (dSelf d) s.mod.id != s.mod.id)),
      ckAlign 64 48 (dMembers d % 8 != 0), ckAddr 64 48 (!s.inStore (dMembers d) (dN d)),
      ckOwnF 64 48 (!j.owns (dMembers d) (dN d) || ms.any (fun m => m != s.mod.id && !j.hasModule m)) ]

def ringDescReadable (s : State) (r : Nat) : Bool := ringDescAddr r % 64 == 0 && s.inStore (ringDescAddr r) 64

def ringAddrChecks (s : State) (j : Job) (r : Nat) : List Chk :=
  [ ckAlign 148 48 (ringDescAddr r % 64 != 0), ckAddr 148 48 (!s.inStore (ringDescAddr r) 64),
    ckOwn (!j.owns (ringDescAddr r) 64) ]

/-- A shard timeout in ms; 0 selects 20. -/
def timeoutMs (t : Nat) : Nat := if t = 0 then 20 else t

/-- The group that a record with its descriptor and member list describes. -/
def rgroupOf (r : Nat) : RGroup :=
  let d := ringDesc r
  { num := dGroup d, tree := dAlg d == 1, axis := bits d 6 2, self := dSelf d, epoch := dEpoch d
    timeout := timeoutMs (bits d 48 10), members := memberList r }

def Job.rgroup? (j : Job) (g : Nat) : Option RGroup := j.ring.groups.find? (fun x => x.num == g)
def Job.rpending? (j : Job) (g : Nat) : Option RGroup := j.ring.pending.find? (fun x => x.num == g)

def groupChecks (s : State) (j : Job) (_ : Queue) (r : Nat) : List Chk :=
  [ ckZero r 128 20, ckZero r 196 316 ] ++ ringAddrChecks s j r ++
  (if ringDescReadable s r then ringDescChecks s j r else [])

def groupLate (s : State) (j : Job) (_ : Queue) (r : Nat) : List Chk :=
  [ ckState eState (j.rgroup? (dGroup (ringDesc r))).isSome ]

def groupStart (s : State) (j : Job) (_ : Queue) (r : Nat) (f : Flight) : Started :=
  ⟨s.updRing j.id (fun x => { x with groups := x.groups ++ [rgroupOf r] }), f, true⟩

def groupSpec : CmdSpec :=
  { kind := 0x80, item := ringItem, fetch := always, checks := groupChecks, ready := always, late := groupLate, start := groupStart }

/-! ## RESHARD and GROUP_REPOINT (R274, R278) -/

def reshardGroup (r : Nat) : Nat := bits r 128 4
def reshardEpoch (r : Nat) : Nat := bits r 132 16

/-- NEW_EPOCH follows the group's present epoch (R274 step 1). -/
def ckNewEpoch (j : Job) (r : Nat) : Chk :=
  ckRange 132 16 ((j.rgroup? (reshardGroup r)).any (fun g => reshardEpoch r != (g.epoch + 1) % 2 ^ 16))

def reshardChecks (s : State) (j : Job) (_ : Queue) (r : Nat) : List Chk :=
  let d := ringDesc r
  [ ckZero r 196 316, ckNewEpoch j r ] ++
  ringAddrChecks s j r ++
  (if ringDescReadable s r then ringDescChecks s j r ++ onItem ringDescMark 0xFFFF
      [ ckRange 0 4 (dGroup d != reshardGroup r), ckRange 32 16 (dEpoch d != reshardEpoch r) ]
   else [])

/-- NEW_EPOCH is tested again at the start, for a group bound since the fetch. -/
def reshardLate (_ : State) (j : Job) (_ : Queue) (r : Nat) : List Chk :=
  lateChecks [ckNewEpoch j r] ++
  [ ckState eState (j.rgroup? (reshardGroup r)).isNone, State.ckPending j (.reshard (reshardGroup r)) ]

def reshardStart (s : State) (j : Job) (q : Queue) (r : Nat) (f : Flight) : Started :=
  let g := rgroupOf r
  startDeferred (.reshard (reshardGroup r)) 0 (s.updRing j.id (fun x => { x with pending := x.pending ++ [g] })) j q r f

def reshardSpec : CmdSpec :=
  { kind := 0x84, item := ringItem, fetch := always, checks := reshardChecks, ready := always, late := reshardLate, start := reshardStart }

/-- A REDUCE or GATHER of a group is outstanding. -/
def groupBusy (j : Job) (g : Nat) : Bool := j.ring.buckets.any (fun b => b.group == g)

/-- Use counts of the tags last used with a group are cleared (R275). -/
def RingSt.clearUses (x : RingSt) (g : Nat) : RingSt := { x with uses := x.uses.filter (fun u => u.2.2 != g) }

/-- R274 step 3, once the group has drained: what a deferred RESHARD does at its boundary, with the code of its second record. -/
def State.applyReshard (s : State) (jid g : Nat) : State × Nat :=
  match (s.job? jid).bind (fun j => j.rpending? g), (s.job? jid).bind (fun j => j.rgroup? g) with
  | some p, some old =>
    let drop (x : RingSt) : RingSt := { x with pending := x.pending.filter (fun y => y.num != g) }
    if p.epoch = (old.epoch + 1) % 2 ^ 16 then
      (s.updRing jid (fun x => drop { x.clearUses g with groups := x.groups.map (fun y => if y.num == g then p else y) }), 0)
    else (s.updRing jid drop, eField)
  | _, _ => (s, eState)

def gpointChecks (_ : State) (_ : Job) (_ : Queue) (r : Nat) : List Chk := [ ckZero r 148 364 ]

def gpointLate (_ : State) (j : Job) (_ : Queue) (r : Nat) : List Chk :=
  let g := bits r 128 4
  [ ckState eState ((j.rgroup? g).all (fun x => decide (x.n ≤ bits r 132 8))), ckState eState (groupBusy j g) ]

/-- The module ID at an index replaced (R278). -/
def State.pointMember (s : State) (jid g i m : Nat) : State :=
  s.updRing jid (fun x => { x.clearUses g with
    groups := x.groups.map (fun (y : RGroup) => if y.num == g then { y with members := y.members.set i m } else y) })

def gpointStart (s : State) (j : Job) (_ : Queue) (r : Nat) (f : Flight) : Started :=
  ⟨s.pointMember j.id (bits r 128 4) (bits r 132 8) (bits r 140 8), f, true⟩

def gpointSpec : CmdSpec :=
  { kind := 0x85, fetch := always, checks := gpointChecks, ready := always, late := gpointLate, start := gpointStart }

/-! ## REDUCE and GATHER: checks (R252, R257, R272) -/

/-- The group whose layout a bucket of an epoch uses: the bound one, or the pending one. -/
def layoutOf (j : Job) (g epoch : Nat) : Option RGroup :=
  match j.rgroup? g with
  | none => none
  | some x => if x.epoch = epoch then some x else (j.rpending? g).bind (fun p => if p.epoch = epoch then some p else none)

/-- Tag reserved for the norm exchange. -/
def normTag : Nat := 0xFFFFF

/-- Outside the user space, the scratch windows and the accumulator windows. -/
def badRingRange (s : State) (a n : Nat) : Bool := !(s.inUser a n || State.inScratch a n || State.inAcc a n)

def ckTag (q : Queue) (tag : Nat) : Chk := ckRange 128 20 (tag == normTag || tag % 4 != q.ref.inst)

/-- Items of this member's shard. -/
def ownShard (count q self : Nat) : Nat := min ((self + 1) * q) count - min (self * q) count

/-- Bytes that a REDUCE writes on this member: under RS its shard, once the layout is known. -/
def reduceDst (j : Job) (x : ReduceArgs) : Nat :=
  if x.ar then 4 * x.count
  else ((layoutOf j x.group x.epoch).map (fun g => 4 * ownShard x.count (128 * ceilDiv x.count (128 * g.n)) g.self)).getD 0

/-- Address and ownership of a range of the Ring engines; nothing where its length is 0. -/
def ckRing (s : State) (j : Job) (lo a n : Nat) : List Chk :=
  [ ckAddr lo 48 (n != 0 && badRingRange s a n), ckOwn (n != 0 && !j.owns a n) ]

def reduceChecks (s : State) (j : Job) (q : Queue) (r : Nat) : List Chk :=
  let x := reduceArgs r
  let w := fmtWidth x.srcFmt / 8
  let dst := reduceDst j x
  [ ckZero r 205 3, ckZero (if x.lr = 0 then r else 0) 218 6, ckZero r 372 140,
    ckEnum 202 2 (x.lr == 3), ckEnum 208 5 (!fmtListed x.srcFmt), ckEnum 213 5 (!fmtListed x.wire),
    ckTag q x.tag,
    ckRange 202 2 ((x.lr != 0 && (!x.ar || x.count % (x.rankM1 + 1) != 0)) || (x.lr == 1 && x.norm)),
    ckRange 204 1 (x.ksrc && bits r 352 8 != 0),
    ckRange 320 32 (x.count == 0),
    ckRange 352 8 (bits r 352 8 == 0x80 || (x.wire == 2 && (bits r 352 8 != 0 || x.ksrc))),
    ckAlign 224 48 (w != 0 && x.src % w != 0), ckAlign 272 48 (x.dst % 4 != 0),
    ckAddr 224 48 (badRingRange s x.src (x.count * w)), ckAddr 272 48 (dst != 0 && badRingRange s x.dst dst),
    ckFmt 208 5 (x.srcFmt != 0 && x.srcFmt != 2), ckFmt 213 5 (x.wire != 2 && x.wire != 3),
    ckFmt 360 12 (x.wire == 3 && badSlotFmt s j x.ksrc x.slot 3),
    ckOwn (!j.owns x.src (x.count * w)), ckOwn (dst != 0 && !j.owns x.dst dst), ckOwn (x.ksrc && !j.ownsSlot x.slot) ]

/-- The bucket's epoch is the pending one: it waits for the reshard (R257). -/
def epochReady (j : Job) (g epoch : Nat) : Bool :=
  (j.rgroup? g).all (fun x => x.epoch == epoch || !(j.rpending? g).any (fun p => p.epoch == epoch))

def tagBusy (j : Job) (tag : Nat) : Bool := j.ring.buckets.any (fun b => b.tag == tag)

/-- Check 4 on group and epoch, check 5 on the tag. -/
def bucketLate (j : Job) (g epoch tag : Nat) : List Chk :=
  [ ckState eState (j.rgroup? g).isNone, ckState eEpoch ((j.rgroup? g).any (fun x => x.epoch != epoch)),
    ckCap eTag (tagBusy j tag) ]

/-- The two open steps of the job (R269). -/
def stepOpen (j : Job) (step : Nat) : Bool := step == j.ring.openStep || step == (j.ring.openStep + 1) % 2 ^ 32

/-- Checks 4 and 5; a DST range that no layout gave at the fetch is tested first (R257, log 124). -/
def reduceLate (s : State) (j : Job) (_ : Queue) (r : Nat) : List Chk :=
  let x := reduceArgs r
  let l := bucketLate j x.group x.epoch x.tag
  lateChecks (ckRing s j 272 x.dst (reduceDst j x)) ++ l.take 1 ++ [ ckState eState (!x.ar && (j.rgroup? x.group).any (·.tree)) ] ++ l.drop 1 ++
  [ ckState eState (x.norm && !stepOpen j x.step) ]

def gatherVers (j : Job) (x : GatherArgs) : Nat := if x.verSel then ((j.stage? x.local_).map (fun t => t.slots.length)).getD 1 else 1

/-- Bytes of this member's shard of a GATHER, once the layout is known. -/
def gatherSrc (j : Job) (x : GatherArgs) : Nat :=
  ((layoutOf j x.group x.epoch).map (fun g => ownShard x.total (64 * ceilDiv x.total (64 * g.n)) g.self)).getD 0

def gatherChecks (s : State) (j : Job) (q : Queue) (r : Nat) : List Chk :=
  let x := gatherArgs r
  let src := gatherSrc j x
  let dst := x.total + x.pitch * (gatherVers j x - 1)
  let lk := if x.locket then x.lkBytes else 0
  [ ckZero r 170 2, ckZero (if x.verSel then 0 else r) 172 4, ckZero (if x.locket then 0 else r) 176 8,
    ckZero (if x.verSel then 0 else r) 320 40, ckZero r 440 72,
    ckTag q x.tag,
    ckAlign 184 48 (x.src % 64 != 0), ckAlign 232 48 (x.dst % 64 != 0), ckAlign 280 40 (x.total % 64 != 0),
    ckAlign 320 40 (x.pitch % 64 != 0), ckAlign 360 48 (x.locket && x.lkAddr % 64 != 0),
    ckAlign 408 32 (x.locket && x.lkBytes % 64 != 0),
    ckAddr 184 48 (src != 0 && badRingRange s x.src src), ckAddr 232 48 (dst != 0 && badRingRange s x.dst dst),
    ckAddr 360 48 (lk != 0 && badRingRange s x.lkAddr lk),
    ckOwn (src != 0 && !j.owns x.src src), ckOwn (dst != 0 && !j.owns x.dst dst), ckOwn (lk != 0 && !j.owns x.lkAddr lk) ]

def gatherLate (s : State) (j : Job) (_ : Queue) (r : Nat) : List Chk :=
  let x := gatherArgs r
  let dst := x.total + x.pitch * (gatherVers j x - 1)
  lateChecks (ckRing s j 184 x.src (gatherSrc j x) ++ ckRing s j 232 x.dst dst) ++ bucketLate j x.group x.epoch x.tag ++
  [ ckState eState (x.verSel && (j.stage? x.local_).all (fun t =>
      if t.slots.length = 1 then (t.slot 0).refs != 0 else decide ((t.slot t.next).st ≠ VerState.free))) ]

/-! ## Start: own packets, then what came early (R259, R260, R273, R279) -/

/-- Use count of a tag after its advance (R275). -/
def RingSt.nextUse (x : RingSt) (tag : Nat) : Nat := ((((x.uses.find? (fun u => u.1 == tag)).map (·.2.1)).getD 0) + 1) % 16

namespace State

/-- Packets of the early buffer that are for a bucket, delivered in the order in which they came; one from outside its group is
discarded and logged (R254). -/
def deliverEarly (s : State) (jid tag : Nat) : State :=
  match s.job? jid with
  | none => s
  | some j =>
    match j.ring.buckets.find? (fun b => b.tag == tag) with
    | none => s
    | some b =>
      match ringGroup j b with
      | none => s
      | some g =>
        let mine (p : RPkt) : Bool := p.tag == tag && p.use == b.use && p.epoch == b.epoch
        let ps := j.ring.early.filter mine
        let s := s.updRing jid (fun x => { x with early := x.early.filter (fun p => !mine p) })
        let inside (p : RPkt) : Bool := g.members.any (fun m => j.alias? m == p.src)
        let (s, b) := ps.foldl (fun acc p =>
          if inside p then acc.1.deliver j g acc.2 p else (acc.1.log eProtect engRing (tag % 4) jid, acc.2)) (s, b)
        s.putBucket jid b

/-- The use count of a tag advances at check 4 (R275). -/
def useTag (s : State) (jid tag group : Nat) : State :=
  s.updRing jid (fun x => { x with uses := x.uses.filter (fun u => u.1 != tag) ++ [(tag, (x.nextUse tag, group))] })

/-- A bucket opened: its use count, its own packets by `first`, and the early ones. -/
def openBucket (s : State) (j : Job) (b : Bucket) (g : RGroup) (first : State → Bucket → State × Bucket) : State :=
  let b := { b with use := j.ring.nextUse b.tag, since := s.now }
  let s := (s.useTag j.id b.tag b.group).updRing j.id (fun x => { x with buckets := x.buckets ++ [b] })
  let (s, b) := first s b
  let (s, b) := s.closeStep j g b none
  (s.putBucket j.id b).deliverEarly j.id b.tag

end State

/-- Children's packets of a REDUCE. -/
def partialsDue (b : Bucket) (g : RGroup) : Nat :=
  (partialSeq b g).length * (if g.tree then (g.kids g.self).length else 1)

/-- CLOSE packets that a member receives. -/
def closesDue (g : RGroup) : Nat :=
  if g.tree then (g.kids g.self).length + (if g.self = 0 then 0 else 1) else g.n - 1

def reduceStart (s : State) (j : Job) (q : Queue) (r : Nat) (f : Flight) : Started :=
  let x := reduceArgs r
  let f := { f with op := .bucket x.tag }
  match j.rgroup? x.group with
  | none => ⟨s, f, false⟩
  | some g =>
    let k : Int := if x.wire = 3 then scaleOf s x.ksrc x.slot (sbits r 352 8) else 0
    let b : Bucket := { tag := x.tag, gather := false, record := r, queue := q.ref, group := x.group, epoch := x.epoch
                        use := 0, k := k, dst := x.dst }
    let b := { b with
      partDue := partialsDue b g, closeDue := if x.ksrc then closesDue g else 0,
      resDue := if x.ar && !(g.tree && g.self == 0) then (resultSeq b g).length else 0 }
    let own (s : State) (b : Bucket) : State × Bucket :=
      if !g.tree then
        (packetsOf b g g.prev).foldl (fun acc pl => acc.1.sendPartial j g acc.2 g.next pl []) (s, b)
      else if (g.kids g.self).isEmpty then
        (packetsOf b g 0).foldl (fun acc pl => acc.1.sendPartial j g acc.2 g.parent pl []) (s, b)
      else (s, b)
    ⟨s.openBucket j b g own, f, false⟩

def reduceSpec : CmdSpec :=
  { kind := 0x81, fetch := always, checks := reduceChecks, late := reduceLate, start := reduceStart
    skip := fun s j r => s.useTag j.id (reduceArgs r).tag (reduceArgs r).group
    ready := fun s j _ r =>
      let x := reduceArgs r
      epochReady j x.group x.epoch && !s.heldRange x.src (x.count * (fmtWidth x.srcFmt / 8)) }

/-- The Locket copy of a range on the group's axis (R273 step 4, R298): a piece that holds a bad unit travels with POISON (R276 cause 1); a
buddy that cannot be reached poisons the bucket (cause 5). TYPE of the class word is left open by the spec and free. -/
def State.sendLocket (s : State) (j : Job) (g : RGroup) (b : Bucket) (buddy a n : Nat) : State × Bucket :=
  let dst := j.alias? buddy
  let bad := s.badUnits a n
  let t := (s.correct a n).meetBad j.id bad
  let b := if bad.isEmpty then b else b.taint (some (1, s.mod.id))
  let word (p : Nat × Bytes) : Nat := ringWord b.tag b.epoch 0 0 (Config.copyType % 4)
    (if bad.any (fun m => overlaps (m.1 * 64) 64 (a + 256 * p.1) p.2.length) then some s.mod.id else none) b.use
  match t.sendCopy j g.axis dst word (.locketCopy s.mod.id j.id a (s.read a n)) (s.read a n) with
  | some t => (t, b)
  | none => (t, b.taint (some (5, dst)))

/-- Ranges that a GATHER multicasts. -/
def locketRanges (g : RGroup) (x : GatherArgs) : List (Nat × Nat) :=
  if !x.locket then []
  else [(x.src, ownShard x.total (64 * ceilDiv x.total (64 * g.n)) g.self), (x.lkAddr, x.lkBytes)].filter (fun p => p.2 != 0)

def gatherStart (s : State) (j : Job) (q : Queue) (r : Nat) (f : Flight) : Started :=
  let x := gatherArgs r
  let f := { f with op := .bucket x.tag }
  match j.rgroup? x.group with
  | none => ⟨s, f, false⟩
  | some g =>
    let slot := if x.verSel then ((j.stage? x.local_).map (·.next)).getD 0 else 0
    let b : Bucket := { tag := x.tag, gather := true, record := r, queue := q.ref, group := x.group, epoch := x.epoch
                        use := 0, dst := x.dst + x.pitch * slot }
    let up := if g.tree then ((g.kids g.self).map (fun c => (childSeq b g c).length)).sum else 0
    let b := { b with partDue := up, resDue := if g.tree && g.self == 0 then 0 else (resultSeq b g).length }
    let down (a : State × Bucket) : State × Bucket := if g.tree && g.self == 0 && up == 0 then a.1.sendDown j g a.2 else a
    let own (s : State) (b : Bucket) : State × Bucket :=
      (locketRanges g x).foldl (fun acc p => acc.1.sendLocket j g acc.2 x.buddy p.1 p.2) <| down <| (packetsOf b g g.self).foldl (fun acc pl =>
        let (s, p) := acc.1.ownPiece j acc.2 g pl
        let (s, b) := s.takePiece acc.2 pl p
        if !g.tree then s.sendPkt j g b g.next 1 0 (p.bad none) p.payload.toNat
        else if g.self = 0 then (s, b)
        else s.sendPkt j g b g.parent 1 0 (p.bad none) p.payload.toNat) (s, b)
    ⟨s.openBucket j b g own, f, false⟩

def gatherSpec : CmdSpec :=
  { kind := 0x82, fetch := always, checks := gatherChecks, late := gatherLate, start := gatherStart
    skip := fun s j r => s.useTag j.id (gatherArgs r).tag (gatherArgs r).group
    ready := fun s j _ r =>
      let x := gatherArgs r
      epochReady j x.group x.epoch &&
      !((x.src, gatherSrc j x) :: (if x.locket then [(x.lkAddr, x.lkBytes)] else [])).any (fun p => s.heldRange p.1 p.2) }

/-! ## Completion (R267, R268, R276, R277) -/

/-- STATUS at the member that detects a cause (R276). -/
def causeCode (c : Nat) : Nat :=
  match c with
  | 1 => eUncorr
  | 2 => eShard
  | 5 => eLinkDown
  | _ => ePoison

/-- A step whose NORM_CLOSE has not executed. -/
def notClosed (j : Job) (step : Nat) : Bool := !newer 32 j.ring.openStep step

/-- A source's count of poisoned completions advanced (R277). -/
def RingSt.countPoison (x : RingSt) (src : Nat) : RingSt :=
  let n := ((x.poisons.find? (fun p => p.1 == src)).map (·.2)).getD 0
  { x with poisons := x.poisons.filter (fun p => p.1 != src) ++ [(src, n + 1)] }

/-- The accumulator of a step changed (R268). -/
def RingSt.updAcc (x : RingSt) (step : Nat) (f : NormAcc → NormAcc) : RingSt :=
  let a := (x.accs.find? (fun a => a.step == step)).getD { step := step }
  { x with accs := x.accs.filter (fun a => a.step != step) ++ [f a] }

/-- A side sum added; at 2^128 or more INF is set (R268). -/
def NormAcc.add (a : NormAcc) (v : Nat) (nan inf : Bool) (poison : Option Nat) : NormAcc :=
  let t := a.value + v
  { a with value := min t (2 ^ 512 - 1), nan := a.nan || nan, inf := a.inf || inf || decide (2 ^ 448 ≤ t)
           poison := match a.poison with
             | some p => some p
             | none => poison }

/-- The result of a bucket that is over. -/
def bucketRes (b : Bucket) : Res :=
  let adj := b.adj * 2 ^ 12
  match b.poison with
  | some (c, src) =>
    { code := causeCode c, poison := true, arg := src % 256 + c * 256 + adj, inv := b.inv, ovf := b.ovf,
      nan := b.nan.map (fun i => (i / 65536 % 65536, i % 65536)) }
  | none =>
    { inv := b.inv, ovf := b.ovf, nan := b.nan.map (fun i => (i / 65536 % 65536, i % 65536)),
      arg := if b.inv || b.ovf then 0 else adj }

/-- What of a bucket reaches the job's ring state and Locket when it completes. -/
def bucketDone (b : Bucket) (j : Job) : Job :=
  let src := b.poison.map (·.2)
  let r := { j.ring with buckets := j.ring.buckets.filter (fun x => x.tag != b.tag) }
  let r := match src with
    | some m => r.countPoison m
    | none => r
  if b.gather then
    let x := gatherArgs b.record
    let l := j.locket
    let ranges := ((State.ringGroup j b).map (fun g => locketRanges g x)).getD []
    { j with
      ring := r
      locket := if x.locket then { l with ranges := l.ranges ++ ranges, gatherBad := l.gatherBad || src.isSome } else l }
  else
    let x := reduceArgs b.record
    let r := if x.norm then r.updAcc x.step (fun a => a.add b.side b.sideNan b.sideInf src)
      else if src.isSome && notClosed j x.step then r.updAcc x.step (fun a => a.add 0 false false src)
      else r
    { j with ring := r }

/-- A REDUCE or GATHER completes on this member, if it is over and the channels of its results take them (R178). -/
def State.ringFinish (s : State) (jid : Nat) (q : Queue) (i : Nat) (f : Flight) (tag : Nat) : State :=
  match (s.job? jid).bind (fun j => j.ring.buckets.find? (fun b => b.tag == tag)) with
  | none => s
  | some b =>
    if !State.bucketOver b || b.writes.any (fun w => s.heldRange w.1 w.2.length) then s
    else
      let x := reduceArgs b.record
      let f := { f with
        res := bucketRes b, writes := b.writes, marks := b.marks
        amax := if !b.gather && x.ksrc then [(x.slot, b.amax)] else [] }
      (s.updJob jid (bucketDone b)).completeAt jid q i f

/-! ## Packets (R275, R276, R279) -/

/-- Packets an engine's early buffer holds. -/
def earlyRoom : Nat := 8192

/-- The Ring engine that takes norm packets: the one that their tag selects. -/
def normInst : Nat := normTag % 4

/-- The root's own NORM_CLOSE for a step has not executed. -/
def beforeClose (s : State) (j : Job) (step : Nat) : Bool :=
  j.ring.roots.all (fun r => r.step != step || r.total.isNone) &&
  !j.ring.closes.any (fun c => c.step == step && c.root == s.mod.id)

/-- Packets in an engine's early buffer (R279): those of buckets, and contributions before their NORM_CLOSE (R270). -/
def earlyUsed (s : State) (j : Job) (inst : Nat) : Nat :=
  countIf (fun x => x.tag % 4 == inst) j.ring.early +
  (if inst = normInst then ((j.ring.roots.filter (fun r => beforeClose s j r.step)).map (·.got.length)).sum else 0)

/-- What a received packet meets (R275). -/
inductive Fate where
  | deliver
  | early
  | discard (code : Nat)
  deriving DecidableEq, Repr

/-- R275, R254 and R279: the sender's groups of the packet's epoch decide. A packet of the tag's use in flight is for that bucket, and
comes from outside if its sender is no member of its group; one of the tag's next use is held, in whichever group of the epoch. -/
def ringFate (j : Job) (p : RPkt) : Fate :=
  let from_ (g : RGroup) : Bool := g.members.any (fun m => j.alias? m == p.src)
  let gs := (j.ring.groups ++ j.ring.pending).filter from_
  if gs.isEmpty then .discard eProtect
  else if j.ring.pending.any (fun g => from_ g && g.epoch == p.epoch) then .early
  else if gs.all (fun g => g.epoch != p.epoch) then .discard eEpoch
  else match j.ring.buckets.find? (fun b => b.tag == p.tag && b.use == p.use && b.epoch == p.epoch) with
    | some b => if (State.ringGroup j b).any from_ then .deliver else .discard eProtect
    | none => if p.use = j.ring.nextUse p.tag then .early else .discard 0

/-- The other admitted job, if one, that a packet is for (R328): the class word names no job, so it is one with a group of that epoch of
which the sender is a member (DEDUCED, log 129). -/
def parkedOwner (s : State) (j : Job) (p : RPkt) : Option Job :=
  s.jobs.find? (fun k => k.admitted && k.id != j.id && (k.ring.groups ++ k.ring.pending).any (fun g =>
    g.epoch == p.epoch && g.members.any (fun m => k.alias? m == p.src)))

/-- A packet that the running job discards, logged: for a job that does not run, with E_STATE_JOB. -/
def discardRing (s : State) (j : Job) (p : RPkt) (code : Nat) : State :=
  if code = 0 then s
  else match parkedOwner s j p with
    | some k => s.log eJob engRing (p.tag % 4) k.id
    | none => s.log code engRing (p.tag % 4) j.id

/-- A packet off a port. -/
def rpktOf (f : SpokeFlit) : RPkt :=
  { src := fSrc f, vc := lvcOrigin (fLvc f), cls := BitVec.ofNat 64 (fCls f), payload := BitVec.ofNat 2048 (fPay f) }

/-- The oldest flit of a channel for this module, where it is a Ring packet of the type and tag asked for. -/
def ringPacket (n vc type : Nat) (norm : Bool) (s : State) : Option (RPkt × State) :=
  (s.takeRx n vc (fun f => bits (fCls f) 46 2 == type && (bits (fCls f) 0 20 == normTag) == norm)).map
    (fun x => (rpktOf x.1, x.2))

/-- The source range that the adder, or the root of a tree on its way down, reads when a packet reaches its bucket. -/
def readsFor (j : Job) (g : RGroup) (b : Bucket) (p : RPkt) : List (Nat × Nat) :=
  let kids := (g.kids g.self).map (g.at_ j)
  let pair := g.tree && kids.length == 2
  if b.gather then
    let x := gatherArgs b.record
    if g.tree && g.self == 0 && b.partGot + b.right.length + 1 == b.partDue then [(x.src, min (shardSize b g) x.total)] else []
  else if p.type ≠ 0 then []
  else
    let x := reduceArgs b.record
    let w := fmtWidth x.srcFmt / 8
    let i := if pair then (b.partGot - b.left.length - b.right.length) / 2 else b.partGot
    let other := if kids.head? = some p.src then b.right else b.left
    if pair && other.isEmpty then []
    else (((partialSeq b g)[i]?).map (fun pl => (x.src + pl.2.1 * w, pl.2.2 * w))).toList

/-- A packet of a bucket arrives: with no job running it is discarded (R328); one that must be held while the early buffer is full
stays in its receive slot (R279), and so does one whose addition reads a channel that holds its requests back (R178). -/
def takeRing (n vc type : Nat) (s : State) : State :=
  match ringPacket n vc type false s with
  | none => s
  | some (p, t) =>
    match if dieHeld s (p.tag % 4) then none else some t.runJob with
    | none => s
    | some none => t.log eJob engRing 0 0
    | some (some j) =>
      match ringFate j p with
      | .discard code => discardRing t j p code
      | .early =>
        if earlyRoom ≤ earlyUsed t j (p.tag % 4) then s
        else t.updRing j.id (fun x => { x with early := x.early ++ [p] })
      | .deliver =>
        match j.ring.buckets.find? (fun b => b.tag == p.tag) with
        | none => t
        | some b =>
          match State.ringGroup j b with
          | none => t
          | some g =>
            if (readsFor j g b p).any (fun r => s.heldRange r.1 r.2) then s
            else let (t, b) := t.deliver j g b p; t.putBucket j.id b

def execPartialPkt (port : Nat) (s : State) : Host.Outcome State Fault Refusal := done s (takeRing port 3 0 s)

def execResultPkt (port vc : Nat) (s : State) : Host.Outcome State Fault Refusal :=
  done s (if vc = 3 ∨ vc = 4 then takeRing port vc 1 s else s)

def execClosePkt (port : Nat) (s : State) : Host.Outcome State Fault Refusal := done s (takeRing port 3 2 s)

/-- The timer of a tag has run out with packets still due (R276 cause 2); the engine acts on it once its die does not hold (R31). -/
def timeoutShard (tag : Nat) (s : State) : State :=
  match s.runJob with
  | none => s
  | some j =>
    match j.ring.buckets.find? (fun b => b.tag == tag) with
    | none => s
    | some b =>
      match State.ringGroup j b with
      | none => s
      | some g =>
        if decide (s.now < b.since + g.timeout * 100000) || State.bucketOver b || dieHeld s (tag % 4) then s
        else s.poisonDue j b 2 (State.upstream j g)

def execShardTimeout (tag : Nat) (s : State) : Host.Outcome State Fault Refusal := done s (timeoutShard tag s)

/-- A module found unreachable in the classes of a test: what was due from it is poisoned (R276 cause 5). -/
def State.ringLost (s : State) (jid m : Nat) (cls : Nat → Bool) : State :=
  match s.job? jid with
  | none => s
  | some j => j.ring.buckets.foldl (fun s b =>
      match State.ringGroup j b with
      | none => s
      | some g => if cls g.axis && (State.upstream j g).contains m then s.poisonDue j b 5 [m] else s) s

end Sys2Proof.Machine
end

