-- ==== Sys2Proof/Machine/Norm.lean ====
section
/-! DEFINITION. The norm exchange (R255, R268-R270), the gate decision it ends in (R153), and the poison counts (R277). -/
namespace Sys2Proof.Machine

/-! ## NORM_CLOSE (R255, R269) -/

structure CloseArgs where
  step    : Nat
  root    : Nat
  count   : Nat
  timeout : Nat
  list    : Nat
  deriving DecidableEq, Repr

def closeArgs (r : Nat) : CloseArgs :=
  { step := bits r 128 32, root := bits r 160 8, count := bits r 168 9, timeout := bits r 177 10, list := bits r 196 48 }

def isRoot (s : State) (j : Job) (m : Nat) : Bool := j.alias? m == s.mod.id

/-- The contributors' modules. -/
def contributors (s : State) (j : Job) (x : CloseArgs) : List Nat := (s.read x.list x.count).map (fun b => j.alias? b.toNat)

def closeChecks (s : State) (j : Job) (_ : Queue) (r : Nat) : List Chk :=
  let x := closeArgs r
  let root := isRoot s j x.root
  let readable := root && x.list % 8 == 0 && s.inStore x.list x.count
  let ms := if readable then contributors s j x else []
  [ ckZero r 187 9, ckZero r 244 268,
    ckRange 168 9 (x.count == 0 || decide (256 < x.count)), ckRange 177 10 (decide (1000 < x.timeout)),
    ckRange 196 48 (if root then readable && (decide (ms.eraseDups.length < ms.length) || !ms.contains s.mod.id) else x.list != 0),
    ckAlign 196 48 (root && x.list % 8 != 0), ckAddr 196 48 (root && !s.inStore x.list x.count),
    ckOwn (root && !j.owns x.list x.count) ]

def closeLate (_ : State) (j : Job) (_ : Queue) (r : Nat) : List Chk :=
  [ ckState eState ((closeArgs r).step != j.ring.openStep) ]

def closeStart (s : State) (j : Job) (q : Queue) (r : Nat) (f : Flight) : Started :=
  let x := closeArgs r
  let c : NormClose := { queue := q.ref, step := x.step, root := j.alias? x.root, timeout := timeoutMs x.timeout
                         list := if isRoot s j x.root then contributors s j x else [] }
  ⟨s.updRing j.id (fun y => { y with closes := y.closes ++ [c] }), { f with op := .norm }, false⟩

def closeSpec : CmdSpec :=
  { kind := 0x83, fetch := always, checks := closeChecks, ready := always, late := closeLate, start := closeStart }

/-! ## The total reaches this module (R153, R269) -/

namespace State

/-- The module that acts as the job's lead: its lead, or its deputy when the lead cannot be reached or has failed (R333, R351, R380). -/
def leadNow (s : State) (j : Job) : Option Nat :=
  let fit (m : Nat) : Bool := s.canReach m && !j.recov.failed.contains m && !j.aliases.any (fun a => a.1 == m)
  if fit j.lead then some j.lead else if fit j.deputy then some j.deputy else none

/-- Where a module's reports to its lead go: to the module that acts as lead; with none, to the deputy's place. -/
def leadFor (s : State) (j : Job) : Nat := (s.leadNow j).getD (j.alias? j.deputy)

/-- The module to which x is reported: the acting lead, or the deputy when the lead is what is reported (R351). -/
def reportTo (s : State) (j : Job) (x : Nat) : Nat := if s.leadFor j = x then j.alias? j.deputy else s.leadFor j

/-- SUSPECT(x) to the job's lead (R351). -/
def sendSuspect (s : State) (jid x : Nat) : State :=
  match s.job? jid with
  | none => s
  | some j => s.send (s.reportTo j x) (.suspect s.mod.id jid x)

/-- Step 5 of R269: the gate is decided and the waiting NORM_CLOSE completes; missing modules are counted (R277), and under HOLD the
module's quiescent report is due (R365). `total`: FP32 code and POISON; none after the timeout. -/
def closeTotal (s : State) (jid step : Nat) (total : NormTotal) (missing : List Nat) : State :=
  match s.job? jid with
  | none => s
  | some j =>
    match j.ring.closes.find? (fun c => c.sent && c.step == step) with
    | none => s
    | some c =>
      let s := s.updRing jid (fun r => missing.foldl RingSt.countPoison { r with closes := r.closes.filter (fun x => x != c) })
      let s := s.decideGate jid step total
      let s := if gateFor total = Gate.hold then
          s.updJob jid (fun j => { j with recov := { j.recov with hold := true, quiesce := some (s.leadFor j) } })
        else s
      let res : Res := match total with
        | none => { code := eShard, poison := true }
        | some (_, true) => { code := ePoison, poison := true }
        | some (_, false) => {}
      match (s.job? jid).bind (fun j => j.queue? c.queue) with
      | none => s
      | some q =>
        match q.flight.findIdx? (fun f => decide (f.op = Op.norm) && (closeArgs f.record).step == step) with
        | none => s
        | some i =>
          match q.flight[i]? with
          | none => s
          | some f => s.completeAt jid q i { f with res := res }

/-! ## The root (R270) -/

def sendNorm (s : State) (j : Job) (dst : Nat) (poison : Option Nat) (pay : Nat) : State :=
  (s.sendJob j (normClass j dst) dst 3 (ringWord normTag 0 0 0 3 poison 0) pay).getD s

/-- The exact sum of contributions, rounded (R270): FP32 code. -/
def totalCode (cs : List Contribution) : Nat :=
  if cs.any (·.nan) then 0x7FC00000
  else if cs.any (·.inf) then 0x7F800000
  else (toFp32 (.fin false (cs.map (·.value)).sum (-320))).code

/-- Modules of the list from which nothing came. -/
def missingOf (c : NormClose) (r : NormRoot) : List Nat := c.list.filter (fun m => !r.got.any (fun x => x.src == m))

/-- POISON_SRC of a total: the lowest missing module, else that of the poisoned contribution of the lowest module. -/
def totalPoison (missing : List Nat) (got : List Contribution) : Option Nat :=
  match missing.min? with
  | some m => some m
  | none =>
    let bad := got.filter (fun x => x.poison.isSome)
    ((bad.map (·.src)).min?).bind (fun m => (bad.find? (fun x => x.src == m)).bind (·.poison))

/-- Payload of a total. -/
def totalPay (code step : Nat) (missing : List Nat) : Nat :=
  Machine.place 0 32 code + Machine.place 512 1 (boolNat (code == 0x7FC00000)) + Machine.place 513 1 (boolNat (code == 0x7F800000)) +
  Machine.place 544 32 step + (missing.map (fun m => Machine.place (768 + m) 1 1)).sum

def updRoot (s : State) (jid : Nat) (r : NormRoot) : State :=
  s.updRing jid (fun x => { x with roots := x.roots.map (fun y => if y.step == r.step then r else y) })

/-- The root forms the total and sends it to every contributor; its own NORM_CLOSE completes with it. -/
def formTotal (s : State) (jid : Nat) (c : NormClose) (r : NormRoot) : State :=
  match s.job? jid with
  | none => s
  | some j =>
    let missing := missingOf c r
    let code := totalCode r.got
    let poison := totalPoison missing r.got
    let pay := totalPay code c.step missing
    let s := s.updRoot jid { r with
      list := c.list
      total := some (BitVec.ofNat 64 (ringWord normTag 0 0 0 3 poison 0), BitVec.ofNat 2048 pay) }
    let s := (r.got.filter (fun x => x.src != s.mod.id)).foldl (fun s x => s.sendNorm j x.src poison pay) s
    s.closeTotal jid c.step (some (code, poison.isSome)) missing

/-- The root looks whether its collection is over: its own contribution sent, and all there or the window closed. -/
def tryTotal (s : State) (jid step : Nat) : State :=
  match s.job? jid with
  | none => s
  | some j =>
    match j.ring.roots.find? (fun r => r.step == step), j.ring.closes.find? (fun c => c.step == step && c.root == s.mod.id && c.sent) with
    | some r, some c =>
      if r.total.isSome then s
      else
        let strange := r.got.filter (fun x => !c.list.contains x.src)
        let s := strange.foldl (fun s _ => s.log eProtect engRing 0 jid) s
        let r := { r with got := r.got.filter (fun x => c.list.contains x.src) }
        let late := r.closed || decide (r.since + c.timeout * 100000 ≤ s.now)
        if (missingOf c r).isEmpty || late then s.formTotal jid c { r with closed := late } else s.updRoot jid r
    | _, _ => s

/-- A contribution reaches the root (R270): it opens or joins the collection, or is answered with the total already sent; one from a
module that the NORM_CLOSE of the total does not name is discarded and logged. -/
def addContribution (s : State) (jid step : Nat) (x : Contribution) : State :=
  match s.job? jid with
  | none => s
  | some j =>
    match j.ring.roots.find? (fun r => r.step == step) with
    | none =>
      (s.updRing jid (fun r => { r with roots := r.roots ++ [{ step := step, got := [x], since := s.now }] })).tryTotal jid step
    | some r =>
      match r.total with
      | some t =>
        if !r.list.contains x.src then s.log eProtect engRing 0 jid
        else s.sendNorm j x.src (if bitAt t.1.toNat 48 then some (bits t.1.toNat 49 8) else none) t.2.toNat
      | none =>
        if r.got.any (fun y => y.src == x.src) then s
        else (s.updRoot jid { r with got := r.got ++ [x] }).tryTotal jid step

end State

/-! ## Rows -/

/-- The contribution of a step (R269 step 3). -/
def contributionOf (s : State) (j : Job) (step : Nat) : Contribution :=
  let a := (j.ring.accs.find? (fun a => a.step == step)).getD { step := step }
  let strand := j.strand.pipe.poisoned.contains step
  { src := s.mod.id, value := a.value, nan := a.nan,
    inf := a.inf || (j.numerics.skipOnFlag && j.numerics.flagCount != 0),
    poison := match a.poison with
      | some p => some p
      | none => if strand then some s.mod.id else none }

def contributionPay (x : Contribution) (step : Nat) : Nat :=
  place 0 512 x.value + place 512 1 (boolNat x.nan) + place 513 1 (boolNat x.inf) + place 544 32 step

/-- The seal of the step before has been acknowledged, where a Locket is bound (R358). -/
def sealedBefore (j : Job) (step : Nat) : Bool :=
  !j.locket.bound || step == j.strand.pipe.firstStep || j.locket.lastSeal == some ((step + 2 ^ 32 - 1) % 2 ^ 32)

/-- The oldest NORM_CLOSE sends its contribution once the step's REDUCEs with NORM = 1 have completed (R269 steps 2 to 4). -/
def sendContribution (s : State) : State :=
  match s.runJob with
  | none => s
  | some j =>
    match j.ring.closes.find? (fun c => !c.sent) with
    | none => s
    | some c =>
      let busy := j.ring.buckets.any (fun b => !b.gather && (reduceArgs b.record).norm && (reduceArgs b.record).step == c.step)
      if busy || !sealedBefore j c.step then s
      else
        let x := contributionOf s j c.step
        let s := s.updPipe j.id (fun p => { p with poisoned := p.poisoned.filter (· != c.step) })
        let s := s.updRing j.id (fun r => { r with
          closes := r.closes.map (fun (y : NormClose) => if y = c then { y with sent := true, since := s.now } else y)
          openStep := (c.step + 1) % 2 ^ 32, accs := r.accs.filter (fun a => a.step != c.step) })
        if c.root = s.mod.id then s.addContribution j.id c.step x
        else s.sendNorm j c.root x.poison (contributionPay x c.step)

def execNormContributionSend (s : State) : Host.Outcome State Fault Refusal :=
  done s (if dieHeld s normInst then s else sendContribution s)

def pktStep (p : RPkt) : Nat := bits p.payload.toNat 544 32
def pktPoison (p : RPkt) : Option Nat := if bitAt p.cls.toNat 48 then some (bits p.cls.toNat 49 8) else none

/-- The NORM packet answers a contribution of ours: it comes from the root of a NORM_CLOSE that waits for it, or has gone. -/
def isTotal (s : State) (j : Job) (p : RPkt) : Bool :=
  j.ring.closes.any (fun c => c.sent && c.root != s.mod.id && c.root == p.src && c.step == pktStep p)

/-- The NORM packet may be a contribution: this module is, or has been, the root of its step, or may yet become it. -/
def mayContribute (s : State) (j : Job) (p : RPkt) : Bool :=
  notClosed j (pktStep p) || j.ring.roots.any (fun r => r.step == pktStep p) ||
  j.ring.closes.any (fun c => c.step == pktStep p && c.root == s.mod.id)

/-- The job has a route to a module. -/
def Job.knows (j : Job) (m : Nat) : Bool := j.routes.any (fun r => r.key % 256 == m && r.ports != 0)

/-- A norm packet from a module that only another admitted job knows is for that job, which does not run (R328, log 129). -/
def normOther (s : State) (j : Job) (src : Nat) : Option Job :=
  if j.knows src then none else s.jobs.find? (fun k => k.admitted && k.id != j.id && k.knows src)

/-- The oldest NORM packet of a port, with the job that runs; with none it is discarded (R328), and while the die of the engine that takes
norm packets holds, it waits (R32). -/
def onNorm (n : Nat) (s : State) (k : RPkt → Job → State → State) : State :=
  if dieHeld s normInst then s
  else match ringPacket n 3 3 true s with
    | none => s
    | some (p, t) =>
      match t.runJob with
      | none => t.log eJob engRing 0 0
      | some j =>
        match normOther t j p.src with
        | some o => t.log eJob engRing normInst o.id
        | none => k p j t

/-- A contribution joins its collection; one that comes before the root's own NORM_CLOSE takes room in the early buffer, and stays in its
receive slot while that is full (R270, R279). -/
def takeContribution (n : Nat) (s : State) : State :=
  onNorm n s (fun p j t =>
    if isTotal t j p then s
    else if !mayContribute t j p then t
    else if beforeClose t j (pktStep p) && decide (earlyRoom ≤ earlyUsed t j normInst) then s
    else t.addContribution j.id (pktStep p)
      { src := p.src, value := bits p.payload.toNat 0 512, nan := bitAt p.payload.toNat 512,
        inf := bitAt p.payload.toNat 513, poison := pktPoison p })

def execNormContribution (port : Nat) (s : State) : Host.Outcome State Fault Refusal := done s (takeContribution port s)

/-- The root's window closes (R270 step 3). -/
def closeWindow (step : Nat) (s : State) : State :=
  match s.runJob with
  | none => s
  | some j =>
    match j.ring.roots.find? (fun r => r.step == step), j.ring.closes.find? (fun c => c.step == step && c.root == s.mod.id) with
    | some r, some c =>
      if r.total.isSome || decide (s.now < r.since + c.timeout * 100000) then s
      else (s.updRoot j.id { r with closed := true }).tryTotal j.id step
    | _, _ => s

def execNormWindowClose (step : Nat) (s : State) : Host.Outcome State Fault Refusal :=
  done s (if dieHeld s normInst then s else closeWindow step s)

/-- A total arrives; one for which no NORM_CLOSE waits is discarded (R269 step 5). -/
def takeTotal (n : Nat) (s : State) : State :=
  onNorm n s (fun p j t =>
    if isTotal t j p then
      let missing := (List.range 256).filter (fun m => bitAt p.payload.toNat (768 + m))
      t.closeTotal j.id (pktStep p) (some (bits p.payload.toNat 0 32, (pktPoison p).isSome)) missing
    else if mayContribute t j p then s
    else t)

def execNormTotal (port : Nat) (s : State) : Host.Outcome State Fault Refusal := done s (takeTotal port s)

/-- No total within twice the timeout (R269); the root itself forms one when its window closes (R270). -/
def timeoutTotal (s : State) : State :=
  match s.runJob with
  | none => s
  | some j =>
    match j.ring.closes.find? (fun c => c.sent && c.root != s.mod.id && decide (c.since + 2 * c.timeout * 100000 ≤ s.now)) with
    | none => s
    | some c => s.closeTotal j.id c.step none []

def execNormTotalTimeout (s : State) : Host.Outcome State Fault Refusal :=
  done s (if dieHeld s normInst then s else timeoutTotal s)

/-! ## Poison counts (R277) -/

/-- A source whose count has reached 2 is reported failed, once. -/
def reportSource (job src : Nat) (s : State) : State :=
  match s.job? job with
  | none => s
  | some j =>
    let n := ((j.ring.poisons.find? (fun p => p.1 == src)).map (·.2)).getD 0
    if n < 2 ∨ j.ring.reported.contains src then s
    else
      ((s.updRing job (fun r => { r with reported := r.reported ++ [src] })).log ePoison engRing 0 job src).sendSuspect job src

def execPoisonSourceReport (job src : Nat) (s : State) : Host.Outcome State Fault Refusal := done s (reportSource job src s)

/-- After 1,000 consecutive decisions of OPEN or SKIP the counts clear. -/
def clearPoison (job : Nat) (s : State) : State :=
  match s.job? job with
  | none => s
  | some j =>
    if j.ring.goodRun < 1000 then s
    else s.updRing job (fun r => { r with poisons := [], reported := [], goodRun := 0 })

def execPoisonCountsClear (job : Nat) (s : State) : Host.Outcome State Fault Refusal := done s (clearPoison job s)

end Sys2Proof.Machine
end

