-- ==== Sys2Proof/Machine/Locket.lean ====
section
/-! DEFINITION. The Locket engine's copies (R352-R363): binding, offers, seals, durable checkpoints, the feed mirror and the Tandem
check. -/
namespace Sys2Proof.Machine

/-! ## The Locket descriptor (R354), as one number of 128 bytes -/

def lBuddy (d : Nat) : Nat := bits d 0 8
def lSource (d : Nat) : Nat := bits d 8 8
def lHost (d : Nat) : Bool := bitAt d 16
def lStragSteps (d : Nat) : Nat := if bits d 18 3 = 0 then 3 else bits d 18 3
def lStragPct (d : Nat) : Nat := if bits d 21 5 = 0 then 5 else bits d 21 5
def lSpares (d : Nat) : List Nat := (List.range (bits d 26 4)).map (fun i => bits d (576 + 8 * i) 8)
def lInterval (d : Nat) : Nat := bits d 32 16
def lTandems (d : Nat) : Nat := bits d 48 16
def lHostAddr (d : Nat) : Nat := bits d 64 48
def lHalf (d : Nat) : Nat := bits d 128 40
def lFeed (d : Nat) : Nat := bits d 192 32
def lCkpt (d : Nat) : Nat := bits d 256 48
def lCkptSlot (d : Nat) : Nat := bits d 320 40
def lStaticList (d : Nat) : Nat := bits d 384 48
def lStatics (d : Nat) : Nat := bits d 432 16
def lTandemList (d : Nat) : Nat := bits d 448 48
def lPartner (d : Nat) : Nat := bits d 496 8
def lPatchList (d : Nat) : Nat := bits d 512 48
def lPatches (d : Nat) : Nat := bits d 560 8

def locketDescAddr (r : Nat) : Nat := bits r 128 48
/-- The descriptor as it was read with the record. -/
def locketDesc (r : Nat) : Nat := bits r 512 1024

/-- Entries of a list of the descriptor, each of `size` bytes, where the list can be read. -/
def listReadable (s : State) (addr n size : Nat) : Bool := addr % 16 == 0 && s.inStore addr (n * size)
def listOf (s : State) (addr n size : Nat) : List Nat :=
  if listReadable s addr n size then (List.range n).map (fun i => s.num (addr + size * i) size) else []

/-- What is read with LOCKET_BIND: the descriptor, a mark for each of its lists of ranges, Tandem entries and patches that can be read, and
the lists. -/
def locketItem (s : State) (r : Nat) : Nat :=
  let d := s.num (locketDescAddr r) 128
  let part (bit at_ a n size : Nat) : Nat := if listReadable s a n size then place bit 1 1 + 2 ^ at_ * s.num a (n * size) else 0
  d + part 1024 1032 (lStaticList d) (lStatics d) 16 + part 1025 (1032 + 128 * lStatics d) (lTandemList d) (lTandems d) 64 +
    part 1026 (1032 + 128 * lStatics d + 512 * lTandems d) (lPatchList d) (lPatches d) 16

/-- A list as it was read with the record: its mark, the place of its first entry, entries, bits of each. -/
def listIn (r bit at_ n w : Nat) : List Nat := if bitAt r (512 + bit) then (List.range n).map (fun i => bits r (512 + at_ + w * i) w) else []
def staticsIn (r : Nat) : List Nat := listIn r 1024 1032 (lStatics (locketDesc r)) 128
def tandemsIn (r : Nat) : List Nat := listIn r 1025 (1032 + 128 * lStatics (locketDesc r)) (lTandems (locketDesc r)) 512
def patchesIn (r : Nat) : List Nat :=
  listIn r 1026 (1032 + 128 * lStatics (locketDesc r) + 512 * lTandems (locketDesc r)) (lPatches (locketDesc r)) 128

/-- ARG of item `code` of LOCKET_BIND (R355). -/
def locketMark (code : Nat) : Nat := 2 ^ 31 + code * 2 ^ 16

/-- User memory of the job (R355: inside its extents). -/
def inExtents (s : State) (j : Job) (a n : Nat) : Bool := s.inUser a n && j.owns a n

/-- Checks on a list reference at bit `b` of an item (R51). -/
def listRefChecks (s : State) (j : Job) (d b : Nat) : List Chk :=
  let a := bits d b 48
  let n := bits d (b + 48) 16
  [ ckZero d (b + 80) 48, ckRange (b + 48) 16 (n == 0), ckAlign b 48 (a % 64 != 0), ckAddr b 48 (!s.inStore a (64 * n)),
    ckOwnF b 48 (!j.owns a (64 * n)), ckOwnF (b + 64) 16 (bits d (b + 64) 16 != j.id) ]

def locketDescChecks (s : State) (j : Job) (d : Nat) : List Chk :=
  let host := lHost d
  let me (m : Nat) : Bool := j.alias? m == s.mod.id
  let out (m : Nat) : Bool := !me m && !j.hasModule (j.alias? m)
  onItem (locketMark 0) 0xFFFF
    ([ ckZero (if host then 0 else d) 8 8, ckZero d 30 2, ckZero (if host then 0 else d) 64 48, ckZero d 112 16, ckZero d 168 24,
       ckZero d 224 32, ckZero d 304 16, ckZero d 360 24, ckZero d 504 8, ckZero d 568 8, ckZero d 896 128,
       ckRange 0 8 (me (lBuddy d)), ckRange 8 8 (host && me (lSource d)),
       ckRange 26 4 (bits d 26 4 == 0 || decide (8 < bits d 26 4)),
       ckRange 32 16 (lInterval d != 0 && lCkpt d == 0), ckRange 432 16 (lStatics d == 0), ckRange 496 8 (me (lPartner d)),
       ckAlign 64 48 (lHostAddr d % 0x200000 != 0), ckAlign 128 40 (lHalf d % 0x200000 != 0), ckAlign 192 32 (lFeed d % 64 != 0),
       ckAlign 256 48 (lCkpt d % 64 != 0), ckAlign 320 40 (lCkptSlot d % 64 != 0), ckAlign 384 48 (lStaticList d % 16 != 0),
       ckAlign 448 48 (lTandemList d % 64 != 0), ckAlign 512 48 (lPatchList d % 16 != 0),
       ckAddr 64 48 (host && !inExtents s j (lHostAddr d) (2 * lHalf d + lFeed d)),
       ckAddr 256 48 (lCkpt d != 0 && !State.inHost (lCkpt d) (2 * lCkptSlot d)),
       ckAddr 384 48 (!s.inStore (lStaticList d) (16 * lStatics d)),
       ckAddr 448 48 (lTandems d != 0 && !s.inStore (lTandemList d) (64 * lTandems d)),
       ckAddr 512 48 (lPatches d != 0 && !s.inStore (lPatchList d) (16 * lPatches d)),
       ckOwnF 0 8 (out (lBuddy d)), ckOwnF 8 8 (host && out (lSource d)),
       ckOwnF 384 48 (!j.owns (lStaticList d) (16 * lStatics d)),
       ckOwnF 448 48 (lTandems d != 0 && !j.owns (lTandemList d) (64 * lTandems d)), ckOwnF 496 8 (out (lPartner d)),
       ckOwnF 512 48 (lPatches d != 0 && !j.owns (lPatchList d) (16 * lPatches d)) ] ++
     listRefChecks s j d 640 ++ listRefChecks s j d 768)

def rangeChecks (s : State) (j : Job) (i e : Nat) : List Chk :=
  onItem (locketMark 1) i
    [ ckZero e 48 16, ckZero e 96 32, ckAlign 0 48 (bits e 0 48 % 64 != 0), ckAlign 64 32 (bits e 64 32 % 64 != 0),
      ckAddr 0 48 (!inExtents s j (bits e 0 48) (bits e 64 32)) ]

/-! Fields of a Tandem entry (R363). -/
def tSlot0 (e : Nat) : Nat := bits e 0 48
def tStage (e : Nat) : Nat := bits e 48 4
def tPitch (e : Nat) : Nat := bits e 64 40
def tLen (e : Nat) : Nat := bits e 128 32
def tOff (e : Nat) : Nat := bits e 160 32
def tShardLen (e : Nat) : Nat := bits e 192 32
def tShard (e : Nat) : Nat := bits e 224 48

def tandemChecks (s : State) (j : Job) (i e : Nat) : List Chk :=
  onItem (locketMark 2) i
    [ ckZero e 52 12, ckZero e 104 24, ckZero e 272 240,
      ckAlign 0 48 (tSlot0 e % 64 != 0), ckAlign 64 40 (tPitch e % 64 != 0), ckAlign 128 32 (tLen e % 64 != 0),
      ckAlign 192 32 (tShardLen e % 64 != 0), ckAlign 224 48 (tShard e % 64 != 0),
      ckAddr 0 48 (!s.inUser (tSlot0 e) (tLen e)), ckAddr 224 48 (!s.inUser (tShard e) (tShardLen e)),
      ckOwnF 0 48 (!j.owns (tSlot0 e) (tLen e)), ckOwnF 224 48 (!j.owns (tShard e) (tShardLen e)) ]

/-- Bytes of the record that a patch entry names. -/
def patchSize (_ : Nat) : Nat := 64

def patchChecks (s : State) (j : Job) (i e : Nat) : List Chk :=
  onItem (locketMark 3) i
    [ ckZero e 54 74, ckEnum 48 2 (decide (2 ≤ bits e 48 2)), ckAddr 0 48 (!s.inStore (bits e 0 48) (patchSize e)),
      ckOwnF 0 48 (!j.owns (bits e 0 48) (patchSize e)) ]

/-- Each entry of a list with its index. -/
def indexed (l : List Nat) : List (Nat × Nat) := (List.range l.length).zip l

def locketChecks (s : State) (j : Job) (_ : Queue) (r : Nat) : List Chk :=
  let a := locketDescAddr r
  let d := locketDesc r
  [ ckZero r 176 336, ckAlign 128 48 (a % 64 != 0), ckAddr 128 48 (!s.inStore a 128), ckOwn (!j.owns a 128) ] ++
  (if a % 64 = 0 && s.inStore a 128 then
    locketDescChecks s j d ++
    (indexed (staticsIn r)).flatMap (fun p => rangeChecks s j p.1 p.2) ++
    (indexed (tandemsIn r)).flatMap (fun p => tandemChecks s j p.1 p.2) ++
    (indexed (patchesIn r)).flatMap (fun p => patchChecks s j p.1 p.2)
   else [])

namespace State

def updLocket (s : State) (jid : Nat) (f : Locket → Locket) : State := s.updJob jid (fun j => { j with locket := f j.locket })

/-- The Locket is bound here, or binding: this module hosts SOURCE's copy if its descriptor says so. -/
def hosts (j : Job) (src : Nat) : Bool :=
  (j.locket.bound || j.locket.binding.isSome) && lHost j.locket.desc && j.alias? (lSource j.locket.desc) == src

/-- Hosted half i: its address. -/
def halfAddr (l : Locket) (i : Nat) : Nat := lHostAddr l.desc + i * lHalf l.desc

/-- The offer of a copy and, behind it, the static ranges (R355). -/
def sendOffer (s : State) (j : Job) : State :=
  let l := j.locket
  let dst := j.alias? (lBuddy l.desc)
  let n := l.statics.length
  let d := l.desc
  let info : SrcInfo := {
    desc := l.descAddr, partner := lPartner d, tandem := decide (lTandems d ≠ 0), ckpt := lCkpt d, ckptSlot := lCkptSlot d
    mirror := bitAt d 17 || !j.strand.edges.any (fun e => gFeed e.desc)
    feeds := (j.strand.edges.filter (fun e => gFeed e.desc && gReplayDepth e.desc != 0)).map (fun e =>
      (gReplayAddr e.desc, gReplayDepth e.desc * j.strand.pipe.mbPerStep *
        ((j.stageNamed (gDnStage e.desc)).map (fun t => feedEntryBytes e.desc t.tileCount)).getD 0)) }
  let s := s.send dst (.buddyOffer (.offer s.mod.id j.id (l.statics.map (·.2)).sum info))
  ((List.range n).zip l.statics).foldl (fun s p =>
    let (bs, s) := s.fetch j.id p.2.1 p.2.2
    s.send dst (.buddyOffer (.static s.mod.id j.id p.2.1 bs (p.1 + 1 == n)))) s

/-- An offer or a static range reaches a host that has bound: the ranges go to the start of both halves, and the last one is
answered (R355). -/
def hostOffer (s : State) (jid : Nat) (m : OfferMsg) : State :=
  match s.job? jid with
  | none => s
  | some j =>
    let l := j.locket
    match m with
    | .offer _ _ _ info => s.updLocket jid (fun l => { l with srcStatics := [], half0 := {}, half1 := {}, srcInfo := some info, awaited := none })
    | .static src _ a bs last =>
      let off := (l.srcStatics.map (·.len)).sum
      let fits := decide (off + bs.length ≤ lHalf l.desc)
      let s := s.updLocket jid (fun l => { l with srcStatics := l.srcStatics ++ [⟨a, bs.length, off⟩] })
      let s := if fits then (s.store (halfAddr l 0 + off) bs).store (halfAddr l 1 + off) bs else s
      if last then s.send src (.buddyOffer (.ack s.mod.id jid fits)) else s
    | .ack _ _ _ => s

def offerSrc (m : OfferMsg) : Nat := match m with
  | .offer s _ _ _ => s
  | .static s _ _ _ _ => s
  | .ack s _ _ => s

def offerJob (m : OfferMsg) : Nat := match m with
  | .offer _ j _ _ => j
  | .static _ j _ _ _ => j
  | .ack _ j _ => j

/-- Offers held for a module that now hosts their source. -/
def takeOffers (s : State) (jid : Nat) : State :=
  match s.job? jid with
  | none => s
  | some j =>
    let mine (m : OfferMsg) : Bool := offerJob m == jid && hosts j (offerSrc m)
    let ms := s.offers.filter mine
    ms.foldl (fun s m => s.hostOffer jid m) { s with offers := s.offers.filter (fun m => !mine m) }

end State

/-- The Locket engine, on die 2, does not act: its die holds (R31), or a range it would read or write waits at a channel (R178). -/
def locketWaits (s : State) (rs : List (Nat × Nat)) : Bool := dieHeld s 2 || rs.any (fun r => s.heldRange r.1 r.2)

/-- Static ranges that a record names, address and length. -/
def staticRanges (r : Nat) : List (Nat × Nat) := (staticsIn r).map (fun e => (bits e 0 48, bits e 64 32))

/-- The checkpoint slots of a job: the headers that are complete (R360). -/
def ckptHeaders (s : State) (job a size : Nat) : List (Nat × Nat) :=
  if a = 0 || s.hostDown then []
  else ([a, a + size].map (fun p => (p, s.num p 64))).filter (fun h => bitAt h.2 56 && bits h.2 32 16 == job)

/-- The count k with which a job goes on: at a module that replaces another, behind the newest checkpoint of the slots (R360). -/
def nextDurable (s : State) (j : Job) (d : Nat) : Nat :=
  if !j.aliases.any (fun a => a.2 == s.mod.id) then j.locket.durables
  else (ckptHeaders s j.id (lCkpt d) (lCkptSlot d)).foldl (fun k h => max k (bits h.2 128 32 + 1)) 0

/-- Check 4 hosts SOURCE's copy from now on, offers this module's own to the buddy and waits for its answer. -/
def locketExchange (s : State) (j : Job) (q : Queue) (w : Waiting) : Option State :=
  if w.begun then (if j.locket.answer.isNone then some s else none)
  else if locketWaits s (staticRanges w.record) then some s
  else
    let r := w.record
    let d := locketDesc r
    let l : Locket := { j.locket with
      desc := d, descAddr := locketDescAddr r, interval := lInterval d, binding := some q.ref, answer := none
      durables := nextDurable s j d
      statics := staticRanges r
      tandems := tandemsIn r, patches := patchesIn r }
    let s := s.updJob j.id (fun j => { j.setQueue { q with cur := some { w with begun := true } } with locket := l })
    some ((s.takeOffers j.id).sendOffer { j with locket := l })

def locketLate (_ : State) (j : Job) (q : Queue) (_ : Nat) : List Chk :=
  let begun := q.cur.any (·.begun)
  [ ckState eState (!begun && (j.locket.bound || j.locket.binding.isSome)),
    ckCap eMemory (begun && j.locket.answer == some false) ]

def locketStart (s : State) (j : Job) (_ : Queue) (_ : Nat) (f : Flight) : Started :=
  ⟨s.updLocket j.id (fun l => { l with binding := none, bound := true }), f, true⟩

def locketSpec : CmdSpec :=
  { kind := 0xA0, item := locketItem, fetch := always, checks := locketChecks, ready := always, late := locketLate, start := locketStart
    exchange := locketExchange }

/-- The flight of a queue that an operation of the Locket waits in. -/
def findOp (j : Job) (ref : QRef) (p : Op → Bool) : Option (Queue × Nat × Flight) :=
  (j.queue? ref).bind (fun q => (q.flight.findIdx? (fun f => p f.op)).bind (fun i => (q.flight[i]?).map (fun f => (q, i, f))))

/-- BUDDY_OFFER: an offer is held until this module hosts its source; the buddy's answer ends LOCKET_BIND (R355). -/
def takeOffer (m : OfferMsg) (s : State) : State :=
  match m with
  | .ack src jid ok =>
    match s.job? jid with
    | none => s
    | some j =>
      match j.locket.binding with
      | none => s
      | some ref =>
        if src ≠ j.alias? (lBuddy j.locket.desc) ∨ j.locket.answer.isSome then s
        else
          let s := s.updLocket jid (fun l =>
            if ok then { l with answer := some true } else { l with answer := some false, binding := none })
          match s.job? jid with
          | none => s
          | some j =>
            match j.queue? ref with
            | none => s
            | some q =>
              match q.cur with
              | some w => if w.begun then tryStart locketSpec s j q w else s
              | none => s
  | _ =>
    let s := { s with offers := s.offers ++ [m] }
    s.takeOffers (State.offerJob m)

/-- A message to the Locket engine is not taken while its die holds (R31). -/
def onLocket (f : State → State) (s : State) : State := if dieHeld s 2 then s else f s

/-- BUDDY_OFFER. -/
def execBuddyOffer (m : OfferMsg) (s : State) : Host.Outcome State Fault Refusal := done s (onLocket (takeOffer m) s)

/-! ## Copies (R356, R359) -/

/-- Index of the half open for copies: not that of the newest sealed step; before any seal, that of the pipeline's present step (R356). -/
def openHalf (j : Job) : Nat :=
  let l := j.locket
  match l.half0.sealed, l.half1.sealed with
  | some a, some b => if newer 32 a.step b.step then 1 else 0
  | some _, none => 1
  | none, some _ => 0
  | none, none => j.strand.pipe.step % 2

def Locket.half (l : Locket) (i : Nat) : Half := if i = 0 then l.half0 else l.half1
def Locket.setHalf (l : Locket) (i : Nat) (h : Half) : Locket := if i = 0 then { l with half0 := h } else { l with half1 := h }

/-- A half without an earlier step's copy in it. -/
def Half.fresh (h : Half) : Half := if h.sealed.isSome then {} else h

/-- A range joins a half, behind the static ranges and the ranges before it. -/
def State.storeRange (s : State) (jid i addr : Nat) (bs : Bytes) : State :=
  match s.job? jid with
  | none => s
  | some j =>
    let l := j.locket
    let h := (l.half i).fresh
    let off := ((l.srcStatics ++ h.ranges).map (·.len)).sum
    if lHalf l.desc < off + bs.length then
      (s.updLocket jid (fun l => l.setHalf i { h with short := true })).log eMemory engLocket 0 jid addr
    else
      (s.updLocket jid (fun l => l.setHalf i { h with ranges := h.ranges ++ [⟨addr, bs.length, off⟩] })).store
        (State.halfAddr l i + off) bs

/-- The hosting region of a job. -/
def hostedRegion (s : State) (jid : Nat) : List (Nat × Nat) :=
  ((s.job? jid).toList.filter (fun j => lHost j.locket.desc)).map (fun j =>
    (lHostAddr j.locket.desc, 2 * lHalf j.locket.desc + lFeed j.locket.desc))

/-- A mirrored feed entry (R359). -/
def storeMirror (src jid off : Nat) (bs : Bytes) (s : State) : State :=
  if s.running ≠ some jid then s.log eJob engLocket 0 jid
  else match s.job? jid with
    | none => s
    | some j =>
      let d := j.locket.desc
      if State.hosts j src && decide (off + bs.length ≤ lFeed d) then s.store (lHostAddr d + 2 * lHalf d + off) bs else s

def execFeedMirror (src job off : Nat) (bytes : Bytes) (s : State) : Host.Outcome State Fault Refusal :=
  done s (if locketWaits s (hostedRegion s job) then s else storeMirror src job off bytes s)

/-! ## LOCKET_SEAL (R357) -/

def sealChecks (_ : State) (_ : Job) (_ : Queue) (r : Nat) : List Chk :=
  [ ckZero r 160 352, ckRange 8 3 (hPhase r == 3) ]

def sealLate (_ : State) (j : Job) (_ : Queue) (_ : Nat) : List Chk :=
  let g := j.numerics.gate
  [ ckState eState (!j.locket.bound || decide (g = Gate.undecided) || (decide (g = Gate.opened) && j.locket.gatherBad)) ]

/-- The state block of R357. -/
def blockOf (s : State) (j : Job) (step : Nat) : StateBlockMsg :=
  let p := j.strand.pipe
  { step := step, firstMb := p.mb (((step + 2 ^ 32 - p.firstStep) % 2 ^ 32 + 1) * p.mbPerStep), descAddr := j.descAddr
    versions := j.strand.stages.map (fun t => (t.idx, (t.slot t.cur).num))
    slots := (List.range j.numerics.slotCount).map (fun i =>
      let n := j.numerics.slotBase + i
      let v := s.slot n
      ⟨n, v.savedK, v.savedHist, v.pending⟩) }

/-- The GATHERs that count toward a seal are those completed since the previous LOCKET_SEAL, however it ended (R356): none from here on. -/
def State.newSeal (s : State) (jid : Nat) : State := s.updLocket jid (fun l => { l with ranges := [], gatherBad := false })

def sealStart (s : State) (j : Job) (q : Queue) (r : Nat) (f : Flight) : Started :=
  let step := bits r 128 32
  let l := j.locket
  let buddy := j.alias? (lBuddy l.desc)
  if j.numerics.gate = Gate.hold then ⟨s.newSeal j.id, { f with res := { code := ePoison, poison := true } }, true⟩
  else if !s.canReach buddy then
    ⟨s.newSeal j.id, { f with res := { code := eLinkDown, poison := true } }, true⟩
  else
    let skip := decide (j.numerics.gate = Gate.skip)
    let b := { blockOf s j step with copied := if skip then 0 else l.ranges.length }
    let w : Sealing := { queue := q.ref, step := step, skip := skip, block := b, ranges := if skip then l.lastRanges else l.ranges }
    let s := (s.newSeal j.id).updLocket j.id (fun l => { l with sealing := some w })
    ⟨s.send buddy (.stateBlock (.block s.mod.id j.id skip b)), { f with op := .seal }, false⟩

def sealSpec : CmdSpec :=
  { kind := 0xA1, fetch := always, checks := sealChecks, late := sealLate, start := sealStart, refused := fun s j => s.newSeal j.id
    ready := fun _ j _ _ => j.locket.sealing.isNone }

/-! ## The durable checkpoint (R360) -/

/-- Bytes filled up with zeros to a multiple of 64. -/
def pad64 (b : Bytes) : Bytes := b ++ List.replicate ((64 - b.length % 64) % 64) 0

/-- A state block and the directory of the ranges behind it, as they stand in a checkpoint slot. -/
def blockBytes (b : StateBlockMsg) (ranges : List (Nat × Nat)) : Bytes :=
  pad64 (leBytes 4 b.step ++ leBytes 4 b.firstMb ++ leBytes 8 b.descAddr ++ leBytes 4 b.versions.length ++ leBytes 4 b.slots.length ++
    leBytes 8 ranges.length ++
    b.versions.flatMap (fun v => leBytes 2 v.1 ++ leBytes 2 v.2) ++
    b.slots.flatMap (fun x => leBytes 2 x.slot ++ leBytes 1 (toField 8 x.k) ++ leBytes 1 x.hist.length ++ leBytes 4 x.pending.toNat ++
      (List.range 16).flatMap (fun i => leBytes 4 (x.hist.getD i 0).toNat)) ++
    ranges.flatMap (fun r => leBytes 8 r.1 ++ leBytes 8 r.2))

/-- The header of a checkpoint slot. -/
def ckptHeader (step job mod bytes seq : Nat) : Nat :=
  place 0 32 step + place 32 16 job + place 48 8 mod + place 56 1 1 + place 64 40 bytes + place 128 32 seq

/-- The static ranges of a checkpoint slot: a directory of address and length, then their bytes. -/
def staticsBytes (s : State) (jid : Nat) (l : Locket) : Bytes × State :=
  let (bs, s) := s.fetchAll jid l.statics
  (pad64 (leBytes 8 l.statics.length ++ l.statics.flatMap (fun p => leBytes 8 p.1 ++ leBytes 8 p.2)) ++ bs, s)

/-- Everything behind the header: static ranges, state block, ranges of the seal. -/
def ckptBody (s : State) (jid : Nat) (l : Locket) (w : Sealing) : Bytes × State :=
  let (a, s) := staticsBytes s jid l
  let (b, s) := s.fetchAll jid w.ranges
  (a ++ blockBytes w.block w.ranges ++ b, s)

/-- Length of a checkpoint behind its header. -/
def ckptLen (l : Locket) (w : Sealing) : Nat :=
  (pad64 (leBytes 8 l.statics.length ++ l.statics.flatMap (fun p => leBytes 8 p.1 ++ leBytes 8 p.2))).length +
  (blockBytes w.block w.ranges).length + ((l.statics ++ w.ranges).map (·.2)).sum

namespace State

/-- The durable checkpoint of an acknowledged seal, where one is due: the state, what the record says, and whether a durable
checkpoint counts as completed (R360, R361). -/
def durable (s : State) (j : Job) (w : Sealing) : State × Res × Bool :=
  let l := j.locket
  let n := (w.step + 2 ^ 32 - j.strand.pipe.firstStep) % 2 ^ 32 + 1
  if l.interval = 0 then (s, {}, true)
  else if n % l.interval ≠ 0 then (s, {}, false)
  else
    let a := lCkpt l.desc + (l.durables % 2) * lCkptSlot l.desc
    if lCkptSlot l.desc < 64 + ckptLen l w then
      (s.log eMemory engLocket 0 j.id w.step, { arg := 1 }, true)
    else if s.hostDown then (s, { code := eLinkDown, poison := true }, false)
    else
      let (body, s) := ckptBody s j.id l w
      let h := ckptHeader w.step j.id s.mod.id body.length l.durables
      let s := (s.write (a + 64) body).write a (leBytes 64 h)
      (s.updLocket j.id (fun l => { l with durables := l.durables + 1 }), {}, true)

/-- A deferred CKPT_INTERVAL_SET takes effect (R361, R62). -/
def applyInterval (s : State) (jid : Nat) : State :=
  match (s.job? jid).bind (fun j => j.deferrals.find? (fun d => decide (d.kind = DeferKind.ckptInterval))) with
  | none => s
  | some d =>
    let s := s.dropDeferral jid .ckptInterval
    (s.updLocket jid (fun l => { l with interval := bits d.record 128 16 })).secondRecord jid d 0 0

/-- The buddy has acknowledged a seal (R357, R360). -/
def sealDone (s : State) (jid step : Nat) : State :=
  match s.job? jid with
  | none => s
  | some j =>
    match j.locket.sealing with
    | none => s
    | some w =>
      if w.step ≠ step then s
      else
        let s := s.updLocket jid (fun l => { l with sealing := none, lastSeal := some step, lastRanges := w.ranges })
        let (s, res, counts) := s.durable j w
        let s := match (s.job? jid).bind (fun j => findOp j w.queue (fun o => decide (o = Op.seal))) with
          | some (q, i, f) => s.completeAt jid q i { f with res := res }
          | none => s
        if counts then s.applyInterval jid else s

/-- The ranges of the other half copied into half i, for a step that carries none (R357). -/
def copyHalf (s : State) (jid i : Nat) : State :=
  match s.job? jid with
  | none => s
  | some j =>
    let o := j.locket.half (1 - i)
    let s := s.updLocket jid (fun l => l.setHalf i {})
    o.ranges.foldl (fun s r =>
      let (bs, s) := s.fetch jid (halfAddr j.locket (1 - i) + r.off) r.len
      s.storeRange jid i r.addr bs) s

/-- Ranges that came before any seal told which half they belong to move to the half of the step that is sealed (R356). -/
def settleHalf (s : State) (jid i : Nat) : State :=
  match s.job? jid with
  | none => s
  | some j =>
    if openHalf j = i || !(j.locket.half i).ranges.isEmpty || (j.locket.half (1 - i)).sealed.isSome || (j.locket.half (1 - i)).ranges.isEmpty then s
    else (s.copyHalf jid i).updLocket jid (fun l => l.setHalf (1 - i) {})

end State

/-- The half of a state block sealed with it, and the source told (R357); while ranges of the seal are still to come, it waits (R370). A
half that a range found full is not sealed. -/
def State.sealHalf (s : State) (src jid : Nat) (skip : Bool) (b : StateBlockMsg) : State :=
  let i := b.step % 2
  let s := if skip then s.copyHalf jid i else (s.settleHalf jid i).updLocket jid (fun l => l.setHalf i (l.half i).fresh)
  match s.job? jid with
  | none => s
  | some j =>
    let h := j.locket.half i
    if h.short then s
    else if !skip && decide (h.ranges.length < b.copied) then s.updLocket jid (fun l => { l with awaited := some (src, b) })
    else
      (s.updLocket jid (fun l => { l.setHalf i { l.half i with sealed := some b } with awaited := none })).send src
        (.stateBlock (.ack s.mod.id jid b.step))

/-- STATE_BLOCK: the buddy seals the half; the source learns of it (R357). -/
def takeBlock (m : SealMsg) (s : State) : State :=
  match m with
  | .ack src jid step =>
    if (s.job? jid).any (fun j => j.alias? (lBuddy j.locket.desc) == src) then s.sealDone jid step else s
  | .block src jid skip b => if (s.job? jid).any (fun j => State.hosts j src) then s.sealHalf src jid skip b else s

/-- A copy joins the open half, and may be the one for which a seal waits (R370); of a job that is not running it is discarded (R328). -/
def storeCopy (src jid addr : Nat) (bs : Bytes) (s : State) : State :=
  if s.running ≠ some jid then s.log eJob engLocket 0 jid
  else match s.job? jid with
    | none => s
    | some j =>
      if !State.hosts j src then s
      else
        let s := s.storeRange jid (openHalf j) addr bs
        match j.locket.awaited with
        | some (m, b) => s.sealHalf m jid false b
        | none => s

def execLocketCopy (src job addr : Nat) (bytes : Bytes) (s : State) : Host.Outcome State Fault Refusal :=
  done s (if locketWaits s (hostedRegion s job) then s else storeCopy src job addr bytes s)

/-- What a seal's message makes the engine read or write: the hosting region, or, for the acknowledgement, the ranges of a durable checkpoint. -/
def sealRanges (s : State) (m : SealMsg) : List (Nat × Nat) :=
  match m with
  | .block _ jid _ _ => hostedRegion s jid
  | .ack _ jid _ => ((s.job? jid).map (fun j => match j.locket.sealing with
      | some w => if j.locket.interval = 0 then [] else j.locket.statics ++ w.ranges
      | none => [])).getD []

/-- STATE_BLOCK, once the engine's die and the channels of its ranges serve it. -/
def execStateBlock (m : SealMsg) (s : State) : Host.Outcome State Fault Refusal :=
  done s (if locketWaits s (sealRanges s m) then s else takeBlock m s)

/-! ## CKPT_INTERVAL_SET (R361) -/

def ckptChecks (_ : State) (_ : Job) (_ : Queue) (r : Nat) : List Chk := [ ckZero r 144 368 ]

def ckptLate (_ : State) (j : Job) (_ : Queue) (_ : Nat) : List Chk :=
  [ ckState eState (!j.locket.bound), State.ckPending j .ckptInterval ]

def ckptSpec : CmdSpec :=
  { kind := 0xA2, fetch := always, checks := ckptChecks, ready := always, late := ckptLate, start := startDeferred .ckptInterval 0 }

/-! ## The Tandem check (R362, R363) -/

/-- One word's term of R362. -/
def fpTerm (i w : BitVec 64) : BitVec 64 :=
  let x := w ^^^ (i * 0x9E3779B97F4A7C15)
  let x := (x ^^^ (x >>> 30)) * 0xBF58476D1CE4E5B9
  let x := (x ^^^ (x >>> 27)) * 0x94D049BB133111EB
  x ^^^ (x >>> 31)

def fpWords : Nat → BitVec 64 → Bytes → BitVec 64
  | 0, _, _ => 0
  | _, _, [] => 0
  | k + 1, i, b => fpTerm i (BitVec.ofNat 64 (ofLe (b.take 8))) + fpWords k (i + 1) (b.drop 8)

/-- The fingerprint of a range (R362). -/
def fingerprint (bs : Bytes) : BitVec 64 := fpWords (bs.length / 8) 0 bs

/-- A range with a poisoned unit has none. -/
def State.fpOf (s : State) (a n : Nat) : Option (BitVec 64) :=
  if s.mapped a n && (s.badUnits a n).isEmpty then some (fingerprint (s.read a n)) else none

/-- The range whose fingerprint a message asks for at this module: of the CURRENT version at the partner, of the shard at the module that
checks. -/
def fpRange (j : Job) (m : FpMsg) : Option (Nat × Nat) :=
  if !m.reply then (j.stage? m.stage).map (fun t => (m.slot0 + t.cur * m.pitch + m.off * 64, m.len))
  else (j.locket.tandems[m.entry]?).map (fun e => (tShard e, tShardLen e))

def tandemEnd (s : State) (jid : Nat) (res : Res) : State :=
  match s.job? jid with
  | none => s
  | some j =>
    match j.locket.tandem with
    | none => s
    | some t =>
      let s := s.updLocket jid (fun l => { l with tandem := none })
      match findOp j t.queue (fun o => decide (o = Op.tandem)) with
      | some (q, i, f) => s.completeAt jid q i { f with res := res }
      -- no command: the check of a takeover (R367 step 6)
      | none =>
        let s := s.updJob jid (fun j => { j with recov := { j.recov with checked := some (res.code == 0) } })
        if res.code = eTandem then s.log eTandem engLocket 0 jid else s

/-- The partner is asked for its fingerprint of entry i. -/
def askFingerprint (s : State) (j : Job) (i : Nat) : State :=
  match j.locket.tandems[i]? with
  | none => s
  | some e =>
    s.send (j.alias? (lPartner j.locket.desc)) (.tandemFingerprintRequest
      { src := s.mod.id, job := j.id, entry := i, stage := tStage e, slot0 := tSlot0 e, pitch := tPitch e, off := tOff e
        len := tShardLen e, reply := false, fp := none })

def tandemLate (_ : State) (j : Job) (_ : Queue) (_ : Nat) : List Chk := [ ckState eState (!j.locket.bound) ]

def tandemStart (s : State) (j : Job) (q : Queue) (_ : Nat) (f : Flight) : Started :=
  if j.locket.tandems.isEmpty then ⟨s, f, true⟩
  else if !s.canReach (j.alias? (lPartner j.locket.desc)) then ⟨s, { f with res := { code := eLinkDown } }, true⟩
  else
    let s := s.updLocket j.id (fun l => { l with tandem := some { queue := q.ref, entry := 0 } })
    ⟨askFingerprint s j 0, { f with op := .tandem }, false⟩

def tandemSpec : CmdSpec :=
  { kind := 0xA3, fetch := always, checks := fun _ _ _ r => [ ckZero r 128 384 ], late := tandemLate, start := tandemStart
    ready := fun _ j _ _ => j.locket.tandem.isNone }

/-- TANDEM_FINGERPRINT_REQUEST: the partner fingerprints its CURRENT version and answers; the answer is compared, entry by entry. -/
def takeFingerprint (m : FpMsg) (s : State) : State :=
  match s.job? m.job with
  | none => s
  | some j =>
    if !m.reply then
      let fp := (j.stage? m.stage).bind (fun t => s.fpOf (m.slot0 + t.cur * m.pitch + m.off * 64) m.len)
      s.send m.src (.tandemFingerprintRequest { m with src := s.mod.id, reply := true, fp := fp })
    else
      match j.locket.tandem, j.locket.tandems[m.entry]? with
      | some t, some e =>
        if t.entry ≠ m.entry ∨ j.alias? (lPartner j.locket.desc) ≠ m.src then s
        else
          let own := s.fpOf (tShard e) (tShardLen e)
          if own.isNone || m.fp != own then tandemEnd s j.id { code := eTandem, arg := m.entry }
          else if m.entry + 1 < j.locket.tandems.length then
            let s := s.updLocket j.id (fun l => { l with tandem := some { t with entry := m.entry + 1 } })
            askFingerprint s j (m.entry + 1)
          else tandemEnd s j.id {}
      | _, _ => s

/-- TANDEM_FINGERPRINT_REQUEST, once the engine's die and the range's channels serve it; bad units of the range are met (R177). -/
def fingerprintStep (m : FpMsg) (s : State) : State :=
  match (s.job? m.job).bind (fun j => fpRange j m) with
  | none => if dieHeld s 2 then s else takeFingerprint m s
  | some r =>
    if locketWaits s [r] then s
    else
      let t := takeFingerprint m s
      if s.mapped r.1 r.2 then t.meet m.job r.1 r.2 else t

def execTandemFingerprintRequest (m : FpMsg) (s : State) : Host.Outcome State Fault Refusal := done s (fingerprintStep m s)

/-- A module becomes unreachable under the Locket: seals and Tandem checks that await it end (R299, R357). -/
def State.locketLost (s : State) (jid m : Nat) : State :=
  match s.job? jid with
  | none => s
  | some j =>
    let l := j.locket
    let s := match l.sealing with
      | some w =>
        if j.alias? (lBuddy l.desc) = m then
          let s := s.updLocket jid (fun l => { l with sealing := none })
          match findOp j w.queue (fun o => decide (o = Op.seal)) with
          | some (q, i, f) => s.completeAt jid q i { f with res := { code := eLinkDown, poison := true } }
          | none => s
        else s
      | none => s
    let feeds := if buddyOf j = m then j.queues.flatMap (fun q => (q.flight.filterMap (fun f => match f.op with
      | .feed _ _ _ => some (q.ref, f.record)
      | _ => none))) else []
    let s := feeds.foldl (fun s x =>
      match (s.job? jid).bind (fun j => j.queue? x.1) with
      | none => s
      | some q =>
        match q.flight.findIdx? (fun f => f.record == x.2) with
        | none => s
        | some i => ((q.flight[i]?).map (fun f => s.completeAt jid q i { f with res := { code := eLinkDown, poison := true } })).getD s) s
    if l.tandem.isSome && j.alias? (lPartner l.desc) == m then tandemEnd s jid { code := eLinkDown } else s

end Sys2Proof.Machine
end

