-- ==== Sys2Proof/Machine/Control.lean ====
section
/-! DEFINITION. The job-control commands GEAR_TABLE_LOAD (R376, R377) and TIMETABLE_LOAD (R334, R335), with what they and
SCHED_POLICY_SET do at their boundary (R62). -/
namespace Sys2Proof.Machine

/-! ## GEAR_TABLE_LOAD -/

/-- Points of R24 at Tj 60 °C: core voltage in mV, cadence in Mbeat/s. -/
def cadencePoints : List (Nat × Nat) := [(620, 950), (650, 1080), (700, 1300), (750, 1500), (800, 1630), (850, 1750), (900, 1850)]

/-- A cadence is within that of R24 at a voltage, along the straight line between two points. -/
def reaches (mv cad : Nat) : List (Nat × Nat) → Bool
  | (v0, c0) :: (v1, c1) :: t =>
    if mv ≤ v1 then decide (cad * (v1 - v0) ≤ c0 * (v1 - v0) + (c1 - c0) * (mv - v0)) else reaches mv cad ((v1, c1) :: t)
  | _ => false

def gearAddr (r : Nat) : Nat := bits r 128 48
def gearDefault (r : Nat) : Bool := bitAt r 176

/-- Layout and ranges of a gear table (R377), and R376's bound on each TARGET. -/
def gearTableChecks (t : Nat) : List Chk :=
  [ ckZero t 39 1, ckZero t 43 5, ckZero t 64 64,
    ckRange 28 4 (decide (10 < gtLead t)), ckRange 32 7 (decide (90 < gtPct t)),
    ckRange 48 16 (gtMs t == 0 || decide (60000 < gtMs t)) ] ++
  (List.range 8).flatMap (fun g =>
    let b := 128 + 64 * g
    [ ckZero t (b + 26) 6, ckZero t (b + 39) 25,
      ckRange b 16 (decide (gtTarget t g < 950) || decide (1850 < gtTarget t g) ||
        (decide (620 ≤ gtVmax t g) && decide (gtVmax t g ≤ 900) && !reaches (gtVmax t g) (gtTarget t g) cadencePoints)),
      ckRange (b + 16) 10 (decide (gtVmax t g < 620) || decide (900 < gtVmax t g)),
      ckRange (b + 32) 7 (decide (gtShare t g < 50) || decide (100 < gtShare t g)) ])

/-- The table that a record loads. -/
def gearTableOf (s : State) (r : Nat) : Nat := if gearDefault r then s.pwr.bootTable else s.num (gearAddr r) 80

/-- A gear's budget at a cap is below 1,200 W (R376 check 5). -/
def gearOverCap (t cap : Nat) : Bool := (List.range 8).any (fun g => decide (gtShare t g * cap < 120000))

def gearChecks (s : State) (j : Job) (_ : Queue) (r : Nat) : List Chk :=
  let dflt := gearDefault r
  let a := gearAddr r
  [ ckZero (if dflt then r else 0) 128 48, ckZero r 177 335,
    ckAlign 128 48 (!dflt && a % 64 != 0), ckAddr 128 48 (!dflt && !s.inStore a 80),
    ckOwn (!j.admin), ckOwn (!dflt && !j.owns a 80) ] ++
  (if !dflt && a % 64 == 0 && s.inStore a 80 then ofItem 1 (gearTableChecks (s.num a 80)) else [])

def gearLate (s : State) (j : Job) (_ : Queue) (r : Nat) : List Chk :=
  [ State.ckPending j .gearTable, ckCap eCap (gearOverCap (gearTableOf s r) s.pwr.cap) ]

def gearStart (s : State) (j : Job) (q : Queue) (r : Nat) (f : Flight) : Started :=
  startDeferred .gearTable (gearTableOf s r) s j q r f

def gearSpec : CmdSpec :=
  { kind := 0xF0, fetch := always, checks := gearChecks, ready := always, late := gearLate, start := gearStart }

/-- A gear table takes effect, check 5 made again; grants are cleared until the next boundary (R389). -/
def State.applyGear (s : State) (jid : Nat) (d : Deferral) : State :=
  let s := s.dropDeferral jid .gearTable
  if gearOverCap d.data s.pwr.cap then s.secondRecord jid d eCap 0
  else
    let clear (l : Lock) : Lock := { l with grant := 0, lead := 0, withdrawn := true, grants := [], budgets := [], powers := [] }
    ({ s with pwr := { s.pwr with table := d.data }, jobs := s.jobs.map (fun (j : Job) => { j with lock := clear j.lock }) }).secondRecord
      jid d 0 0

/-! ## TIMETABLE_LOAD -/

def ttAddr (r : Nat) : Nat := bits r 128 48
def ttClear (r : Nat) : Bool := bitAt r 176
def ttCount (t : Nat) : Nat := bits t 32 6

/-- A timetable as one number: header, then windows of 16 bytes. -/
def ttWindow (t w : Nat) : Nat := bits t (512 + 128 * w) 128

def wnStart (w : Nat) : Nat := bits w 0 32
def wnJob (w : Nat) : Nat := bits w 32 16
def wnRt (w : Nat) : Bool := bitAt w 48
def wnGuard (w : Nat) : Nat := bits w 64 16

/-- A switch boundary lies before window w, and the window before it is too short (R334). -/
def ttShort (t w : Nat) : Bool :=
  let n := ttCount t
  let p := (w + n - 1) % n
  let len := if w = 0 then bits t 0 32 - wnStart (ttWindow t p) else wnStart (ttWindow t w) - wnStart (ttWindow t p)
  wnJob (ttWindow t w) != wnJob (ttWindow t p) && decide (len < 9000 + wnGuard (ttWindow t w))

/-- Checks on a timetable; a condition between two windows is tested with the later one. -/
def ttChecks (t : Nat) : List Chk :=
  let n := ttCount t
  [ ckZero t 38 26, ckZero t 128 384, ckRange 0 32 (decide (bits t 0 32 < 10000) || decide (10000000 < bits t 0 32)),
    ckRange 32 6 (n == 0 || decide (32 < n)) ] ++
  (List.range n).flatMap (fun w =>
    let x := ttWindow t w
    onItem 0 w
      [ ckZero x 49 15, ckZero x 80 48,
        ckRange 0 32 ((w == 0 && wnStart x != 0) || (w != 0 && decide (wnStart x ≤ wnStart (ttWindow t (w - 1)))) ||
          decide (bits t 0 32 ≤ wnStart x) || (w != 0 && ttShort t w) || (w + 1 == n && ttShort t 0)),
        ckRange 48 1 (wnRt x && wnJob x == 0) ])

def ttReadable (s : State) (a : Nat) : Bool :=
  a % 64 == 0 && s.inStore a 64 && s.inStore a (64 + 16 * ttCount (s.num a 64)) && decide (ttCount (s.num a 64) ≤ 32)

/-- The timetable at an address; one whose windows cannot be read, its header. -/
def ttRead (s : State) (a : Nat) : Nat := if ttReadable s a then s.num a (64 + 16 * ttCount (s.num a 64)) else s.num a 64

def ttLoadChecks (s : State) (j : Job) (_ : Queue) (r : Nat) : List Chk :=
  let a := ttAddr r
  let clear := ttClear r
  let n := if s.inStore a 64 then min 32 (ttCount (s.num a 64)) else 0
  [ ckZero (if clear then r else 0) 128 48, ckZero r 177 335,
    ckAlign 128 48 (!clear && a % 64 != 0), ckAddr 128 48 (!clear && !s.inStore a (64 + 16 * n)),
    ckOwn (!j.admin), ckOwn (!clear && !j.owns a (64 + 16 * n)) ] ++
  (if clear || a % 64 != 0 || !s.inStore a 64 then []
   else ofItem 1 (if ttReadable s a then ttChecks (ttRead s a) else (ttChecks (s.num a 64)).take 4))

def ttLate (_ : State) (j : Job) (_ : Queue) (_ : Nat) : List Chk := [ State.ckPending j .timetable ]

def ttStart (s : State) (j : Job) (q : Queue) (r : Nat) (f : Flight) : Started :=
  startDeferred .timetable (if ttClear r then 0 else ttRead s (ttAddr r)) s j q r f

def ttSpec : CmdSpec :=
  { kind := 0xF1, fetch := always, checks := ttLoadChecks, ready := always, late := ttLate, start := ttStart }

def timetableOf (t : Nat) : Timetable :=
  { frameUs := bits t 0 32, frame0 := bits t 64 64
    windows := (List.range (ttCount t)).map (fun w =>
      let x := ttWindow t w
      { startUs := wnStart x, job := wnJob x, rt := wnRt x, guardUs := wnGuard x }) }

/-! ## Windows and their spans (R331, R334, R336, R337), in units of 10 ns -/

def Timetable.frameLen (t : Timetable) : Nat := t.frameUs * 100

/-- How many major frames have begun at a fabric time (R334); none before FRAME0. -/
def Timetable.frame (t : Timetable) (f : Nat) : Nat := if f < t.frame0 then 0 else (f - t.frame0) / t.frameLen + 1

/-- Time within the frame. -/
def Timetable.phase (t : Timetable) (f : Nat) : Nat := (f + t.frameLen - t.frame0 % t.frameLen) % t.frameLen

def Timetable.win (t : Timetable) (w : Nat) : Window := t.windows.getD w ⟨0, 0, false, 0⟩
def Timetable.before (t : Timetable) (w : Nat) : Nat := (w + t.windows.length - 1) % t.windows.length
def Timetable.after (t : Timetable) (w : Nat) : Nat := (w + 1) % t.windows.length

/-- A switch boundary lies before window w (R334). -/
def Timetable.boundary (t : Timetable) (w : Nat) : Bool := (t.win w).job != (t.win (t.before w)).job

/-- Where the span of window w begins within the frame: at its stop time after a switch boundary, moved earlier by the charge
of the window that it ends, else at its start. -/
def Timetable.opens (t : Timetable) (charges : List (Nat × Nat)) (w : Nat) : Nat :=
  let s := (t.win w).startUs * 100
  if !t.boundary w then s
  else
    let c := ((charges.find? (fun c => c.1 == t.before w)).map (·.2)).getD 0
    (s + 2 * t.frameLen - min (2 * t.frameLen) (900000 + (t.win w).guardUs * 100 + c)) % t.frameLen

/-- Length of the span of window w. -/
def Timetable.span (t : Timetable) (charges : List (Nat × Nat)) (w : Nat) : Nat :=
  let d := (t.opens charges (t.after w) + t.frameLen - t.opens charges w) % t.frameLen
  if d = 0 then t.frameLen else d

/-- The window in force at a fabric time (R331): of all whose span has begun, the one that began last. -/
def Timetable.inForce (t : Timetable) (charges : List (Nat × Nat)) (f : Nat) : Nat :=
  let since (w : Nat) : Nat := (t.phase f + t.frameLen - t.opens charges w) % t.frameLen
  (List.range t.windows.length).foldl (fun b w => if since w < since b then w else b) 0

/-- A timetable takes effect, re-checked (R335). -/
def State.applyTimetable (s : State) (jid : Nat) (d : Deferral) : State :=
  let s := s.dropDeferral jid .timetable
  let rt := s.jobs.filter (fun j => j.admitted && j.cls == 5)
  let put (t : Option Timetable) (w : Nat) : State :=
    { s with sched := { s.sched with table := t, window := w, charges := [], skipped := [], records := [], early := none } }
  if ttClear d.record then
    if rt.isEmpty then (put none 0).secondRecord jid d 0 0 else s.secondRecord jid d eState 0
  else
    let t := timetableOf d.data
    if t.windows.any (fun w => w.rt && s.jobs.any (fun j => j.admitted && j.id == w.job && j.cls != 5)) then
      s.secondRecord jid d eState 0
    else (put (some t) (t.inForce [] s.fabric)).secondRecord jid d 0 0

/-! ## SCHED_POLICY_SET at the step boundary (R225) -/

/-- The policy takes effect; the whole sequence of the next step follows it. -/
def State.applyPolicy (s : State) (jid : Nat) (d : Deferral) : State :=
  let s := s.dropDeferral jid .schedPolicy
  let p := bits d.record 128 2
  let ib := bits d.record 132 5
  if (s.job? jid).all (fun j => policyUnfit j p ib) then s.secondRecord jid d eState 0
  else (s.updPipe jid (fun x => { x with policy := p, iblock := ib })).secondRecord jid d 0 0

end Sys2Proof.Machine
end

