-- ==== Sys2Proof/Machine/Boundary.lean ====
section
/-! DEFINITION. The step boundary (R231), the stage status record (R249, R250), and the step's lag (R369). -/
namespace Sys2Proof.Machine

/-- The gate admits the boundary: under NORM_WAIT it is OPEN or SKIP (R231 condition 2); under HOLD the boundary does not come
(R248). -/
def gateReady (j : Job) : Bool :=
  decide (j.numerics.gate ≠ Gate.hold) && (!j.strand.pipe.normWait || decide (j.numerics.gate ≠ Gate.undecided))

/-- A stage's items of the present step are complete (R231 condition 1). -/
def stageDone (p : Pipe) (t : Stage) : Bool :=
  let n := p.base + p.mbPerStep
  if p.fwdOnly then decide (n ≤ t.fDone) else decide (n ≤ t.wDone) && t.optDone == t.optGroups

/-- The conditions of R231. -/
def boundaryHere (s : State) (j : Job) : Bool :=
  let p := j.strand.pipe
  decide (p.st = PipeState.running) && j.strand.stages.all (stageDone p) && gateReady j &&
  ctrGe (s.ctr p.stepCtr) (BitVec.ofNat 32 (p.steps + 1))

/-- Flag of R250, of a group in a step of `span` beats. -/
def GroupBeats.critical (b : GroupBeats) (span : Nat) : Bool := decide (32 * (b.waitIn + b.waitCredit) < span)

/-- The stage status record (R249). -/
def statusRecord (t : Stage) (step : Nat) (b : GroupBeats) (critical : Bool) : Nat :=
  let beats (n : Nat) : Nat := min n 0xFFFFFFFF
  place 0 32 step + place 32 32 (beats b.busy) + place 64 32 (beats b.waitIn) + place 96 32 (beats b.waitCredit) +
  place 128 32 (beats b.waitStep) +
  place 160 16 t.poisonCnt + place 176 3 t.cur + place 179 1 (boolNat critical) + place 192 16 (t.slot t.cur).num +
  place 208 8 (countIf (fun v => decide (v.st = VerState.held)) t.slots)

namespace State

/-- Status records of a group's stages, with its critical flag. -/
def reportGroup (s : State) (jid : Nat) (g : Group) (step : Nat) : State :=
  match s.job? jid with
  | none => s
  | some j =>
    let critical := g.beats.critical j.strand.pipe.span
    (j.groupStages g.id).foldl (fun s t =>
      let s := s.store t.statusAddr (leBytes 64 (statusRecord t step g.beats critical))
      s.updJob jid (fun j => j.setStage { t with critical := critical, poisonCnt := 0 })) s

/-- The records of every group, and whether one of them is critical. -/
def reportGroups (s : State) (j : Job) (step : Nat) : State × Bool :=
  (j.strand.groups.foldl (fun s g => s.reportGroup j.id g step) s,
    j.strand.groups.any (fun g => g.beats.critical j.strand.pipe.span))

/-- Deferrals whose boundary is a step boundary of the running job (R62), in the order in which they were accepted. -/
def applyAtStep (s : State) (jid : Nat) : State :=
  let gearHere := s.sched.table.isNone && (s.job? jid).any (fun j => !j.strand.pipe.fwdOnly)
  s.jobs.foldl (fun s j => j.deferrals.foldl (fun s d =>
    match d.kind with
    | .schedPolicy => if j.id = jid then s.applyPolicy jid d else s
    | .gearTable => if gearHere then s.applyGear j.id d else s
    | _ => s) s) s

/-- The lag of the closed step (R369): a module that has lagged long enough reports itself to the lead. -/
def judgeLag (s : State) (jid step : Nat) : State :=
  match s.job? jid with
  | none => s
  | some j =>
    let l := j.lock
    let d := j.locket.desc
    let fresh (l : Lock) : Lock := { l with cadSum := 0, setSum := 0 }
    if !j.locket.bound || j.recov.active then s.updJob jid (fun j => { j with lock := fresh j.lock })
    else if l.excuse ≠ 0 then s.updJob jid (fun j => { j with lock := fresh { j.lock with excuse := j.lock.excuse - 1 } })
    else
      let lags := decide (lStragPct d * l.setSum < 100 * (l.setSum - l.cadSum))
      let n := if lags then l.lagging + 1 else 0
      let report := decide (lStragSteps d ≤ n)
      let s := s.updJob jid (fun j => { j with lock := fresh { j.lock with lagging := if report then 0 else n } })
      if report then s.send (s.reportTo j s.mod.id) (.stragglerReport s.mod.id jid step) else s

/-- What follows in the job's Strand state: the next step begins. -/
def nextStep (s : State) (jid : Nat) : State :=
  s.updJob jid (fun j =>
    let p := j.strand.pipe
    let step := p.step
    let old (n : Nat) : Bool := p.stepOf n == step
    { j with
      strand := { j.strand with
        stages := j.strand.stages.map (fun (t : Stage) => { t with
          optNext := 0, optDone := 0, binds := t.binds.filter (fun b => !old b.1), poisonMb := t.poisonMb.filter (fun n => !old n) })
        groups := j.strand.groups.map (fun (g : Group) =>
          { (if p.overlap then g else { g with fwd := 0, bwd := 0 }) with beats := {} })
        pipe := { p with steps := p.steps + 1, span := 0, replay := false, restored := false } }
      numerics := { (if j.numerics.gate = Gate.undecided then j.numerics.clearCounts else j.numerics) with gate := .undecided } })

end State

/-- STEP_BOUNDARY: slots, step pins, status records and critical flags, deferrals, the gate, the next step (R231). -/
def stepBoundary (s : State) : State :=
  match strandJob s with
  | none => s
  | some j =>
    if !boundaryHere s j then s
    else
      let step := j.strand.pipe.step
      let s := (s.updateSlots j).unpin j.id step
      let (s, critical) := s.reportGroups j step
      let s := s.updJob j.id (fun j => { j with lock := { j.lock with
        critical := critical, ask := critical, grant := 0, lead := 0, withdrawn := false, grants := [], budgets := [], powers := [] } })
      let s := (s.applyAtStep j.id).judgeLag j.id step
      s.nextStep j.id

def execStepBoundary (s : State) : Host.Outcome State Fault Refusal := done s (stepBoundary s)

end Sys2Proof.Machine
end

