-- ==== Sys2Proof/Machine/Vector.lean ====
section
/-! DEFINITION. The vector engine (R124-R144): VPROG_LOAD, VRUN, and one meaning for each vector instruction. -/
namespace Sys2Proof.Machine

/-! ## The instruction word (R134, R135) -/

def wOp (w : Nat) : Nat := bits w 0 8
def wVd (w : Nat) : Nat := bits w 8 5
def wVa (w : Nat) : Nat := bits w 13 5
def wVb (w : Nat) : Nat := bits w 18 5
def wVc (w : Nat) : Nat := bits w 23 5
def wMsk (w : Nat) : Nat := bits w 28 3
def wMen (w : Nat) : Bool := bitAt w 31
def wStream (w : Nat) : Nat := bits w 32 2
def wFmt (w : Nat) : Nat := bits w 34 5
def wMode (w : Nat) : Nat := bits w 39 2
def wKsel (w : Nat) : Nat := bits w 41 2
def wK (w : Nat) : Nat := bits w 43 8
def wOff (w : Nat) : Nat := bits w 51 13

def vecOps : List Nat :=
  [0x00, 0x01, 0x02, 0x03, 0x04, 0x05, 0x06, 0x10, 0x11, 0x12, 0x13, 0x14, 0x15, 0x16, 0x17, 0x18, 0x19, 0x1A, 0x1B, 0x1C,
   0x1D, 0x1E, 0x20, 0x21, 0x22, 0x28, 0x29, 0x30, 0x31, 0x32, 0x33, 0x34, 0x38, 0x39]

/-- Opcodes with one source, two sources, three sources. -/
def usesA (op : Nat) : Bool := !inList op [0x00, 0x01, 0x02, 0x05, 0x18] && inList op vecOps
def usesB (op : Nat) : Bool :=
  inList op [0x10, 0x11, 0x12, 0x13, 0x14, 0x15, 0x19, 0x1C, 0x1D, 0x1E, 0x20, 0x21, 0x22, 0x28, 0x29]
def usesC (op : Nat) : Bool := inList op [0x13, 0x1E, 0x22]
def usesD (op : Nat) : Bool := !inList op [0x00, 0x03, 0x04, 0x06] && inList op vecOps

/-- Bits of the word that an opcode does not use, as reserved ranges in ascending order (R134, R135). DESIGN CHOICE (log 162): VNOP and MLOGIC
(0x29) do not use MSK and MEN, so bits 28-31 are reserved there. -/
def wordReserved (op : Nat) : List (Nat × Nat) :=
  (if usesD op then (if op = 0x28 || op = 0x29 then [(11, 2)] else []) else [(8, 5)]) ++
  (if usesA op then (if op = 0x29 then [(16, 2)] else []) else [(13, 5)]) ++
  (if usesB op then (if op = 0x29 then [(21, 2)] else []) else [(18, 5)]) ++
  (if usesC op then [] else [(23, 5)]) ++
  (if op = 0x00 || op = 0x29 then [(28, 3), (31, 1)] else []) ++
  (match op with
    | 0x01 => [(39, 2)]
    | 0x02 => [(34, 17)]
    | 0x03 => []
    | 0x04 => [(34, 17)]
    | 0x05 => [(32, 19), (61, 3)]
    | 0x06 => [(32, 19), (61, 3)]
    | 0x18 => []
    | 0x19 => [(35, 29)]
    | 0x1B => [(40, 24)]
    | 0x20 => [(33, 31)]
    | 0x21 => [(33, 31)]
    | 0x22 => [(33, 31)]
    | 0x28 => [(35, 29)]
    | 0x29 => [(34, 30)]
    | _ => [(32, 32)])

/-- Checks of one instruction word (R134-R137), in the passes of R429. -/
def wordChecks (w : Nat) : List Chk :=
  let op := wOp w
  let mem := op == 0x01 || op == 0x03
  (if inList op vecOps then (wordReserved op).map (fun p => ckZero w p.1 p.2) else []) ++
  [ ckEnum 0 8 (!inList op vecOps),
    ckEnum 32 3 (op == 0x28 && decide (5 < bits w 32 3)),
    ckEnum 34 5 (mem && !fmtListed (wFmt w)),
    ckEnum 39 2 (op == 0x03 && wMode w == 3),
    ckEnum 41 2 (mem && wKsel w == 3),
    ckRange 31 1 (op == 0x03 && fmtBlock (wFmt w) && wMen w),
    ckRange 41 2 (mem && wKsel w != 0 && !fmtScaled (wFmt w)),
    ckRange 43 8 (mem && (wK w == 0x80 || (wK w != 0 && (wKsel w != 0 || !fmtScaled (wFmt w))))),
    ckFmt 39 2 (op == 0x03 && wMode w == 2 && !fmtSr (wFmt w)) ]

/-- The first failure among instruction words: each pass covers every word before the next begins (R429), and ARG names the word (R129). -/
def firstBadWord (ws : List Nat) : Option Fail :=
  firstFail (((List.range ws.length).zip ws).flatMap (fun p => onItem (p.1 * 2 ^ 16 + 2 ^ 31) 0xFFFF (wordChecks p.2))) 0 6

/-! ## VPROG_LOAD (R128-R130) -/

def vpChecks (_ : State) (_ : Job) (_ : Queue) (r : Nat) : List Chk :=
  let start := bits r 128 8
  let n := bits r 136 9
  [ ckZero r 145 15, ckZero r 182 330,
    ckRange 128 8 (decide (256 < start + n)), ckRange 136 9 (n == 0 || decide (256 < n)),
    ckAlign 160 22 (bits r 160 22 % 8 != 0),
    ckAddr 160 22 (decide (0x400000 < bits r 160 22 + 8 * n)) ]

def vpWords (s : State) (q : Queue) (r : Nat) : List Nat :=
  (List.range (bits r 136 9)).map (fun i => s.num (State.scratchAddr q.ref.inst (bits r 160 22 + 8 * i)) 8)

/-- The words are checked when the command executes (R129). DESIGN CHOICE (log 165): checked as memory holds them; beside an unordered write in
flight the words copied are those that the command sees (R101). -/
def vpLate (s : State) (_ : Job) (q : Queue) (r : Nat) : List Chk :=
  match firstBadWord (vpWords s q r) with
  | some f => [{ pass := 7, bad := true, code := f.code, arg := f.arg, row := f.row }]
  | none => []

def vpNeed (q : Queue) (r : Nat) : Need :=
  { paths := pVxe + pRead, reads := [scratchSpan q.ref.inst (bits r 160 22, 8 * bits r 136 9)], span := [] }

/-- Words copied into a tile's instruction store. -/
def storeWords (l : List (Nat × BitVec 64)) (base : Nat) : List Nat → List (Nat × BitVec 64)
  | [] => l
  | w :: ws => storeWords (sput 0 l base (BitVec.ofNat 64 w)) (base + 1) ws

def vpStart (s : State) (_ : Job) (q : Queue) (r : Nat) (f : Flight) : Started :=
  let st := storeWords s.tiles.istore (q.ref.inst * 256 + bits r 128 8) (vpWords s q r)
  ⟨{ s with tiles := { s.tiles with istore := st } },
    { withNeed f (vpNeed q r) with res := { beats := some (ceilDiv (bits r 136 9) 64 + 4) } }, false⟩

def vpSpec : CmdSpec :=
  { kind := 0x20, fetch := always, checks := vpChecks, ready := fun _ _ q r => interlockFree q (vpNeed q r),
    late := vpLate, start := vpStart }

/-! ## VRUN (R131-R133) -/

/-- Fields of stream k of a VRUN: lowest bits of BASE, POS0 and STEP. -/
def streamBits (k : Nat) : Nat × Nat × Nat := (240 + 66 * k, 262 + 66 * k, 286 + 66 * k)
def sBase (r k : Nat) : Nat := bits r (streamBits k).1 22
def sPos (r k : Nat) : Nat := bits r (streamBits k).2.1 24
def sStep (r k : Nat) : Int := sbits r (streamBits k).2.2 20

/-- First element index of a scratch access at iteration i (R136). -/
def elemAt (r w i : Nat) : Int := (sPos r (wStream w) : Int) + i * sStep r (wStream w) + 32 * (wOff w : Int)

/-- Accumulator row at iteration i (R136). -/
def rowAt (r w i : Nat) : Int := (bits r 162 10 : Int) + i * sbits r 172 11 + (bits w 51 10 : Int)

def vrProgram (s : State) (tile r : Nat) : List Nat :=
  (List.range (bits r 136 9)).map (fun i => (sget 0 s.tiles.istore (tile * 256 + bits r 128 8 + i)).toNat)

def isScratch (op : Nat) : Bool := decide (1 ≤ op) && decide (op ≤ 4)
def isRowOp (op : Nat) : Bool := op == 5 || op == 6

/-- Format of a scratch access: BF16 for the raw 16-bit ones. -/
def accFmt (w : Nat) : Nat := if wOp w = 2 || wOp w = 4 then 2 else wFmt w
def accCount (w : Nat) : Nat := if wOp w = 2 || wOp w = 4 then 128 else 64

/-- Byte alignment of a scalar stream's base. -/
def baseAlign (c : Nat) : Nat := if fmtBlock c || c = 1 then 64 else max 1 (fmtWidth c / 8)

/-- Elements to which a first index must be aligned. -/
def indexAlign (c : Nat) : Nat := if fmtBlock c then 32 else if fmtWidth c = 4 then 2 else 1

/-- Checks of R132 on one memory instruction, number p of the program: made with the word, as the later item, also where the field named lies
in the record (R429). -/
def vrWordChecks (s : State) (j : Job) (r w p : Nat) : List Chk :=
  let op := wOp w
  let n := bits r 146 16
  let inWord := p * 2 ^ 16 + 2 ^ 31
  let k := wStream w
  let c := accFmt w
  if isRowOp op then
    let bad (i : Nat) := decide (rowAt r w i < 0) || decide (1023 < rowAt r w i)
    onItem inWord 0xFFFF [ckRange 51 10 (bad 0 || bad (n - 1))]
  else if isScratch op then
    let e0 := elemAt r w 0
    let e1 := elemAt r w (n - 1)
    let (b, po, _) := streamBits k
    let out (e : Int) := decide (e < 0) || decide (0x400000 < sBase r k + tensorEnd c (e.toNat + accCount w - 1))
    let sel := if op = 1 || op = 3 then wKsel w else 0
    let slot := if sel = 1 then bits r 183 12 else bits r 195 12
    ofItem (1 + p) [ ckAlign b 22 (sBase r k % baseAlign c != 0),
      ckAlign po 24 (e0 % (indexAlign c : Int) != 0 || e1 % (indexAlign c : Int) != 0),
      ckAddr po 24 (out e0 || out e1),
      ckFmt (if sel = 1 then 183 else 195) 12 (sel != 0 && badSlotFmt s j true slot (wFmt w)),
      ckOwn (sel != 0 && !j.ownsSlot slot) ]
  else []

def selects (prog : List Nat) (sel : Nat) : Bool := prog.any (fun w => (wOp w == 1 || wOp w == 3) && wKsel w == sel)

def vrChecks (s : State) (j : Job) (q : Queue) (r : Nat) : List Chk :=
  let start := bits r 128 8
  let len := bits r 136 9
  let ok := decide (0 < len) && decide (start + len ≤ 256)
  let prog := if ok then vrProgram s q.ref.inst r else []
  [ ckZero r 207 1, ckZero r 504 8,
    ckRange 128 8 (decide (256 < start + len)), ckRange 136 9 (len == 0), ckRange 146 16 (bits r 146 16 == 0),
    ckRange 183 12 (bits r 183 12 != 0 && !selects prog 1), ckRange 195 12 (bits r 195 12 != 0 && !selects prog 2) ] ++
  ((List.range prog.length).zip prog).flatMap (fun p => vrWordChecks s j r p.2 p.1)

/-- Scratch bytes of one access at one iteration, of the lanes given (R136). -/
def accSpans (r w i : Nat) (lanes : List Nat) : List (Nat × Nat) :=
  let c := accFmt w
  let e := (elemAt r w i).toNat
  let whole := lanes.length == accCount w
  (if whole then elemSpans c e (accCount w) else joinSpans (lanes.flatMap (fun q => elemSpans c (e + q) 1))).map
    (fun p => (sBase r (wStream w) + p.1, p.2))

/-- Paths and footprint of a VRUN: every byte and row that its accesses name at any iteration, whatever its masks will be (R133). -/
def vrNeed (s : State) (q : Queue) (r : Nat) : Need :=
  let t := q.ref.inst
  let prog := vrProgram s t r
  let has (l : List Nat) := prog.any (fun w => inList (wOp w) l)
  let at_ (w i : Nat) :=
    if isRowOp (wOp w) then [(State.accAddr t (rowAt r w i).toNat 0, 256)]
    else (accSpans r w i (List.range (accCount w))).map (scratchSpan t)
  let spans (l : List Nat) := (prog.filter (fun w => inList (wOp w) l)).flatMap (fun w =>
    joinSpans ((List.range (bits r 146 16)).flatMap (at_ w)))
  { paths := pVxe + (if has [1, 2] then pRead else 0) + (if has [3, 4] then pWrite else 0) +
      (if has [5, 6] then pRow else 0)
    reads := spans [1, 2, 5]
    span := spans [3, 4, 6] }

/-- A VRUN is fetched only after every earlier VPROG_LOAD of its list has completed (R130). -/
def vrFetch (_ : State) (_ : Job) (q : Queue) (_ : Nat) : Bool :=
  q.flight.all (fun f => !(hKind f.record == 0x20 && f.listId == ((q.lists.head?.map (·.id)).getD 0)))

def vrStart (s : State) (_ : Job) (q : Queue) (r : Nat) (f : Flight) : Started :=
  ⟨s, { withNeed f (vrNeed s q r) with
    op := .vrun { tile := q.ref.inst, k0 := (s.slot (bits r 183 12)).k, k1 := (s.slot (bits r 195 12)).k } }, false⟩

def vrSpec : CmdSpec :=
  { kind := 0x21, fetch := vrFetch, checks := vrChecks, ready := fun s _ q r => interlockFree q (vrNeed s q r),
    late := noChecks, start := vrStart }

/-! ## Registers and masks (R124, R125, R142) -/

/-- The 64 lanes of a register. -/
def vreg (s : State) (tile v : Nat) : List Nat :=
  (List.range 64).map (fun i => (sget 0 s.tiles.vregs ((tile * 32 + v) * 64 + i)).toNat)

def setLanes (l : List (Nat × Lane)) (base : Nat) : List (Nat × Nat) → List (Nat × Lane)
  | [] => l
  | (i, x) :: t => setLanes (sput 0 l (base + i) (BitVec.ofNat 40 x)) base t

/-- Lanes of a register written. -/
def putReg (s : State) (tile v : Nat) (xs : List (Nat × Nat)) : State :=
  { s with tiles := { s.tiles with vregs := setLanes s.tiles.vregs ((tile * 32 + v) * 64) xs } }

def maskReg (s : State) (tile m : Nat) : BitVec 128 := sget 0 s.tiles.masks (tile * 8 + m)

def putMask (s : State) (tile m : Nat) (x : BitVec 128) : State :=
  { s with tiles := { s.tiles with masks := sput 0 s.tiles.masks (tile * 8 + m) x } }

/-- Whether lane i takes part (R142). -/
def active (s : State) (tile w i : Nat) : Bool := !wMen w || (maskReg s tile (wMsk w)).getLsbD i

/-- The active lanes among the first n. -/
def activeLanes (s : State) (tile w n : Nat) : List Nat := (List.range n).filter (active s tile w)

/-- Packed lane j of a lane list. -/
def packedLane (xs : List Nat) (j : Nat) : Nat := bits (xs.getD (j / 2) 0) (if j % 2 = 0 then 8 else 24) 16

/-- Lanes that packed values make, lanes not listed kept; bits [7:0] zero. -/
def packLanes (old : List Nat) (ps : List (Nat × Nat)) : List (Nat × Nat) :=
  (List.range 64).filterMap (fun i =>
    let lo := (ps.find? (fun p => p.1 == 2 * i)).map (·.2)
    let hi := (ps.find? (fun p => p.1 == 2 * i + 1)).map (·.2)
    if lo.isNone && hi.isNone then none
    else some (i, lo.getD (packedLane old (2 * i)) * 256 + hi.getD (packedLane old (2 * i + 1)) * 2 ^ 24))

/-! ## The scoreboard (R135, R143) -/

def vIssue (w : Nat) : Nat :=
  let op := wOp w
  if op = 3 then (if wFmt w = 1 then 2 else 1)
  else if inList op [0x1C, 0x1D, 0x1E, 0x31, 0x34, 0x38, 0x39] then 2 else 1

/-- Latency (R135). DESIGN CHOICE (log 162): 1 for VNOP, for which the table has a dash. -/
def vLatency (w : Nat) : Nat :=
  let op := wOp w
  if op = 0 then 1
  else if op = 1 || op = 2 then 3
  else if op = 3 || op = 4 || op = 6 then 2
  else if inList op [0x1C, 0x1D, 0x1E, 0x38, 0x39] then 6 else 4

/-- Resources an instruction reads at iteration i: registers, masks, the scratch bytes of all lanes, whatever its mask (R142), rows. -/
def vReads (r w i : Nat) : List (Nat × Nat × Nat) :=
  let op := wOp w
  (if op = 0x29 then [(1, wVa w % 8, 1), (1, wVb w % 8, 1)]
   else (if usesA op then [(0, wVa w, 1)] else []) ++ (if usesB op then [(0, wVb w, 1)] else []) ++
     (if usesC op then [(0, wVc w, 1)] else [])) ++
  (if wMen w then [(1, wMsk w, 1)] else []) ++ (if op = 0x19 then [(1, bits w 32 3, 1)] else []) ++
  (if op = 1 || op = 2 then (accSpans r w i (List.range (accCount w))).map (fun p => (2, p)) else []) ++ (if op = 5 then [(3, (rowAt r w i).toNat, 1)] else [])

/-- Resources it writes: a register, a mask, the scratch bytes of its active lanes, a row. -/
def vWrites (r w i : Nat) (lanes : List Nat) : List (Nat × Nat × Nat) :=
  let op := wOp w
  if op = 0x28 || op = 0x29 then [(1, wVd w % 8, 1)]
  else if op = 3 || op = 4 then (accSpans r w i lanes).map (fun p => (2, p))
  else if op = 6 then [(3, (rowAt r w i).toNat, 1)]
  else if usesD op then [(0, wVd w, 1)] else []

/-- The beat at which an instruction issues on the lanes given, and the run after its issue. A write under a mask keeps what an older
write has not yet made ready. -/
def vTime (v : VRun) (r w : Nat) (lanes : List Nat) : VRun :=
  let i := v.iter
  let need := (v.ready.filter (fun x => (vReads r w i).any (fun y => y.1 == x.kind && overlaps x.lo x.len y.2.1 y.2.2))).map (·.beat)
  let at_ := need.foldl max v.slot
  let fin := at_ + vLatency w
  let fresh := (vWrites r w i lanes).map (fun y => (⟨y.1, y.2.1, y.2.2, fin⟩ : Ready))
  { v with slot := at_ + vIssue w, last := fin, ready := fresh ++ v.ready.filter (fun x => decide (at_ < x.beat) &&
      (wMen w || !fresh.any (fun y => y.kind == x.kind && y.lo == x.lo && y.len == x.len))) }

/-! ## Issue of one instruction (R138, R142, R143) -/

/-- What an instruction does at its issue: the state, its flags, the amax of a slot-fed store, the spans it stores. -/
structure VEff where
  s     : State
  flags : NumFlags := {}
  spans : List (Nat × Nat) := []

/-- The VRUN in progress on a tile: its queue and its flight's place. -/
def vrunOf (s : State) (tile : Nat) : Option (Job × Queue × Nat × Flight × VRun) :=
  (if dieHeld s (tile / 64) then none else s.runJob).bind (fun j => (j.queue? ⟨0, tile, 0⟩).bind (fun q =>
    ((List.range q.flight.length).zip q.flight).findSome? (fun p =>
      match p.2.op with
      | .vrun v => if v.iter < bits p.2.record 146 16 then some (j, q, p.1, p.2, v) else none
      | _ => none)))

/-- After the last instruction of the last iteration the run's result fields stand in its flight. -/
def vFinish (f : Flight) (v : VRun) : Flight :=
  let r := f.record
  if v.iter < bits r 146 16 then { f with op := .vrun v }
  else
    { f with
      op := .vrun v
      res := resOfFlags v.flags (v.last + 12)
      amax := (if v.amax0.1 = 0 then [] else [(bits r 183 12, amaxCode v.amax0)]) ++
        (if v.amax1.1 = 0 then [] else [(bits r 195 12, amaxCode v.amax1)]) }

/-- The effect of an instruction at its issue: a load reads memory as it sees it beside Movers' writes in flight (R101). -/
def vecEffect (s : State) (j : Job) (q : Queue) (op : Nat) (eff : State → VEff) : VEff :=
  match if inList op [0x01, 0x02, 0x05] then racing j q.ref else [] with
  | [] => eff s
  | ws =>
    let e := eff (s.seen ws)
    { e with s := { e.s with mem := s.mem } }

/-- Movers' commands in flight keep what the spans of a store held in memory `old` (R101). -/
def State.tearStores (s : State) (old : Memory) (jid : Nat) (spans : List (Nat × Nat)) : State :=
  if spans.isEmpty then s else { ({ s with mem := old }.tear jid engTile spans) with mem := s.mem }

/-- The next instruction of a tile's VRUN, when it is one of the opcodes given: its effect, and the run moved on. -/
def vecIssue (ops : List Nat) (tile : Nat) (eff : State → Nat → Nat → VRun → VEff) (s : State) : State :=
  match vrunOf s tile with
  | none => s
  | some (j, q, i, f, v) =>
    let r := f.record
    let w := (sget 0 s.tiles.istore (tile * 256 + bits r 128 8 + v.pc)).toNat
    if !inList (wOp w) ops then s
    else
      let e := vecEffect s j q (wOp w) (fun s => eff s r w v)
      let wrap := decide (bits r 136 9 ≤ v.pc + 1)
      let sel := if wOp w = 3 then wKsel w else 0
      let v := vTime v r w (activeLanes s tile w (accCount w))
      let top (sl : Nat) (a : Nat × Int) : Nat × Int := if sel = sl then ({ amax := a } : NumFlags).join e.flags |>.amax else a
      let v := { v with
        pc := if wrap then 0 else v.pc + 1
        iter := if wrap then v.iter + 1 else v.iter
        flags := v.flags.join e.flags
        amax0 := top 1 v.amax0
        amax1 := top 2 v.amax1
        stores := v.stores ++ e.spans }
      let t := e.s.tearStores s.mem j.id e.spans
      (t.updJob j.id (fun j => j.setQueue { q with flight := q.flight.set i (vFinish f v) })).noteSpans j.id f.item e.spans

/-- NAN_ROW and NAN_COL of a lane's result (R141). -/
def vCoord (v : VRun) (lane : Nat) : Nat × Nat := (v.iter, lane + 128 * v.pc)

def w40Val (x : Nat) : Val := decodeFp w40 x

/-- A lane-wise instruction: each active lane's new value and flags. -/
def laneOp (tile : Nat) (f : State → Nat → Nat → Nat × Bool × Bool) (s : State) (_r w : Nat) (v : VRun) : VEff :=
  let ls := (activeLanes s tile w 64).map (fun i => (i, f s w i))
  { s := putReg s tile (wVd w) (ls.map (fun p => (p.1, p.2.1)))
    flags := ls.foldl (fun (fl : NumFlags) p =>
      let c := vCoord v p.1
      fl.join (NumFlags.ofArith p.2.2.1 p.2.2.2 p.2.2.1 c.1 c.2)) NumFlags.none }

/-- Rounding of an arithmetic result into a lane: FP32 in bits [39:8], or W40 (R139). -/
def laneRound (wide : Bool) (x : Val × Bool) : Nat × Bool × Bool :=
  let c := toFp (if wide then w40 else fp32) 0 0 x.1
  (if wide then c.code else c.code * 256, x.2, c.ovf && x.1.isFin)

/-- Lane-wise arithmetic on the lane values of A, B and C. -/
def arith (tile : Nat) (wide : Bool) (f : Val → Val → Val → Val × Bool) (s : State) (r w : Nat) (v : VRun) : VEff :=
  let a := vreg s tile (wVa w)
  let b := vreg s tile (wVb w)
  let c := vreg s tile (wVc w)
  laneOp tile (fun _ _ i => laneRound wide (f (w40Val (a.getD i 0)) (w40Val (b.getD i 0)) (w40Val (c.getD i 0)))) s r w v

/-- Lane-wise move of a 40-bit lane value. -/
def laneMove (tile : Nat) (f : State → Nat → Nat → Nat) (s : State) (r w : Nat) (v : VRun) : VEff :=
  laneOp tile (fun s w i => (f s w i, false, false)) s r w v

/-- Packed 16-bit arithmetic (R135, R139). -/
def packed (tile : Nat) (f : Val → Val → Val → Val × Bool) (s : State) (_r w : Nat) (v : VRun) : VEff :=
  let fmt := if bitAt w 32 then fp16 else bf16
  let a := vreg s tile (wVa w)
  let b := vreg s tile (wVb w)
  let c := vreg s tile (wVc w)
  let ps := (activeLanes s tile w 128).map (fun j =>
    let x := f (decodeFp fmt (packedLane a j)) (decodeFp fmt (packedLane b j)) (decodeFp fmt (packedLane c j))
    let y := toFp fmt 0 0 x.1
    (j, y.code, x.2, y.ovf && x.1.isFin))
  { s := putReg s tile (wVd w) (packLanes (vreg s tile (wVd w)) (ps.map (fun p => (p.1, p.2.1))))
    flags := ps.foldl (fun (fl : NumFlags) p =>
      let k := vCoord v p.1
      fl.join (NumFlags.ofArith p.2.2.1 p.2.2.2 p.2.2.1 k.1 k.2)) NumFlags.none }

/-- The scale exponent of a memory instruction (R134, R148). -/
def memK (w : Nat) (v : VRun) : Int :=
  match wKsel w with
  | 1 => v.k0
  | 2 => v.k1
  | _ => sbits w 43 8

def effVld (tile : Nat) (s : State) (r w : Nat) (v : VRun) : VEff :=
  let e := (elemAt r w v.iter).toNat
  let vs := readElems s.mem (State.scratchAddr tile (sBase r (wStream w))) (wFmt w) e 64 (memK w v)
  laneOp tile (fun _ _ i =>
    let x := vs.getD i Val.zero
    let c := toFp w40 0 0 x
    (c.code, false, c.ovf && x.isFin)) s r w v

def effVldh (tile : Nat) (s : State) (r w : Nat) (v : VRun) : VEff :=
  let e := (elemAt r w v.iter).toNat
  let x := s.num (State.scratchAddr tile (sBase r (wStream w) + 2 * e)) 256
  { s := putReg s tile (wVd w) (packLanes (vreg s tile (wVd w))
      ((activeLanes s tile w 128).map (fun j => (j, bits x (16 * j) 16)))) }

def spansOf (ws : List (Nat × Bytes)) : List (Nat × Nat) := ws.map (fun p => (p.1, p.2.length))

/-- VST (R137). DESIGN CHOICE (log 118): a W40 tensor that a stream of stores writes has no last element that the command knows, so a
store writes its active lanes and leaves the rest of a block of 64 as it was. -/
def effVst (tile : Nat) (s : State) (r w : Nat) (v : VRun) : VEff :=
  let e := (elemAt r w v.iter).toNat
  let base := State.scratchAddr tile (sBase r (wStream w))
  let a := vreg s tile (wVa w)
  let o : OutSpec := ⟨wFmt w, wMode w, bits r 208 32, memK w v⟩
  let out :=
    if fmtBlock (wFmt w) then convBlocks base o e 3 ((List.range 64).map (fun i => (vCoord v i, w40Val (a.getD i 0))))
    else convScalars s.mem base o ((activeLanes s tile w 64).map (fun i => (e + i, e + i, vCoord v i, w40Val (a.getD i 0))))
  { s := s.writes out.1, flags := out.2, spans := spansOf out.1 }

def effVsth (tile : Nat) (s : State) (r w : Nat) (v : VRun) : VEff :=
  let e := (elemAt r w v.iter).toNat
  let a := vreg s tile (wVa w)
  let ws := coalesce ((activeLanes s tile w 128).map (fun j =>
    (State.scratchAddr tile (sBase r (wStream w) + 2 * (e + j)), leBytes 2 (packedLane a j))))
  { s := s.writes ws, spans := spansOf ws }

def effVlda (tile : Nat) (s : State) (r w : Nat) (v : VRun) : VEff :=
  let x := s.num (State.accAddr tile (rowAt r w v.iter).toNat 0) 256
  laneMove tile (fun _ _ i => bits x (32 * i) 32 * 256) s r w v

def effVsta (tile : Nat) (s : State) (r w : Nat) (v : VRun) : VEff :=
  let a := vreg s tile (wVa w)
  let ws := coalesce ((activeLanes s tile w 64).map (fun i =>
    (State.accAddr tile (rowAt r w v.iter).toNat i, leBytes 4 (bits (a.getD i 0) 8 32))))
  { s := s.writes ws, spans := spansOf ws }

/-- A sign operation: exact, NaN canonical (R93, R135). -/
def signOp (tile : Nat) (f : Nat → Nat) (s : State) (r w : Nat) (v : VRun) : VEff :=
  let a := vreg s tile (wVa w)
  laneMove tile (fun _ _ i => let x := a.getD i 0; if (w40Val x).isNan then w40.nanCode else f x) s r w v

/-- VSEL (R135). DESIGN CHOICE (log 118): it copies the 40 bits of a lane, those of a NaN with a payload too, since it computes no
value; R137 lists the raw memory instructions, and R93 speaks of a NaN that is written as a result. -/
def effVsel (tile : Nat) (s : State) (r w : Nat) (v : VRun) : VEff :=
  let a := vreg s tile (wVa w)
  let b := vreg s tile (wVb w)
  let m := maskReg s tile (bits w 32 3)
  laneMove tile (fun _ _ i => if m.getLsbD i then a.getD i 0 else b.getD i 0) s r w v

/-- Condition of VCMP on an order (R135). -/
def vcmpHolds (c : Nat) (o : Option Ordering) : Bool :=
  match o with
  | none => c == 1
  | some o =>
    match c with
    | 0 => decide (o = .eq)
    | 1 => decide (o ≠ .eq)
    | 2 => decide (o = .lt)
    | 3 => decide (o ≠ .gt)
    | 4 => decide (o = .gt)
    | _ => decide (o ≠ .lt)

def maskOf (l : List Nat) : BitVec 128 := BitVec.ofNat 128 (l.foldl (fun x i => x + 2 ^ i) 0)

def effVcmp (tile : Nat) (s : State) (_r w : Nat) (_ : VRun) : VEff :=
  let a := vreg s tile (wVa w)
  let b := vreg s tile (wVb w)
  let old := maskReg s tile (wVd w % 8)
  let on := (List.range 64).filter (fun i =>
    if active s tile w i then vcmpHolds (bits w 32 3) (cmpVal (w40Val (a.getD i 0)) (w40Val (b.getD i 0)))
    else old.getLsbD i)
  { s := putMask s tile (wVd w % 8) (maskOf on) }

def effMlogic (tile : Nat) (s : State) (_r w : Nat) (_ : VRun) : VEff :=
  let a := maskReg s tile (wVa w % 8)
  let b := maskReg s tile (wVb w % 8)
  let x := match bits w 32 2 with
    | 0 => a &&& b
    | 1 => a ||| b
    | 2 => a ^^^ b
    | _ => a &&& ~~~b
  { s := putMask s tile (wVd w % 8) x }

/-- A reduction over the active lanes, written to every active lane; with no active lane VD is unchanged (R140). -/
def reduceLanes (tile : Nat) (f : List Val → Nat × Bool × Bool) (s : State) (_r w : Nat) (v : VRun) : VEff :=
  let a := vreg s tile (wVa w)
  let on := activeLanes s tile w 64
  match on with
  | [] => { s := s }
  | i :: _ =>
    let x := f (on.map (fun i => w40Val (a.getD i 0)))
    let c := vCoord v i
    { s := putReg s tile (wVd w) (on.map (fun i => (i, x.1)))
      flags := NumFlags.ofArith x.2.1 x.2.2 x.2.1 c.1 c.2 }

/-! ## The instructions (R135) -/

def execVnop (t : Nat) (s : State) : Host.Outcome State Fault Refusal :=
  done s (vecIssue [0x00] t (fun s _ _ _ => { s := s }) s)
def execVld (t : Nat) (s : State) : Host.Outcome State Fault Refusal := done s (vecIssue [0x01] t (effVld t) s)
def execVldh (t : Nat) (s : State) : Host.Outcome State Fault Refusal := done s (vecIssue [0x02] t (effVldh t) s)
def execVst (t : Nat) (s : State) : Host.Outcome State Fault Refusal := done s (vecIssue [0x03] t (effVst t) s)
def execVsth (t : Nat) (s : State) : Host.Outcome State Fault Refusal := done s (vecIssue [0x04] t (effVsth t) s)
def execVlda (t : Nat) (s : State) : Host.Outcome State Fault Refusal := done s (vecIssue [0x05] t (effVlda t) s)
def execVsta (t : Nat) (s : State) : Host.Outcome State Fault Refusal := done s (vecIssue [0x06] t (effVsta t) s)
def execVadd (t : Nat) (s : State) : Host.Outcome State Fault Refusal :=
  done s (vecIssue [0x10] t (arith t false (fun a b _ => addVal a b)) s)
def execVsub (t : Nat) (s : State) : Host.Outcome State Fault Refusal :=
  done s (vecIssue [0x11] t (arith t false (fun a b _ => addVal a b.neg)) s)
def execVmul (t : Nat) (s : State) : Host.Outcome State Fault Refusal :=
  done s (vecIssue [0x12] t (arith t false (fun a b _ => mulVal a b)) s)
def execVfma (t : Nat) (s : State) : Host.Outcome State Fault Refusal :=
  done s (vecIssue [0x13] t (arith t false fmaVal) s)
def execVmin (t : Nat) (s : State) : Host.Outcome State Fault Refusal :=
  done s (vecIssue [0x14] t (arith t false (fun a b _ => (minVal a b, false))) s)
def execVmax (t : Nat) (s : State) : Host.Outcome State Fault Refusal :=
  done s (vecIssue [0x15] t (arith t false (fun a b _ => (maxVal a b, false))) s)
def execVabs (t : Nat) (s : State) : Host.Outcome State Fault Refusal :=
  done s (vecIssue [0x16] t (signOp t (fun x => x % 2 ^ 39)) s)
def execVneg (t : Nat) (s : State) : Host.Outcome State Fault Refusal :=
  done s (vecIssue [0x17] t (signOp t (fun x => x ^^^ 2 ^ 39)) s)
def execVmovi (t : Nat) (s : State) : Host.Outcome State Fault Refusal :=
  done s (vecIssue [0x18] t (laneMove t (fun _ w _ => bits w 32 32 * 256)) s)
def execVsel (t : Nat) (s : State) : Host.Outcome State Fault Refusal := done s (vecIssue [0x19] t (effVsel t) s)
def execVcvti (t : Nat) (s : State) : Host.Outcome State Fault Refusal :=
  done s (vecIssue [0x1A] t (fun s r w v => let a := vreg s t (wVa w)
    laneOp t (fun _ _ i => laneRound false (Val.ofInt (sbits (a.getD i 0) 8 32), false)) s r w v) s)
def execVscl (t : Nat) (s : State) : Host.Outcome State Fault Refusal :=
  done s (vecIssue [0x1B] t (fun s r w v => arith t false (fun a _ _ => (a.scale (sbits w 32 8), false)) s r w v) s)
def execVaddw (t : Nat) (s : State) : Host.Outcome State Fault Refusal :=
  done s (vecIssue [0x1C] t (arith t true (fun a b _ => addVal a b)) s)
def execVmulw (t : Nat) (s : State) : Host.Outcome State Fault Refusal :=
  done s (vecIssue [0x1D] t (arith t true (fun a b _ => mulVal a b)) s)
def execVfmaw (t : Nat) (s : State) : Host.Outcome State Fault Refusal :=
  done s (vecIssue [0x1E] t (arith t true fmaVal) s)
def execVaddh (t : Nat) (s : State) : Host.Outcome State Fault Refusal :=
  done s (vecIssue [0x20] t (packed t (fun a b _ => addVal a b)) s)
def execVmulh (t : Nat) (s : State) : Host.Outcome State Fault Refusal :=
  done s (vecIssue [0x21] t (packed t (fun a b _ => mulVal a b)) s)
def execVfmah (t : Nat) (s : State) : Host.Outcome State Fault Refusal :=
  done s (vecIssue [0x22] t (packed t fmaVal) s)
def execVcmp (t : Nat) (s : State) : Host.Outcome State Fault Refusal := done s (vecIssue [0x28] t (effVcmp t) s)
def execMlogic (t : Nat) (s : State) : Host.Outcome State Fault Refusal := done s (vecIssue [0x29] t (effMlogic t) s)
def execVexp (t : Nat) (s : State) : Host.Outcome State Fault Refusal :=
  done s (vecIssue [0x30] t (arith t false (fun a _ _ => (expVal a, false))) s)
def execVlog (t : Nat) (s : State) : Host.Outcome State Fault Refusal :=
  done s (vecIssue [0x31] t (arith t false (fun a _ _ => logVal a)) s)
def execVrcp (t : Nat) (s : State) : Host.Outcome State Fault Refusal :=
  done s (vecIssue [0x32] t (arith t false (fun a _ _ => (rcpVal a, false))) s)
def execVrsqrt (t : Nat) (s : State) : Host.Outcome State Fault Refusal :=
  done s (vecIssue [0x33] t (arith t false (fun a _ _ => rsqrtVal a)) s)
def execVtanh (t : Nat) (s : State) : Host.Outcome State Fault Refusal :=
  done s (vecIssue [0x34] t (arith t false (fun a _ _ => (tanhVal a, false))) s)
def execVrsum (t : Nat) (s : State) : Host.Outcome State Fault Refusal :=
  done s (vecIssue [0x38] t (reduceLanes t (fun vs => laneRound false (sumVals vs))) s)
def execVrmax (t : Nat) (s : State) : Host.Outcome State Fault Refusal :=
  done s (vecIssue [0x39] t (reduceLanes t (fun vs =>
    ((toFp w40 0 0 (vs.foldl maxVal (vs.headD Val.zero))).code, false, false))) s)

end Sys2Proof.Machine
end

