-- ==== Sys2Proof/Machine/Mover.lean ====
section
/-! DEFINITION. The Mover's MOVE and FILL (R170-R172), and the answers of peers to them (R171, R289). -/
namespace Sys2Proof.Machine

/-! ## Elements and the bytes they lie on -/

/-- Bytes that hold element i alone of a tensor of format c, with the header or scale of its block, from the tensor's start. -/
def elemBytes (c i : Nat) : List (Nat × Nat) :=
  let w := fmtWidth c
  if fmtBlock c then
    [ (blockHdr c (i / 32), if fmtBead c then 2 else 1),
      (blockBody c (i / 32) + (i % 32) * w / 8, ceilDiv ((i % 32 + 1) * w) 8 - (i % 32) * w / 8) ]
  else if c = 1 then [((i / 64) * 320 + 4 * (i % 64), 4), ((i / 64) * 320 + 256 + i % 64, 1)]
  else [(i * w / 8, ceilDiv ((i + 1) * w) 8 - i * w / 8)]

/-- Padding of the last block of a W40 tensor of n elements: +0 (R78). -/
def w40Pad (base n : Nat) : List (Nat × Bytes) :=
  if n % 64 = 0 then []
  else [(base + (n / 64) * 320 + 4 * (n % 64), List.replicate (4 * (64 - n % 64)) 0),
    (base + (n / 64) * 320 + 256 + n % 64, List.replicate (64 - n % 64) 0)]

/-! ## Requests at the memory channels (R173, R178, R179) -/

/-- Flights of a Mover, over all jobs. -/
def moverFlights (s : State) (mover : Nat) : List Flight :=
  s.jobs.flatMap (fun j => (j.queues.filter (fun p => p.ref.eng == engMover && p.ref.inst == mover)).flatMap (·.flight))

/-- Transactions that a Mover has outstanding: at channels in retrain, and at peers. -/
def outstanding (s : State) (mover : Nat) : Nat :=
  ((moverFlights s mover).map (fun f =>
    match f.op with
    | .held _ n _ => n
    | .move m => boolNat m.rd.isSome + m.wrs.length
    | .stream w => w.reads.length + (w.held.map (·.2)).getD 0
    | _ => 0)).sum

/-- A Mover holds at most 512 transactions (R13): with all of them outstanding it stalls (R179). -/
def moverStalls (s : State) (mover : Nat) : Bool := decide (512 ≤ outstanding s mover)

/-- The Mover can start a command. -/
def moverReady (s : State) (_ : Job) (q : Queue) (_ : Nat) : Bool := !moverStalls s q.ref.inst

/-- Requests of a Mover at a channel in retrain: as many as the Mover's limit leaves are outstanding; the hold queue takes them while it has
room and refuses the rest, which the Mover keeps (R13, R179). Answers the requests outstanding. -/
def State.noteRequests (s : State) (mover : Nat) (spans : List (Nat × Nat)) : Nat × State :=
  let left := 512 - outstanding s mover
  let want (c : Nat) := min left ((spans.map (fun x => s.chanUnits c x.1 x.2)).sum)
  (((s.lp.channels.filter (fun c => c.2.held)).map (fun c => want c.1)).sum,
    { s with lp := { s.lp with channels := s.lp.channels.map (fun (c : Nat × Channel) =>
      let ch := c.2
      if !ch.held then c
      else
        let n := want c.1
        let k := min n (512 - ch.hold)
        (c.1, { ch with hold := ch.hold + k, refused := if n = k then ch.refused else ch.refused ++ [(mover, n - k)] })) } })

/-- A channel has refused transactions of a Mover in a range, and they have not been retried. -/
def refusedRange (s : State) (mover a n : Nat) : Bool :=
  s.lp.channels.any (fun c => c.2.refused.any (fun r => r.1 == mover) && s.chanUnits c.1 a n != 0)

/-- A flight of a Mover still waits at a channel: one in retrain holds its requests, or refused some of them (R178, R179). -/
def channelWait (s : State) (ref : QRef) (f : Flight) : Bool :=
  ref.eng == engMover && (f.reads ++ f.span).any (fun x => s.heldRange x.1 x.2 || refusedRange s ref.inst x.1 x.2)

/-! ## MOVE: operands and checks (R170) -/

structure MoveArgs where
  srcPeer : Bool
  dstPeer : Bool
  conv    : Bool
  dstK    : Bool
  srcK    : Bool
  srcMod  : Nat
  dstMod  : Nat
  src     : Nat
  dst     : Nat
  len     : Nat
  srcFmt  : Nat
  dstFmt  : Nat
  mode    : Nat
  seed    : Nat
  deriving DecidableEq, Repr

def moveArgs (r : Nat) : MoveArgs :=
  { srcPeer := bitAt r 128, dstPeer := bitAt r 129, conv := bitAt r 130, dstK := bitAt r 131, srcK := bitAt r 132
    srcMod := bits r 144 8, dstMod := bits r 152 8, src := bits r 160 48, dst := bits r 208 48, len := bits r 256 32
    srcFmt := bits r 288 5, dstFmt := bits r 293 5, mode := bits r 298 2, seed := bits r 352 32 }

/-- Bytes of the source and of the destination. -/
def MoveArgs.srcLen (x : MoveArgs) : Nat := if x.conv then tensorEnd x.srcFmt (x.len - 1) else x.len
def MoveArgs.dstLen (x : MoveArgs) : Nat := if x.conv then tensorEnd x.dstFmt (x.len - 1) else x.len

/-- A range of R170: below the windows for a peer, within one region of the map otherwise. -/
def badRange (s : State) (peer : Bool) (a n : Nat) : Bool :=
  if peer then decide (State.scratchBase < a + n) else !s.mapped a n

/-- Start alignment of a tensor (R78, R83, R84). -/
def badTensor (fmt a : Nat) : Bool := (fmtBlock fmt || fmt == 1) && a % 64 != 0

def moveChecks (s : State) (j : Job) (_ : Queue) (r : Nat) : List Chk :=
  let x := moveArgs r
  let c := x.conv
  [ ckZero r 133 11, ckZero r 300 4, ckZero r 332 4, ckZero r 348 4, ckZero r 384 128,
    ckZero (if x.srcPeer then 0 else r) 144 8, ckZero (if x.dstPeer then 0 else r) 152 8 ] ++
  (if c then [] else [ckZero r 131 2, ckZero r 288 12, ckZero r 304 28, ckZero r 336 12, ckZero r 352 32]) ++
  [ ckEnum 288 5 (c && !fmtListed x.srcFmt), ckEnum 293 5 (c && !fmtListed x.dstFmt), ckEnum 298 2 (c && x.mode == 3),
    ckRange 131 1 (c && badKsrc x.dstFmt (bits r 312 8) x.dstK), ckRange 132 1 (c && badKsrc x.srcFmt (bits r 304 8) x.srcK),
    ckRange 256 32 (x.len == 0),
    ckRange 304 8 (c && badK x.srcFmt (bits r 304 8)), ckRange 312 8 (c && badK x.dstFmt (bits r 312 8)),
    ckAlign 160 48 (if c then badTensor x.srcFmt x.src else x.src % 4 != 0),
    ckAlign 208 48 (if c then badTensor x.dstFmt x.dst else x.dst % 4 != 0),
    ckAlign 256 32 (!c && x.len % 4 != 0),
    ckAddr 160 48 (badRange s x.srcPeer x.src x.srcLen), ckAddr 208 48 (badRange s x.dstPeer x.dst x.dstLen),
    ckFmt 298 2 (c && x.mode == 2 && !fmtSr x.dstFmt),
    ckFmt 320 12 (c && badSlotFmt s j x.srcK (bits r 320 12) x.srcFmt),
    ckFmt 336 12 (c && badSlotFmt s j x.dstK (bits r 336 12) x.dstFmt),
    ckOwn (!x.srcPeer && !j.owns x.src x.srcLen), ckOwn (!x.dstPeer && !j.owns x.dst x.dstLen),
    ckOwn (c && x.srcK && !j.ownsSlot (bits r 320 12)), ckOwn (c && x.dstK && !j.ownsSlot (bits r 336 12)) ]

/-- Ownership queries of the record's peer ranges (R171). -/
def moveAsks (s : State) (j : Job) (_ : Queue) (r : Nat) : State × List (Nat × Option Nat) :=
  let x := moveArgs r
  let (s, a) := if x.srcPeer then (let p := s.askOwn j (j.alias? x.srcMod) x.src x.srcLen; (p.1, [p.2])) else (s, [])
  let (s, b) := if x.dstPeer then (let p := s.askOwn j (j.alias? x.dstMod) x.dst x.dstLen; (p.1, [p.2])) else (s, [])
  (s, a ++ b)

/-! ## The copy itself -/

/-- What of a MOVE is to be written: bytes, destination spans that its poisoned source units feed, and the conversion's flags. -/
structure Moved where
  writes : List (Nat × Bytes)
  hits   : List (Nat × Nat)
  flags  : NumFlags

/-- Exponents of source and destination, as a MOVE reads them when it starts (R111, R148). -/
def moveK (s : State) (r : Nat) : Int × Int :=
  let x := moveArgs r
  (scaleOf s x.srcK (bits r 320 12) (sbits r 304 8), scaleOf s x.dstK (bits r 336 12) (sbits r 312 8))

/-- The source in hand, as memory with the units of it that are bad, converted with the exponents given; `old` is the destination's memory,
for the half byte that a 4-bit tensor of odd length keeps. -/
def moveData (r : Nat) (k : Int × Int) (m old : Memory) (bad : List (Nat × Nat)) : Moved :=
  let x := moveArgs r
  let touched (a n : Nat) : Bool := bad.any (fun b => overlaps b.1 b.2 a n)
  if x.conv then
    let vs := readElems m x.src x.srcFmt 0 x.len k.1
    let o : OutSpec := ⟨x.dstFmt, x.mode, x.seed, k.2⟩
    let w := convRun old x.dst o 0 vs (fun i => i) (fun i => (i / 65536 % 65536, i % 65536))
    let hit := if bad.isEmpty then [] else
      ((List.range x.len).filter (fun i => (elemBytes x.srcFmt i).any (fun p => touched (x.src + p.1) p.2))).flatMap
        (fun i => (elemBytes x.dstFmt i).map (fun p => (x.dst + p.1, p.2)))
    ⟨w.1 ++ (if x.dstFmt = 1 then w40Pad x.dst x.len else []), hit, w.2⟩
  else
    ⟨[(x.dst, m.read x.src x.len)],
      (bad.filter (fun b => overlaps b.1 b.2 x.src x.len)).map (fun b =>
        let lo := max b.1 x.src
        (x.dst + lo - x.src, min (b.1 + b.2) (x.src + x.len) - lo)),
      NumFlags.none⟩

/-- ARG of R171: channel of the first unit and the count, saturating. -/
def uncorrArg (ch n : Nat) : Nat := ch % 256 + 256 * min n 0xFFFFFF

/-- Result fields of a MOVE with `n` poisoned source units, the first on channel `ch`. -/
def moveRes (fl : NumFlags) (n ch : Nat) : Res :=
  let r : Res := { inv := fl.inv, ovf := fl.ovf, lost := fl.lost, nan := fl.nan }
  if n = 0 then r else { r with code := eUncorr, poison := true, arg := uncorrArg ch n }

/-- What the destination on this module gets: bytes, poison marks in module memory, undefined bytes elsewhere (R171). -/
def landHere (s : State) (m : Moved) : State × List (Nat × Bytes) × List Nat :=
  let user := m.hits.filter (fun h => decide (h.1 < State.scratchBase))
  let out := m.hits.filter (fun h => decide (State.scratchBase ≤ h.1))
  let (s, extra) := out.foldl (fun (acc : State × List (Nat × Bytes)) h =>
    let (bs, s) := acc.1.drawBytes h.2
    (s, acc.2 ++ [(h.1, bs)])) (s, [])
  (s, m.writes ++ extra, user.flatMap (fun h => State.unitsOf h.1 h.2))

/-- Amax that a converting MOVE with a destination slot records (R149). -/
def moveAmax (r : Nat) (fl : NumFlags) : List (Nat × Nat) :=
  let x := moveArgs r
  if x.conv && x.dstK then [(bits r 336 12, amaxCode fl.amax)] else []

/-- WRITE_REQ and WRITE_DATA for one run of bytes at a peer: the transaction, or none where the peer is unreachable. -/
def writePeer (s : State) (j : Job) (peer : Nat) (hits : List (Nat × Nat)) (w : Nat × Bytes) : Option (Nat × State) :=
  match s.ask j peer 1 w.1 w.2.length with
  | none => none
  | some (x, s) =>
    some (x, (piecesOf w.2).foldl (fun t p =>
      let bad := hits.any (fun h => overlaps h.1 h.2 (w.1 + 256 * p.1) p.2.length)
      (t.sendJob j 4 peer 5 (vc5Word 2 bad j.id x p.1) (ofLe p.2)).getD t) s)

/-- The destination at a peer: every run of bytes is sent; the command completes when all are answered. -/
def landThere (s : State) (j : Job) (peer : Nat) (m : Moved) (p : PeerMove) : State × PeerMove :=
  (coalesce m.writes).foldl (fun (acc : State × PeerMove) w =>
    match writePeer acc.1 j peer m.hits w with
    | some (x, s) => (s, { acc.2 with wrs := acc.2.wrs ++ [x] })
    | none => (acc.1, { acc.2 with down := some peer })) (s, p)

/-- The state of a MOVE's flight once its source is in hand. DESIGN CHOICE (log 118): of a 4-bit tensor of odd length at a peer, the half
byte after the last element is written as 0, since the peer's byte is not known here. DESIGN CHOICE (log 166): the values that a poisoned or
uncorrectable source unit holds take part in the amax. -/
def moveLand (s : State) (j : Job) (f : Flight) (k : Int × Int) (m : Memory) (bad : List (Nat × Nat)) (n ch : Nat) : State × Flight :=
  let x := moveArgs f.record
  let old := if x.dstPeer then [] else s.mem
  let d := moveData f.record k m old bad
  let f := { f with res := moveRes d.flags n ch, amax := moveAmax f.record d.flags }
  if x.dstPeer then
    let peer := j.alias? x.dstMod
    let (s, p) := landThere s j peer d { bad := n, badCh := ch }
    match p.down with
    | some y => (s, { f with op := .plain, res := { code := eLinkDown, poison := true, arg := y } })
    | none => (s, { f with op := if p.wrs.isEmpty then .plain else .move p })
  else
    let (s, ws, marks) := landHere s d
    (s, { f with op := .plain, writes := ws, marks := marks })

/-- The peer that did not answer an ownership query (R171). -/
def deadPeer (q : Queue) : Option Nat :=
  q.cur.bind (fun w => (w.asks.find? (fun a => a.2 == some eLinkDown)).map (fun a => a.1 / 2 ^ 14))

/-- A MOVE from this module's memory reads its source. -/
def moveRead (s : State) (j : Job) (k : Int × Int) (f : Flight) : State × Flight :=
  let x := moveArgs f.record
  let (bad, s) := s.arrivals x.src x.srcLen
  let ch := ((bad.head?).map (fun m => s.faultChannel (m.1 * 64))).getD 0
  moveLand ((s.correct x.src x.srcLen).meetBad j.id bad) j f k (s.sight x.src x.srcLen) (bad.map (fun m => (m.1 * 64, 64))) bad.length ch

/-- A MOVE or FILL meets a channel in retrain: its requests enter the hold queue, and it is carried out when they are issued
(R178, R179). -/
def holdFlight (s : State) (mover : Nat) (k : Int × Int) (f : Flight) : Started :=
  let (n, s) := s.noteRequests mover (f.reads ++ f.span)
  ⟨{ s with lp := { s.lp with ages := s.lp.ages + 1 } }, { f with op := .held s.lp.ages n k }, false⟩

/-- The pieces of a MOVE's source that have come from its peer. -/
def PeerMove.source (m : PeerMove) (x : MoveArgs) : Memory :=
  m.got.foldl (fun (mem : Memory) p => mem.write (x.src + 256 * p.1) (p.2.take (x.srcLen - 256 * p.1))) []

/-- A peer is found unreachable under a MOVE or FILL (R171): what its source has delivered reaches a destination on this module, and the bytes
that were not delivered are undefined; what was delivered joins the slot's amax (R149). -/
def moveDown (s : State) (f : Flight) (m : PeerMove) (peer : Nat) : State × Flight :=
  let x := moveArgs f.record
  let g := { f with op := .plain, res := { code := eLinkDown, poison := true, arg := peer } }
  if hKind f.record = 0x41 || x.dstPeer || !x.srcPeer then (s, g)
  else
    let piece (i : Nat) : Nat × Nat := (x.src + 256 * i, min 256 (x.srcLen - 256 * i))
    let src := m.source x
    let missing := ((List.range (ceilDiv x.srcLen 256)).filter (fun i => !m.got.any (fun p => p.1 == i))).map piece
    let d := moveData f.record m.k src s.mem (m.tainted.map piece)
    let (s, ws, marks) := landHere s d
    let (s, gaps) := (moveData f.record m.k src s.mem missing).hits.foldl (fun (acc : State × List (Nat × Bytes)) h =>
      let (bs, s) := acc.1.drawBytes h.2
      (s, acc.2 ++ [(h.1, bs)])) (s, [])
    (s, { g with writes := ws ++ gaps, marks := marks, amax := moveAmax f.record d.flags })

def moveStart (s : State) (j : Job) (q : Queue) (r : Nat) (f : Flight) : Started :=
  let x := moveArgs r
  match deadPeer q with
  | some p => ⟨s, { f with res := { code := eLinkDown, poison := true, arg := p } }, true⟩
  | none =>
    if s.hostDown && ((!x.srcPeer && State.inHost x.src x.srcLen) || (!x.dstPeer && State.inHost x.dst x.dstLen)) then
      ⟨s, { f with res := { code := eLinkDown, poison := true } }, true⟩
    else if x.srcPeer then
      match s.ask j (j.alias? x.srcMod) 0 x.src x.srcLen with
      | some (t, s) =>
        ⟨s, { f with span := if x.dstPeer then [] else [(x.dst, x.dstLen)], op := .move { rd := some t, k := moveK s r } }, false⟩
      | none =>
        let (s, f) := moveDown s f {} (j.alias? x.srcMod)
        ⟨s, f, false⟩
    else
      let f := { f with span := if x.dstPeer then [] else [(x.dst, x.dstLen)], reads := [(x.src, x.srcLen)] }
      if channelWait s q.ref f then holdFlight s q.ref.inst (moveK s r) f
      else
        let (s, f) := moveRead s j (moveK s r) f
        ⟨s, f, false⟩

def moveSpec : CmdSpec :=
  { kind := 0x40, fetch := always, checks := moveChecks, ready := moverReady, late := noChecks, start := moveStart,
    asks := moveAsks }

/-! ## FILL (R172) -/

def fillDst (r : Nat) : Nat := bits r 152 48
def fillLen (r : Nat) : Nat := bits r 200 32

def fillChecks (s : State) (j : Job) (_ : Queue) (r : Nat) : List Chk :=
  let peer := bitAt r 128
  [ ckZero r 129 15, ckZero (if peer then 0 else r) 144 8, ckZero r 232 24, ckZero r 320 192,
    ckRange 200 32 (decide (fillLen r < 8) || decide (0xFFFFFFF8 < fillLen r)),
    ckAlign 152 48 (fillDst r % 8 != 0), ckAlign 200 32 (fillLen r % 8 != 0),
    ckAddr 152 48 (badRange s peer (fillDst r) (fillLen r)),
    ckOwn (!peer && !j.owns (fillDst r) (fillLen r)) ]

def fillAsks (s : State) (j : Job) (_ : Queue) (r : Nat) : State × List (Nat × Option Nat) :=
  if bitAt r 128 then (let p := s.askOwn j (j.alias? (bits r 144 8)) (fillDst r) (fillLen r); (p.1, [p.2])) else (s, [])

/-- The pattern repeated over the range. -/
def fillBytes (r : Nat) : Bytes := (List.replicate (fillLen r / 8) (leBytes 8 (bits r 256 64))).flatten

def fillStart (s : State) (j : Job) (q : Queue) (r : Nat) (f : Flight) : Started :=
  let w := (fillDst r, fillBytes r)
  match deadPeer q with
  | some p => ⟨s, { f with res := { code := eLinkDown, poison := true, arg := p } }, true⟩
  | none =>
    if bitAt r 128 then
      match writePeer s j (j.alias? (bits r 144 8)) [] w with
      | some (x, s) => ⟨s, { f with op := .move { wrs := [x] } }, false⟩
      | none => ⟨s, { f with res := { code := eLinkDown, poison := true, arg := j.alias? (bits r 144 8) } }, false⟩
    else if s.hostDown && State.inHost w.1 w.2.length then ⟨s, { f with res := { code := eLinkDown, poison := true } }, true⟩
    else
      let f := { f with span := [(w.1, w.2.length)] }
      if channelWait s q.ref f then holdFlight s q.ref.inst (0, 0) f else ⟨s, { f with writes := [w] }, false⟩

def fillSpec : CmdSpec :=
  { kind := 0x41, fetch := always, checks := fillChecks, ready := moverReady, late := noChecks, start := fillStart,
    asks := fillAsks }

/-! ## Peers' answers -/

/-- Every flight of a job changed by a function that may change the state too, in queue order. -/
def State.mapFlights (s : State) (jid : Nat) (k : State → Job → QRef → Flight → State × Flight) : State :=
  match s.job? jid with
  | none => s
  | some j =>
    j.queues.foldl (fun s q =>
      let (s, fs) := q.flight.foldl (fun (acc : State × List Flight) f =>
        match acc.1.job? jid with
        | none => (acc.1, acc.2 ++ [f])
        | some j => let p := k acc.1 j q.ref f; (p.1, acc.2 ++ [p.2])) (s, [])
      s.updJob jid (fun j =>
        match j.queue? q.ref with
        | some q' => j.setQueue { q' with flight := fs }
        | none => j)) s

/-- The source of a MOVE has come from its peer whole. -/
def peerRead (s : State) (j : Job) (mover : Nat) (f : Flight) (m : PeerMove) : State × Flight :=
  let x := moveArgs f.record
  let mem := m.source x
  let bad := m.tainted.map (fun i => (x.src + 256 * i, min 256 (x.srcLen - 256 * i)))
  let n := (bad.map (fun b => (State.unitsOf b.1 b.2).length)).sum
  let s := if x.dstPeer then s else (s.noteRequests mover [(x.dst, x.dstLen)]).2
  moveLand s j f m.k mem bad n 0xFF

/-- Which transaction of a flight a flit belongs to. -/
def flightPeers (j : Job) (f : Flight) (m : PeerMove) : List Nat :=
  let x := moveArgs f.record
  let rd := if m.rd.isSome then [j.alias? x.srcMod] else []
  if m.wrs.isEmpty then rd else j.alias? (if hKind f.record = 0x41 then bits f.record 144 8 else x.dstMod) :: rd

/-- READ_DATA for a MOVE. -/
def moveReadData (fl : SpokeFlit) (s : State) (_ : Job) (_ : QRef) (f : Flight) : State × Flight :=
  match f.op with
  | .move m =>
    if m.rd == some (xXid fl) then
      (s, { f with op := .move { m with
        got := m.got ++ [(xOff fl, leBytes 256 (fPay fl))]
        tainted := if xPoison fl then m.tainted ++ [xOff fl] else m.tainted } })
    else (s, f)
  | _ => (s, f)

/-- DONE for a MOVE or FILL. DESIGN CHOICE (log 168): E_PERM_PROTECT from a peer that answered the ownership query with OK ends the command as a
peer that is lost does (R171). -/
def moveDone (fl : SpokeFlit) (s : State) (j : Job) (ref : QRef) (f : Flight) : State × Flight :=
  let code := bits (fPay fl) 0 16
  match f.op with
  | .move m =>
    if m.rd == some (xXid fl) then
      if code = eProtect then moveDown s f m (fSrc fl) else peerRead s j ref.inst f m
    else if m.wrs.contains (xXid fl) then
      if code = eProtect then moveDown s f m (fSrc fl)
      else
        let n := if code = eUncorr then 1 else 0
        let m := { m with wrs := m.wrs.filter (· != xXid fl), bad := m.bad + n, badCh := if m.bad = 0 then 0xFF else m.badCh }
        let f := if n = 0 then f else
          { f with res := { f.res with code := eUncorr, poison := true, arg := uncorrArg m.badCh m.bad } }
        (s, { f with op := if m.wrs.isEmpty then .plain else .move m })
    else (s, f)
  | _ => (s, f)

/-- A module becomes unreachable under the Movers' copies (R171). -/
def moveLost (peer : Nat) (s : State) (j : Job) (_ : QRef) (f : Flight) : State × Flight :=
  match f.op with
  | .move m => if (flightPeers j f m).contains peer then moveDown s f m peer else (s, f)
  | _ => (s, f)

/-! ## Requests that a channel's hold releases (R178, R184) -/

/-- A held MOVE or FILL is carried out: it reads its source, and what it writes on this module reaches memory. -/
def issueFlight (s : State) (j : Job) (k : Int × Int) (f : Flight) : State × Flight :=
  let f := { f with op := .plain }
  let (s, f) := if hKind f.record = 0x41 then (s, { f with writes := [(fillDst f.record, fillBytes f.record)] }) else moveRead s j k f
  s.land j.id f

/-- Waiting commands learn an ownership answer, and start if nothing else holds them back; `specOf` finds a record's kind. -/
def State.answerAsks (s : State) (jid : Nat) (hit : Nat → Bool) (code : Nat) : State :=
  s.updJob jid (fun j => { j with queues := j.queues.map (fun q =>
    match q.cur with
    | none => q
    | some w => { q with cur := some { w with
        asks := w.asks.map (fun a => if hit a.1 && a.2.isNone then (a.1, some code) else a) } }) })

end Sys2Proof.Machine
end

