-- ==== Sys2Proof/Machine/Weights.lean ====
section
/-! DEFINITION. Weight streams (R189-R206): WSTREAM, and the issue and commit of its chunks. -/
namespace Sys2Proof.Machine

/-! ## The stream descriptor (R191) -/

def dSrc (d : Nat) : Nat := bits d 0 48
def dPeer (d : Nat) : Bool := bitAt d 48
def dMod (d : Nat) : Nat := bits d 56 8
def dTilePitch (d : Nat) : Nat := bits d 64 40
def dChunkPitch (d : Nat) : Nat := bits d 128 40
def dVerPitch (d : Nat) : Nat := bits d 192 40
/-- Bytes of a chunk for a tile. -/
def dBytes (d : Nat) : Nat := bits d 256 16 * 64
def dChunks (d : Nat) : Nat := bits d 272 16
def dRing (d : Nat) : Nat := bits d 288 22
/-- Slots S of the ring. -/
def dSlots (d : Nat) : Nat := 2 ^ (bits d 310 2 + 1)
def dTile (d : Nat) : Nat := bits d 320 8
def dCount (d : Nat) : Nat := bits d 328 7
def dFill (d : Nat) : Nat := bits d 336 12
def dFree (d : Nat) : Nat := bits d 352 12

/-- Source address of pass offset c, tile t, version slot v (R191). -/
def dPiece (d v t c : Nat) : Nat := dSrc d + v * dVerPitch d + t * dTilePitch d + c * dChunkPitch d

/-- Scratch address of chunk g in tile t of the stream (R191). -/
def dSlot (d t g : Nat) : Nat := State.scratchAddr (dTile d + t) (dRing d + (g % dSlots d) * dBytes d)

def wsMode (r : Nat) : Nat := bits r 224 2

/-- Version slots that a record's mode can name (R193). -/
def wVers (r : Nat) : List Nat :=
  match wsMode r with
  | 1 => [bits r 226 3]
  | 2 => List.range 8
  | _ => [0]

/-- Every piece of the stream satisfies a test (R193). -/
def allPieces (d r : Nat) (p : Nat → Bool) : Bool :=
  (wVers r).all (fun v => (List.range (dCount d)).all (fun t => (List.range (dChunks d)).all (fun c => p (dPiece d v t c))))

/-- The descriptor as it was read with the record (R193). -/
def wDesc (r : Nat) : Nat := bits r 512 512

/-- Checks 1 to 3 on the record and then on the descriptor, whose failures carry ARG bit 31 (R193). -/
def wsChecks (s : State) (j : Job) (_ : Queue) (r : Nat) : List Chk :=
  let a := bits r 128 48
  let d := wDesc r
  let n := dBytes d
  let rd := !s.inStore a 64 || a % 64 != 0
  let peer := dPeer d
  let slow := peer || !allPieces d r (fun x => s.inUser x n)
  [ ckZero r 229 283, ckZero (if wsMode r = 1 then 0 else r) 226 3, ckEnum 224 2 (wsMode r == 3),
    ckRange 208 16 (bits r 208 16 == 0),
    ckAlign 128 48 (a % 64 != 0), ckAddr 128 48 (!s.inStore a 64),
    ckOwn (!j.owns a 64) ] ++
  (if rd then [] else onItem (2 ^ 31) 0xFFFF
    [ ckZero d 49 7, ckZero d 104 24, ckZero d 168 24, ckZero d 232 24, ckZero d 312 8, ckZero d 335 1, ckZero d 348 4,
      ckZero d 364 148, ckZero (if peer then 0 else d) 56 8,
      ckRange 192 40 (wsMode r != 0 && dVerPitch d == 0),
      ckRange 256 16 (n == 0), ckRange 272 16 (dChunks d == 0),
      ckRange 320 8 (decide (256 < dTile d + dCount d)),
      ckRange 328 7 (dCount d == 0 || decide (64 < dCount d)),
      ckRange 336 12 (dFill d == dFree d),
      ckAlign 0 48 (dSrc d % 64 != 0), ckAlign 64 40 (dTilePitch d % 64 != 0), ckAlign 128 40 (dChunkPitch d % 64 != 0),
      ckAlign 192 40 (dVerPitch d % 64 != 0), ckAlign 288 22 (dRing d % 64 != 0),
      ckAddr 0 48 (if peer then !allPieces d r (fun x => decide (x + n ≤ State.scratchBase))
        else !allPieces d r (fun x => s.inStore x n)),
      ckAddr 288 22 (decide (0x400000 < dRing d + dSlots d * n)),
      ckOwnF 0 48 (!peer && !allPieces d r (fun x => j.owns x n)),
      ckOwnF 0 48 (slow && j.slowBytes == 0),
      ckOwnF 336 12 (!j.ownsCtr (dFill d)), ckOwnF 352 12 (!j.ownsCtr (dFree d)) ])

/-- A peer source: the peer is asked whether the job owns every piece (R171, R193); one query spans each version slot's
pieces of a tile. -/
def wsAsks (s : State) (j : Job) (_ : Queue) (r : Nat) : State × List (Nat × Option Nat) :=
  let d := wDesc r
  if !dPeer d then (s, [])
  else
    let at_ := (wVers r).flatMap (fun v => (List.range (dCount d)).flatMap (fun t =>
      (List.range (dChunks d)).map (fun c => dPiece d v t c)))
    at_.foldl (fun (acc : State × List (Nat × Option Nat)) a =>
      let p := acc.1.askOwn j (j.alias? (dMod d)) a (dBytes d)
      (p.1, acc.2 ++ [p.2])) (s, [])

def isStream (f : Flight) : Bool :=
  match f.op with
  | .stream _ => true
  | _ => false

/-- At most 8 running WSTREAMs on a Mover (R195), which is not stalled (R179). -/
def wsReady (s : State) (j : Job) (q : Queue) (_ : Nat) : Bool :=
  !moverStalls s q.ref.inst && decide (((j.queues.filter (fun p => p.ref.eng == engMover && p.ref.inst == q.ref.inst)).map
    (fun p => countIf isStream p.flight)).sum < 8)

/-- The item of the list at the head of a queue. -/
def headItem (q : Queue) : Option ItemTag := (q.lists.head?).bind (·.item)

/-- Version slot that VER_MODE 2 takes (R201). -/
def wsBound (j : Job) (q : Queue) : Option (Nat × Nat) :=
  match headItem q with
  | some t => if t.kind = ItemKind.f ∨ t.kind = ItemKind.b ∨ t.kind = ItemKind.w then
      (j.stage? t.stage).bind (fun st =>
        if decide ((st.slot t.slot).st ≠ VerState.free) && (st.binds.any (fun b => b.1 == t.n && b.2 == t.slot)) && st.held.contains t.n
        then some (t.stage, t.slot) else none)
    else none
  | none => none

def dispatched (q : Queue) : Bool :=
  (headItem q).any (fun t => decide (t.kind = ItemKind.f ∨ t.kind = ItemKind.b ∨ t.kind = ItemKind.w))

def wsLate (_ : State) (j : Job) (q : Queue) (r : Nat) : List Chk :=
  [ ckState eState (wsMode r == 2 && !dispatched q),
    ckState eVersion (wsMode r == 2 && dispatched q && (wsBound j q).isNone) ]

/-- A piece of the run's source lies in the host window. -/
def hostStream (w : Stream) : Bool :=
  !dPeer w.desc && (List.range (dCount w.desc)).any (fun t =>
    (List.range (dChunks w.desc)).any (fun c => State.inHost (dPiece w.desc w.ver t c) (dBytes w.desc)))

/-- Chunk index of the k-th chunk of a run. -/
def chunkNo (w : Stream) (k : Nat) : Nat := (w.start + k) % 2 ^ 32

/-- Tiles × chunks released that order 2 of R194 waits for. -/
def releasedWant (d g : Nat) : Word32 := BitVec.ofNat 32 (dCount d * ((g + 2 ^ 32 + 1 - dSlots d) % 2 ^ 32))

/-- FREE_CTR lets the run's next chunk past order 2 of R194. -/
def slotFree (s : State) (w : Stream) : Bool := ctrGe (s.ctr (dFree w.desc)) (releasedWant w.desc (chunkNo w w.issued))

/-- The run comes to order 2 for its next chunk: the chunk counts among WAITS if its slot is not free (R197). -/
def Stream.noteWait (w : Stream) (s : State) : Stream :=
  if decide (w.issued < w.total) && !w.down && !slotFree s w then { w with waited := true } else w

/-- Earlier runs of the same queue have issued all their reads (R195). -/
def earlierIssued (q : Queue) (i : Nat) : Bool :=
  (q.flight.take i).all (fun f =>
    match f.op with
    | .stream w => w.down || decide (w.total ≤ w.issued)
    | _ => true)

def wsStart (s : State) (j : Job) (q : Queue) (r : Nat) (f : Flight) : Started :=
  let d := wDesc r
  let hold := if wsMode r = 2 then wsBound j q else none
  let s := match hold with
    | some h => s.holdVer j.id h.1 h.2
    | none => s
  let v := match wsMode r with
    | 1 => bits r 226 3
    | 2 => (hold.map (·.2)).getD 0
    | _ => 0
  let w : Stream := { desc := d, start := bits r 176 32, total := dChunks d * bits r 208 16, ver := v, holds := hold }
  let w := { w with down := (deadPeer q).isSome || (s.hostDown && hostStream w) }
  ⟨s, { f with op := .stream (if earlierIssued q q.flight.length then w.noteWait s else w) }, false⟩

def wsSpec : CmdSpec :=
  { kind := 0x48, item := fun s r => s.num (bits r 128 48) 64, fetch := always, checks := wsChecks, ready := wsReady, late := wsLate, start := wsStart, asks := wsAsks,
    askArg := 2 ^ 31 + fieldArg 0 48 }

/-! ## Chunks (R194, R195, R205) -/

/-- The stream of flight i of a queue of the running job. -/
def streamAt (s : State) (ref : QRef) (i : Nat) : Option (Job × Queue × Flight × Stream) :=
  match if dieHeld s (engDie ref) then none else s.runJob with
  | none => none
  | some j =>
    match j.queue? ref with
    | none => none
    | some q =>
      match q.flight[i]? with
      | none => none
      | some f =>
        match f.op with
        | .stream w => some (j, q, f, w)
        | _ => none

def State.putFlight (s : State) (jid : Nat) (ref : QRef) (i : Nat) (f : Flight) : State :=
  s.updJob jid (fun j =>
    match j.queue? ref with
    | some q => j.setQueue { q with flight := q.flight.set i f }
    | none => j)

/-- Runs of a queue that have come to order 2 for their next chunk note whether it waits (R194, R197). -/
def State.noteWaits (s : State) (jid : Nat) (ref : QRef) : State :=
  s.updJob jid (fun j =>
    match j.queue? ref with
    | none => j
    | some q => j.setQueue { q with flight := ((List.range q.flight.length).zip q.flight).map (fun p =>
        match p.2.op with
        | .stream w => if earlierIssued q p.1 then { p.2 with op := .stream (w.noteWait s) } else p.2
        | _ => p.2) })

/-- The k-th chunk's bytes read on this module: writes for every tile in tile order, with undefined bytes in bad units. -/
def readChunkBytes (s : State) (jid : Nat) (w : Stream) (k : Nat) : State × List (Nat × Bytes) × Nat × Nat :=
  let d := w.desc
  let n := dBytes d
  (List.range (dCount d)).foldl (fun (acc : State × List (Nat × Bytes) × Nat × Nat) t =>
    let (s, ws, bad, ch) := acc
    let a := dPiece d w.ver t (k % dChunks d)
    let dst := dSlot d t (chunkNo w k)
    let (us, s) := s.arrivals a n
    let fst := ((us.head?).map (fun m => s.faultChannel (m.1 * 64))).getD 0
    let bytes := s.read a n
    let s := (s.correct a n).meetBad jid us
    let (s, extra) := us.foldl (fun (p : State × List (Nat × Bytes)) u =>
      let (bs, s) := p.1.drawBytes 64
      (s, p.2 ++ [(dst + (u.1 * 64 - a), bs)])) (s, [])
    (s, ws ++ (dst, bytes) :: extra, bad + us.length, if bad = 0 ∧ us ≠ [] then fst else ch)) (s, [], 0, 0)

/-- A peer's reads for the k-th chunk, tile by tile; none when the peer is unreachable. -/
def askChunk (s : State) (j : Job) (w : Stream) (k : Nat) : Option (State × List (Nat × (Nat × Nat))) :=
  (List.range (dCount w.desc)).foldl (fun (acc : Option (State × List (Nat × (Nat × Nat)))) t =>
    match acc with
    | none => none
    | some (s, l) =>
      match s.ask j (j.alias? (dMod w.desc)) 0 (dPiece w.desc w.ver t (k % dChunks w.desc)) (dBytes w.desc) with
      | none => none
      | some (x, s) => some (s, l ++ [(x, (k, t))])) (some (s, []))

/-- Every Mover queue of a job notes which of its runs have come to order 2 and wait there (R197). -/
def State.noteAllWaits (s : State) (jid : Nat) : State :=
  (((s.job? jid).map (fun j => (j.queues.filter (fun q => q.ref.eng == engMover)).map (·.ref))).getD []).foldl (fun s r => s.noteWaits jid r) s

/-- Where the pieces of a run's next chunk lie: address and length. -/
def nextPieces (w : Stream) : List (Nat × Nat) :=
  (List.range (dCount w.desc)).map (fun t => (dPiece w.desc w.ver t (w.issued % dChunks w.desc), dBytes w.desc))

/-- The run's source is found unreachable: it is down, and the runs behind it go on (R205). -/
def streamDown (s : State) (jid : Nat) (ref : QRef) (i : Nat) (f : Flight) (w : Stream) : State :=
  (s.putFlight jid ref i { f with op := .stream { w with down := true, held := none } }).noteWaits jid ref

/-- The reads of a run's next chunk are issued (R194 order 3). -/
def streamRead (s : State) (j : Job) (ref : QRef) (i : Nat) (f : Flight) (w : Stream) : State :=
  let k := w.issued
  let w := { w with waits := w.waits + boolNat w.waited, waited := false, held := none }
  if dPeer w.desc then
    match askChunk s j w k with
    | none => streamDown s j.id ref i f w
    | some (s, rs) =>
      (s.putFlight j.id ref i { f with op := .stream { w with
        issued := k + 1, reads := w.reads ++ rs, chunks := w.chunks ++ [⟨k, []⟩] } }).noteWaits j.id ref
  else if s.hostDown && (nextPieces w).any (fun p => State.inHost p.1 p.2) then streamDown s j.id ref i f w
  else
    let (s, ws, n, ch) := readChunkBytes s j.id w k
    (s.putFlight j.id ref i { f with op := .stream { w with
      issued := k + 1, chunks := w.chunks ++ [⟨k, ws⟩], bad := w.bad + n, badCh := if w.bad = 0 then ch else w.badCh } }).noteWaits
      j.id ref

/-- A run's next chunk: after the reads of the one before it and of earlier runs, once its slot is free and the Mover has room for its
transactions. Reads that meet a channel in retrain enter its hold queue (R178); those at a die that holds wait (R31). No chunk is begun
once the job stops at its command boundary (R206). -/
def issueChunk (ref : QRef) (i : Nat) (s : State) : State :=
  match streamAt s ref i with
  | none => s
  | some (j, q, f, w) =>
    let ps := nextPieces w
    if stopsHard s j || w.down || decide (w.total ≤ w.issued) || w.held.isSome || !earlierIssued q i || moverStalls s ref.inst ||
        (dPeer w.desc && decide (512 < outstanding s ref.inst + dCount w.desc)) then s
    else if !slotFree s w then s.putFlight j.id ref i { f with op := .stream { w with waited := true } }
    else if !dPeer w.desc && ps.any (fun p => s.stalledRange p.1 p.2) then s
    else if !dPeer w.desc && ps.any (fun p => s.inRetrain p.1 p.2) then
      let (n, t) := s.noteRequests ref.inst ps
      ({ t with lp := { t.lp with ages := t.lp.ages + 1 } }).putFlight j.id ref i { f with op := .stream { w with held := some (t.lp.ages, n) } }
    else streamRead s j ref i f w

/-- CHUNK_ISSUE (R194 orders 1 to 3). -/
def execChunkIssue (q : QRef) (i : Nat) (s : State) : Host.Outcome State Fault Refusal := done s (issueChunk q i s)

/-- A tile of the stream lies on a die that holds: nothing is written there (R31, R205). -/
def tilesHeld (s : State) (d : Nat) : Bool := (rangeFrom (dTile d) (dCount d)).any (fun t => dieHeld s (t / 64))

/-- The oldest issued chunk is committed in every tile and FILL_CTR advances; LATE is judged at that moment (R194, R197). -/
def commitChunk (ref : QRef) (i : Nat) (s : State) : State :=
  match streamAt s ref i with
  | none => s
  | some (j, _, f, w) =>
    match w.chunks with
    | [] => s
    | c :: rest =>
      if w.reads.any (fun r => r.2.1 == c.g) || tilesHeld s w.desc then s
      else
        let d := w.desc
        let s := s.tear j.id engMover (c.writes.map (fun x => (x.1, x.2.length)))
        let s := (c.writes.foldl (fun s x => s.write x.1 x.2) s).noteSpans j.id f.item (c.writes.map (fun x => (x.1, x.2.length)))
        let late := ctrGe (s.ctr (dFree d)) (BitVec.ofNat 32 (dCount d * chunkNo w c.g))
        let s := s.addCtr (dFill d) 1
        s.putFlight j.id ref i { f with op := .stream { w with
          chunks := rest, signalled := w.signalled + 1, late := w.late + boolNat late } }

/-- CHUNK_COMMIT (R194 orders 4 and 5). -/
def execChunkCommit (q : QRef) (i : Nat) (s : State) : Host.Outcome State Fault Refusal := done s (commitChunk q i s)

/-- A run is over: all its chunks are signalled, or its source is unreachable. -/
def streamOver (w : Stream) : Bool := w.down || decide (w.total ≤ w.signalled)

/-- Result fields of a run that is over (R197, R205). -/
def streamRes (j : Job) (w : Stream) : Res :=
  if w.down then
    { code := eLinkDown, poison := true, arg := if dPeer w.desc then j.alias? (dMod w.desc) else 0x100 }
  else if w.bad ≠ 0 then { code := eUncorr, poison := true, arg := uncorrArg w.badCh w.bad }
  else { arg := min w.late 0xFFFF + min w.waits 0xFFFF * 65536 }

/-- The slots of the chunks that an unreachable source leaves undelivered hold undefined bytes (R205). -/
def undelivered (s : State) (w : Stream) : State :=
  let d := w.desc
  (rangeFrom w.signalled (min (dSlots d) (w.total - w.signalled))).foldl (fun s k =>
    (List.range (dCount d)).foldl (fun s t =>
      let (bs, s) := s.drawBytes (dBytes d)
      s.write (dSlot d t (chunkNo w k)) bs) s) s

/-- What a run does at its end: the chunks still to be signalled are added to FILL_CTR at once, their slots are undefined, and its hold
ends. -/
def streamEnd (s : State) (jid : Nat) (w : Stream) : State :=
  let s := if w.down then (undelivered s w).addCtr (dFill w.desc) (w.total - w.signalled) else s
  match w.holds with
  | some h => s.dropVer jid h.1 h.2
  | none => s

/-! ## Peers' answers for streams -/

/-- READ_DATA for a chunk of a stream: the bytes join the chunk's writes; a poisoned piece has undefined bytes. -/
def streamReadData (fl : SpokeFlit) (s : State) (_ : Job) (_ : QRef) (f : Flight) : State × Flight :=
  match f.op with
  | .stream w =>
    match w.reads.find? (fun r => r.1 == xXid fl) with
    | none => (s, f)
    | some (_, (k, t)) =>
      let o := 256 * xOff fl
      let n := min 256 (dBytes w.desc - o)
      let dst := dSlot w.desc t (chunkNo w k) + o
      let (bs, s) := if xPoison fl then s.drawBytes n else (leBytes n (fPay fl), s)
      let hit := if xPoison fl then ceilDiv n 64 else 0
      (s, { f with op := .stream { w with
        chunks := w.chunks.map (fun c => if c.g == k then { c with writes := c.writes ++ [(dst, bs)] } else c)
        bad := w.bad + hit, badCh := if w.bad = 0 ∧ hit ≠ 0 then 0xFF else w.badCh } })
  | _ => (s, f)

/-- DONE for a chunk's read: the transaction is over. -/
def streamDone (fl : SpokeFlit) (s : State) (_ : Job) (_ : QRef) (f : Flight) : State × Flight :=
  match f.op with
  | .stream w =>
    if w.reads.any (fun r => r.1 == xXid fl) then
      (s, { f with op := .stream { w with
        reads := w.reads.filter (fun r => r.1 != xXid fl), down := w.down || bits (fPay fl) 0 16 == eProtect } })
    else (s, f)
  | _ => (s, f)

/-- A module becomes unreachable under a stream (R205). -/
def streamLost (peer : Nat) (s : State) (j : Job) (_ : QRef) (f : Flight) : State × Flight :=
  match f.op with
  | .stream w => if dPeer w.desc && j.alias? (dMod w.desc) == peer then (s, { f with op := .stream { w with down := true } })
      else (s, f)
  | _ => (s, f)

/-- Host-window transfers in flight complete with E_LINK_DOWN, POISON = 1 (R205, R347, R417). -/
def State.dropHost (s : State) : State :=
  s.jobs.foldl (fun s j => s.mapFlights j.id (fun s _ ref f =>
    let host (p : Nat × Nat) : Bool := decide (State.hostBase ≤ p.1)
    let stream := match f.op with
      | .stream w => hostStream w
      | _ => false
    if ref.eng = engMover && (f.span.any host || f.reads.any host || stream) then
      (s, { f with
        res := { f.res with code := eLinkDown, poison := true }
        writes := f.writes.filter (fun w => decide (w.1 < State.hostBase))
        op := match f.op with
          | .stream w => .stream { w with down := true }
          | _ => .plain })
    else (s, f)) |>.noteAllWaits j.id) s

/-! ## Requests that a channel's hold releases (R15, R178, R184) -/

/-- A number put into its place in an ascending list. -/
def insertAge (a : Nat) : List Nat → List Nat
  | [] => [a]
  | b :: t => if a ≤ b then a :: b :: t else b :: insertAge a t

/-- The age of a flight whose requests are held. -/
def ageOf (f : Flight) : Option Nat :=
  match f.op with
  | .held a _ _ => some a
  | .stream w => w.held.map (·.1)
  | _ => none

/-- Ages of the held requests, oldest first. -/
def heldAges (s : State) : List Nat :=
  ((s.jobs.flatMap (fun j => j.queues.flatMap (fun q => q.flight.filterMap ageOf))) ++ s.lp.peers.map (·.1)).foldr insertAge []

/-- The held request of an age, if nothing it touches holds it any longer: a peer's is served, a MOVE or FILL is carried out, a stream's
chunk is read. -/
def State.issueAge (s : State) (a : Nat) : State :=
  match s.lp.peers.find? (fun p => p.1 == a) with
  | some (_, f) =>
    if (flitRange s f).any (fun r => s.heldRange r.1 r.2) then s
    else
      let t := { s with lp := { s.lp with peers := s.lp.peers.filter (fun p => p.1 != a) } }
      if xOp f = 0 then serveReadReq f t else serveWriteData f t
  | none =>
    match s.jobs.findSome? (fun j => j.queues.findSome? (fun q =>
        (q.flight.findIdx? (fun f => ageOf f == some a)).bind (fun i => (q.flight[i]?).map (fun f => (j, q.ref, i, f))))) with
    | none => s
    | some (j, ref, i, f) =>
      match f.op with
      | .held _ _ k =>
        if channelWait s ref f then s
        else
          let (s, f) := issueFlight s j k f
          s.putFlight j.id ref i f
      | .stream w => if (nextPieces w).any (fun p => s.heldRange p.1 p.2) then s else streamRead s j ref i f w
      | _ => s

/-- Held requests that no channel holds or refuses any longer are issued in the order of age (R15, R178). -/
def State.issueHeld (s : State) : State := (heldAges s).foldl (fun s a => s.issueAge a) s

end Sys2Proof.Machine
end

