-- ==== Sys2Proof/Machine/Common.lean ====
section
/-! DEFINITION. The commands that every queue accepts (R48, R49, R57), COMMAND_WAIT_SATISFIED (R53, R56), COMMAND_COMPLETE
(R55) and COMPLETION_RING_RETRY (R61). -/
namespace Sys2Proof.Machine

/-! ## NOP, WAIT, SIGNAL -/

/-- Bits 511:128 of a record that carries no body. DEDUCED (log 116): they are reserved, so a nonzero bit there fails check 1. -/
def headerOnly (_ : State) (_ : Job) (_ : Queue) (r : Nat) : List Chk := [ ckZero r 128 384 ]

/-- A command of the header alone, of a kind given. -/
def plainSpec (kind : Nat) : CmdSpec :=
  { kind := kind, fetch := always, checks := headerOnly, ready := always, late := noChecks, start := startPlain }

/-! ## PUSH_LIST -/

/-- The queue that a record of R49 names. -/
def targetOf (r : Nat) : QRef := ⟨bits r 128 4, bits r 136 8, bits r 132 4⟩
def listAddr (r : Nat) : Nat := bits r 144 48
def listCount (r : Nat) : Nat := bits r 192 16

def pushChecks (s : State) (j : Job) (_ : Queue) (r : Nat) : List Chk :=
  let t := targetOf r
  ckZero r 208 304 :: ckTarget t.eng t.q t.inst 128 132 136 ++
  [ ckRange 192 16 (listCount r == 0), ckAlign 144 48 (listAddr r % 64 != 0),
    ckAddr 144 48 (!s.inStore (listAddr r) (64 * listCount r)),
    ckOwn (!j.owns (listAddr r) (64 * listCount r)) ]

/-- A full target makes the command wait (R49). -/
def pushReady (_ : State) (j : Job) (_ : Queue) (r : Nat) : Bool := (j.queue? (targetOf r)).all State.queueRoom

/-- A queue with no binding takes no list (R325). -/
def pushLate (_ : State) (j : Job) (_ : Queue) (r : Nat) : List Chk := [ ckState eState (j.queue? (targetOf r)).isNone ]

def pushStart (s : State) (j : Job) (_ : Queue) (r : Nat) (f : Flight) : Started :=
  ⟨s.pushList j.id (targetOf r) (listAddr r) (listCount r) none, f, true⟩

def pushSpec : CmdSpec :=
  { kind := 0x03, fetch := always, checks := pushChecks, ready := pushReady, late := pushLate, start := pushStart }

/-! ## QUEUE_CONTROL -/

def ctlChecks (_ : State) (_ : Job) (_ : Queue) (r : Nat) : List Chk :=
  let t := targetOf r
  [ckZero r 144 64, ckZero r 210 302] ++ ckTarget t.eng t.q t.inst 128 132 136 ++ [ ckEnum 208 2 (bits r 208 2 == 3) ]

def ctlLate (_ : State) (j : Job) (_ : Queue) (r : Nat) : List Chk :=
  [ ckState eState ((j.queue? (targetOf r)).all (fun q => !q.halted)) ]

/-- The three actions of R57 on a halted queue. -/
def State.controlQueue (s : State) (jid : Nat) (ref : QRef) (action : Nat) : State :=
  match (s.job? jid).bind (fun j => j.queue? ref) with
  | none => s
  | some q =>
    let head := q.lists.head?
    let drop := action == 2 || (action == 0 && q.haltLast)
    let q := { q with halted := false, cur := none }
    let q := if drop then { q with lists := q.lists.tail, pos := 0 } else if action = 0 then { q with pos := q.pos + 1 } else q
    let s := s.updJob jid (fun j => j.setQueue q)
    match head with
    | some l => if drop then s.listDone jid ref l.id l.item else s
    | none => s

def ctlStart (s : State) (j : Job) (_ : Queue) (r : Nat) (f : Flight) : Started :=
  ⟨s.controlQueue j.id (targetOf r) (bits r 208 2), f, true⟩

def ctlSpec : CmdSpec :=
  { kind := 0x04, fetch := always, checks := ctlChecks, ready := always, late := ctlLate, start := ctlStart }

/-! ## How each kind of command is run -/

/-- The kinds of command. -/
def specs : List CmdSpec :=
  [plainSpec 0x00, plainSpec 0x01, plainSpec 0x02, pushSpec, ctlSpec] ++
  [mmSpec, initSpec, drainSpec, attnSpec, finalSpec, vpSpec, vrSpec] ++
  [moveSpec, fillSpec, wsSpec] ++
  [stageSpec, edgeSpec, pipeSpec, feedSpec, publishSpec, policySpec, repointSpec, replaySpec, stopSpec] ++
  [groupSpec, reduceSpec, gatherSpec, closeSpec, reshardSpec, gpointSpec] ++
  [locketSpec, sealSpec, ckptSpec, tandemSpec] ++
  [gearSpec, ttSpec]

def specOf (kind : Nat) : Option CmdSpec := specs.find? (fun c => c.kind == kind)

/-! ## COMMAND_COMPLETE -/

/-- A command whose operands were written by an unordered access while it was in flight has read each 64-byte unit of them wholly old
or wholly new (R101): its results are those of its start on such a memory. DEDUCED (log 149). -/
def reread (s : State) (j : Job) (q : Queue) (f : Flight) : State × Flight :=
  match tornBy j q.ref f, specOf (hKind f.record) with
  | w :: ws, some sp =>
    let g : Flight := { record := f.record, listId := f.listId, last := f.last, item := f.item }
    let st := sp.start (s.seen (w :: ws)) j q f.record g
    if st.flight.op = Op.plain then
      ({ s with free := st.s.free }, { f with
        writes := st.flight.writes, marks := st.flight.marks, res := st.flight.res, amax := st.flight.amax, recomps := st.flight.recomps })
    else (s, f)
  | _, _ => (s, f)

/-- The flight's work is over, and it completes (R55); a flight whose work goes on stays. -/
def finishFlight (s : State) (j : Job) (q : Queue) (i : Nat) (f : Flight) : State :=
  match f.op with
  | .plain =>
    if channelWait s q.ref f then s
    else
      let (s, f) := reread s j q f
      s.completeAt j.id q i f
  | .vrun v => if bits f.record 146 16 ≤ v.iter then s.completeAt j.id q i f else s
  | .stream w =>
    if streamOver w && !(w.down && tilesHeld s w.desc) then
      ((streamEnd s j.id w).completeAt j.id q i { f with res := streamRes j w }).noteWaits j.id q.ref
    else s
  | .bucket tag => s.ringFinish j.id q i f tag
  | .edgeOpen e =>
    if (j.edge? e).all (fun x => decide (x.st = EdgeState.opened) || decide (x.st = EdgeState.closed)) then
      s.completeAt j.id q i f
    else s
  | .pipeStop => if stopOver j then (s.unbindAll j.id).completeAt j.id q i f else s
  | .feed slot mbs buddy => if mirrorOnWay s j buddy then s else (feedArrive s j.id slot mbs).completeAt j.id q i f
  | .replay => if j.strand.pipe.st = PipeState.replaying then s else s.completeAt j.id q i f
  | .move _ => s
  | .held _ _ _ => s
  | .norm => s
  | .pipeStart => s
  | .seal => s
  | .tandem => s

/-- Flight i of a queue of the running job; a tile completes in order (R47). -/
def commandComplete (ref : QRef) (i : Nat) (s : State) : State :=
  match if dieHeld s (engDie ref) then none else s.runJob with
  | none => s
  | some j =>
    match j.queue? ref with
    | none => s
    | some q =>
      match q.flight[i]? with
      | none => s
      | some f => if ref.eng = engTile ∧ i ≠ 0 then s else finishFlight s j q i f

/-- COMMAND_COMPLETE (R55). -/
def execCommandComplete (q : QRef) (i : Nat) (s : State) : Host.Outcome State Fault Refusal := done s (commandComplete q i s)

/-! ## COMPLETION_RING_RETRY -/

/-- Records kept back are written while the ring has room, each followed by its signal; with none left, FULL clears (R61). -/
def State.retryHeld (s : State) (jid : Nat) (ref : QRef) : Nat → State
  | 0 => s
  | k + 1 =>
    match (s.job? jid).bind (fun j => j.queue? ref) with
    | none => s
    | some q =>
      match q.held with
      | [] => s
      | h :: rest =>
        if h.need && !s.ringRoom q then s
        else
          let s := s.updJob jid (fun j => j.setQueue { q with held := rest, full := !rest.isEmpty })
          let s := if h.need then s.putRecord jid { q with held := rest } h.crec else s
          let s := s.signal h.sigOp h.sigCtr h.sigVal
          State.retryHeld (if h.irq then s.irq 1 else s) jid ref k

/-- The engine of a queue, unless its die holds, reads the head word again: for the running job, and for one whose end waits for its
records. -/
def retryRing (ref : QRef) (s : State) : State :=
  if dieHeld s (engDie ref) then s
  else s.jobs.foldl (fun s j =>
    if s.running = some j.id ∨ j.st = JobState.draining then
      s.retryHeld j.id ref (((j.queue? ref).map (fun q => q.held.length)).getD 0)
    else s) s

/-- COMPLETION_RING_RETRY (R61). -/
def execCompletionRingRetry (q : QRef) (s : State) : Host.Outcome State Fault Refusal := done s (retryRing q s)

end Sys2Proof.Machine
end

