-- ==== Sys2Proof/Machine/Commands.lean ====
section
/-! DEFINITION. The commands of the queues as the engines take them up: the kinds of command, arbitration between the queues of an
engine (R50), the fetch of a record (R47, R56), COMMAND_WAIT_SATISFIED (R53, R56), and the command row of each kind. -/
namespace Sys2Proof.Machine

/-! ## Arbitration (R50) -/

/-- The record that a queue has fetched could go on now: a peer has refused it, or what it waited for has come and no exchange of its
check 4 is under way. -/
def canGo (s : State) (j : Job) (q : Queue) : Bool :=
  !dieHeld s (engDie q.ref) && q.cur.any (fun w => (specOf (hKind w.record)).any (fun sp =>
    w.asks.any (fun a => a.2.any (fun c => c != 0 && c != eLinkDown)) || (!w.begun && !stays sp s j q w)))

/-- A queue's head list is ready (R50): its next record can be fetched, or the one it holds could go on. -/
def couldGo (s : State) (j : Job) (q : Queue) : Bool := canFetch q || canGo s j q

/-! ## Fetching a record -/

/-- A command row: the engine of queue `ref` of the running job fetches its next record, if it is of this kind or of no kind
its engine accepts, checks it, and starts it or leaves it waiting (R47, R56, R57). -/
def issue (sp : CmdSpec) (ref : QRef) (s : State) : State :=
  match s.runJob with
  | none => s
  | some j =>
    match j.queue? ref with
    | none => s
    | some q =>
      match q.lists with
      | [] => s
      | l :: _ =>
        let r := s.num (l.addr + 64 * q.pos) 64
        let known := accepts ref.eng (hKind r)
        if holding s j || dieHeld s (engDie ref) || !canFetch q || (known && hKind r != sp.kind) || !sp.fetch s j q r ||
            !myTurn s j ref (couldGo s j) then s
        else
          let r := if known then sp.whole s r else r
          let hdr := hdrChecks j ref.eng r (decide (l.count ≤ q.pos + 1))
          let cks := if known then hdr ++ sp.checks s j q r else hdr
          match firstFail cks 0 7 with
          | some f => rejectTurn s q ref j.id r f
          | none =>
            let (s, asks) := sp.asks (s.takeTurn ref) j q r
            let w : Waiting := { record := r, asks := asks }
            let q := { q with cur := some w }
            let j := j.setQueue q
            tryStart sp (s.updJob j.id (fun j => j.setQueue q)) j q w

/-! ## COMMAND_WAIT_SATISFIED -/

/-- The record that a queue of the running job has fetched starts, if what it waited for has come (R53, R56 checks 4
and 5) and no queue of its engine goes first (R50). -/
def resume (ref : QRef) (s : State) : State :=
  match s.runJob with
  | none => s
  | some j =>
    match j.queue? ref with
    | none => s
    | some q =>
      match q.cur with
      | none => s
      | some w =>
        match specOf (hKind w.record) with
        | none => s
        | some sp =>
          if !myTurn s j ref (couldGo s j) then s
          else if canGo s j q then tryStart sp (s.takeTurn ref) j q w
          else tryStart sp s j q w

/-- COMMAND_WAIT_SATISFIED (R53, R56). -/
def execCommandWaitSatisfied (q : QRef) (s : State) : Host.Outcome State Fault Refusal := done s (resume q s)

/-! ## The command rows -/

/-- NOP (R48). -/
def execNop (q : QRef) (s : State) : Host.Outcome State Fault Refusal := done s (issue (plainSpec 0x00) q s)
/-- WAIT (R48). -/
def execWait (q : QRef) (s : State) : Host.Outcome State Fault Refusal := done s (issue (plainSpec 0x01) q s)
/-- SIGNAL (R48). -/
def execSignal (q : QRef) (s : State) : Host.Outcome State Fault Refusal := done s (issue (plainSpec 0x02) q s)
/-- PUSH_LIST (R49). -/
def execPushList (q : QRef) (s : State) : Host.Outcome State Fault Refusal := done s (issue pushSpec q s)
/-- QUEUE_CONTROL (R57). -/
def execQueueControl (q : QRef) (s : State) : Host.Outcome State Fault Refusal := done s (issue ctlSpec q s)
/-- MM (R112). -/
def execMm (q : QRef) (s : State) : Host.Outcome State Fault Refusal := done s (issue mmSpec q s)
/-- ACC_INIT (R113). -/
def execAccInit (q : QRef) (s : State) : Host.Outcome State Fault Refusal := done s (issue initSpec q s)
/-- ACC_DRAIN (R115). -/
def execAccDrain (q : QRef) (s : State) : Host.Outcome State Fault Refusal := done s (issue drainSpec q s)
/-- ATTN_STEP (R119). -/
def execAttnStep (q : QRef) (s : State) : Host.Outcome State Fault Refusal := done s (issue attnSpec q s)
/-- ATTN_FINAL (R121). -/
def execAttnFinal (q : QRef) (s : State) : Host.Outcome State Fault Refusal := done s (issue finalSpec q s)
/-- VPROG_LOAD (R129). -/
def execVprogLoad (q : QRef) (s : State) : Host.Outcome State Fault Refusal := done s (issue vpSpec q s)
/-- VRUN (R144): the run starts; its instructions are issued by their own commands. -/
def execVrun (q : QRef) (s : State) : Host.Outcome State Fault Refusal := done s (issue vrSpec q s)
/-- MOVE (R170). -/
def execMoveData (q : QRef) (s : State) : Host.Outcome State Fault Refusal := done s (issue moveSpec q s)
/-- FILL (R172). -/
def execFill (q : QRef) (s : State) : Host.Outcome State Fault Refusal := done s (issue fillSpec q s)
/-- WSTREAM (R190-R193, R201). -/
def execWstream (q : QRef) (s : State) : Host.Outcome State Fault Refusal := done s (issue wsSpec q s)
/-- STAGE_BIND (R210). -/
def execStageBind (q : QRef) (s : State) : Host.Outcome State Fault Refusal := done s (issue stageSpec q s)
/-- EDGE_BIND (R217). -/
def execEdgeBind (q : QRef) (s : State) : Host.Outcome State Fault Refusal := done s (issue edgeSpec q s)
/-- PIPE_START (R245, R247). -/
def execPipeStart (q : QRef) (s : State) : Host.Outcome State Fault Refusal := done s (issue pipeSpec q s)
/-- FEED_POST (R240, R247). -/
def execFeedPost (q : QRef) (s : State) : Host.Outcome State Fault Refusal := done s (issue feedSpec q s)
/-- VERSION_PUBLISH (R236). -/
def execVersionPublish (q : QRef) (s : State) : Host.Outcome State Fault Refusal := done s (issue publishSpec q s)
/-- SCHED_POLICY_SET (R225, R62). -/
def execSchedPolicySet (q : QRef) (s : State) : Host.Outcome State Fault Refusal := done s (issue policySpec q s)
/-- EDGE_REPOINT (R239). -/
def execEdgeRepoint (q : QRef) (s : State) : Host.Outcome State Fault Refusal := done s (issue repointSpec q s)
/-- REPLAY_STEP (R241). -/
def execReplayStep (q : QRef) (s : State) : Host.Outcome State Fault Refusal := done s (issue replaySpec q s)
/-- PIPE_STOP (R246). -/
def execPipeStop (q : QRef) (s : State) : Host.Outcome State Fault Refusal := done s (issue stopSpec q s)
/-- GROUP_BIND (R253). -/
def execGroupBind (q : QRef) (s : State) : Host.Outcome State Fault Refusal := done s (issue groupSpec q s)
/-- RESHARD (R274). -/
def execReshard (q : QRef) (s : State) : Host.Outcome State Fault Refusal := done s (issue reshardSpec q s)
/-- GROUP_REPOINT (R278). -/
def execGroupRepoint (q : QRef) (s : State) : Host.Outcome State Fault Refusal := done s (issue gpointSpec q s)
/-- REDUCE (R256-R271). -/
def execReduce (q : QRef) (s : State) : Host.Outcome State Fault Refusal := done s (issue reduceSpec q s)
/-- GATHER (R272, R273). -/
def execGather (q : QRef) (s : State) : Host.Outcome State Fault Refusal := done s (issue gatherSpec q s)
/-- NORM_CLOSE (R269). -/
def execNormClose (q : QRef) (s : State) : Host.Outcome State Fault Refusal := done s (issue closeSpec q s)
/-- LOCKET_BIND (R355). -/
def execLocketBind (q : QRef) (s : State) : Host.Outcome State Fault Refusal := done s (issue locketSpec q s)
/-- LOCKET_SEAL (R357). -/
def execLocketSeal (q : QRef) (s : State) : Host.Outcome State Fault Refusal := done s (issue sealSpec q s)
/-- CKPT_INTERVAL_SET (R361, R62). -/
def execCkptIntervalSet (q : QRef) (s : State) : Host.Outcome State Fault Refusal := done s (issue ckptSpec q s)
/-- TANDEM (R363). -/
def execTandem (q : QRef) (s : State) : Host.Outcome State Fault Refusal := done s (issue tandemSpec q s)
/-- GEAR_TABLE_LOAD (R376). -/
def execGearTableLoad (q : QRef) (s : State) : Host.Outcome State Fault Refusal := done s (issue gearSpec q s)
/-- TIMETABLE_LOAD (R335). -/
def execTimetableLoad (q : QRef) (s : State) : Host.Outcome State Fault Refusal := done s (issue ttSpec q s)

end Sys2Proof.Machine
end

