-- ==== Sys2Proof/Machine/Park.lean ====
section
/-! DEFINITION. The park region and the state it holds (R338 phases 2 to 5, R339). The region's layout is the model's (DESIGN CHOICE, log
128): scratch of all tiles, accumulators, vector registers, mask registers, instruction stores, one after the other; behind them an image
of the job's Strand, queue and stream state, a free value: the model keeps that state in the job's own entry. -/
namespace Sys2Proof.Machine

/-- Offsets in the park region. -/
def parkAcc : Nat := 0x40000000
def parkVregs : Nat := 0x44000000
def parkMasks : Nat := parkVregs + 256 * 10240
def parkStore : Nat := parkMasks + 256 * 128
/-- Bytes of the tile part, and of the region (R339). -/
def parkTiles : Nat := parkStore + 256 * 2048
def parkBytes : Nat := 1092 * 0x100000

/-- The bytes of [a, a+n) copied to [b, b+n), the rest unchanged. -/
def Memory.copy (m : Memory) (a n b : Nat) : Memory :=
  m.takeWhile (fun c => decide (c.1 < b)) ++
    ((m.dropWhile (fun c => decide (c.1 < a))).takeWhile (fun c => decide (c.1 < a + n))).map (fun c => (c.1 - a + b, c.2)) ++
    m.dropWhile (fun c => decide (c.1 < b + n))

/-- Entries of w bytes each, written from address a on over a cleared range of n bytes. -/
def Memory.table (m : Memory) (a n w : Nat) (l : List (Nat × Nat)) : Memory :=
  l.foldl (fun m e => m.write (a + e.1 * w) (leBytes w e.2)) (m.clear a n)

/-- The nonzero entries of w bytes each that lie in [a, a+n). -/
def Memory.entries (m : Memory) (a n w : Nat) : List (Nat × Nat) :=
  ((m.dropWhile (fun c => decide (c.1 < a))).takeWhile (fun c => decide (c.1 < a + n))).foldl
    (fun l c => sput 0 l ((c.1 - a) / w) (sget 0 l ((c.1 - a) / w) + c.2.toNat * 256 ^ ((c.1 - a) % w))) []

namespace State

/-- Tile state cleared (R126, R338). -/
def clearTiles (s : State) : State :=
  { s with
    mem := (s.mem.clear scratchBase 0x40000000).clear accBase 0x4000000
    tiles := { s.tiles with vregs := [], masks := [], istore := [] } }

/-- The outgoing job's state written to its park region, whose units lose their marks: tile state, and behind it the Strand, queue and
stream state in the module's layout, which is a free value. -/
def saveTiles (s : State) (p : Nat) : State :=
  let m := (s.mem.copy scratchBase 0x40000000 p).copy accBase 0x4000000 (p + parkAcc)
  let m := m.table (p + parkVregs) (256 * 10240) 5 (s.tiles.vregs.map (fun e => (e.1, e.2.toNat)))
  let m := m.table (p + parkMasks) (256 * 128) 16 (s.tiles.masks.map (fun e => (e.1, e.2.toNat)))
  let m := m.table (p + parkStore) (256 * 2048) 8 (s.tiles.istore.map (fun e => (e.1, e.2.toNat)))
  let m := m.write (p + parkTiles) ((Config.parkImage s.free).take (parkBytes - parkTiles))
  { (s.marksAfter p parkBytes) with mem := m, free := s.free + 1 }

/-- Each element of a list with a stretch of `k` free values of its own, from count `at_` on. -/
def eachFree {α : Type} (at_ k : Nat) (f : (Nat → Nat) → α → α) (l : List α) : List α :=
  ((List.range l.length).zip l).map (fun p => f (fun i => Config.freeNat (at_ + k * p.1 + i)) p.2)

/-- The Strand, queue and stream state of a job becomes undefined (R339): the counts and version slots of its stages, the places of its groups,
the credits and entries of its edges, the lists of its queues and the place in them, the chunks of its streams. -/
def loseStrand (s : State) (jid : Nat) : State :=
  match s.job? jid with
  | none => s
  | some j =>
    let n := s.free
    let st := j.strand
    let slot (v : Nat → Nat) (x : VerSlot) : VerSlot := { x with num := v 0 % 2 ^ 16, count := v 1 }
    let stage (v : Nat → Nat) (t : Stage) : Stage :=
      { t with fDone := v 0, bDone := v 1, wDone := v 2, slots := t.slots.map (slot (fun i => v (3 + i))) }
    let group (v : Nat → Nat) (g : Group) : Group := { g with fwd := v 0, bwd := v 1, deferred := [] }
    let dir (v : Nat → Nat) (d : EdgeDir) : EdgeDir := { d with
      credits := v 0, released := v 1
      send := d.send.map (fun e => { e with n := v 2 }), recv := d.recv.map (fun e => { e with n := v 3 }) }
    let edge (v : Nat → Nat) (e : Edge) : Edge :=
      { e with fwd := dir v e.fwd, bwd := dir (fun i => v (4 + i)) e.bwd, feedNext := v 8 }
    let stream (v : Nat → Nat) (f : Flight) : Flight :=
      match f.op with
      | .stream w => { f with op := .stream { w with issued := v 0, signalled := v 1 } }
      | _ => f
    let queue (v : Nat → Nat) (q : Queue) : Queue := { q with
      pos := v 0, lists := q.lists.map (fun l => { l with addr := v 1, count := v 2 }), flight := q.flight.map (stream (fun i => v (3 + i))) }
    let strand := { st with
      stages := eachFree n 5 stage st.stages, groups := eachFree (n + 5 * st.stages.length) 2 group st.groups
      edges := eachFree (n + 5 * st.stages.length + 2 * st.groups.length) 9 edge st.edges }
    let m := n + 5 * st.stages.length + 2 * st.groups.length + 9 * st.edges.length
    { (s.updJob jid (fun j => { j with queues := eachFree m 5 queue j.queues, strand := strand })) with
      free := m + 5 * j.queues.length }

/-- Units of a park region that cannot be restored hold undefined bytes (R339). -/
def fillUndefined (s : State) (us : List (Nat × Mark)) : State :=
  us.foldl (fun s u =>
    let (bs, s) := s.drawBytes 64
    { s with mem := s.mem.write (u.1 * 64) bs }) s

/-- The incoming job's tile state read from its park region. -/
def loadTiles (s : State) (p : Nat) : State :=
  let m := s.mem
  { s with
    mem := (m.copy p 0x40000000 scratchBase).copy (p + parkAcc) 0x4000000 accBase
    tiles := { s.tiles with
      vregs := (m.entries (p + parkVregs) (256 * 10240) 5).map (fun e => (e.1, BitVec.ofNat 40 e.2))
      masks := (m.entries (p + parkMasks) (256 * 128) 16).map (fun e => (e.1, BitVec.ofNat 128 e.2))
      istore := (m.entries (p + parkStore) (256 * 2048) 8).map (fun e => (e.1, BitVec.ofNat 64 e.2)) } }

end State
end Sys2Proof.Machine
end

