-- ==== Sys2Proof/Machine/TileMap.lean ====
section
/-! DEFINITION. The spares map of the tiles (R9, R342-R344): a spare tile of the same die takes a logical tile's place. -/
namespace Sys2Proof.Machine
namespace State

/-- A tile's state at a spare that takes its place: scratch, accumulators and vector state are zero (R344). -/
def clearTile (s : State) (l : Nat) : State :=
  { s with
    mem := (s.mem.clear (scratchAddr l 0) 0x400000).clear (accAddr l 0 0) 0x40000
    tiles := { s.tiles with
      vregs := s.tiles.vregs.filter (fun e => e.1 / 2048 != l)
      masks := s.tiles.masks.filter (fun e => e.1 / 8 != l)
      istore := s.tiles.istore.filter (fun e => e.1 / 256 != l) } }

/-- Unused tiles of a die, physical, in order: neither bound nor failed, and flagged by wear trending or not, as asked. -/
def unusedTiles (s : State) (die : Nat) (flagged : Bool) : List Nat :=
  (rangeFrom (72 * die) 72).filter (fun p => !s.parts.map.contains p && !s.parts.failed.contains p && s.parts.flagged.contains p == flagged)

/-- Usable spare tiles of a die in the order in which they take a failed tile's place. DESIGN CHOICE (log 91): one that wear trending has
flagged is still usable, and comes after every other. -/
def spareTiles (s : State) (die : Nat) : List Nat := s.unusedTiles die false ++ s.unusedTiles die true

/-- A logical tile bound to another physical tile, with its ledger record (R403). Causes: 0 BIST, 1 RUN, 2 wear. -/
def mapTile (s : State) (l new cause : Nat) : State :=
  let old := s.parts.map.getD l 0
  let s := { s with parts := { s.parts with
    map := s.parts.map.set l new, banks := s.parts.banks.filter (fun b => b.1 != l) } }
  (s.clearTile l).ledger 0x01 (leBytes 8 (Machine.place 0 2 (l / 64) + Machine.place 2 6 (l % 64) + Machine.place 8 7 (old % 72) +
    Machine.place 16 7 (new % 72) + Machine.place 24 2 cause))

/-- Flagged tiles give way to spares while no job is admitted and their die keeps two unused spares (R343). -/
def substituteFlagged (s : State) : State :=
  if s.jobs.any Job.admitted then s
  else
    (List.range s.parts.map.length).foldl (fun s l =>
      if !s.parts.flagged.contains (s.parts.map.getD l 0) then s
      else
        match s.unusedTiles (l / 64) false with
        | p :: _ :: _ => s.mapTile l p 2
        | _ => s) s

end State
end Sys2Proof.Machine
end

