-- ==== Sys2Proof/Machine/Sched.lean ====
section
/-! DEFINITION. Which job runs (R327-R341): eligibility, ranks, stopping, the switch, job end, and the switch instants of
multi-module jobs. Times are fabric time in 10 ns units. -/
namespace Sys2Proof.Machine

/-! ## Eligibility and choice (R331, R332) -/

/-- The window in force, with its index; none without a timetable. A window that a charged stop time has opened early stays in force
(R331, R337). -/
def windowNow (s : State) : Option (Nat × Window) :=
  s.sched.table.map (fun t =>
    let w := match s.sched.early with
      | some (w, until_) => if s.fabric < until_ then w else t.inForce s.sched.charges s.fabric
      | none => t.inForce s.sched.charges s.fabric
    (w, t.win w))

/-- A window of the timetable names the job. -/
def namedByWindow (s : State) (jid : Nat) : Bool := s.sched.table.any (fun t => t.windows.any (fun w => w.job == jid))

/-- R331. -/
def eligible (s : State) (j : Job) : Bool :=
  match windowNow s with
  | none => true
  | some (i, w) =>
    if w.job = 0 then !namedByWindow s j.id
    else if w.job = j.id then !s.sched.skipped.contains i
    else !w.rt && (j.rank == 3 || j.rank == 4)

/-- Admitted jobs that wait, in order of admission. -/
def waitingJobs (s : State) : List Job := s.jobs.filter (fun j => decide (j.st = JobState.parked))

/-- The rank with which a job competes: in its own window that of its class (R331). -/
def rankNow (s : State) (j : Job) : Nat := if (windowNow s).any (fun w => w.2.job == j.id) then j.cls else j.rank

/-- The job of highest rank, the earlier admission on a tie. -/
def bestOf (rank : Job → Nat) : List Job → Option Job
  | [] => none
  | j :: t =>
    match bestOf rank t with
    | none => some j
    | some k => if rank j < rank k then some k else some j

def choiceOf (s : State) : Option Job := bestOf (rankNow s) ((waitingJobs s).filter (eligible s))

/-- The choice among the waiting jobs and the one that runs, which is being stopped. -/
def choiceAt (s : State) (r : Job) : Option Job :=
  bestOf (rankNow s) (s.jobs.filter (fun j => (decide (j.st = JobState.parked) || j.id == r.id) && eligible s j))

/-- The job is admitted on more than one module: its route table names another (R333). -/
def multiModule (j : Job) : Bool := j.routes.any (fun r => r.ports != 0)

/-- A real-time window is in force: no job is stopped but at the end of its span (R332). -/
def rtNow (s : State) : Bool := (windowNow s).any (fun w => w.2.rt)

/-- A named window is in force: its stop times, not requests, move multi-module jobs (R333). -/
def namedNow (s : State) : Bool := (windowNow s).any (fun w => w.2.job != 0)

namespace State

/-- A job whose lead and deputy are both unreachable is neither stopped nor started (R333). -/
def headless (s : State) (j : Job) : Bool := multiModule j && (s.leadNow j).isNone

/-- A multi-module job may start here: a window names it, or its start instant has come (R333). -/
def mayStart (s : State) (j : Job) : Bool :=
  !multiModule j ||
  (!s.headless j && ((windowNow s).any (fun w => w.2.job == j.id) || j.inst.startAt.any (fun t => decide (t ≤ s.fabric))))

def updInst (s : State) (jid : Nat) (f : Instants → Instants) : State := s.updJob jid (fun j => { j with inst := f j.inst })

/-- A switch or start request to the lead, once until it is answered. -/
def askSwitch (s : State) (j : Job) (start : Bool) (rank : Nat) : State :=
  if (if start then j.inst.askedStart else j.inst.askedStop) || namedNow s then s
  else match s.leadNow j with
    | none => s
    | some m =>
      (s.send m (.switchRequest { src := s.mod.id, job := j.id, start := start, rank := rank, at_ := 0 })).updInst j.id
        (fun (x : Instants) => if start then { x with askedStart := true } else { x with askedStop := true })

/-- The running job is to stop: at its command boundary if `hard`, else at its yield point, for which the engine stops choosing
items (R332, R242). -/
def stopJob (s : State) (t : Stop) : State :=
  let s := { s with sched := { s.sched with stop := some t } }
  if t.hard then s else s.updPipe t.job (fun p => { p with stopped := true })

def beginSwitch (s : State) (out inc : Option Nat) : State := { s with sched := { s.sched with switch := some { outgoing := out, incoming := inc } } }

/-- A job admitted with CLASS URGENT that has not run stops the running one at its next command boundary (R332). -/
def urgent (c : Job) : Bool := c.cls == 3 && !c.hasRun

/-- The module compares the running job with the best waiting one (R332, R333, R341); an urgent job brings a stop that is under way for
the yield point to the next command boundary. -/
def reexamine (s : State) : State :=
  if s.sched.switch.isSome then s
  else match choiceOf s with
    | none => s
    | some c =>
      match s.runJob with
      | none => if mayStart s c then s.beginSwitch none (some c.id) else s.askSwitch c true c.rank
      | some r =>
        if decide (r.st = JobState.draining) || decide (rankNow s c ≤ rankNow s r) || rtNow s then s
        else match s.sched.stop with
          | some t =>
            if urgent c && mayStart s c && !multiModule r then { s with sched := { s.sched with stop := some { t with hard := true } } }
            else s
          | none =>
            if !mayStart s c then s.askSwitch c true c.rank
            else if multiModule r then s.askSwitch r false c.rank
            else
              s.stopJob { job := r.id, at_ := s.fabric, window := none
                          hard := urgent c || decide (r.strand.pipe.st = PipeState.idle) }

end State

/-! ## The end of a job (R340) -/

/-- Every engine has completed its present command, and every stream stands between two chunks (R332, R206). -/
def atBoundary (j : Job) : Bool :=
  j.queues.all (fun q => q.flight.all (fun f =>
    match f.op with
    | .stream w => w.chunks.isEmpty && w.held.isNone
    | _ => false))

namespace State

/-- Steps 1 and 2: draining; lists and records not started are discarded. -/
def endBegin (s : State) (jid : Nat) : State :=
  let s := s.updJob jid (fun j => { j with
    st := .draining
    queues := j.queues.map (fun (q : Queue) => { q with lists := [], pos := 0, cur := none, halted := false })
    strand := { j.strand with groups := j.strand.groups.map (fun (g : Group) => { g with out := none }) } })
  if s.sched.stop.any (fun t => t.job == jid) then { s with sched := { s.sched with stop := none } } else s

/-- Step 3: a command of the job is outstanding on the engines, where the job is the one that runs. -/
def outstanding (s : State) (j : Job) : Bool := decide (s.running = some j.id) && j.queues.any (fun q => !q.flight.isEmpty)

/-- Step 4: the edges close as by PIPE_STOP. -/
def closeEdges (s : State) (jid : Nat) : State :=
  match s.job? jid with
  | none => s
  | some j =>
    if decide (j.strand.pipe.st = PipeState.idle) || decide (j.strand.pipe.st = PipeState.stopping) then s else s.stopBegin jid

/-- Step 6: the cancel's second record, where the job binds a job-control queue (R65). -/
def cancelRecord (s : State) (j : Job) : State :=
  match j.cancel with
  | none => s
  | some (tag, idx) =>
    s.report j.id ⟨engJob, 0, 0⟩ true
      { crec := mkRecord 0 idx j.id 2 {} 0xFFFF 0xFFFF tag s.now, sigOp := 0, sigCtr := 0, sigVal := 0, irq := false }

/-- Step 7; flagged tiles give way when no job is left (R343), and the choice is made again (R332). -/
def freeJob (s : State) (jid : Nat) : State :=
  let s := { s with
    jobs := s.jobs.filter (fun j => j.id != jid)
    running := if s.running = some jid then none else s.running
    pwr := { s.pwr with
      pedals := s.pwr.pedals.filter (fun p => p.job != jid)
      energy := match s.jobs.findIdx? (fun (k : Job) => k.id == jid) with
        | some i => s.pwr.energy.eraseIdx i ++ [0]
        | none => s.pwr.energy } }
  s.substituteFlagged.reexamine

/-- Steps 5 to 7: once the edges are closed the second records go out; the job is gone when they are written. -/
def endFinish (s : State) (jid : Nat) : State :=
  match s.job? jid with
  | none => s
  | some j =>
    if !(decide (j.strand.pipe.st = PipeState.idle) || stopOver j) then s
    else
      let s := j.deferrals.foldl (fun s d =>
        if d.kind = DeferKind.jobCancel then s else s.secondRecord jid d eJob 0) s
      let s := s.cancelRecord j
      let s := s.updJob jid (fun j => { j with deferrals := [], cancel := none })
      if (s.job? jid).any (fun j => j.queues.all (fun q => q.held.isEmpty)) then s.freeJob jid else s

/-- Steps 3 to 7 of an end in progress. -/
def endAdvance (s : State) (jid : Nat) : State :=
  match s.job? jid with
  | none => s
  | some j => if decide (j.st ≠ JobState.draining) || s.outstanding j then s else (s.closeEdges jid).endFinish jid

def endJob (s : State) (jid : Nat) : State := (s.endBegin jid).endAdvance jid

/-! ## Starting and stopping (R338, R339) -/

/-- A cancel of the job waits for its next yield point. -/
def cancelWaits (j : Job) : Bool := j.deferrals.any (fun d => decide (d.kind = DeferKind.jobCancel))

/-- A job starts to run: rank of its class, item choice resumed (R330) unless a cancel waits (R340). -/
def startRun (s : State) (jid : Nat) : State :=
  { (s.updJob jid (fun j =>
      let p := j.strand.pipe
      { j.setPipe { p with stopped := cancelWaits j } with
        st := .running, hasRun := true, rank := j.cls, inst := { j.inst with startAt := none, askedStart := false } })) with
    running := some jid }

/-- The job that is stopped leaves the engines. -/
def parkJob (s : State) (j : Job) : State :=
  { (s.updJob j.id (fun j => { j with st := .parked })) with running := none, sched := { s.sched with stop := none } }

/-- Phases 2 and 3: the state of the outgoing job goes to its park region, unless it has none or has ended. -/
def saveOutgoing (s : State) (out : Option Nat) : State :=
  match out.bind s.job? with
  | none => s
  | some j => if j.parkAddr = 0 ∨ j.st ≠ JobState.parked then s else s.saveTiles j.parkAddr

/-- Phase 1 is not over: an entry, notice or credit of VC1 or VC2 that starts here is not acknowledged. -/
def stageUnacked (s : State) : Bool :=
  let mine (f : SpokeFlit) : Bool := fSrc f == s.mod.id && (lvcOrigin (fLvc f) == 1 || lvcOrigin (fLvc f) == 2)
  s.ports.any (fun p => p.txq.any (fun q => mine q.flit) || p.replay.any (fun q => mine q.flit)) ||
  s.spoke.parked.any (fun x => mine x.flit) || s.spoke.bundles.any (fun b => (b.waiting.getD []).any (fun q => mine q.flit))

/-- The tile state of a job that has run before, out of its park region; what cannot be read marks the step poisoned, or ends a
job whose pipeline is IDLE (R339). -/
def restoreJob (s : State) (j : Job) : State :=
  let bad := s.badUnits j.parkAddr parkBytes
  if bad.isEmpty then (s.correct j.parkAddr parkBytes).loadTiles j.parkAddr
  else
    let s' := (((s.correct j.parkAddr parkBytes).meetBad j.id bad).fillUndefined bad).loadTiles j.parkAddr
    if j.strand.pipe.st = PipeState.idle then
      let a := ((bad.head?).map (fun u => u.1 * 64)).getD 0
      let s' := if bad.any (fun u => decide (u.2 = Mark.uncorr)) then s'
        else s'.log eUncorr 7 (s.faultChannel a) j.id (s.memDetail a)
      s'.endJob j.id
    else
      (if bad.any (fun u => decide (j.parkAddr + parkTiles ≤ 64 * u.1)) then s'.loseStrand j.id else s').updPipe j.id
        (fun p => p.taint p.step)

/-- Remote edges that an incoming job re-opens with their peers (R338 phase 7); one whose peer cannot be reached goes DOWN instead. -/
def reopening (s : State) (j : Job) : List Edge :=
  j.strand.edges.filter (fun e => gRemote e.desc && decide (e.st = EdgeState.opened) && s.reachable j 0 (j.alias? e.peerMod))

/-- Opening notices to the peers of these edges, whose answers are awaited. -/
def reopenEdges (s : State) (jid : Nat) : State :=
  match s.job? jid with
  | none => s
  | some j =>
    let es := s.reopening j
    let s := es.foldl (fun s e => s.updEdge jid e.slot (fun e => { e with answer := none })) s
    es.foldl (fun s e => s.send (j.alias? e.peerMod) (.openingNotice (openMsg s j e false))) s

end State

/-! ## YIELD_POINT, COMMAND_BOUNDARY, SWITCH_COMPLETE -/

abbrev cancelPending (j : Job) : Bool := State.cancelWaits j

/-- At the yield point of the running job a cancel ends it; a stop goes on to the command boundary (R242, R340, R332). -/
def yieldPoint (s : State) : State :=
  match s.runJob with
  | none => s
  | some j =>
    let p := j.strand.pipe
    let here := if p.st = PipeState.idle then atBoundary j else p.stopped && j.quiet
    if !here || decide (j.st = JobState.draining) then s
    else if cancelPending j then s.endJob j.id
    else { s with sched := { s.sched with stop := s.sched.stop.map (fun t => if t.job = j.id then { t with hard := true } else t) } }

/-- YIELD_POINT (R242). -/
def execYieldPoint (s : State) : Host.Outcome State Fault Refusal := done s (yieldPoint s)

/-- The next window that names a job and that a stop time ends, from window w on. -/
def nextNamed (t : Timetable) (jid w : Nat) : Option Nat :=
  ((List.range t.windows.length).map (fun k => (w + k) % t.windows.length)).find? (fun v =>
    (t.win v).job == jid && t.boundary (t.after v))

namespace State

/-- Window record, log entry and charge of a stop whose overrun is O (R337). -/
def overrun (s : State) (jid : Nat) (st : Stop) : State :=
  let o := s.fabric - st.at_
  let logIt (s : State) (w : Nat) : State := s.log eOverrun 7 0 jid (Machine.place 0 5 w + Machine.place 32 32 (o / 100))
  match st.window, s.sched.table with
  | some w, some t =>
    let ovfs := decide ((t.win w).guardUs * 100 < o)
    let old := ((s.sched.records.find? (fun r => r.1 == w)).map (·.2)).getD (0, 0)
    let recs := s.sched.records.filter (fun r => r.1 != w) ++ [(w, (max o old.1, old.2 + boolNat ovfs))]
    let s := { s with sched := { s.sched with records := recs } }
    let s := if ovfs then logIt s w else s
    if (t.win (t.before w)).job = 0 then s
    else match nextNamed t jid w with
      | none => s
      | some v =>
        let free := s.sched.charges.filter (fun c => c.1 != v)
        let len := t.span free v
        let cs := free ++ [(v, min o (len - 1))]
        let skip := s.sched.skipped.filter (· != v)
        let skip := if len < 900000 + o then skip ++ [v] else skip
        { s with sched := { s.sched with charges := cs, skipped := skip } }
  | _, _ => if st.instant && o != 0 then logIt s 0 else s

end State

/-- The stopped job reaches its command boundary: it is parked, and the switch to the choice of R332 begins, or to the one that a window's
stop time made (R341). -/
def commandBoundary (s : State) : State :=
  match s.runJob, s.sched.stop with
  | some j, some st =>
    if st.job ≠ j.id ∨ !st.hard ∨ !atBoundary j ∨ j.st = JobState.draining then s
    else
      let s := (s.overrun j.id st).parkJob j
      let s := if cancelPending j then s.endJob j.id else s
      if s.sched.switch.isSome then s
      else
        let next := (st.next.bind s.job?).filter (fun k => decide (k.st = JobState.parked))
        match if st.chosen then next else next.orElse (fun _ => choiceOf s) with
        | some c =>
          if (!st.chosen && st.next = some c.id) || State.mayStart s c then s.beginSwitch (some j.id) (some c.id)
          else (s.beginSwitch (some j.id) none).askSwitch c true c.rank
        | none => s.beginSwitch (some j.id) none
  | _, _ => s

/-- COMMAND_BOUNDARY (R332, R337, R338). -/
def execCommandBoundary (s : State) : Host.Outcome State Fault Refusal := done s (commandBoundary s)

/-- In DRAIN the MSS reports the module to a job's lead as a straggler would (R421 step 2). -/
def State.reportDrain (s : State) (jid : Nat) : State :=
  match s.job? jid with
  | none => s
  | some j =>
    if j.admitted && !j.recov.drained then
      (s.send (s.reportTo j s.mod.id) (.stragglerReport s.mod.id jid j.strand.pipe.step)).updJob jid (fun j =>
        { j with recov := { j.recov with drained := true } })
    else s

/-- The switch ends: the incoming job runs, unless it has ended meanwhile. -/
def switchEnd (s : State) (jid : Nat) : State :=
  let s := { s with sched := { s.sched with switch := none } }
  match s.job? jid with
  | none => s.reexamine
  | some j =>
    if j.st ≠ JobState.parked then s.reexamine
    else
      let s := s.startRun jid
      (if decide (s.mod.st = MState.drain) && !s.mod.drainWait then s.reportDrain jid else s).reexamine

/-- The incoming job's tile state: cleared at its first run, else out of its park region (R338 phase 4). -/
def switchTiles (s : State) (j : Job) : State :=
  if !j.hasRun then s.clearTiles else if j.parkAddr = 0 then s else s.restoreJob j

/-- The cadence-lock report of a job at its lead (R380). -/
def lockMsg (s : State) (j : Job) (mean : Nat) (est : List (Nat × Nat)) : LockMsg :=
  { src := s.mod.id, job := j.id, gears := s.pwr.used, power := mean, critical := j.lock.critical
    estimate := if j.lock.ask then est.take 10 else [], cap := s.pwr.cap, budget := baseBudget s s.pwr.gear }

/-- Power to which phase 6 brings the module: the incoming job's last measured mean, within the budget (R383). -/
def switchLevel (s : State) : Nat :=
  match s.sched.switch with
  | some sw => if sw.raised && !sw.asked && sw.locking.isNone then
      ((sw.incoming.bind s.job?).map (fun j => min j.lock.mean (baseBudget s s.pwr.gear))).getD 0 else 0
  | none => 0

def State.setSwitch (s : State) (sw : Switch) : State := { s with sched := { s.sched with switch := some sw } }

/-- Phase 8: the module's first report goes to the lead, whose locks are awaited; a job on one module locks to itself, and without lead or
deputy the last locks stay (R380). -/
def switchLock (s : State) (sw : Switch) (j : Job) : State :=
  match if multiModule j then s.leadNow j else none with
  | none => switchEnd s j.id
  | some l => (s.send l (.lockReport (lockMsg s j s.pwr.power []))).setSwitch { sw with locking := some s.now }

/-- The locks of the first exchange have come, or 1 ms has gone by: the incoming job runs, with the locks that it has (R380). -/
def locksCame (s : State) (j : Job) (t : Nat) : Bool :=
  (j.lock.locks.isSome && decide (t ≤ j.lock.at_)) || (s.leadNow j).isNone || decide (t + 100000 ≤ s.now)

/-- Phase 7: remote edges are re-opened, and their peers' answers awaited; with none, phase 8. -/
def switchEdges (s : State) (sw : Switch) (j : Job) : State :=
  if (s.reopening j).isEmpty then switchLock s sw j
  else (s.setSwitch { sw with asked := true }).reopenEdges j.id

/-- The switch goes on, once no die is in a droop hold (R341): phase 1 over, the state out and in (phases 2 to 5); the power at the incoming
job's level (phase 6); remote edges re-opened and answered (phase 7); the first locks taken (phase 8); then the incoming job runs (R338). -/
def switchComplete (s : State) : State :=
  match s.sched.switch with
  | none => s
  | some sw =>
    if s.dies.any (fun d => d.hold.isSome) then s
    else if sw.raised then
      match sw.incoming.bind s.job? with
      | none => switchEnd s (sw.incoming.getD 0)
      | some j =>
        match sw.locking with
        | some t => if locksCame s j t then switchEnd s j.id else s
        | none =>
          if sw.asked then
            if (s.reopening j).any (fun e => !e.answer.any (answerOk s j e)) then s else switchLock s sw j
          else if s.pwr.power100 < switchLevel s then s
          else switchEdges s sw j
    else if s.stageUnacked then s
    else
      let s := s.saveOutgoing sw.outgoing
      match sw.incoming.bind s.job? with
      | none => ({ s with sched := { s.sched with switch := none } }).reexamine
      | some j =>
        let sw := { sw with raised := true }
        let s := (switchTiles s j).setSwitch sw
        if s.pwr.power100 < switchLevel s then s else switchEdges s sw j

/-- SWITCH_COMPLETE (R338). -/
def execSwitchComplete (s : State) : Host.Outcome State Fault Refusal := done s (switchComplete s)

/-! ## The timetable's stop times and aging (R330, R336) -/

/-- The span of the window before w ends at its stop time `at_`, and its charge is spent: w is in force from now on, also where the charge
has moved the stop time earlier. -/
def spanEnds (t : Timetable) (w at_ : Nat) (s : State) : State :=
  let p := t.before w
  let charge := ((s.sched.charges.find? (fun c => c.1 == p)).map (·.2)).getD 0
  { s with sched := { s.sched with
    window := w
    charges := s.sched.charges.filter (fun c => c.1 != p)
    early := if charge = 0 then none else some (w, at_ + charge)
    skipped := s.sched.skipped.filter (· != p) } }

/-- The stop time of window w arrives: the running job stops unless it stays the choice. A stop for a preemption goes on, and the switch
goes to the job of the window (R341); its overrun counts from this stop time (R336, R337). -/
def windowStop (w : Nat) (s : State) : State :=
  match s.sched.table with
  | none => s
  | some t =>
    let at_ := s.fabric - (t.phase s.fabric + t.frameLen - t.opens s.sched.charges w) % t.frameLen
    if t.inForce s.sched.charges s.fabric ≠ w ∨ !t.boundary w ∨ s.sched.window = w ∨ s.runJob.any s.headless then s
    else
      let s := spanEnds t w at_ s
      match s.runJob with
      | none => s.reexamine
      | some r =>
        if s.sched.switch.isSome || decide (r.st = JobState.draining) then s
        else match s.sched.stop with
          | some st =>
            { s with sched := { s.sched with stop := some { st with
                next := (choiceAt s r).map (·.id), chosen := true, at_ := at_, window := some w, instant := false } } }
          | none =>
            if eligible s r && (choiceOf s).all (fun c => decide (rankNow s c ≤ rankNow s r)) then s
            else s.stopJob { job := r.id, at_ := at_, window := some w, hard := true, next := (choiceOf s).map (·.id), chosen := true }

/-- WINDOW_STOP_TIME (R336). -/
def execWindowStopTime (w : Nat) (s : State) : Host.Outcome State Fault Refusal := done s (windowStop w s)

/-- An aging period has ended since the last aging step (R330). -/
def agingDue (s : State) : Bool :=
  match s.sched.table with
  | some t => t.frame s.fabric != t.frame s.sched.aged
  | none => decide (s.sched.aged + 10000000 ≤ s.fabric)

/-- A job that an aging period raises: it waits, is eligible, and is neither REALTIME nor named by a window. -/
def ages (s : State) (j : Job) : Bool :=
  decide (j.st = JobState.parked) && eligible s j && j.cls != 5 && !namedByWindow s j.id

/-- The rank after an aging step, up to 4. -/
def agedRank (r : Nat) : Nat := max r (min 4 (r + 1))

/-- An aging step of this module is reported to the lead of a multi-module job, which takes it (R333 step 5). -/
def State.reportAge (s : State) (j : Job) : State :=
  match s.leadNow j with
  | none => s
  | some m => s.send m (.switchRequest { src := s.mod.id, job := j.id, start := true, rank := agedRank j.rank, at_ := 0, aged := true })

/-- Waiting eligible jobs rise by one rank, up to 4 (R330); the steps of a multi-module job are its lead's. -/
def ageJobs (s : State) : State :=
  if !agingDue s then s
  else
    let old := s.jobs.filter (ages s)
    let s' := { s with
      sched := { s.sched with aged := s.fabric }
      jobs := s.jobs.map (fun (j : Job) => if ages s j && !multiModule j then { j with rank := agedRank j.rank } else j) }
    ((old.filter multiModule).foldl State.reportAge s').reexamine

/-- AGING_PERIOD (R330). -/
def execAgingPeriod (s : State) : Host.Outcome State Fault Refusal := done s (ageJobs s)

/-! ## Switch instants of multi-module jobs (R333) -/

/-- The modules of a job, this one first. -/
def jobModules (s : State) (j : Job) : List Nat :=
  s.mod.id :: (List.range 256).filter (fun m => m != s.mod.id && j.hasModule m)

/-- An instant 2 ms ahead goes to every module of the job. -/
def State.sendInstant (s : State) (j : Job) (start : Bool) : State :=
  let m : SwitchMsg := { src := s.mod.id, job := j.id, start := start, rank := j.rank, at_ := s.fabric + 200000 }
  let s := (jobModules s j).foldl (fun s d => s.send d (.switchInstant m)) s
  s.updInst j.id (fun (x : Instants) => { x with
    last := some s.fabric, due := x.due && start, starters := if start then [] else x.starters, first := if start then 0 else x.first })

/-- An instant of the job went out within the last 10 ms. -/
def recentInstant (s : State) (j : Job) : Bool := j.inst.last.any (fun t => decide (s.fabric < t + 1000000))

/-- The lead takes an aging step: every module of the job gets the rank that it now holds. -/
def State.takeAge (s : State) (j : Job) (rank : Nat) : State :=
  let m : SwitchMsg := { src := s.mod.id, job := j.id, start := true, rank := max j.rank (min 4 rank), at_ := 0, aged := true }
  (jobModules s j).foldl (fun s d => s.send d (.switchInstant m)) s

/-- A start request counts until every module has asked; its rank is the job's own. -/
def State.takeStart (s : State) (j : Job) (m : SwitchMsg) : State :=
  let s := s.updJob j.id (fun j => if j.st = JobState.parked then { j with rank := max j.rank m.rank } else j)
  let st := if j.inst.starters.contains m.src then j.inst.starters else j.inst.starters ++ [m.src]
  let s := s.updInst j.id (fun (x : Instants) => { x with
    starters := st, first := if x.starters.isEmpty then s.fabric else x.first })
  if (jobModules s j).all (fun d => st.contains d) && !recentInstant s j then s.sendInstant j true else s

/-- A stop instant is pending: it has been set and not yet reached. -/
def stopPending (s : State) (j : Job) : Bool := j.inst.stopAt.any (fun t => decide (s.fabric ≤ t))

/-- A request at the lead (R333): a stop request has the instant set, joins the pending one, or waits until 10 ms after the last. -/
def takeRequest (m : SwitchMsg) (s : State) : State :=
  match s.job? m.job with
  | none => s
  | some j =>
    if s.leadNow j ≠ some s.mod.id ∨ !j.admitted then s
    else if m.aged then s.takeAge j m.rank
    else if m.start then s.takeStart j m
    else if !recentInstant s j then s.sendInstant j false
    else if stopPending s j then s
    else s.updInst j.id (fun (x : Instants) => { x with due := true })

/-- A stop instant that had to wait is set 10 ms after the last one. -/
def State.instantTick (s : State) : State :=
  (s.jobs.filter (fun j => j.inst.due && !recentInstant s j && s.leadNow j == some s.mod.id)).foldl (fun s j => s.sendInstant j false) s

/-- SWITCH_REQUEST (R333). -/
def execSwitchRequest (m : SwitchMsg) (s : State) : Host.Outcome State Fault Refusal := done s (takeRequest m s)

/-- START_INSTANT_TIMEOUT: 10 ms after the first start request the lead sets the instant. -/
def startTimeout (job : Nat) (s : State) : State :=
  match s.job? job with
  | none => s
  | some j =>
    if j.inst.starters.isEmpty ∨ s.fabric < j.inst.first + 1000000 ∨ recentInstant s j then s else s.sendInstant j true

/-- START_INSTANT_TIMEOUT (R333). -/
def execStartInstantTimeout (job : Nat) (s : State) : Host.Outcome State Fault Refusal := done s (startTimeout job s)

/-- The instant comes to a module of the job, with the rank that the lead holds for it; or that rank alone, after an aging step, at which
the choice is made again (R332). -/
def takeInstant (m : SwitchMsg) (s : State) : State :=
  let t := s.updJob m.job (fun j =>
    if m.aged then (if j.st = JobState.parked then { j with rank := max j.rank m.rank } else j)
    else if m.start then
      { j with rank := if j.st = JobState.parked then max j.rank m.rank else j.rank, inst := { j.inst with startAt := some m.at_ } }
    else { j with inst := { j.inst with stopAt := some m.at_, askedStop := false } })
  if m.aged then t.reexamine else t

/-- SWITCH_INSTANT (R333). -/
def execSwitchInstant (m : SwitchMsg) (s : State) : Host.Outcome State Fault Refusal := done s (takeInstant m s)

/-- Fabric time reaches a job's instant. A stop instant stops it at its next command boundary; a start instant starts it if the window in
force allows it (R331), or has the running job stopped first; what a window's stop time chose stands (R341). -/
def instantReached (job : Nat) (s : State) : State :=
  match s.job? job with
  | none => s
  | some j =>
    match j.inst.stopAt, j.inst.startAt with
    | some t, _ =>
      if s.fabric < t ∨ s.headless j then s
      else
        let s := s.updInst job (fun (x : Instants) => { x with stopAt := none })
        if s.running = some job && s.sched.stop.isNone && j.admitted && !rtNow s then
          s.stopJob { job := job, at_ := t, window := none, hard := true, instant := true }
        else s
    | none, some t =>
      if s.fabric < t || decide (j.st ≠ JobState.parked) || s.sched.switch.isSome || s.headless j || s.runJob.any s.headless || !eligible s j then s
      else match s.runJob, s.sched.stop with
        | none, _ => s.beginSwitch none (some job)
        | some _, some st => if st.chosen then s else { s with sched := { s.sched with stop := some { st with next := some job } } }
        | some r, none =>
          if r.st = JobState.draining ∨ rtNow s then s
          else s.stopJob { job := r.id, at_ := t, window := none, hard := true, instant := true, next := some job }
    | none, none => s

/-- SWITCH_INSTANT_REACHED (R333). -/
def execSwitchInstantReached (job : Nat) (s : State) : Host.Outcome State Fault Refusal := done s (instantReached job s)

/-! ## DEFERRED_APPLY (R62) -/

/-- The boundary of a deferral has come: a major frame has begun since it was accepted, no job runs, or the running job without
a RUNNING training pipeline is at its command boundary; its group has drained. -/
def deferralDue (s : State) (j : Job) (d : Deferral) : Bool :=
  let frame := if d.due then some true else s.sched.table.map (fun t => t.frame s.fabric != t.frame d.since)
  match d.kind with
  | .reshard g => s.running == some j.id && !groupBusy j g
  | .gearTable =>
    match frame with
    | some b => b
    | none => s.runJob.all (fun r =>
        !(decide (r.strand.pipe.st = PipeState.running) && !r.strand.pipe.fwdOnly) && atBoundary r)
  | .timetable => frame.getD true
  | .jobCancel => decide (j.st = JobState.draining)
  | .schedPolicy => false
  | .ckptInterval => false

/-- A new timetable is about to take the place of the old one: deferrals whose boundary has come under the old one keep it (R63). -/
def State.keepDue (s : State) : State :=
  { s with jobs := s.jobs.map (fun (j : Job) => { j with deferrals := j.deferrals.map (fun (d : Deferral) =>
      { d with due := d.due || (decide (d.kind = DeferKind.gearTable ∨ d.kind = DeferKind.timetable) && deferralDue s j d) }) }) }

/-- A deferral is applied or failed; earlier ones of the job whose boundary has come go first (R63). -/
def applyDeferred (jid : Nat) (k : DeferKind) (s : State) : State :=
  match s.job? jid with
  | none => if k = DeferKind.jobCancel then (s.keys jid).foldl State.endAdvance s else s
  | some j =>
    match j.deferrals.find? (fun d => deferralDue s j d) with
    | none => if k = DeferKind.jobCancel then (s.keys jid).foldl State.endAdvance s else s
    | some d =>
      if d.kind ≠ k then s
      else match d.kind with
        | .reshard g =>
          let (s, code) := s.applyReshard jid g
          (s.dropDeferral jid k).secondRecord jid d code 0
        | .gearTable => s.applyGear jid d
        | .timetable => s.keepDue.applyTimetable jid d
        | .jobCancel => s.endAdvance jid
        | .schedPolicy => s
        | .ckptInterval => s

/-- DEFERRED_APPLY (R62). -/
def execDeferredApply (job : Nat) (k : DeferKind) (s : State) : Host.Outcome State Fault Refusal := done s (applyDeferred job k s)

end Sys2Proof.Machine
end

