-- ==== Sys2Proof/Machine/Spoke.lean ====
section
/-! DEFINITION. The Spoke ports' own steps (R282-R309): training, flits, acknowledgements, lanes, standby, transit, patches. -/
namespace Sys2Proof.Machine

namespace State

/-- Log entry of a port or lane (R408): port, lane, peer module. -/
def logPort (s : State) (code port lane : Nat) : State :=
  s.log code 7 port 0 (Machine.place 0 8 port + Machine.place 8 8 lane + Machine.place 16 8 (s.port port).peerMod)

/-- Identity payload at bytes 32-34 (R293). -/
def identExtra (s : State) (n : Nat) : Nat := s.mod.id + n * 256 + (s.port n).peerPort * 2 ^ 16

/-- A port that is UP again after training: what the replay buffer holds goes first (R294). -/
def portUp (s : State) (n : Nat) : State :=
  (s.updPort n (fun p => { p with
    st := .up, resend := p.replay, retrain := false, fails := 0, replays := 0, nakSent := false })).pump n

/-- Credit totals of a port that starts anew: the slots still occupied count as not freed, which the peer then sees as in use (R290). -/
def freshTotals (s : State) (rx : List SpokeFlit) : List (BitVec 16) :=
  (List.range 16).map (fun k => 0 - BitVec.ofNat 16 (countIf (fun f => flitClass f s.mod.id * 8 + lvcChannel (fLvc f) == k) rx))

/-- A followed peer that no port in service reaches any more is followed no longer (R412). -/
def dropTime (s : State) (peer : Nat) : State :=
  if s.mss.time.peer = some peer ∧ !(List.range 36).any (fun i => inService (s.port i) && (s.port i).peerMod == peer) then
    { s with mss := { s.mss with time := { s.mss.time with peer := none, source := 0, slew := 0 } } }
  else s

/-- A port leaves service (R285, R294): its flits go to the ports left in their bundles, which re-form (R304); with none left they are
lost. -/
def portOut (s : State) (n : Nat) (log : Bool) : State :=
  let p := s.port n
  let s := s.setPort n { p with
    st := .down, retrain := false, txq := [], resend := [], replay := [], txSeq := 0, rxSeq := 0, nakSent := false,
    freed := s.freshTotals p.rx, peerFreed := List.replicate 16 0, used := List.replicate 16 0,
    window := [], unacked := 0, replays := 0, fails := 0, stress := false }
  let s := if log then s.logPort eLinkDown n 0 else s
  let s := s.dropTime p.peerMod
  (s.stopBundles n p.replay p.txq).reform

/-- The spare lane takes a failed lane's place (R285): E_LINK_LANE, ledger record SPOKE_LANE. -/
def swapLane (s : State) (n lane : Nat) : State :=
  let p := s.port n
  let s := s.setPort n { p with failed := some lane, resend := p.replay }
  let s := (s.logPort eLane n lane).ledger 0x03
    (leBytes 8 (Machine.place 0 6 n + Machine.place 8 3 lane + Machine.place 12 3 lane))
  s.pump n

/-- An active lane fails: substitution, or with the spare already used the port leaves service (R285). -/
def laneFails (s : State) (n lane : Nat) : State :=
  let p := s.port n
  if p.failed = some lane then s
  else if p.failed.isSome then s.portOut n true
  else if lane = p.spare then s.setPort n { p with failed := some lane }
  else
    -- both ends are told by a control flit before the lane moves
    (s.sendControl n 4 (Machine.place 24 8 lane)).swapLane n lane

/-- Identity check (R293). -/
def identOk (s : State) (n peerMod peerPort expected : Nat) : Bool :=
  peerMod == (s.port n).peerMod && peerPort == (s.port n).peerPort && expected == n

/-- Both ends MISWIRED, logged with both identities (R293): the one that the link map expects, and the one received. A port that comes from a
retrain leaves its bundles first (R304). -/
def miswire (s : State) (n peerMod : Nat) : State :=
  let s := if (s.port n).retrain then s.portOut n false else s
  ((s.updPort n (fun p => { p with st := .miswired })).logPort eLinkDown n 0).log eLinkDown 7 n 0
    (Machine.place 0 8 n + Machine.place 16 8 peerMod)

/-- Acknowledgement of every flit up to ACK_SEQ; progress clears the count of replays (R292). -/
def takeAck (p : Port) (ack : Nat) : Port :=
  let k := (ack + 1 + 4096 - (p.txSeq.toNat + 4096 - p.replay.length % 4096) % 4096) % 4096
  if k ≤ p.replay.length then
    { p with replay := p.replay.drop k, replays := if k = 0 then p.replays else 0 }
  else p

end State

/-! ## Training and states (R284) -/

def attemptTraining (n : Nat) (s : State) : State :=
  let p := s.port n
  if s.mod.mainOn && decide (n < 36) && decide (p.st = PortState.down) then
    (s.setPort n { p with st := .training, retrain := false }).sendControl n 2 (s.identExtra n)
  else s

def execPortTrainingAttempt (port : Nat) (s : State) : Host.Outcome State Fault Refusal := done s (attemptTraining port s)

def completeTraining (n : Nat) (ok : Bool) (peerMod peerPort expected : Nat) (s : State) : State :=
  let p := s.port n
  if p.st ≠ PortState.training then s
  else if !ok then
    if p.retrain then s.portOut n true
    else
      let s := s.setPort n { p with st := .down, fails := p.fails + 1 }
      if p.fails + 1 = 3 then s.logPort eLinkDown n 0 else s
  else if s.identOk n peerMod peerPort expected then s.portUp n
  else s.miswire n peerMod

/-! ## Flits (R286-R293) -/

/-- What of an accepted flit stays in the receive buffer. While the port's die holds, everything (R32). Else a flit of no listed kind for this module is discarded, VC0 ones
with a log entry (R289); a message of MSG 6 to 8 goes to its engine, and a VC4 flit that is no piece of a GATHER to the Locket engine, where the content
comes as a command of its own; in FAULT the VC1-VC5 flits for this module are answered with UNREACHABLE (R350). -/
def arrive (n : Nat) (f : SpokeFlit) (s : State) : State :=
  let vc := lvcOrigin (fLvc f)
  let drop (s : State) : State := s.dropRx n ((s.port n).rx.length - 1)
  let s := s.updPort n (fun p => { p with rx := p.rx ++ [f] })
  if fDst f ≠ s.mod.id ∨ dieHeld s (portDie n) then s
  else if vc = 0 then
    let msg := bits (fCls f) 0 8
    if 6 ≤ msg ∧ msg ≤ 8 then drop s
    else if 1 ≤ msg ∧ msg ≤ 8 then s else (drop s).log eField 7 n 0
  else if s.mod.st = MState.fault then (drop s).tellUnreachable (fSrc f) s.mod.id
  else if (vc = 1 ∨ vc = 2) ∧ bits (fCls f) 0 2 = 3 then drop s
  else if (vc = 4 ∧ bits (fCls f) 46 2 ≠ 1) ∨ (vc = 5 ∧ bits (fCls f) 0 3 = 7) then drop s
  else s

/-- What waited in a port's receive buffer through a hold goes where it would have gone. -/
def State.settlePort (s : State) (n : Nat) : State :=
  (s.port n).rx.foldl (fun s f => arrive n f s) (s.updPort n (fun p => { p with rx := [] }))

/-- A flit that is not accepted: one NAK until the flit expected arrives (R292). -/
def nakFlit (n : Nat) (s : State) : State :=
  let p := s.port n
  if p.nakSent then s else (s.setPort n { p with nakSent := true }).sendControl n 1 0

def receiveFlit (n : Nat) (f : SpokeFlit) (s : State) : State :=
  let p := s.port n
  if p.st ≠ PortState.up ∨ (flitGood f && fLvc f == 15) then s
  else if flitGood f && fSeq f == p.rxSeq.toNat then
    let s := arrive n f (s.setPort n { p with rxSeq := p.rxSeq + 1, nakSent := false, unacked := p.unacked + 1, lastFlit := s.now })
    if 32 ≤ (s.port n).unacked then s.sendControl n 0 0 else s
  else nakFlit n s

def execFlitReceive (port : Nat) (f : SpokeFlit) (s : State) : Host.Outcome State Fault Refusal :=
  done s (receiveFlit port f s)

/-- Credit totals of a control flit. -/
def toldTotals (f : SpokeFlit) : List (BitVec 16) := (List.range 16).map (fun i => BitVec.ofNat 16 (bits (fPay f) (16 * i) 16))

/-- A control flit: identity and credit totals in training; else acknowledgement, credit totals, NAK and lane request (R293); a NAK after 8 replays without
progress retrains the port (R294). -/
def receiveControl (n : Nat) (f : SpokeFlit) (s : State) : State :=
  let p := s.port n
  let w := fCls f
  if !flitGood f then (if p.st = PortState.up then nakFlit n s else s)
  else if fLvc f != 15 then s
  else if p.st = PortState.training then
    let s := s.setPort n { p with peerFreed := toldTotals f }
    if bitAt w 1 && !s.identOk n (bits (fPay f) 256 8) (bits (fPay f) 264 8) (bits (fPay f) 272 8) then
      s.miswire n (bits (fPay f) 256 8)
    else s
  else if p.st ≠ PortState.up then s
  else
    let p := State.takeAck { p with peerFreed := toldTotals f } (fSeq f)
    let stuck := bitAt w 0 && decide (8 ≤ p.replays)
    let p := if stuck then { p with st := .training, retrain := true, replays := 0 }
      else if bitAt w 0 then { p with resend := p.replay, replays := p.replays + 1 } else p
    let s := s.setPort n p
    let lane := bits (fPay f) 280 8
    let s := if !bitAt w 2 || p.failed == some lane then s
      else if p.failed.isSome then s.portOut n true else s.swapLane n lane
    (s.pump n).reform.releaseParked

def sendAck (n : Nat) (s : State) : State :=
  let p := s.port n
  if decide (p.st = PortState.up) then s.sendControl n 0 0 else s

def execAckSend (port : Nat) (s : State) : Host.Outcome State Fault Refusal := done s (sendAck port s)

/-! ## Retrain, lanes, standby (R285, R294, R388) -/

def retrainPort (n : Nat) (s : State) : State :=
  let p := s.port n
  if p.st = PortState.up then s.setPort n { p with st := .training, retrain := true, replays := 0 } else s

def execPortRetrain (port : Nat) (s : State) : Host.Outcome State Fault Refusal := done s (retrainPort port s)

def downPort (n : Nat) (s : State) : State :=
  if State.inService (s.port n) then s.portOut n true else s

/-- A lane of a port in service, or of one in training that it does not complete, has failed (R285). -/
def substituteLane (n lane : Nat) (s : State) : State :=
  let p := s.port n
  if (State.inService p || decide (p.st = PortState.training)) && decide (lane < 5) then s.laneFails n lane else s

/-- The 1 s window of a lane's BER, log10 × 100: above 1 × 10^−5 the lane has failed (R285). -/
def judgeLane (n lane : Nat) (ber : Int) (s : State) : State :=
  let p := s.port n
  if !State.inService p || decide (5 ≤ lane) then s
  else
    let s := s.setPort n { p with ber := p.ber.filter (fun x => x.1 != lane) ++ [(lane, ber)] }
    if ber > -500 then s.laneFails n lane else s

/-- No admitted job's route table names the port. -/
def unrouted (s : State) (n : Nat) : Bool := s.jobs.all (fun j => j.routes.all (fun r => !r.ports.getLsbD n))

/-- Conditions of R388. -/
def mayStandby (s : State) (standbyEn : Bool) (n : Nat) : Bool :=
  let p := s.port n
  standbyEn && decide (p.st = PortState.up) && unrouted s n && decide (p.lastFlit + 10000000 ≤ s.now) &&
  p.txq.isEmpty && p.replay.isEmpty && p.rx.isEmpty &&
  (globalPort n || (List.range 36).any (fun i => i != n && (s.port i).peerMod == p.peerMod &&
    decide ((s.port i).st = PortState.up)))

def standPort (n : Nat) (s : State) : State :=
  if mayStandby s s.pwr.standbyEn n then s.updPort n (fun p => { p with st := .standby }) else s

def execPortStandby (port : Nat) (s : State) : Host.Outcome State Fault Refusal := done s (standPort port s)

def wakePort (n : Nat) (s : State) : State := if (s.port n).st = PortState.standby then s.portUp n else s

def execPortWake (port : Nat) (s : State) : Host.Outcome State Fault Refusal := done s (wakePort port s)

/-! ## Route patches (R300, R302, R306) -/

/-- A port that does not lead on toward a destination: one that leads to another module of the destination's own group, when
that is ours, or one whose global hop ends in another group (R300, R302). -/
def astray (s : State) (dst n : Nat) : Bool :=
  let p := s.port n
  if dst / 16 = s.mod.id / 16 then p.peerMod != dst
  else globalPort n && p.peerMod / 16 != dst / 16

/-- Conditions of R300 on one entry. -/
def entryBad (s : State) (dst : Nat) (ports : BitVec 36) (transit : Bool) : Bool :=
  (dst == s.mod.id && (ports != 0 || transit)) ||
  (State.maskPorts ports).any (fun n => decide ((s.port n).st = PortState.dark) || astray s dst n)

/-- One port in two of the classes P, D, T and S (R300). -/
def classesMeet (rs : List Route) : Bool :=
  let of (c : Nat) : BitVec 36 := (rs.filter (fun r => r.key / 256 == c)).foldl (fun m r => m ||| r.ports) 0
  [(0, 1), (0, 2), (0, 3), (1, 2), (1, 3), (2, 3)].any (fun p => of p.1 &&& of p.2 != 0)

/-- Whether a patch epoch is newer than a table's last one. -/
def patchNewer (last : Option Nat) (e : Nat) : Bool :=
  match last with
  | none => true
  | some l => newer 16 e l

/-- A route entry replaced; dropped ports are remembered until their flows are acknowledged (R306 step 3). -/
def putRoute (rs : List Route) (key : Nat) (ports : BitVec 36) (transit : Bool) : List Route :=
  match rs.find? (fun r => r.key == key) with
  | none => rs ++ [{ key := key, ports := ports, transit := transit }]
  | some r => rs.map (fun x => if x.key == key then
      { key := key, ports := ports, transit := transit, dropped := (r.dropped ||| r.ports) &&& ~~~ports } else x)

/-- Acknowledgement of a patch: MSG 0x04 with the epoch; a failure's code in payload bytes 0-1. -/
def ackPatch (s : State) (dst job epoch code : Nat) : State := s.sendVc0 dst 4 job epoch code

def applyPatch (f : SpokeFlit) (s : State) : State :=
  let x := fPay f
  let src := fSrc f
  let job := bits (fCls f) 8 16
  let tbl := bitAt x 0
  let cls := bits x 1 3
  let dest := bits x 8 8
  let epoch := bits x 16 16
  let ports : BitVec 36 := BitVec.ofNat 36 (bits x 32 36)
  let tr := bitAt x 68
  let fall : BitVec 36 := BitVec.ofNat 36 (bits x 128 36)
  let rsv := bits x 4 4 != 0 || bits x 69 59 != 0 || bits x 164 1884 != 0
  let owners := if tbl then s.jobs.filter Job.admitted else s.jobs.filter (fun j => j.admitted && j.id == job)
  if !owners.any (fun j => src == j.alias? j.lead || src == j.alias? j.deputy) then s.log eProtect 7 src job
  else if tbl then
    if rsv || cls != 0 || tr || entryBad s dest ports false || entryBad s dest fall false then ackPatch s src job epoch eField
    else if !patchNewer s.spoke.epoch epoch then ackPatch s src job epoch 0
    else
      let e := s.forward dest
      let e := { e with primary := ports, fallback := fall, dropped := (e.dropped ||| e.primary ||| e.fallback) &&& ~~~ports &&& ~~~fall }
      ackPatch { s with spoke := { s.spoke with forward := sput {} s.spoke.forward dest e, epoch := some epoch } } src job epoch 0
  else
    match s.job? job with
    | none => s
    | some j =>
      let rs := putRoute j.routes (cls * 256 + dest) ports tr
      if rsv || decide (4 < cls) || fall != 0 || entryBad s dest ports tr || classesMeet rs then
        ackPatch s src job epoch eField
      else if !patchNewer j.routeEpoch epoch then ackPatch s src job epoch 0
      else ackPatch (s.updJob job (fun j => { j with routes := rs, routeEpoch := some epoch })) src job epoch 0

/-- The oldest VC0 flit of a port, if it carries the message. -/
def onVc0 (n msg : Nat) (s : State) (k : SpokeFlit → State → State) : State :=
  match s.takeRx n 0 (fun f => bits (fCls f) 0 8 == msg) with
  | some (f, s) => k f s
  | none => s

def execRoutePatch (port : Nat) (s : State) : Host.Outcome State Fault Refusal := done s (onVc0 port 3 s applyPatch)

/-- A patch acknowledgement: kept for the sender's check (R306, R367). -/
def takePatchAck (f : SpokeFlit) (s : State) : State :=
  let job := bits (fCls f) 8 16
  s.updJob job (fun j => { j with recov := j.recov.patchAck (fSrc f) (bits (fCls f) 24 16) (bits (fPay f) 0 16) })

def execPatchAck (port : Nat) (s : State) : Host.Outcome State Fault Refusal := done s (onVc0 port 4 s takePatchAck)

/-! ## Management messages (R289, R411) -/

/-- An MCTP packet of a peer is passed to the MSS. -/
def takeMctp (f : SpokeFlit) (s : State) : State :=
  { s with mss := { s.mss with inbox := s.mss.inbox ++ [(fSrc f, leBytes 256 (fPay f))] } }

def execMctpPacket (port : Nat) (s : State) : Host.Outcome State Fault Refusal := done s (onVc0 port 1 s takeMctp)

end Sys2Proof.Machine
end

