-- ==== Sys2Proof/Machine/Answers.lean ====
section
/-! DEFINITION. What comes back from peers: READ_DATA, DONE, OWN_ANSWER (R171, R289), and a peer that becomes unreachable, by an
UNREACHABLE message or by the loss of ports (R307). -/
namespace Sys2Proof.Machine

/-! ## Remote memory -/

/-- READ_DATA goes to the copy or stream that asked for it. -/
def takeReadData (f : SpokeFlit) (s : State) : State :=
  (s.keys (xJob f)).foldl (fun s k => (s.mapFlights k (moveReadData f)).mapFlights k (streamReadData f)) s

/-- READ_DATA (R289). -/
def execReadData (port : Nat) (s : State) : Host.Outcome State Fault Refusal := done s (onVc5 port 3 s takeReadData)

def takeDone (f : SpokeFlit) (s : State) : State :=
  (s.keys (xJob f)).foldl (fun s k => ((s.mapFlights k (moveDone f)).mapFlights k (streamDone f)).noteAllWaits k) s

/-- DONE (R289). -/
def execDoneMsg (port : Nat) (s : State) : Host.Outcome State Fault Refusal := done s (onVc5 port 4 s takeDone)

/-- An ownership answer reaches the record that asked; a record that it refuses is rejected, one that has every answer starts if
nothing else holds it back (R171). -/
def takeOwnAnswer (f : SpokeFlit) (s : State) : State :=
  let key := fSrc f * 2 ^ 14 + xXid f
  let refs := (s.runJob.map (fun j => (j.queues.filter (fun q => q.cur.any (fun w => w.asks.any (fun a => a.1 == key)))).map (·.ref))).getD []
  let s := s.answerAsks (xJob f) (· == key) (bits (fPay f) 0 16)
  refs.foldl (fun s r => resume r s) s

/-- OWN_ANSWER (R171). -/
def execOwnAnswer (port : Nat) (s : State) : Host.Outcome State Fault Refusal := done s (onVc5 port 6 s takeOwnAnswer)

/-! ## Unreachable peers (R307) -/

/-- A module of a job is unreachable in the classes of a test: Movers and streams (class M, R171, R205), rings (their axis, R276),
the Locket, and the report to the lead (R351). -/
def State.peerLost (s : State) (jid m : Nat) (cls : Nat → Bool) : State :=
  let s := if cls 4 then
      let s := s.mapFlights jid (moveLost m)
      let s := (s.mapFlights jid (streamLost m)).noteAllWaits jid
      (s.answerAsks jid (fun k => k / 2 ^ 14 == m) eLinkDown).locketLost jid m
    else s
  (s.ringLost jid m cls).sendSuspect jid m

/-- Modules of the admitted jobs that the new state cannot reach in a class in which the old one could. -/
def linkLoss (a b : State) : State :=
  b.jobs.foldl (fun s j =>
    (List.range 256).foldl (fun s m =>
      let gone (c : Nat) : Bool := a.reachable j c m && !b.reachable j c m
      if (List.range 5).any gone then s.peerLost j.id m gone else s) s) b

/-- UNREACHABLE: the destination is unreachable for the next millisecond, for every engine. -/
def takeUnreachable (f : SpokeFlit) (s : State) : State :=
  let m := bits (fCls f) 24 8
  let t := { s with spoke := { s.spoke with unreach := s.spoke.unreach.filter (fun u => u.1 != m) ++ [(m, s.now)] } }
  linkLoss s t

/-- UNREACHABLE (R307). -/
def execUnreachable (port : Nat) (s : State) : Host.Outcome State Fault Refusal := done s (onVc0 port 5 s takeUnreachable)

/-- A Spoke step after which ports may be out of service. -/
def withLoss (f : State → State) (s : State) : State := linkLoss s (f s)

/-- PORT_TRAINING_COMPLETE (R284, R293). -/
def execPortTrainingComplete (port : Nat) (ok : Bool) (peerMod peerPort expected : Nat) (s : State) :
    Host.Outcome State Fault Refusal := done s (withLoss (completeTraining port ok peerMod peerPort expected) s)

/-- CONTROL_FLIT (R293). -/
def execControlFlit (port : Nat) (f : SpokeFlit) (s : State) : Host.Outcome State Fault Refusal :=
  done s (withLoss (receiveControl port f) s)

/-- PORT_DOWN (R294). -/
def execPortDown (port : Nat) (s : State) : Host.Outcome State Fault Refusal := done s (withLoss (downPort port) s)

/-- LANE_SUBSTITUTION (R285). -/
def execLaneSubstitution (port lane : Nat) (s : State) : Host.Outcome State Fault Refusal :=
  done s (withLoss (substituteLane port lane) s)

/-- LANE_BER_WINDOW (R285). -/
def execLaneBerWindow (port lane : Nat) (ber : Int) (s : State) : Host.Outcome State Fault Refusal :=
  done s (withLoss (judgeLane port lane ber) s)

end Sys2Proof.Machine
end

