-- ==== Sys2Proof/Machine/Admit.lean ====
section
/-! DEFINITION. Admission (R145-R147, R202, R299, R300, R324-R328): the checks on a job descriptor and what it names, and the
job that comes of it. -/
namespace Sys2Proof.Machine

/-! ## Items (R324-R326, R145, R147, R299) -/

def jdId (d : Nat) : Nat := bits d 0 16
def jdClass (d : Nat) : Nat := bits d 16 3
def jdCtrBase (d : Nat) : Nat := bits d 48 12
def jdCtrCount (d : Nat) : Nat := bits d 64 13
def jdNumerics (d : Nat) : Nat := bits d 128 48
def jdRoutes (d : Nat) : Nat := bits d 192 48
def jdQueues (d : Nat) : Nat := bits d 256 48
def jdQueueCount (d : Nat) : Nat := bits d 304 8
def jdExtents (d : Nat) : Nat := bits d 320 48
def jdExtentCount (d : Nat) : Nat := bits d 368 16
def jdPark (d : Nat) : Nat := bits d 384 48
def jdSlow (d : Nat) : Nat := bits d 448 64

def qbRef (b : Nat) : QRef := ⟨bits b 0 4, bits b 8 8, bits b 4 4⟩
def qbLog (b : Nat) : Nat := bits b 16 4
def qbRing (b : Nat) : Nat := bits b 64 48
def qbHead (b : Nat) : Nat := bits b 128 48
def qbInitAddr (b : Nat) : Nat := bits b 256 48
def qbInitCount (b : Nat) : Nat := bits b 304 16

def exAddr (e : Nat) : Nat := bits e 0 48
def exPages (e : Nat) : Nat := bits e 64 32

def nbBase (n : Nat) : Nat := bits n 0 12
def nbCount (n : Nat) : Nat := bits n 16 13
def nbGateCtr (n : Nat) : Nat := bits n 32 12
def nbTable (n : Nat) : Nat := bits n 64 48
def nbRec (n : Nat) : Nat := bits n 128 48

/-- What a SUBMIT reads: the descriptor, and each item whose place the item before it gives soundly. -/
structure JobItems where
  desc    : Nat
  queues  : List Nat := []
  extents : List Nat := []
  num     : Option Nat := none
  slots   : List Nat := []
  routes  : List Nat := []
  deriving DecidableEq, Repr

/-- Items of `size` bytes from an address, where they can be read. -/
def itemsAt (s : State) (a n size align : Nat) : List Nat :=
  if a % align = 0 ∧ s.mapped a (n * size) then (List.range n).map (fun i => s.num (a + i * size) size) else []

def readItems (s : State) (addr : Nat) : JobItems :=
  let d := s.num addr 128
  let num := (itemsAt s (jdNumerics d) 1 64 64).head?
  { desc := d
    queues := itemsAt s (jdQueues d) (jdQueueCount d) 64 64
    extents := itemsAt s (jdExtents d) (jdExtentCount d) 16 16
    num := num
    slots := (num.map (fun n => if nbCount n ≤ 4096 then itemsAt s (nbTable n) (nbCount n) 16 16 else [])).getD []
    routes := itemsAt s (jdRoutes d) 1280 8 8 }

/-! ## Checks 1 to 3 of R56 on the items (R327 check 2) -/

/-- ARG of a field of an item (R327): bit 31, and the item's kind in bits 30:28. -/
def itemMark (kind : Nat) : Nat := 2 ^ 31 + kind * 2 ^ 28

/-- An FP32 code that is negative, −0 included, infinite or NaN. -/
def badPositive (c : Nat) : Bool := decide (2 ^ 31 ≤ c) || bits c 23 8 == 0xFF

def jdChecks (s : State) (job : Nat) (d : Nat) : List Chk :=
  [ ckZero d 20 4, ckZero d 40 8, ckZero d 60 4, ckZero d 77 51, ckZero d 176 16, ckZero d 240 16, ckZero d 312 8,
    ckZero d 432 16, ckZero d 512 512,
    ckEnum 16 3 (jdClass d == 4 || decide (5 < jdClass d)),
    ckRange 0 16 (jdId d == 0 || jdId d != job),
    ckRange 48 12 (decide (4096 < jdCtrBase d + jdCtrCount d)),
    ckRange 64 13 (jdCtrCount d == 0 || decide (4096 < jdCtrCount d)),
    ckRange 304 8 (jdQueueCount d == 0), ckRange 368 16 (jdExtentCount d == 0),
    ckAlign 128 48 (jdNumerics d % 64 != 0), ckAlign 192 48 (jdRoutes d % 8 != 0), ckAlign 256 48 (jdQueues d % 64 != 0),
    ckAlign 320 48 (jdExtents d % 16 != 0), ckAlign 384 48 (jdPark d % 0x200000 != 0),
    ckAddr 128 48 (!s.mapped (jdNumerics d) 64), ckAddr 192 48 (!s.mapped (jdRoutes d) 10240),
    ckAddr 256 48 (!s.mapped (jdQueues d) (64 * jdQueueCount d)),
    ckAddr 320 48 (!s.mapped (jdExtents d) (16 * jdExtentCount d)) ]

/-- An address range of a job yet to be admitted, against its extents. -/
def coveredBy (exts : List (Nat × Nat)) (a n : Nat) : Bool :=
  decide (State.scratchBase ≤ a) || extentCover exts (exts.length + 1) a n

def extentOf (e : Nat) : Nat × Nat := (exAddr e, exPages e)

def qbChecks (s : State) (x : JobItems) (i b : Nat) : List Chk :=
  let r := qbRef b
  let init := qbInitCount b != 0
  let ring := 32 * 2 ^ (qbLog b + 4)
  [ ckZero b 20 44, ckZero b 112 16, ckZero b 176 80, ckZero b 336 48, ckZero b 384 128 ] ++
  ckTarget r.eng r.q r.inst 0 4 8 ++
  [ ckEnum 16 4 (decide (11 < qbLog b)),
    ckRange 0 4 ((x.queues.take i).any (fun y => qbRef y == r)),
    ckAlign 64 48 (qbRing b % 32 != 0), ckAlign 128 48 (qbHead b % 8 != 0), ckAlign 256 48 (init && qbInitAddr b % 64 != 0),
    ckAddr 64 48 (!s.mapped (qbRing b) ring), ckAddr 128 48 (!s.mapped (qbHead b) 8),
    ckAddr 256 48 (init && !s.mapped (qbInitAddr b) (64 * qbInitCount b)),
    ckOwnF 320 16 (init && bits b 320 16 != jdId x.desc) ]

/-- Conditions that relate a queue binding to the job's extents, tested with the later item, the extents (R429 step 3). -/
def qbOwned (x : JobItems) (b : Nat) : List Chk :=
  let init := qbInitCount b != 0
  let exts := x.extents.map extentOf
  ofItem 2 [ ckOwnF 64 48 (!coveredBy exts (qbRing b) (32 * 2 ^ (qbLog b + 4))), ckOwnF 128 48 (!coveredBy exts (qbHead b) 8),
    ckOwnF 256 48 (init && !coveredBy exts (qbInitAddr b) (64 * qbInitCount b)) ]

def exChecks (s : State) (e : Nat) : List Chk :=
  [ ckZero e 48 16, ckZero e 96 32, ckRange 64 32 (exPages e == 0), ckAlign 0 48 (exAddr e % 0x200000 != 0),
    ckAddr 0 48 (!s.inUser (exAddr e) (exPages e * 0x200000)) ]

def nbChecks (s : State) (d n : Nat) : List Chk :=
  let none_ := nbCount n == 0
  [ ckZero n 12 4, ckZero n 31 1, ckZero n 44 20, ckZero (if none_ then n else 0) 64 48, ckZero n 112 16, ckZero n 176 16,
    ckZero n 224 288,
    ckRange 0 12 (decide (4096 < nbBase n + nbCount n)), ckRange 16 13 (decide (4096 < nbCount n)),
    ckRange 192 32 (badPositive (bits n 192 32)),
    ckAlign 64 48 (!none_ && nbTable n % 16 != 0), ckAlign 128 48 (nbRec n % 64 != 0),
    ckAddr 64 48 (!none_ && !s.mapped (nbTable n) (16 * nbCount n)), ckAddr 128 48 (!s.mapped (nbRec n) 64),
    ckOwnF 32 12 (decide (nbGateCtr n < jdCtrBase d) || decide (jdCtrBase d + jdCtrCount d ≤ nbGateCtr n)) ]

/-- Slot formats of R147. -/
def slotFmt (c : Nat) : Bool := fmtScaled c

/-- Checks on a slot descriptor (R146, R147). DEDUCED (log 116): a FMT that R74 does not list fails as an enumeration (R7, R76); the
row of R146 is for a listed one. -/
def slChecks (x : Nat) : List Chk :=
  [ ckEnum 0 5 (!fmtListed (bits x 0 5)), ckZero x 9 7, ckZero x 24 8, ckRange 16 8 (bits x 16 8 == 0x80), ckRange 32 32 (badPositive (bits x 32 32)),
    ckFmt 0 5 (!slotFmt (bits x 0 5)) ]

def routeOf (i x : Nat) : Route := { key := i, ports := BitVec.ofNat 36 (bits x 0 36), transit := bitAt x 36 }

def routesOf (l : List Nat) : List Route :=
  ((List.range l.length).zip l).filterMap (fun p => if p.2 = 0 then none else some (routeOf p.1 p.2))

/-- Conditions of R300 on an entry and the entries before it. -/
def rtChecks (s : State) (l : List Nat) (i x : Nat) : List Chk :=
  let r := routeOf i x
  let dst := i % 256
  let c := i / 256
  let shared := decide (c < 4) && (List.range i).any (fun k =>
    decide (k / 256 < 4) && k / 256 != c && (routeOf k (l.getD k 0)).ports &&& r.ports != 0)
  let wrong := (State.maskPorts r.ports).any (fun n => decide ((s.port n).st = PortState.dark) ||
    (dst / 16 == s.mod.id / 16 && (s.port n).peerMod != dst))
  [ ckZero x 37 27, ckRange 0 36 (x != 0 && (dst == s.mod.id || wrong || shared)) ]

def eachItem {α : Type} (kind : Nat) (l : List α) (f : Nat → α → List Chk) : List Chk :=
  ((List.range l.length).zip l).flatMap (fun p => onItem (itemMark kind) p.1 (f p.1 p.2))

/-- All conditions of R327 check 2, the park region last. -/
def jobChecks (s : State) (job : Nat) (x : JobItems) : List Chk :=
  onItem (itemMark 0) 0xFFFF (jdChecks s job x.desc) ++
  eachItem 1 x.queues (qbChecks s x) ++
  eachItem 2 x.extents (fun _ e => exChecks s e) ++
  eachItem 1 x.queues (fun _ b => qbOwned x b) ++
  onItem (itemMark 3) 0xFFFF ((x.num.map (nbChecks s x.desc)).getD []) ++
  eachItem 4 x.slots (fun _ e => slChecks e) ++
  eachItem 5 x.routes (rtChecks s x.routes) ++
  onItem (itemMark 0) 0xFFFF
    [ckOwnF 384 48 (jdPark x.desc != 0 && !x.extents.any (fun e => inside (jdPark x.desc) parkBytes (exAddr e) (exPages e * 0x200000)))]

/-! ## Checks 3 to 5 of R327 -/

/-- Two ranges of numbers share one. -/
def rangesMeet (a n b m : Nat) : Bool := overlaps a n b m

def admitState (s : State) (d : Nat) (num : Option Nat) : Bool :=
  s.jobs.any (fun j => (j.admitted && j.id == jdId d) || rangesMeet (jdCtrBase d) (jdCtrCount d) j.ctrBase j.ctrCount ||
    num.any (fun n => rangesMeet (nbBase n) (nbCount n) j.numerics.slotBase j.numerics.slotCount)) ||
  (jdClass d == 5 && !s.sched.table.any (fun t => t.windows.any (fun w => w.rt && w.job == jdId d)))

/-- A page that no admission grants: owned by a job of the table, or retired (R327, R181). -/
def pageTaken (s : State) (a : Nat) : Bool :=
  s.lp.retired.contains a || s.jobs.any (fun j => j.extents.any (fun e => decide (e.1 ≤ a) && decide (a < e.1 + e.2 * 0x200000)))

/-- Unavailable pages of a list of extents, each counted once. -/
def takenPages (s : State) : List (Nat × Nat) → List (Nat × Nat) → Nat
  | _, [] => 0
  | seen, e :: t =>
    countIf (fun k =>
      let a := e.1 + k * 0x200000
      pageTaken s a && !seen.any (fun x => decide (x.1 ≤ a) && decide (a < x.1 + x.2 * 0x200000))) (List.range e.2) +
    takenPages s (seen ++ [e]) t

/-- R328. -/
def admitFull (s : State) (d : Nat) : Bool :=
  decide (4 ≤ s.jobs.length) || decide (3 ≤ countIf Job.admitted s.jobs) ||
  s.jobs.any (fun j => j.admitted && j.parkAddr == 0) || (jdPark d == 0 && !s.jobs.isEmpty)

/-- The first failure of an admission, beyond those of the packet (R327). -/
def admitFail (s : State) (job : Nat) (x : JobItems) : Option Fail :=
  match firstFail (jobChecks s job x) 0 7 with
  | some f => some f
  | none =>
    let pages := takenPages s [] (x.extents.map extentOf)
    if admitState s x.desc x.num then some ⟨eState, 0, 0xFFFF⟩
    else if pages ≠ 0 then some ⟨eMemory, min pages 0xFFFFFFFE, 0xFFFF⟩
    else if !s.mod.tVar && jdSlow x.desc != 0 then some ⟨eMemory, 0xFFFFFFFF, 0xFFFF⟩
    else if admitFull s x.desc then some ⟨ePark, 0, 0xFFFF⟩
    else none

/-! ## The admitted job -/

/-- A queue of the job, with the list that its binding pushes (R325). -/
def queueOf (i b : Nat) : Queue :=
  { ref := qbRef b, ringLog2 := qbLog b, ringAddr := qbRing b, headAddr := qbHead b
    lists := if qbInitCount b = 0 then [] else [{ addr := qbInitAddr b, count := qbInitCount b, id := i + 1 }] }

def numericsOf (n : Nat) : Numerics :=
  { slotBase := nbBase n, slotCount := nbCount n, gateEn := bitAt n 29, skipOnFlag := bitAt n 30, gateCtr := nbGateCtr n
    slotTable := nbTable n, stepRec := nbRec n, maxNorm := BitVec.ofNat 32 (bits n 192 32) }

/-- A slot as its descriptor has it at admission (R147). -/
def slotOf (x : Nat) : Slot :=
  let h : List Word32 := if bits x 32 32 = 0 then [] else [BitVec.ofNat 32 (bits x 32 32)]
  { fmt := bits x 0 5, headroom := bits x 5 3, auto := bitAt x 8, k := sbits x 16 8, hist := h
    savedK := sbits x 16 8, savedHist := h }

def jobOf (addr : Nat) (x : JobItems) : Job :=
  let d := x.desc
  { id := jdId d, cls := jdClass d, rank := jdClass d, admin := bitAt d 19, lead := bits d 24 8, deputy := bits d 32 8
    ctrBase := jdCtrBase d, ctrCount := jdCtrCount d, parkAddr := jdPark d, descAddr := addr, slowBytes := jdSlow d
    st := .parked, extents := x.extents.map extentOf, routes := routesOf x.routes
    queues := ((List.range x.queues.length).zip x.queues).map (fun p => queueOf p.1 p.2)
    numerics := numericsOf (x.num.getD 0), listSeq := x.queues.length + 1 }

/-- A job whose end is in progress under this JOB_ID keeps its entry under a key of its own (R327, log 32). -/
def State.rekey (s : State) (id : Nat) : State :=
  let new := id + 2 ^ 16 * ((s.jobs.map (fun j => j.id / 2 ^ 16)).foldl max 0 + 1)
  if s.jobs.all (fun j => j.id != id) then s
  else
    let renamed (k : Nat) : Nat := if k = id then new else k
    { s with
      jobs := s.jobs.map (fun (j : Job) => { j with id := renamed j.id })
      running := s.running.map renamed
      sched := { s.sched with switch := s.sched.switch.map (fun w => { w with outgoing := w.outgoing.map renamed, incoming := w.incoming.map renamed }) }
      pwr := { s.pwr with pedals := s.pwr.pedals.map (fun p => { p with job := renamed p.job }) } }

/-- The job enters the table: counters cleared (R54), slots set (R147); it runs at once where R327 says so, else the choice is
made again (R332). -/
def State.enterJob (s : State) (addr : Nat) (x : JobItems) : State :=
  let j := jobOf addr x
  let s := s.rekey j.id
  let s := (List.range j.ctrCount).foldl (fun s i => s.setCtr (j.ctrBase + i) 0) s
  let s := ((List.range x.slots.length).zip x.slots).foldl (fun s p => s.setSlot (j.numerics.slotBase + p.1) (slotOf p.2)) s
  let now := s.running.isNone && s.jobs.all Job.admitted && s.sched.switch.isNone
  let held (m : OpenMsg) : Bool := m.job == j.id
  let s := { s with jobs := s.jobs ++ [{ j with strand := { j.strand with notices := s.notices.filter held } }]
                    notices := s.notices.filter (fun m => !held m) }
  if now && eligible s j then (s.startRun j.id).clearTiles else s.reexamine

end Sys2Proof.Machine
end

