-- ==== Sys2Proof/Machine/WorkRing.lean ====
section
/-! DEFINITION. The work ring (R64-R66, R398): the doorbell, and the packets SUBMIT, JOB_CANCEL and CONTROL_LIST. -/
namespace Sys2Proof.Machine

/-! ## The doorbell (R66, R68) -/

/-- A doorbell value from the host (none) or from a module. -/
def ringDoorbell (src : Option Nat) (v : Nat) (s : State) : State :=
  let r := s.wring
  let owner := if r.peer then src == some r.owner else src.isNone
  let ovfs := decide (2 ^ r.log2 < (v % 2 ^ 16 + 2 ^ 16 - r.head.toNat) % 2 ^ 16)
  let drop (code : Nat) : State := ((s.lastError code 6 0 0).countClass code).irq 5
  if !owner then drop eProtect
  else if ovfs then drop eField
  else { s with wring := { r with tail := BitVec.ofNat 16 v } }

/-- BAR0 answers: READY to DRAIN, and FAULT while main power is on (R72). -/
def barUp (s : State) : Bool :=
  match s.mod.st with
  | .ready => true
  | .run => true
  | .drain => true
  | .fault => s.mod.mainOn
  | _ => false

/-- A write reaches BAR0 only where the host port presents the device (R72), and not while the port's die holds: PCIe flow control keeps
it back (R32). -/
def onBar (f : State → State) (s : State) : State := if barUp s && !dieHeld s (hostDie s) then f s else s

/-- DOORBELL (R66, R68). -/
def execDoorbell (v : Word32) (s : State) : Host.Outcome State Fault Refusal :=
  done s (onBar (ringDoorbell none (v.toNat % 2 ^ 16)) s)

/-- DOORBELL_MESSAGE: the VC0 doorbell of a peer (R66, R289). -/
def execDoorbellMessage (port : Nat) (s : State) : Host.Outcome State Fault Refusal :=
  done s (onVc0 port 2 s (fun f s => ringDoorbell (some (fSrc f)) (bits (fCls f) 24 16) s))

/-! ## Packets -/

def pkType (p : Nat) : Nat := bits p 0 8
def pkImmediate (p : Nat) : Bool := bitAt p 8
def pkJob (p : Nat) : Nat := bits p 16 16
def pkAddr (p : Nat) : Nat := bits p 32 48
def pkCount (p : Nat) : Nat := bits p 80 16
def pkTag (p : Nat) : Nat := bits p 96 32

/-- The work ring is served: in RUN, DRAIN, and FAULT while main power is on (R65). -/
def ringServed (s : State) : Bool :=
  match s.mod.st with
  | .run => true
  | .drain => true
  | .fault => s.mod.mainOn
  | _ => false

/-- A result (R64, R65). -/
structure PktResult where
  code     : Nat := 0
  arg      : Nat := 0
  row      : Nat := 0xFFFF
  deferred : Bool := false
  deriving DecidableEq, Repr

def pktFail (f : Fail) : PktResult := { code := f.code, arg := f.arg, row := f.row }

/-- A result record reaches the result ring, in host memory or, over VC5, in the owner's. -/
def State.putResult (s : State) (i : Nat) (bs : Bytes) : State :=
  let r := s.wring
  let a := r.base + 64 * 2 ^ r.log2 + 32 * (i % 2 ^ r.log2)
  if !r.peer then s.store a bs
  else
    let (x, s) := s.newXid
    let s := (s.sendVc5 0 r.owner (vc5Word 1 false 0 x 0) (rangePay a 32)).getD s
    (s.sendVc5 0 r.owner (vc5Word 2 false 0 x 0) (ofLe bs)).getD s

/-- The result of the packet at HEAD: written, counted, IRQ_STATUS.PKT set; HEAD advances (R65, R69, R71). -/
def State.finishPkt (s : State) (p : Nat) (r : PktResult) : State :=
  let w := s.wring
  let res : Res := { arg := r.arg, deferred := r.deferred }
  let crec := State.mkRecord r.code w.head.toNat (pkJob p) (pkType p) res r.row 0xFFFF (pkTag p) s.now +
    (if (w.wcount / 2 ^ w.log2) % 2 = 0 then 2 ^ 63 else 0)
  let s := (s.putResult w.wcount (leBytes 32 crec)).countClass r.code
  let s := if r.code = 0 then s else s.lastError r.code 6 0 (pkJob p)
  { s.irq 0 with wring := { w with head := w.head + 1, wcount := w.wcount + 1 } }

/-- TYPE and reserved fields, tested before anything else (R65). -/
def pkChecks (p : Nat) : List Chk :=
  let t := pkType p
  [ ckZero (if t = 3 then 0 else p) 8 1, ckZero p 9 7, ckZero (if t = 2 then p else 0) 32 48,
    ckZero (if t = 3 then 0 else p) 80 16, ckZero p 128 384, ckEnum 0 8 (t == 0 || decide (3 < t)) ]

/-- The packet at HEAD, when there is one and it can be read; `far` is the packet of a peer owner's ring. -/
def headPacket (far : BitVec 512) (s : State) : Option Nat :=
  let r := s.wring
  if !ringServed s || r.head == r.tail then none
  else if r.peer then (if s.near r.owner then some far.toNat else none)
  else if s.hostDown then none
  else some (s.num (r.base + 64 * (r.head.toNat % 2 ^ r.log2)) 64)

/-- A packet of a peer owner's ring is read over VC5 (R398). -/
def State.readRing (s : State) : State :=
  let r := s.wring
  if !r.peer then s
  else
    let (x, s) := s.newXid
    (s.sendVc5 0 r.owner (vc5Word 0 false 0 x 0) (rangePay (r.base + 64 * (r.head.toNat % 2 ^ r.log2)) 64)).getD s

/-- The packet at HEAD, if it is of this type or of none that is listed, is read, checked and acted on, and answered; `act` answers none
while the packet cannot be taken yet. -/
def packet (type : Nat) (far : BitVec 512) (act : Nat → State → Option (State × PktResult)) (s : State) : State :=
  match headPacket far s with
  | none => s
  | some p =>
    let listed := decide (1 ≤ pkType p) && decide (pkType p ≤ 3)
    if listed && pkType p != type then s
    else
      let t := s.readRing
      match firstFail (pkChecks p) 0 7 with
      | some f => t.finishPkt p (pktFail f)
      | none =>
        if type ≠ 2 ∧ s.mod.st ≠ MState.run then t.finishPkt p { code := eModule }
        else match act p t with
          | none => s
          | some (u, r) => u.finishPkt p r

/-! ## SUBMIT (R327) -/

def submit (p : Nat) (s : State) : Option (State × PktResult) :=
  let a := pkAddr p
  if a % 64 ≠ 0 then some (s, { code := eAlign, arg := fieldArg 32 48 })
  else if !s.inStore a 128 then some (s, { code := eAddress, arg := fieldArg 32 48 })
  else
    let x := readItems s a
    match admitFail s (pkJob p) x with
    | some f => some (s, pktFail f)
    | none => some (s.enterJob a x, {})

/-- SUBMIT (R64, R327). -/
def execSubmit (far : BitVec 512) (s : State) : Host.Outcome State Fault Refusal := done s (packet 1 far submit s)

/-! ## JOB_CANCEL (R62, R65, R340) -/

/-- The cancel is accepted: it waits for the job's next yield point, or ends a parked job at once. -/
def cancelJob (p : Nat) (s : State) : Option (State × PktResult) :=
  match s.job? (pkJob p) with
  | none => some (s, { code := eJob })
  | some j =>
    if !j.admitted then some (s, { code := eJob })
    else if cancelPending j then some (s, { code := ePending })
    else
      let d : Deferral := { kind := .jobCancel, record := p, queue := ⟨engJob, 0, 0⟩, since := s.fabric }
      let s := s.updJob j.id (fun j => { j with deferrals := j.deferrals ++ [d], cancel := some (pkTag p, s.wring.head.toNat) })
      let coming := s.sched.switch.any (fun w => w.incoming == some j.id)
      let s := if decide (j.st = JobState.parked) && !coming then s.endJob j.id
        else s.updPipe j.id (fun x => { x with stopped := true })
      some (s, { deferred := true })

/-- JOB_CANCEL (R340). -/
def execJobCancel (far : BitVec 512) (s : State) : Host.Outcome State Fault Refusal := done s (packet 2 far cancelJob s)

/-! ## CONTROL_LIST (R64) -/

def listChecks (s : State) (p : Nat) : List Chk :=
  let a := pkAddr p
  let n := 64 * pkCount p
  [ ckRange 80 16 (pkCount p == 0), ckAlign 32 48 (a % 64 != 0), ckAddr 32 48 (!s.inStore a n),
    ckOwn ((s.job? (pkJob p)).any (fun j => j.admitted && !j.owns a n)) ]

/-- Records that the work ring executes itself, in list order, up to the first that fails (R64). DESIGN CHOICE (log 127): their IRQ and
CREC bits have no effect; the packet's result answers for the list. -/
def runControls (jid addr : Nat) : Nat → Nat → State → State × PktResult
  | 0, _, s => (s, {})
  | k + 1, i, s =>
    match s.job? jid with
    | none => (s, { code := eJob })
    | some j =>
      let r := s.num (addr + 64 * i) 64
      let cks := if hKind r = 0x04 then ctlChecks s j ⟨⟨engJob, 0, 0⟩, 0, 0, 0, [], 0, none, [], false, false, false, [], 0⟩ r else []
      let own := [ckEnum 0 8 (hKind r != 0x04), ckRange 28 2 (hWaitOp r != 0), ckRange 30 2 (hSigOp r != 0)]
      let late := [ckState eState ((j.queue? (targetOf r)).all (fun q => !q.halted))]
      match firstFail (hdrChecks j engJob r (k == 0) ++ own ++ cks ++ late) 0 9 with
      | some f => (s, pktFail f)
      | none =>
        let s := s.controlQueue jid (targetOf r) (bits r 208 2)
        if hLast r then (s, {}) else runControls jid addr k (i + 1) s

/-- DESIGN CHOICE (log 127): a list that the job-control queue is to run, for a job that binds none, is refused with E_STATE. -/
def controlList (p : Nat) (s : State) : Option (State × PktResult) :=
  match firstFail (listChecks s p) 0 7 with
  | some f => some (s, pktFail f)
  | none =>
    match s.job? (pkJob p) with
    | none => some (s, { code := eJob })
    | some j =>
      if !j.admitted then some (s, { code := eJob })
      else if pkImmediate p then some (runControls j.id (pkAddr p) (pkCount p) 0 s)
      else match j.queue? ⟨engJob, 0, 0⟩ with
        | none => some (s, { code := eState })
        | some q =>
          if State.queueRoom q then some (s.pushList j.id q.ref (pkAddr p) (pkCount p) none, {}) else none

/-- CONTROL_LIST (R64). -/
def execControlList (far : BitVec 512) (s : State) : Host.Outcome State Fault Refusal := done s (packet 3 far controlList s)

end Sys2Proof.Machine
end

