-- ==== Sys2Proof/Machine/Bar.lean ====
section
/-! DEFINITION. BAR0 (R67-R71): interrupt registers, mailbox, and what a read of the status page gives. -/
namespace Sys2Proof.Machine

/-! ## Interrupt registers (R69) -/

def irqClear (v : Nat) (s : State) : State :=
  { s with bar := { s.bar with irqStatus := s.bar.irqStatus &&& ~~~(BitVec.ofNat 8 v) } }

def irqMask (v : Nat) (s : State) : State := { s with bar := { s.bar with irqMask := BitVec.ofNat 8 v } }

/-! ## The mailbox (R70) -/

/-- Number under which messages of the mailbox stand in the MSS's inbox, above every module ID. -/
def mboxSource : Nat := 256

/-- The MSS refuses a request that came over BAR0 or MCTP (R71). -/
def State.refuse (s : State) (code : Nat) : State := s.lastError code 7 0 0

/-- A write of MBOX_CTRL: IN_LEN first, then the W1C bits, then GO. -/
def mboxCtrl (v : Nat) (s : State) : State :=
  let n := bits v 0 11
  let b := s.bar
  let b := { b with
    inLen := BitVec.ofNat 11 n, outReady := b.outReady && !bitAt v 18, mboxErr := b.mboxErr && !bitAt v 19 }
  let s := { s with bar := b }
  if !bitAt v 16 then s
  else if b.busy then ({ s with bar := { b with mboxErr := true } }).refuse eState
  else if n = 0 ∨ 1024 < n then ({ s with bar := { b with mboxErr := true } }).refuse eField
  else
    let msg := (List.range n).map (fun i => sget 0 b.mboxIn i)
    { s with bar := { b with busy := true }, mss := { s.mss with inbox := s.mss.inbox ++ [(mboxSource, msg)] } }

/-- The MSS has processed the inbound message. -/
def State.mboxDone (s : State) : State :=
  { s with bar := { s.bar with busy := false }, mss := { s.mss with inbox := s.mss.inbox.filter (fun x => x.1 != mboxSource) } }

/-- An outbound message of the MSS, if there is one, joins those it holds; the first goes out when MBOX_OUT is free. `reply` says that the
MSS has processed the inbound message, whether it answers it or not. -/
def mboxPost (msg : Bytes) (reply : Bool) (s : State) : State :=
  let s := if reply then s.mboxDone else s
  let q := if msg = [] ∨ 1024 < msg.length then s.bar.outQueue else s.bar.outQueue ++ [msg]
  let s := { s with bar := { s.bar with outQueue := q } }
  match q with
  | [] => s
  | m :: rest =>
    if s.bar.outReady then s
    else
      let b := { s.bar with
        outQueue := rest, mboxOut := m ++ s.bar.mboxOut.drop m.length, outLen := BitVec.ofNat 11 m.length, outReady := true }
      ({ s with bar := b }).irq 3

/-! ## Writes (R67) -/

/-- A write of any location: aligned 32-bit writes act on their register; anything else changes nothing. -/
def barWrite (off size v : Nat) (s : State) : State :=
  let x := v % 2 ^ 32
  if size ≠ 4 ∨ off % 4 ≠ 0 then s
  else if off = 0x0000 then ringDoorbell none (x % 2 ^ 16) s
  else if off = 0x0008 then irqClear x s
  else if off = 0x000C then irqMask x s
  else if off = 0x0010 then mboxCtrl x s
  else if 0x0100 ≤ off ∧ off ≤ 0x04FF then
    let m := (List.range 4).foldl (fun l i => sput 0 l (off - 0x100 + i) (BitVec.ofNat 8 (bits x (8 * i) 8))) s.bar.mboxIn
    { s with bar := { s.bar with mboxIn := m } }
  else s

/-- IRQ_STATUS_CLEAR (R69). -/
def execIrqStatusClear (v : Word32) (s : State) : Host.Outcome State Fault Refusal := done s (onBar (irqClear v.toNat) s)
/-- IRQ_MASK_WRITE (R69). -/
def execIrqMaskWrite (v : Word32) (s : State) : Host.Outcome State Fault Refusal := done s (onBar (irqMask v.toNat) s)
/-- MBOX_GO: a write of MBOX_CTRL with GO set (R70). -/
def execMboxGo (v : Word32) (s : State) : Host.Outcome State Fault Refusal :=
  done s (onBar (mboxCtrl (v ||| 0x00010000).toNat) s)
/-- MBOX_OUT_READY_CLEAR: a write of MBOX_CTRL with OUT_READY set (R70). -/
def execMboxOutReadyClear (v : Word32) (s : State) : Host.Outcome State Fault Refusal :=
  done s (onBar (mboxCtrl (v ||| 0x00040000).toNat) s)
/-- MBOX_ERR_CLEAR: a write of MBOX_CTRL with ERR set (R70). -/
def execMboxErrClear (v : Word32) (s : State) : Host.Outcome State Fault Refusal :=
  done s (onBar (mboxCtrl (v ||| 0x00080000).toNat) s)
/-- MBOX_OUT_POST (R70). -/
def execMboxOutPost (msg : MboxPost) (s : State) : Host.Outcome State Fault Refusal := done s (mboxPost msg.bytes msg.reply s)
/-- BAR0_WRITE (R67). -/
def execBar0Write (off size : Nat) (v : BitVec 64) (s : State) : Host.Outcome State Fault Refusal :=
  done s (onBar (barWrite off size v.toNat) s)

/-! ## Reads (R67, R71). A read changes nothing; these functions say what it gives. -/

def jobStateCode (st : JobState) : Nat :=
  match st with
  | .running => 1
  | .parked => 2
  | .draining => 3

/-- First word of a job-table entry. -/
def jobWord (j : Job) : Nat :=
  place 0 16 j.id + place 16 2 (jobStateCode j.st) + place 18 3 j.rank +
  place 24 8 (countIf (·.halted) j.queues) + place 32 8 (countIf (·.full) j.queues)

def packDies (l : List Nat) : Nat := (List.range 4).foldl (fun x i => x + place (16 * i) 16 (l.getD i 0)) 0

/-- The 64-bit word of the status page at an offset. -/
def statusWord (s : State) (off : Nat) : Nat :=
  let m := s.mod
  let e := s.bar.lastError
  let t := s.bar.tel
  if off = 0x8000 then
    m.st.code + place 4 1 (boolNat m.tVar) + place 5 1 (boolNat m.portB) + place 6 1 (boolNat m.bank) + place 8 8 m.id +
    place 16 16 m.version
  else if off = 0x8008 then
    s.wring.head.toNat + place 16 16 s.wring.tail.toNat + place 32 1 (boolNat s.wring.peer) + place 40 8 s.wring.owner
  else if off = 0x8010 then place 0 16 e.code + place 16 8 e.engine + place 24 8 e.inst + place 32 16 e.job
  else if 0x8020 ≤ off ∧ off < 0x8060 then
    let k := (off - 0x8020) / 4
    place 0 32 (s.bar.counts.getD k 0) + place 32 32 (s.bar.counts.getD (k + 1) 0)
  else if off = 0x8060 then t.seq % 2 ^ 64
  else if off = 0x8068 then place 0 16 t.cadence + place 16 16 t.occ + place 32 32 t.timeUs
  else if off = 0x8070 then packDies t.dies
  else if off = 0x8078 then packDies t.volts
  else if 0x8080 ≤ off ∧ off < 0x80C0 then
    if (off - 0x8080) % 16 = 0 then ((s.jobs[(off - 0x8080) / 16]?).map jobWord).getD 0 else 0
  else if off = 0x80C0 then place 0 32 (s.mss.logIndex + 2 ^ 32 - 1) + place 32 32 s.mss.ledgerSeq
  else 0

/-- What a location of BAR0 holds for a read of `size` bytes. -/
def barWord (s : State) (off size : Nat) : Nat :=
  if (size ≠ 4 ∧ size ≠ 8) ∨ off % size ≠ 0 then 0
  else if 0x8000 ≤ off then
    if size = 8 then statusWord s off else bits (statusWord s (off / 8 * 8)) (8 * (off % 8)) 32
  else if size = 8 then 0
  else if off = 0x0008 then s.bar.irqStatus.toNat
  else if off = 0x000C then s.bar.irqMask.toNat
  else if off = 0x0010 then
    s.bar.inLen.toNat + place 17 1 (boolNat s.bar.busy) + place 18 1 (boolNat s.bar.outReady) +
    place 19 1 (boolNat s.bar.mboxErr) + place 20 11 s.bar.outLen.toNat
  else if 0x0100 ≤ off ∧ off ≤ 0x04FF then
    ofLe ((List.range 4).map (fun i => sget 0 s.bar.mboxIn (off - 0x100 + i)))
  else if 0x0800 ≤ off ∧ off ≤ 0x0BFF then
    ofLe ((List.range 4).map (fun i => s.bar.mboxOut.getD (off - 0x800 + i) 0))
  else 0

/-- A read of BAR0: none where the host port presents no device (R72). -/
def barRead (s : State) (off size : Nat) : Option Nat := if barUp s then some (barWord s off size) else none

/-- MODULE_STATE as MCTP over I3C reads it: in every state (R72). -/
def mctpState (s : State) : Nat := s.mod.st.code

end Sys2Proof.Machine
end

