-- ==== Sys2Proof/Machine/Fail.lean ====
section
/-! DEFINITION. Failure of the module (R350), and the log entries for which the spec names no code. -/
namespace Sys2Proof.Machine
namespace State

/-- The error codes of R73. -/
def errorCodes : List Nat :=
  [eField, eFormat, eAlign, eAddress, Machine.eState, ePending, eModule, eJob, eEpoch, eVersion, eEdge, eMemory, ePark, eCredit, eTag,
    eSpare, eOverflow, eInvalid, eStepSkip, ePoison, eTandem, eLinkDown, eLane, eUncorr, eRetire, eChannel, eCap, eThrottle, eHold,
    eProtect, eSignature, eShard, eOverrun, eStraggler, eFault]

/-- A log entry for which the spec names no code: one of those that R73 lists, which one a free value. -/
def logOpen (s : State) (inst job : Nat) (detail : Nat) : State :=
  let (c, s) := s.draw
  s.log (errorCodes.getD (c % errorCodes.length) eFault) 7 inst job detail

/-- The MSS's failure notices to the lead and the deputy of every admitted job (R350). -/
def sendNotices (s : State) : State :=
  (s.jobs.filter Job.admitted).foldl (fun s j =>
    (s.send (j.alias? j.lead) (.failureNotice s.mod.id j.id)).send (j.alias? j.deputy) (.failureNotice s.mod.id j.id)) s

/-- The module declares itself failed: failure notices, then FAULT; its Spoke ports stay UP (R350). -/
def failModule (s : State) : State := if s.mod.st = MState.fault then s else s.sendNotices.enter .fault

end State

/-- MODULE_FAILED (R350). -/
def execModuleFailed (s : State) : Host.Outcome State Fault Refusal := done s s.failModule

end Sys2Proof.Machine
end

