-- ==== Sys2Proof/Machine/Power.lean ====
section
/-! DEFINITION. Cadence meters and telemetry (R39-R42), the governor, caps, throttle and pedal holds (R374-R387), and droop holds
(R31). Cadences are kept in kbeat/s: one beat of a 10 µs gate is 100 of them. -/
namespace Sys2Proof.Machine

/-! ## The beacon network (R313) -/

/-- Its marks, as outputs: over the beacon, or, for a die whose transmitter or receiver has failed, over the management sideband. -/
def beaconArrive : Nat := 16
def beaconHold : Nat := 17
def beaconResume : Nat := 18
def beaconGate : Nat := 20
def sideband : Nat := 32

/-- A die sends a mark. -/
def State.mark (s : State) (kind d : Nat) : State :=
  s.emit (.pin (if (s.dies[d]?).any (·.beaconFail) then sideband + kind else kind) d)

/-! ## Meters (R39-R42) -/

/-- The lowest of a list of readings. -/
def lowest : List Nat → Nat
  | [] => 0
  | [x] => x
  | x :: xs => min x (lowest xs)

/-- What stands for a die in the module cadence: its meters' lowest, or, once they are replaced, its completion-counter rate (R40, R41). -/
def Die.counts (d : Die) : Nat := if d.replaced then d.rate else d.cad

/-- Module cadence: the lowest of the four dies (R40). -/
def State.cadence (s : State) : Nat := lowest (s.dies.map Die.counts)

/-- Readings of the 32 meters of a die, in beats per gate. -/
def dieReadings (meters : List Nat) (d : Nat) : List Nat := (meters.drop (32 * d)).take 32

/-- Completion counters of a die's tiles, together. -/
def dieSteps (s : State) (d : Nat) : Nat := ((s.tiles.steps.filter (fun t => t.1 / 64 == d)).map (·.2)).sum

/-- Steps that a gate reads on a die: as many as its tiles have gone through in the gate, at most those its counters hold and no gate has
read. -/
def gateSteps (s : State) (steps : List Nat) (d : Nat) : Nat :=
  min (steps.getD d 0) (dieSteps s d - ((s.dies[d]?).map (·.counted)).getD 0)

/-- Beats of the gate against which rates are corrected: the lowest reading of the dies whose meters are not replaced. DESIGN CHOICE
(log 119): with every die replaced, the lowest reading of all. -/
def gateBeats (s : State) (meters : List Nat) : Nat :=
  let live := (List.range 4).filter (fun d => !((s.dies[d]?).any (·.replaced)))
  lowest ((if live = [] then List.range 4 else live).map (fun d => lowest (dieReadings meters d)))

/-- A die after a gate with `beats` on its slowest meter and `n` steps done, `total` on the module and `base` beats on its meters: its rate
at full occupancy is 4·n·base / total beats. It departs when that differs from its meters by more than 2 %. DESIGN CHOICE (log 119): a gate
with no step leaves the rate as it was, and no die departs in it. -/
def Die.gate (x : Die) (beats n base total : Nat) : Die :=
  let w := 4 * n * base
  let off := total != 0 && decide (2 * (beats * total) < 100 * ((w - beats * total) + (beats * total - w)))
  { x with
    cad := 100 * beats, counted := x.counted + n
    rate := if total = 0 then x.rate else 100 * w / total
    departed := if off then x.departed + 1 else 0 }

/-- A gate's readings: die and module cadence, occupancy, and each die's departure (R40, R41); die 0 marks the gate's edge on the beacon
(R313). -/
def meterGate (meters steps : List Nat) (s : State) : State :=
  if !s.mod.mainOn then s
  else
    let base := gateBeats s meters
    let total := ((List.range 4).map (gateSteps s steps)).sum
    let dies := s.dies.mapIdx (fun d (x : Die) => x.gate (lowest (dieReadings meters d)) (gateSteps s steps d) base total)
    let c := lowest (dies.map Die.counts)
    ({ s with dies := dies, pwr := { s.pwr with occ := if c = 0 then 0 else total * 1000000 / (256 * c) } }).mark beaconGate 0

/-- CADENCE_GATE (R40). -/
def execCadenceGate (meters steps : List Nat) (s : State) : Host.Outcome State Fault Refusal := done s (meterGate meters steps s)

def State.updDie (s : State) (d : Nat) (f : Die → Die) : State :=
  { s with dies := s.dies.mapIdx (fun i x => if i = d then f x else x) }

/-- A die that departed for 100 gates in a row is logged, and its meters are replaced (R41). -/
def replaceMeters (d : Nat) (s : State) : State :=
  match s.dies[d]? with
  | none => s
  | some x =>
    if x.departed < 100 ∨ x.replaced then s
    else (s.updDie d (fun x => { x with replaced := true })).logOpen d 0 0

/-- OCCUPANCY_MISMATCH (R41). -/
def execOccupancyMismatch (die : Nat) (s : State) : Host.Outcome State Fault Refusal := done s (replaceMeters die s)

/-- Core voltage in mV (R379). -/
def Die.mv (d : Die) : Nat := d.volt * 5 / 2

/-- The telemetry words, under TELEM_SEQ (R42, R71). -/
def publishTelemetry (s : State) : State :=
  if !s.mod.mainOn then s
  else
    let t := s.bar.tel
    let t : Telemetry := {
      seq := (t.seq + 2) % 2 ^ 64, cadence := s.cadence / 1000, occ := s.pwr.occ, timeUs := s.now / 100 % 2 ^ 32
      dies := s.dies.map (fun d => d.cad / 1000), volts := s.dies.map Die.mv }
    { s with bar := { s.bar with tel := t } }

/-- TELEMETRY_PUBLISH (R42). -/
def execTelemetryPublish (s : State) : Host.Outcome State Fault Refusal := done s (publishTelemetry s)

/-! ## The governor (R374, R378-R384) -/

/-- Phase tags of the commands in flight on the engines: those of the job that runs. -/
def flightTags (s : State) : List Nat :=
  (s.runJob.toList.flatMap (fun j => j.queues.flatMap (fun q => q.flight.map (fun f => hPhase f.record)))).foldl
    (fun l p => if l.contains p then l else l ++ [p]) []

/-- The gear with the highest TARGET, the lower number on a tie. -/
def bestGear (t : Nat) : List Nat → Option Nat
  | [] => none
  | g :: gs =>
    match bestGear t gs with
    | none => some g
    | some b =>
      if gtTarget t b < gtTarget t g then some g
      else if gtTarget t g < gtTarget t b then some b else some (min g b)

/-- The gear by the phase tags of a gate (R378). -/
def taggedGear (s : State) : Nat := (bestGear s.pwr.table (s.pwr.tags.map (gtMap s.pwr.table))).getD (gtMap s.pwr.table 5)

/-- The budget of the active gear, with what lead-out raised or lowered, never above the cap (R374, R382). -/
def budgetOf (s : State) (g : Nat) : Nat :=
  min s.pwr.cap ((baseBudget s g : Int) + (s.runJob.map (fun j => j.lock.lead)).getD 0).toNat

/-- Pedal work runs in a gate in which the demand is below the floor of a hold, below what a fall may be, or below the level of a switch's
phase 6 (R383, R384). Means in W, of 1 ms and of 100 µs. -/
def pedalWorks (s : State) (mean mean100 : Nat) : Bool :=
  s.pwr.pedals.any (fun p => decide (mean < min (budgetOf s p.gear) p.floor)) ||
  (!s.pwr.capDuty && decide (mean100 + 20 < s.pwr.power100)) || decide (mean100 < switchLevel s)

/-- The active gear: while pedal work runs, that of the beginning of the wait (R378). -/
def activeGear (s : State) (mean mean100 : Nat) : Nat :=
  if !pedalWorks s mean mean100 then taggedGear s
  else match s.pwr.pedals with
    | p :: _ => p.gear
    | [] => s.pwr.fade.getD s.pwr.gear

/-- A tile duty limit is in force (R383). -/
def Power.limited (p : Power) : Bool := p.capDuty || decide (p.budgetDuty < 100) || decide (p.rampDuty < 100)

/-- Locked cadence of a gear, in kbeat/s: TARGET before the first lock, and never more than TARGET (R379, R380). -/
def lockedCad (t : Nat) (l : Lock) (g : Nat) : Nat :=
  1000 * min (gtTarget t g) ((l.locks.bind (fun ls => ls[g]?)).getD (gtTarget t g))

/-- Assigned cadence (R381). What the reduced budget of a payer over its budget allows is a free value in its range. -/
def assignedCad (s : State) (g : Nat) : Nat × State :=
  match s.runJob with
  | none => (1000 * gtTarget s.pwr.table g, s)
  | some j =>
    let l := lockedCad s.pwr.table j.lock g
    let pays := decide (j.lock.lead < 0) && decide (budgetOf s g < s.pwr.power)
    if j.lock.grant ≠ 0 then (l * (100 + j.lock.grant) / 100, s)
    else if pays then
      let (v, s) := s.draw
      let fall := l * gtLead s.pwr.table / 100
      (l - v % (fall + 1), s)
    else (l, s)

/-- A value lowered by so many parts per million. -/
def lowered (v ppm : Nat) : Nat := v * (1000000 - ppm) / 1000000

/-- A cut deepened by so many percent of what it leaves. -/
def deeper (ppm pct : Nat) : Nat := ppm + (1000000 - ppm) * pct / 100

/-- A cut released by 1 %. -/
def released (ppm : Nat) : Nat := ppm - 10000

/-- Lowest and highest voltage of R26 in steps of 2.5 mV, and 0.80 V. -/
def voltFloor : Nat := 248
def voltCeil : Nat := 360
def voltLimited : Nat := 320

/-- One die's voltage in a gate, by the cadence with which it counts (R40, R41): up towards the setpoint, down when more than 0.5 % above it, by at most 20 steps, within R26 and
the gear's VMAX; a voltage above 0.80 V is selected only where the module's power at it is within the cap, `fits` (R26, R379). -/
def voltGate (top set : Nat) (fits : Bool) (d : Die) (k : Nat) : Nat :=
  let k := k % 20 + 1
  let v := if top < d.volt then max top (d.volt - 20)
    else if d.counts < set then
      let v := min top (d.volt + k)
      if voltLimited < v && !fits then max voltLimited d.volt else v
    else if 1005 * set < 1000 * d.counts then d.volt - k
    else d.volt
  max voltFloor (min voltCeil v)

def voltGates (top set : Nat) (fits : Bool) : List Die → State → List Die × State
  | [], s => ([], s)
  | d :: ds, s =>
    let (k, s) := s.draw
    let (r, s) := voltGates top set fits ds s
    ({ d with volt := voltGate top set fits d k } :: r, s)

/-- The end of a millisecond: its mean joins the history, and budget and released throttle move the setpoint by 1 % (R379, R385). -/
def milliGate (s : State) (budget : Nat) : State :=
  let p := s.pwr
  if p.histGates + 1 < 100 then { s with pwr := { p with histGates := p.histGates + 1 } }
  else
    { s with pwr := { p with
      histGates := 0, hist := (p.power :: p.hist).take 10
      budgetCut := if budget < p.power then deeper p.budgetCut 1 else released p.budgetCut
      capCut := if p.capDuty then p.capCut else released p.capCut
      heatCut := if p.throttled then p.heatCut else released p.heatCut } }

/-- Duty limits at the gate's end: lifted when the power is back under the cap; set, at a free duty, when the dies at the floor are over
budget, and when the power rises faster than the ramp (R374, R379, R383). -/
def dutyGate (s : State) (budget old : Nat) : State :=
  let floor := s.dies.all (fun d => decide (d.volt ≤ voltFloor))
  let (a, s) := s.draw
  let (b, s) := s.draw
  let p := s.pwr
  { s with pwr := { p with
    capDuty := p.capDuty && decide (p.cap < p.power100)
    budgetDuty := if floor && decide (budget < p.power) then a % 99 + 1 else 100
    rampDuty := if old + 20 < p.power100 then b % 99 + 1 else p.rampDuty + b % (101 - p.rampDuty) } }

/-- Achievable cadence of the gate (R380, R385), in Mbeat/s. -/
def achieved (s : State) (g set budget : Nat) : Nat :=
  let c := s.cadence
  let held := decide (995 * set ≤ 1000 * c) && decide (1000 * c ≤ 1005 * set)
  let room := s.dies.all (fun d => decide (25 * d.volt + 100 ≤ 10 * gtVmax s.pwr.table g)) && decide (100 * s.pwr.power ≤ 98 * budget)
  (if s.pwr.throttled || (held && room) then set else c) / 1000

/-- What the gate leaves for the job: the report's A, the step's sums, the pedal energy (a free value), a withdrawn grant (R369, R380,
R382, R384). -/
def jobGate (s : State) (g assigned set budget : Nat) : State :=
  match s.runJob with
  | none => s
  | some j =>
    let hold := s.dies.any (fun d => d.hold.isSome)
    let a := achieved s g set budget
    let s := if hold then s
      else { s with pwr := { s.pwr with used := s.pwr.used.filter (fun u => u.1 != g) ++ [(g, a)] } }
    let c := s.cadence / 1000
    let off := s.pwr.throttled || s.pwr.limited
    s.updJob j.id (fun j => { j with lock := { j.lock with
      cadSum := j.lock.cadSum + c, setSum := j.lock.setSum + assigned / 1000
      mean := s.pwr.power
      grant := if off then 0 else j.lock.grant, lead := if off then min 0 j.lock.lead else j.lock.lead
      withdrawn := j.lock.withdrawn || (off && j.lock.grant != 0) } })

/-- Pedal energy of the jobs that hold (R384). -/
def pedalGate (s : State) : State :=
  s.pwr.pedals.foldl (fun s p =>
    match s.jobs.findIdx? (fun j => j.id == p.job) with
    | none => s
    | some i =>
      let (v, s) := s.draw
      { s with pwr := { s.pwr with energy := s.pwr.energy.set i (s.pwr.energy.getD i 0 + v) } }) s

/-- A mean that pedal work keeps up: not below the floor of any hold, as far as the budget allows (R384, R389). -/
def pedalled (s : State) (budget mean : Nat) : Nat := max mean (min budget ((s.pwr.pedals.map (·.floor)).foldl max 0))

/-- The 100 µs mean with pedal work in the idle tiles: a fall fades by 20 W a gate, unless the cap's fast limit is in force, and phase 6 of a
switch rises by as much towards its level (R383). -/
def faded (s : State) (mean100 : Nat) : Nat :=
  let old := s.pwr.power100
  let m := max mean100 (min (old + 20) (switchLevel s))
  if s.pwr.capDuty then m else max m (old - 20)

/-- GOVERNOR_GATE: active gear, setpoint, voltages, duty limits, pedal work (R378, R379, R383, R384). -/
def governorGate (mean mean100 : Nat) (s : State) : State :=
  if !s.mod.mainOn || s.mss.tripped then s
  else
    let g := activeGear s mean mean100
    let fade := if pedalWorks s mean mean100 then some (s.pwr.fade.getD s.pwr.gear) else none
    let old := s.pwr.power100
    let budget := budgetOf s g
    let mean := pedalled s budget mean
    let s := { s with pwr := { s.pwr with gear := g, power := mean, power100 := pedalled s budget (faded s mean100), fade := fade } }
    let s := milliGate s budget
    let (a, s) := assignedCad s g
    let set := lowered (lowered (lowered a s.pwr.budgetCut) s.pwr.capCut) s.pwr.heatCut
    let vmax := gtVmax s.pwr.table g * 2 / 5
    let top := if mean ≤ s.pwr.cap then vmax else min vmax voltLimited
    -- what a higher voltage adds to the power is a free value (DESIGN CHOICE, log 120)
    let (more, s) := s.draw
    let (dies, s) := voltGates top set (decide (mean + more ≤ s.pwr.cap)) s.dies s
    let s := dutyGate { s with dies := dies, pwr := { s.pwr with setpoint := set } } budget old
    let s := pedalGate (jobGate s g a set budget)
    { s with pwr := { s.pwr with tags := flightTags s } }

def execGovernorGate (meanMs mean100us : Nat) (s : State) : Host.Outcome State Fault Refusal := done s (governorGate meanMs mean100us s)

/-- The cap is exceeded by more than 5 %: duty at 75 %, the setpoint 2 % lower, one log entry for the episode (R374); R408 lists no DETAIL
for it. -/
def capLimit (mean100 : Nat) (s : State) : State :=
  if 100 * mean100 ≤ 105 * s.pwr.cap ∨ s.pwr.capDuty ∨ !s.mod.mainOn then s
  else ({ s with pwr := { s.pwr with capDuty := true, capCut := deeper s.pwr.capCut 2, power100 := mean100 } }).log eCap 7 0 0

/-- CAP_FAST_LIMIT (R374). -/
def execCapFastLimit (mean100us : Nat) (s : State) : Host.Outcome State Fault Refusal := done s (capLimit mean100us s)

/-- The MSS runs in every state but OFF. -/
def onMss (f : State → State) (s : State) : State := if s.mod.st = MState.off then s else f s

/-! ## Thermal limits (R385-R387); readings in 0.1 °C -/

/-- Every grant on this module is withdrawn until the next boundary (R382, R389). -/
def State.withdrawGrants (s : State) : State :=
  { s with jobs := s.jobs.map (fun (j : Job) =>
      { j with lock := { j.lock with grant := 0, lead := min 0 j.lock.lead, withdrawn := true } }) }

/-- DETAIL of a thermal log entry: sensor, reading, and whether it is a trip. -/
def heatDetail (sensor reading : Nat) (trip : Bool) : Nat := place 0 16 sensor + place 16 16 reading + place 32 1 (boolNat trip)

def throttleOn (sensor reading : Nat) (s : State) : State :=
  if reading ≤ 950 ∨ s.pwr.throttled ∨ !s.mod.mainOn then s
  else (({ s with pwr := { s.pwr with throttled := true } }).withdrawGrants).log eThrottle 7 0 0 (heatDetail sensor reading false)

/-- THROTTLE_ENGAGE (R385). -/
def execThrottleEngage (sensor reading : Nat) (s : State) : Host.Outcome State Fault Refusal := done s (throttleOn sensor reading s)

def throttleDown (reading : Nat) (s : State) : State :=
  if reading ≤ 950 ∨ !s.pwr.throttled then s
  else { s with pwr := { s.pwr with heatCut := deeper s.pwr.heatCut 2 } }

/-- THROTTLE_STEP (R385). -/
def execThrottleStep (reading : Nat) (s : State) : Host.Outcome State Fault Refusal := done s (throttleDown reading s)

/-- The hottest sensor at 92 °C or less ends the throttle; below 85 °C a reset can end a trip (R385, R386). -/
def throttleOff (reading : Nat) (s : State) : State :=
  if 920 < reading then s
  else { s with
    pwr := { s.pwr with throttled := false }, mss := { s.mss with hot := s.mss.hot && decide (850 ≤ reading) } }

/-- THROTTLE_RELEASE (R385). -/
def execThrottleRelease (reading : Nat) (s : State) : Host.Outcome State Fault Refusal := done s (throttleOff reading s)

/-- The dies of a die link, the lower-numbered first (R403). -/
def linkDies (l : Nat) : Nat × Nat := [(0, 1), (1, 3), (2, 3), (0, 2), (0, 3), (1, 2)].getD l (0, 0)

def endDie (l : Nat) (far : Bool) : Nat := if far then (linkDies l).2 else (linkDies l).1

/-- A timer that began at `at_` and stood still from `t` to `now`. -/
def thawed (at_ t now : Nat) : Nat := at_ + (now - max t at_)

/-- The die-link timers that a hold of die `d`, begun at `t`, has frozen go on (R317, R323). -/
def State.thawLinks (s : State) (d t : Nat) : State :=
  let f (e : LinkEnd) : LinkEnd := { e with ackAt := thawed e.ackAt t s.now, began := thawed e.began t s.now }
  { s with links := s.links.mapIdx (fun l k =>
      if (linkDies l).1 = d ∨ (linkDies l).2 = d then { k with near := f k.near, far := f k.far } else k) }

/-- The log entry of a hold that ends: start time and duration in 10 ns units (R31, R408). -/
def State.logHold (s : State) (d t : Nat) : State := s.log eHold 7 d 0 (Machine.place 0 64 t + Machine.place 64 32 (s.now - t))

/-- The Spoke ports of a die take and send what they hold. -/
def State.pumpDiePorts (s : State) (d : Nat) : State :=
  ((List.range 36).filter (fun n => portDie n == d)).foldl (fun s n => (s.settlePort n).pump n) s

/-- Core voltage is removed from every die, which ends its hold (R31). -/
def State.coreOff (s : State) : State :=
  let s := (List.range s.dies.length).foldl (fun s d =>
    match (s.dies[d]?).bind (·.hold) with
    | some t => s.logHold d t
    | none => s) s
  { s with dies := s.dies.map (fun (d : Die) => { d with volt := 0, cad := 0, hold := none }) }

def trip (sensor reading : Nat) (s : State) : State :=
  if reading < 1100 ∨ !s.mod.mainOn ∨ s.mss.tripped then s
  else
    let s := s.coreOff.log eThrottle 7 0 0 (heatDetail sensor reading true)
    ({ s with mss := { s.mss with tripped := true, hot := true } }).failModule

/-- THERMAL_TRIP (R386). -/
def execThermalTrip (sensor reading : Nat) (s : State) : Host.Outcome State Fault Refusal := done s (trip sensor reading s)

/-- The value of a PLDM sensor that the MSS keeps. -/
def State.setSensor (s : State) (id : Nat) (v : Int) : State :=
  { s with mss := { s.mss with sensors := s.mss.sensors.filter (fun x => x.1 != id) ++ [(id, v)] } }

/-- An inlet temperature of 15-45 °C. -/
def inletOk (t : Int) : Bool := decide (150 ≤ t) && decide (t ≤ 450)

/-- Coolant temperatures published; an event when the inlet leaves 15-45 °C: at a reading outside that follows one inside, or none. -/
def coolant (inlet outlet : Int) (s : State) : State :=
  let before := ((s.mss.sensors.find? (fun x => x.1 == 0x230)).map (·.2)).all inletOk
  let s := (s.setSensor 0x230 inlet).setSensor 0x231 outlet
  if before && !inletOk inlet then s.emit (.pldm 1 [0x230, inlet]) else s

/-- COOLANT_EVENT (R387). -/
def execCoolantEvent (inlet outlet : Int) (s : State) : Host.Outcome State Fault Refusal := done s (onMss (coolant inlet outlet) s)

/-! ## Pedal holds and droop holds -/

/-- Holds older than PEDAL_MS end (R384). -/
def pedalExpire (s : State) : State :=
  { s with pwr := { s.pwr with pedals := s.pwr.pedals.filter (fun p => decide (s.now < p.since + gtMs s.pwr.table * 100000)) } }

/-- PEDAL_HOLD_EXPIRE (R384). -/
def execPedalHoldExpire (s : State) : Host.Outcome State Fault Refusal := done s (pedalExpire s)

def holdDie (d mv : Nat) (s : State) : State :=
  if !s.mod.mainOn || dieHeld s d || decide (580 ≤ mv) || decide (s.dies.length ≤ d) then s
  else (s.updDie d (fun x => { x with hold := some s.now })).mark beaconHold d

/-- DROOP_HOLD_START (R31). -/
def execDroopHoldStart (die mv : Nat) (s : State) : Host.Outcome State Fault Refusal := done s (holdDie die mv s)

/-- The hold ends, and what waited at the die's ports, channels and windows goes on: RESUME, and the hold's log entry (R31, R313). -/
def resumeDie (d mv : Nat) (s : State) : State :=
  match (s.dies[d]?).bind (·.hold) with
  | none => s
  | some t =>
    if mv < 600 then s
    else (((((s.updDie d (fun x => { x with hold := none })).thawLinks d t).mark beaconResume d).logHold d t).pumpDiePorts d).issueHeld

/-- DROOP_HOLD_END (R31). -/
def execDroopHoldEnd (die mv : Nat) (s : State) : Host.Outcome State Fault Refusal := done s (resumeDie die mv s)

/-- A hold of more than 1 ms: the module enters FAULT (R31, R350). -/
def holdTimeout (d : Nat) (s : State) : State :=
  match (s.dies[d]?).bind (·.hold) with
  | none => s
  | some t => if s.now ≤ t + 100000 then s else s.failModule

/-- DROOP_HOLD_TIMEOUT (R31). -/
def execDroopHoldTimeout (die : Nat) (s : State) : Host.Outcome State Fault Refusal := done s (holdTimeout die s)

end Sys2Proof.Machine
end

