-- ==== Sys2Proof/Machine/DieLinks.lean ====
section
/-! DEFINITION. Die links (R310-R323): flits, retry, width changes, sparing, rerouting; the module barrier and the beacon (R313). -/
namespace Sys2Proof.Machine

/-! ## Flits (R314, R315, R318) -/

def dSeq (f : DieFlit) : Nat := bits f.toNat 16 10
def dClass (f : DieFlit) : Nat := bits f.toNat 26 2
def dCtrl (f : DieFlit) : Bool := bitAt f.toNat 28
def dFrom (f : DieFlit) : Nat := bits f.toNat 32 12
def dTo (f : DieFlit) : Nat := bits f.toNat 44 12
def dTxn (f : DieFlit) : Nat := bits f.toNat 56 8
def dPay (f : DieFlit) : Nat := bits f.toNat 64 1024
def kCredit (f : DieFlit) (c : Nat) : BitVec 16 := BitVec.ofNat 16 (bits (dPay f) (16 * c) 16)
def kNak (f : DieFlit) : Bool := bitAt (dPay f) 64
def kWstate (f : DieFlit) : Nat := bits (dPay f) 65 2
def kQuarter (f : DieFlit) : Bool := bitAt (dPay f) 67
def kSubLane (f : DieFlit) : Nat := bits (dPay f) 68 5
def kSubWire (f : DieFlit) : Nat := bits (dPay f) 73 5
def kSub (f : DieFlit) : Bool := bitAt (dPay f) 78
def kEpoch (f : DieFlit) : Nat := bits (dPay f) 80 16
def kMask (f : DieFlit) : Nat := bits (dPay f) 96 32

/-- One byte into CRC-16, polynomial 0x1021, most significant bit first. -/
def crc16Byte (c : Nat) (b : Byte) : Nat :=
  (List.range 8).foldl (fun c _ => if bitAt c 15 then ((c * 2) % 65536) ^^^ 0x1021 else c * 2) (c ^^^ (b.toNat * 256))

/-- CRC-16 of R315. -/
def crc16 (bs : Bytes) : Nat := bs.foldl crc16Byte 0xFFFF

def dieFlitCrc (f : Nat) : Nat := crc16 (leBytes 134 (f >>> 16))

/-- A flit that is not discarded (R315): a good CRC, and a listed combination of CCLASS and CTRL. DEDUCED (log 48): a control flit has no
class, so its CCLASS is 0. -/
def dieFlitGood (f : DieFlit) : Bool := bits f.toNat 0 16 == dieFlitCrc f.toNat && (!dCtrl f || dClass f == 0)

/-- A flit with its sequence number and CRC. -/
def sealDie (f : Nat) (seq : Nat) : DieFlit :=
  let x := setBits f 16 10 seq
  BitVec.ofNat 1088 (setBits x 0 16 (dieFlitCrc x))

/-- Endpoints of die d (R314). -/
def endpointListed (e : Nat) : Bool :=
  let d := e / 1024
  let c := e % 1024
  decide (c ≤ 0x4B) || (decide (0x50 ≤ c) && decide (c ≤ 0x58)) || c == 0x60 || (c == 0x61 && (d == 1 || d == 2)) ||
  (c == 0x62 && d == 1) || c == 0x63 || (c == 0x64 && (d == 0 || d == 2))

/-- The response to a request: class 1, with TXN echoed; its payload and POISON are free values (R314, R316). -/
def dieAnswer (f : DieFlit) (c : Nat) : DieFlit :=
  BitVec.ofNat 1088 (place 26 2 1 + place 29 1 (c / 2 ^ 1024) + place 32 12 (dTo f) + place 44 12 (dFrom f) + place 56 8 (dTxn f) +
    place 64 1024 c)

def isGlint (l : Nat) : Bool := decide (4 ≤ l)
def linkLanes (l : Nat) : Nat := if isGlint l then 16 else 32
def quarterLanes (l : Nat) : Nat := if isGlint l then 4 else 8
/-- The link between two dies. -/
def linkOf (a b : Nat) : Nat := ((List.range 6).find? (fun l => linkDies l == (min a b, max a b))).getD 0

/-- The intermediate die of a link's reroute (R23, R322). -/
def viaDie (l : Nat) : Nat := [2, 0, 0, 1, 1, 0].getD l 0

def lanesIn (m : Nat) : Nat := countIf (bitAt m) (List.range 32)

def DieLink.side (k : DieLink) (far : Bool) : LinkEnd := if far then k.far else k.near
def DieLink.setSide (k : DieLink) (far : Bool) (e : LinkEnd) : DieLink := if far then { k with far := e } else { k with near := e }

def wstateCode (w : WState) : Nat :=
  match w with
  | .normal => 0
  | .proposed => 1
  | .accepted => 2
  | .committed => 3

/-- MASK of an end's control flits: in a change the mask that it has offered; in NORMAL, what it still can use of the committed mask; else its
own lanes. -/
def LinkEnd.sentMask (e : LinkEnd) : Nat :=
  if e.wstate ≠ .normal then e.offered
  else match e.width with
    | some w => if e.quarter then e.mask else e.mask &&& w.2
    | none => e.mask

/-- EPOCH: the committed epoch, 0 with none, or that of the change in progress. -/
def LinkEnd.sentEpoch (e : LinkEnd) : Nat := if e.wstate = .normal then ((e.width).map (·.1)).getD 0 else e.newEpoch

/-- Byte i of the pattern holds 0xA5 XOR i. -/
def dieControlPattern : Nat := ofLe ((List.range 112).map (fun i => BitVec.ofNat 8 (0xA5 ^^^ i)))

/-- A control flit of an end (R318); `w` its WSTATE, `epoch` its EPOCH. -/
def controlOf (e : LinkEnd) (nak : Bool) (w epoch : Nat) (sub : Option (Nat × Nat)) : DieFlit :=
  let cr := (List.range 4).foldl (fun x c => x + place (16 * c) 16 (e.freed.getD c 0).toNat) 0
  let sb := match sub with
    | some (l, wi) => place 68 5 l + place 73 5 wi + place 78 1 1
    | none => 0
  let pay := cr + place 64 1 (boolNat nak) + place 65 2 w + place 67 1 (boolNat e.quarter) + sb + place 80 16 epoch +
    place 96 32 e.sentMask + place 128 896 dieControlPattern
  sealDie (place 28 1 1 + place 64 1024 pay) ((e.rxSeq.toNat + 1023) % 1024)

/-! ## The state of an end -/

namespace State

def link (s : State) (l : Nat) : DieLink := s.links.getD l {}
def updLink (s : State) (l : Nat) (f : DieLink → DieLink) : State := { s with links := s.links.set l (f (s.link l)) }
def linkEnd (s : State) (l : Nat) (far : Bool) : LinkEnd := (s.link l).side far
def updEnd (s : State) (l : Nat) (far : Bool) (f : LinkEnd → LinkEnd) : State := s.updLink l (fun k => k.setSide far (f (k.side far)))

/-- A control flit goes out: in quarter mode on each of the quarter lanes (R320). -/
def emitControl (s : State) (l : Nat) (far : Bool) (f : DieFlit) : State :=
  s.emit (.dieFlit l far (if (s.linkEnd l far).quarter then 2 ^ quarterLanes l - 1 else 0) f)

/-- A control flit of an end, which acknowledges what it has accepted; none while its die holds (R31). -/
def sendDieControl (s : State) (l : Nat) (far nak : Bool) : State :=
  let e := s.linkEnd l far
  if dieHeld s (endDie l far) then s
  else (s.emitControl l far (controlOf e nak (wstateCode e.wstate) e.sentEpoch none)).updEnd l far (fun e => { e with unacked := 0 })

/-! ## Sending data flits (R316, R317) -/

/-- An end may send a data flit of a class: committed width, no change in progress, a credit, room in the replay buffer. -/
def mayData (e : LinkEnd) (c : Nat) : Bool :=
  !e.quarter && e.width.isSome && decide (e.wstate = .normal) && decide ((e.used.getD c 0 - e.peerFreed.getD c 0).toNat < 256) &&
  decide (e.replay.length < 512)

/-- The lane that a data flit is dealt to: the lanes of the mask in ascending order, in rotation (R319). -/
def dealLane (e : LinkEnd) : Nat :=
  let lanes := (List.range 32).filter (bitAt e.txMask)
  (lanes.find? (fun i => decide (e.lane ≤ i))).getD (lanes.headD 0)

/-- A data flit on its lane. -/
def emitData (s : State) (l : Nat) (far : Bool) (f : DieFlit) : State :=
  let i := dealLane (s.linkEnd l far)
  (s.updEnd l far (fun e => { e with lane := i + 1 })).emit (.dieFlit l far (2 ^ i) f)

/-- One flit out: a resend, else the oldest waiting flit whose class has a credit. -/
def pumpDieOne (s : State) (l : Nat) (far : Bool) : State :=
  let e := s.linkEnd l far
  if e.quarter || e.width.isNone || decide (e.wstate ≠ .normal) then s
  else match e.resend with
    | f :: t => (s.updEnd l far (fun e => { e with resend := t })).emitData l far f
    | [] =>
      match e.txq.findIdx? (fun f => mayData e (dClass f)) with
      | none => s
      | some i =>
        match e.txq[i]? with
        | none => s
        | some f =>
          let g := sealDie f.toNat e.txSeq.toNat
          let c := dClass f
          (s.updEnd l far (fun e => { e with
            txq := e.txq.eraseIdx i, replay := e.replay ++ [g], txSeq := e.txSeq + 1
            ackAt := if e.replay.isEmpty then s.now else e.ackAt
            used := e.used.set c (e.used.getD c 0 + 1) })).emitData l far g

def pumpDieN (s : State) (l : Nat) (far : Bool) : Nat → State
  | 0 => s
  | n + 1 => (s.pumpDieOne l far).pumpDieN l far n

/-- An end sends what it may; not while its die holds (R31). -/
def pumpDie (s : State) (l : Nat) (far : Bool) : State :=
  let e := s.linkEnd l far
  if dieHeld s (endDie l far) then s else s.pumpDieN l far (e.resend.length + e.txq.length)

/-- The link and the end of it by which a flit leaves die `d` for die `t`: the direct link, or the first of the reroute of a link out of service
(R23, R322). -/
def wayOut (s : State) (d t : Nat) : Nat × Bool :=
  let l := linkOf d t
  let l := if (s.link l).out then linkOf d (viaDie l) else l
  (l, (linkDies l).2 == d)

/-- A flit on its way from die `d`. -/
def routeDie (s : State) (d : Nat) (f : DieFlit) : State :=
  let (l, far) := s.wayOut d (dTo f / 1024)
  (s.updEnd l far (fun e => { e with txq := e.txq ++ [f] })).pumpDie l far

/-- A request is answered by its endpoint. -/
def answerDie (s : State) (d : Nat) (f : DieFlit) : State :=
  let (c, s) := s.draw
  if dFrom f / 1024 = d then s
  else s.routeDie d (dieAnswer f c)

/-- An accepted flit leaves its slot: for its endpoint on this die, or on to another die. -/
def drainOne (l : Nat) (far : Bool) (s : State) (f : DieFlit) : State :=
  let d := endDie l far
  let s := s.updEnd l far (fun e => { e with freed := e.freed.set (dClass f) (e.freed.getD (dClass f) 0 + 1) })
  if dTo f / 1024 ≠ d then s.routeDie d f
  else if dClass f = 0 then s.answerDie d f
  else s

/-- What waits in an end's receive buffer goes on; not while the die is in a droop hold (R31, R323). -/
def drainDie (s : State) (l : Nat) (far : Bool) : State :=
  if dieHeld s (endDie l far) then s
  else (s.linkEnd l far).rx.foldl (drainOne l far) (s.updEnd l far (fun e => { e with rx := [] }))

/-! ## Width changes (R319, R320) -/

/-- The larger of two epochs under serial comparison. -/
def laterEpoch (a b : Nat) : Nat := if newer 16 a b then a else b

/-- The lower-numbered die proposes (R319 step 1). -/
def proposeWidth (s : State) (l : Nat) : State :=
  let e := s.linkEnd l false
  let ep := (laterEpoch (((e.width).map (·.1)).getD 0) e.peerEpoch + 1) % 65536
  (s.updEnd l false (fun e => { e with wstate := .proposed, newEpoch := ep, offered := e.mask, began := s.now, quarter := true })).sendDieControl l false false

/-- An end enters quarter mode; the lower-numbered die then proposes, the other tells it by its QUARTER flag (R320). -/
def enterQuarter (s : State) (l : Nat) (far : Bool) : State :=
  let e := s.linkEnd l far
  if !far then (if e.wstate = .normal then s.proposeWidth l else s)
  else if e.quarter then s
  else (s.updEnd l true (fun e => { e with quarter := true })).sendDieControl l true false

/-- The next unused spare for a lane in a direction's wire map: of the lane on Clasp, of the path on Glint (R310, R311). -/
def spareIndex (l : Nat) (wires : List (Nat × Nat × Nat)) (lane : Nat) : Nat :=
  if isGlint l then wires.length else countIf (fun w => w.1 == lane) wires

/-- The wire map of the direction that an end sends, after a control flit: a far end that retrains, its EPOCH at 0, begins its map anew; a SUB
adds to it, once for a Clasp wire (R320, R321). -/
def toldWires (l : Nat) (e : LinkEnd) (f : DieFlit) : List (Nat × Nat × Nat) :=
  let ws := if kEpoch f == 0 && e.peerEpoch != 0 then [] else e.txWires
  if kSub f && (isGlint l || !ws.any (fun w => w.1 == kSubLane f && w.2.1 == kSubWire f)) then
    ws ++ [(kSubLane f, kSubWire f, spareIndex l ws (kSubLane f))]
  else ws

/-- What both ends do with every control flit, whatever its WSTATE: acknowledgement, credits, NAK, a wire substitution told by the far
end. -/
def takeDieControl (s : State) (l : Nat) (far : Bool) (f : DieFlit) : State :=
  s.updEnd l far (fun e =>
    let keep := e.replay.dropWhile (fun g => decide ((dSeq f + 1024 - dSeq g) % 1024 < 512))
    let moved := decide (keep.length < e.replay.length)
    { e with
      replay := keep
      replays := if moved then 0 else if kNak f then e.replays + 1 else e.replays
      resend := if kNak f then keep else e.resend
      peerFreed := (List.range 4).map (kCredit f)
      peerEpoch := kEpoch f
      ackAt := s.now
      txWires := toldWires l e f })

/-! ## Sparing (R321) -/

/-- A spare is left for a lane, beside those that failures not yet told will take: 2 per Clasp lane, 2 per Glint path. -/
def spareLeft (l : Nat) (e : LinkEnd) (lane : Nat) : Bool :=
  decide (spareIndex l e.wires lane + countIf (fun x => isGlint l || x.1 == lane) e.sub < 2)

/-- Log entry and ledger record of a substitution or of a lane lost. -/
def recordWire (s : State) (l lane wire : Nat) (spare : Nat) (removed : Bool) (mask : Nat) : State :=
  (s.log eLane 7 l 0 (Machine.place 0 8 l + Machine.place 8 8 lane)).ledger 0x04
    (leBytes 16 (Machine.place 0 3 l + Machine.place 8 5 lane + Machine.place 16 5 wire + Machine.place 24 1 spare +
      Machine.place 25 1 (boolNat removed) + Machine.place 64 32 mask))

/-- The lane of a failed wire leaves the end's mask; a spare will take the wire's place after the next commit, or the lane is lost. -/
def loseWire (s : State) (l : Nat) (far : Bool) (lane wire : Nat) : State :=
  let e := s.linkEnd l far
  let m := if bitAt e.mask lane then e.mask - 2 ^ lane else e.mask
  let wire := if isGlint l then 0x1F else wire
  let s := s.updEnd l far (fun e => { e with mask := m, testing := e.testing.filter (· != lane) })
  if spareLeft l e lane then s.updEnd l far (fun e => { e with sub := e.sub ++ [(lane, wire)] })
  else s.recordWire l lane wire 0 true (((e.width).map (·.2)).getD 0 &&& m)

/-- A wire fails: a width change without its lane follows, at once or after the one in progress (R321 step 1, R323). -/
def failWire (s : State) (l : Nat) (far : Bool) (lane wire : Nat) : State := (s.loseWire l far lane wire).enterQuarter l far

/-- A partial reset: the physical state, wire map of the direction received and mask is cleared, the link layer's kept (R320); the change
restarts from quarter mode, without the lanes of the wires that the training finds failed (R321). -/
def partialReset (s : State) (l : Nat) (far : Bool) (bad : List (Nat × Nat)) : State :=
  let s := s.updEnd l far (fun e => { e with
    width := none, quarter := true, wstate := .normal, rxMask := 0, txMask := 0, replays := 0, resend := [], ackAt := s.now
    mask := 2 ^ linkLanes l - 1, wires := [], sub := [], testing := [] })
  let s := (bad.filter (fun x => decide (x.1 < linkLanes l))).foldl (fun s x => s.loseWire l far x.1 x.2) s
  if far then s.sendDieControl l true false else s.proposeWidth l

/-- After a commit the end tells each substitution and switches to the spare (R321 step 2); the lane awaits its retest. -/
def substitute (s : State) (l : Nat) (far : Bool) : State :=
  (s.linkEnd l far).sub.foldl (fun s x =>
    let e := s.linkEnd l far
    let k := spareIndex l e.wires x.1
    let s := s.emitControl l far (controlOf e false 0 e.sentEpoch (some x))
    let s := s.updEnd l far (fun e => { e with wires := e.wires ++ [(x.1, x.2, k)], testing := e.testing ++ [x.1] })
    s.recordWire l x.1 x.2 k false (((e.width).map (·.2)).getD 0))
    (s.updEnd l far (fun e => { e with sub := [] }))

/-- The lanes on a spare pass their retest on the pattern of a control flit, and a width change restores them (R321 steps 3 and 4). -/
def retest (s : State) (l : Nat) (far : Bool) : State :=
  let e := s.linkEnd l far
  if e.testing.isEmpty || e.quarter || decide (e.wstate ≠ .normal) then s
  else
    (s.updEnd l far (fun e => { e with mask := e.testing.foldl (fun m i => m ||| 2 ^ i) e.mask, testing := [] })).enterQuarter l far

/-- An end takes the new width, and resumes from its oldest unacknowledged flit (R319 step 7). -/
def commitWidth (s : State) (l : Nat) (far : Bool) : State :=
  s.updEnd l far (fun e => { e with
    width := some (e.newEpoch, e.agreed), rxMask := e.agreed, txMask := e.agreed, quarter := false, wstate := .normal, resend := e.replay, lane := 0 })

/-! ## A link that leaves service (R322) -/

/-- The link leaves service: unacknowledged flits first, then those that wait, go over the reroute. A second link out fails the module. -/
def linkOut (s : State) (l : Nat) : State :=
  let second := s.links.any (fun k => k.out)
  let k := s.link l
  let clear (e : LinkEnd) : LinkEnd := { e with replay := [], txq := [], resend := [], width := none, quarter := true, wstate := .normal }
  let s := s.updLink l (fun k => { near := clear k.near, far := clear k.far, out := true, failed := k.failed })
  let s := s.log eLinkDown 7 l 0 (Machine.place 0 8 l)
  if second then s.failModule
  else
    let s := (k.near.replay ++ k.near.txq).foldl (fun s f => s.routeDie (linkDies l).1 f) s
    (k.far.replay ++ k.far.txq).foldl (fun s f => s.routeDie (linkDies l).2 f) s

end State

/-! ## The commands -/

/-- A step of a die link in service. -/
def onLink (l : Nat) (f : State → State) (s : State) : State :=
  if 6 ≤ l ∨ (s.link l).out ∨ !s.mod.mainOn then s else f s

/-- A flit that is not accepted: one NAK until the flit expected arrives (R317), none while the die holds. -/
def nakDie (l : Nat) (far : Bool) (s : State) : State :=
  if (s.linkEnd l far).nakSent || dieHeld s (endDie l far) then s else (s.updEnd l far (fun e => { e with nakSent := true })).sendDieControl l far true

/-- A flit with a good CRC that names an unlisted endpoint is a logic fault (R314). -/
def logicFault (l : Nat) (f : DieFlit) (s : State) : Option State :=
  if dieFlitGood f && (!endpointListed (dFrom f) || !endpointListed (dTo f)) then some (s.log eFault 7 l 0 0).failModule else none

/-- A data flit: accepted with a good CRC and the expected SEQ; on any other, one NAK. It goes on to its endpoint or another die, or, while this
die holds, waits in the receive buffer; 16 flits accepted are acknowledged (R317). -/
def receiveDie (l : Nat) (far : Bool) (f : DieFlit) (s : State) : State :=
  match logicFault l f s with
  | some s => s
  | none =>
    let e := s.linkEnd l far
    if dieFlitGood f && dCtrl f then s
    else if dieFlitGood f && dSeq f == e.rxSeq.toNat then
      let s := (s.updEnd l far (fun e => { e with
        rxSeq := e.rxSeq + 1, nakSent := false, unacked := e.unacked + 1, rx := e.rx ++ [f] })).drainDie l far
      if 16 ≤ (s.linkEnd l far).unacked then s.sendDieControl l far false else s
    else nakDie l far s

/-! ## Transit (R302, R305, R307) -/

/-- The link on the way between two dies takes a Spoke flit now: three class 3 flits (R316), 272 bytes by 128 (DEDUCED, log 156). -/
def crossReady (s : State) (a b : Nat) : Bool :=
  let (l, far) := s.wayOut a b
  let e := s.linkEnd l far
  !dieHeld s a && State.mayData e 3 && decide ((e.used.getD 3 0 - e.peerFreed.getD 3 0).toNat + 3 ≤ 256) &&
  decide (e.replay.length + 3 ≤ 512) && e.txq.all (fun f => dClass f != 3)

/-- The die-link flits of a Spoke flit from port `n` to port `i` of another die; how it is laid out in them is free. -/
def crossDies (s : State) (n i : Nat) : State :=
  (List.range 3).foldl (fun s _ =>
    let (c, s) := s.draw
    s.routeDie (portDie n) (BitVec.ofNat 1088 (place 26 2 3 + place 32 12 (portDie n * 1024 + 0x50 + n % 9) +
      place 44 12 (portDie i * 1024 + 0x50 + i % 9) + place 56 8 c + place 64 1024 (c / 256)))) s

/-- Ports by which a flit that came in at port `n` may leave: of its forwarding entry, never a second global port (R302). -/
def outMask (s : State) (n : Nat) (f : SpokeFlit) : BitVec 36 :=
  State.portsMask ((State.maskPorts (s.forwardMask (fDst f))).filter (fun p =>
    !(globalPort p && (globalPort n || flitClass f s.mod.id == 1))))

/-- The oldest flit of a channel that does not end here leaves through the forwarding table; it waits in the receive buffer while its bundle
re-forms, while its flow has flits on a port that a patch dropped, and while a die link on its way holds its class. -/
def forwardFlit (n vc : Nat) (s : State) : State :=
  match if dieHeld s (portDie n) then none else s.rxIdx n vc false with
  | none => s
  | some k =>
    match (s.port n).rx[k]? with
    | none => s
    | some f =>
      let e := s.forward (fDst f)
      let m := outMask s n f
      if (s.usable m).isEmpty then
        if m = 0 ∧ s.forwardMask (fDst f) ≠ 0 then (s.dropRx n k).log eField 7 n 0
        else (s.dropRx n k).tellUnreachable (fSrc f) (fDst f)
      else if s.flowOn e.dropped f then s
      else match (s.nextPort m (State.flowKey f) f).filter (fun i => State.inService (s.port i)) with
        | none => s
        | some i =>
          if portDie i = portDie n then ((s.dropRx n k).sendMask m (State.flowKey f) f).getD s
          else if crossReady s (portDie n) (portDie i) then
            ((crossDies (s.dropRx n k) n i).sendMask m (State.flowKey f) f).getD s
          else s

/-- TRANSIT_FORWARD (R305). -/
def execTransitForward (port vc : Nat) (s : State) : Host.Outcome State Fault Refusal := done s (forwardFlit port vc s)

/-! ## Receiving -/

/-- DIE_FLIT_RECEIVE (R317). -/
def execDieFlitReceive (link : Nat) (far : Bool) (f : DieFlit) (s : State) : Host.Outcome State Fault Refusal :=
  done s (onLink link (receiveDie link far f) s)

/-- What any control flit that is not discarded does: its common part, then, where its EPOCH or MASK differs from this end's width or its
sender is in quarter mode, quarter mode (R320). The far end's EPOCH falling to 0 during a change tells of its retrain: the change restarts
(R323). -/
def heedControl (l : Nat) (far : Bool) (f : DieFlit) (s : State) : State :=
  let old := s.linkEnd l far
  let s := s.takeDieControl l far f
  let e := s.linkEnd l far
  let same := match e.width with
    | some w => kEpoch f == w.1 && (decide (e.wstate ≠ .normal) || kWstate f != 0 || kMask f == w.2)
    | none => false
  if same && !kQuarter f then (s.pumpDie l far).retest l far
  else if !far && decide (e.wstate ≠ .normal) && kWstate f == 0 && kEpoch f == 0 && old.peerEpoch != 0 then s.proposeWidth l
  else s.enterQuarter l far

/-- A control flit as its receiver first looks at it, not while its die holds: `due` says what a good one of the WSTATE given does; one that is
not due acts as any control flit does; a PROPOSE from the higher die is discarded (R323). -/
def onControl (l : Nat) (far : Bool) (f : DieFlit) (s : State) (due : Bool) (k : State → State) : State :=
  match logicFault l f s with
  | some s => s
  | none =>
    if dieHeld s (endDie l far) then s
    else if !dieFlitGood f then nakDie l far s
    else if !dCtrl f || (!far && kWstate f == 1) then s
    else if due then k (s.takeDieControl l far f)
    else heedControl l far f s

/-- A control flit in NORMAL (R318, R320). -/
def receiveDieControl (l : Nat) (far : Bool) (f : DieFlit) (s : State) : State := onControl l far f s false id

/-- DIE_CONTROL_FLIT (R318). -/
def execDieControlFlit (link : Nat) (far : Bool) (f : DieFlit) (s : State) : Host.Outcome State Fault Refusal :=
  done s (onLink link (receiveDieControl link far f) s)

/-- DIE_CONTROL_FLIT_SEND (R318): with the slots freed so far. -/
def execDieControlFlitSend (link : Nat) (far : Bool) (s : State) : Host.Outcome State Fault Refusal :=
  done s (onLink link (fun s => (s.drainDie link far).sendDieControl link far false) s)

/-- The mask that the higher-numbered die answers a PROPOSE with: its own, or, to one that is told again, the one already offered. -/
def acceptMask (e : LinkEnd) (f : DieFlit) : Nat :=
  if e.wstate = .accepted && e.newEpoch == kEpoch f then e.offered else e.mask

/-- PROPOSE at the higher-numbered die: quarter mode, ACCEPT with its own mask (R319 step 2, R323). -/
def takePropose (l : Nat) (f : DieFlit) (s : State) : State :=
  onControl l true f s (kWstate f == 1) (fun s =>
    (s.updEnd l true (fun e => { e with
      quarter := true, wstate := .accepted, newEpoch := kEpoch f, offered := acceptMask e f, agreed := acceptMask e f &&& kMask f, began := s.now })).sendDieControl l true false)

/-- PROPOSE (R319). -/
def execPropose (link : Nat) (f : DieFlit) (s : State) : Host.Outcome State Fault Refusal := done s (onLink link (takePropose link f) s)

/-- ACCEPT at the proposer: the agreed mask is the AND of the two masks sent; receiver switched, COMMIT (R319 steps 3 and 4). A mask below
quarter width goes no further (R322). -/
def takeAccept (l : Nat) (f : DieFlit) (s : State) : State :=
  let e := s.linkEnd l false
  onControl l false f s (kWstate f == 2 && decide (e.wstate = .proposed) && kEpoch f == e.newEpoch) (fun s =>
    let m := e.offered &&& kMask f
    let s := s.updEnd l false (fun e => { e with agreed := m })
    if lanesIn m < quarterLanes l then s
    else (s.updEnd l false (fun e => { e with rxMask := m, wstate := .committed })).sendDieControl l false false)

/-- ACCEPT (R319). -/
def execAccept (link : Nat) (f : DieFlit) (s : State) : Host.Outcome State Fault Refusal := done s (onLink link (takeAccept link f) s)

/-- COMMIT: the responder switches and echoes it; on the echo the proposer switches its transmitter (R319 steps 5 to 7). -/
def takeCommit (l : Nat) (far : Bool) (f : DieFlit) (s : State) : State :=
  let e := s.linkEnd l far
  let due := if far then e.wstate = .accepted else e.wstate = .committed
  onControl l far f s (kWstate f == 3 && decide due && kEpoch f == e.newEpoch) (fun s =>
    let s := s.commitWidth l far
    let s := if far then s.emitControl l true (controlOf (s.linkEnd l true) false 3 e.newEpoch none)
      else s.updLink l (fun k => { k with failed := 0 })
    (s.pumpDie l far).substitute l far)

/-- COMMIT (R319). -/
def execCommit (link : Nat) (far : Bool) (f : DieFlit) (s : State) : Host.Outcome State Fault Refusal :=
  done s (onLink link (takeCommit link far f) s)

/-- The far end's die, or this end's, holds: the timers of the link stand still (R323). -/
def linkFrozen (s : State) (l : Nat) : Bool := dieHeld s (endDie l false) || dieHeld s (endDie l true)

/-- A change that did not complete within 2 µs: the proposer retrains and tries again (R319). -/
def widthTimeout (l : Nat) (s : State) : State :=
  let e := s.linkEnd l false
  if decide (e.wstate = .normal) || decide (s.now ≤ e.began + 200) || linkFrozen s l then s
  else (s.updLink l (fun k => { k with failed := k.failed + 1 })).partialReset l false []

/-- WIDTH_CHANGE_TIMEOUT (R319). -/
def execWidthChangeTimeout (link : Nat) (s : State) : Host.Outcome State Fault Refusal := done s (onLink link (widthTimeout link) s)

/-- One end retrains (R317): one SEQ replayed 8 times without progress, or no acknowledgement for 2 µs, a timer that is frozen while a die
holds; or the MSS resets the port over the sideband (R320). -/
def retrainDie (l : Nat) (far reset : Bool) (bad : List (Nat × Nat)) (s : State) : State :=
  let e := s.linkEnd l far
  let late := !e.replay.isEmpty && decide (e.ackAt + 200 ≤ s.now) && !linkFrozen s l
  if reset || decide (8 ≤ e.replays) || late then s.partialReset l far bad else s

/-- DIE_LINK_RETRAIN (R317). -/
def execDieLinkRetrain (link : Nat) (how : DieRetrain) (s : State) : Host.Outcome State Fault Refusal :=
  done s (onLink link (retrainDie link how.far how.reset how.bad) s)

/-- WIRE_SUBSTITUTION (R321). -/
def execWireSubstitution (link : Nat) (far : Bool) (lane wire : Nat) (s : State) : Host.Outcome State Fault Refusal :=
  done s (onLink link (fun s => if linkLanes link ≤ lane then s else s.failWire link far lane wire) s)

/-- A link leaves service: its laser, three failed width changes in a row, or too few common lanes (R322). -/
def dieLinkDown (l : Nat) (laser : Bool) (s : State) : State :=
  let k := s.link l
  let lanes := k.near.mask &&& k.far.mask
  if (laser && isGlint l) || decide (3 ≤ k.failed) || decide (lanesIn lanes < quarterLanes l) then s.linkOut l else s

/-- DIE_LINK_DOWN (R322). -/
def execDieLinkDown (link : Nat) (laser : Bool) (s : State) : Host.Outcome State Fault Refusal :=
  done s (onLink link (dieLinkDown link laser) s)

/-! ## Barrier and beacon (R313) -/

/-- Release of the module barrier, as an output. -/
def beaconRelease : Nat := 19

/-- A die arrives; the last arrival releases the barrier on all four. A die in a droop hold reaches nothing. -/
def arriveDie (d : Nat) (s : State) : State :=
  if s.dies.length ≤ d ∨ dieHeld s d ∨ !s.mod.mainOn then s
  else
    let s := (s.updDie d (fun x => { x with arrived := true })).mark beaconArrive d
    if s.dies.all (·.arrived) then
      ({ s with dies := s.dies.map (fun (x : Die) => { x with arrived := false }) }).emit (.pin beaconRelease 0)
    else s

/-- BARRIER_ARRIVE (R313). -/
def execBarrierArrive (die : Nat) (s : State) : Host.Outcome State Fault Refusal := done s (arriveDie die s)

/-- A die's beacon fails: its marks travel over the management sideband. -/
def beaconFails (d : Nat) (s : State) : State :=
  match s.dies[d]? with
  | none => s
  | some x => if x.beaconFail then s else (s.updDie d (fun x => { x with beaconFail := true })).log eLinkDown 7 d 0 (place 0 8 d)

/-- BEACON_FAIL (R313). -/
def execBeaconFail (die : Nat) (s : State) : Host.Outcome State Fault Refusal := done s (beaconFails die s)

end Sys2Proof.Machine
end

