-- ==== Sys2Proof/Machine/Items.lean ====
section
/-! DEFINITION. The Strand engine's own steps (R208-R248): choosing, pushing and completing items, forwarding units, notices,
credits, the opening and closing exchanges, a lost edge. -/
namespace Sys2Proof.Machine

/-! ## Choice (R222, R226-R229, R233) -/

/-- An item that a group may take: kind, stage, and micro-batch counted from FIRST_MB (or optimizer group). -/
structure Pick where
  kind  : ItemKind
  stage : Stage
  a     : Nat
  deriving DecidableEq, Repr

/-- CHUNK and micro-batch index of the j-th forward item of a sequence over V stages with block G (R226 step 1). -/
def seqAt (v g j : Nat) : Nat × Nat := ((j % (g * v)) / g, g * (j / (g * v)) + j % g)

/-- Block G of the sequence. -/
def Pipe.block (p : Pipe) : Nat := if p.policy = 1 then p.iblock else 1

/-- First micro-batch of the sequence in force: of the step, or of the pipeline under STEP_OVERLAP. -/
def Pipe.seqBase (p : Pipe) : Nat := if p.overlap then 0 else p.base

def pickF (p : Pipe) (ts : List Stage) (j : Nat) : Option Pick :=
  let (c, i) := seqAt ts.length p.block j
  (ts[c]?).map (fun t => ⟨.f, t, p.seqBase + i⟩)

def pickB (p : Pipe) (ts : List Stage) (k : Nat) : Option Pick :=
  let (c, i) := seqAt ts.length p.block k
  (ts[ts.length - 1 - c]?).map (fun t => ⟨.b, t, p.seqBase + i⟩)

/-- The next item of the group's sequence (R226, R233). -/
def seqNext (p : Pipe) (g : Group) (ts : List Stage) : Option Pick :=
  let all := ts.length * p.mbPerStep
  let more (n : Nat) : Bool := p.overlap || decide (n < all)
  if p.fwdOnly then (if more g.fwd then pickF p ts g.fwd else none)
  else
    let warm := (ts.head?.map (·.warmup)).getD 0
    let warm := g.start + (if p.overlap then warm else min warm all)
    if more g.fwd && (decide (g.fwd < warm) || g.start + (g.fwd - warm) == g.bwd) then pickF p ts g.fwd
    else if more g.bwd then pickB p ts g.bwd
    else none

/-- The next OPT item of the step, in CHUNK order, then g order. -/
def optPick (p : Pipe) (ts : List Stage) : Option Pick :=
  if p.fwdOnly then none
  else (ts.find? (fun t => decide (t.optNext < t.optGroups))).map (fun t => ⟨.opt, t, t.optNext⟩)

/-- The oldest deferred W item. -/
def wPick (j : Job) (g : Group) : Option Pick :=
  match g.deferred with
  | [] => none
  | (i, n) :: _ => (j.stage? i).map (fun t => ⟨.w, t, n⟩)

/-- Readiness of R222. -/
def pickReady (s : State) (j : Job) (x : Pick) : Bool :=
  let p := j.strand.pipe
  let t := x.stage
  let n := p.mb x.a
  match x.kind with
  | .f => (j.receives t false).all (fun e => entryHere e false t n) && (j.sends t false).all (fun e => canSend e false t n)
  | .b => decide (x.a < t.fDone) && (j.receives t true).all (fun e => entryHere e true t n) &&
      (j.sends t true).all (fun e => canSend e true t n)
  | .opt => ctrGe (s.ctr t.optCtr) (BitVec.ofNat 32 (p.steps * t.optGroups + x.a + 1))
  | _ => true

/-- The next ready OPT item of the step: of the first stage, in CHUNK order, whose next one is ready (R229). -/
def optReady (s : State) (j : Job) (ts : List Stage) : Option Pick :=
  ts.findSome? (fun t => (optPick j.strand.pipe [t]).filter (pickReady s j))

/-- The fill item of a group whose sequence is not ready (R229). -/
def fillPick (s : State) (j : Job) (g : Group) (ts : List Stage) : Option Pick :=
  let w := wPick j g
  let o := optReady s j ts
  match ((ts.head?).map (·.idle)).getD 0 with
  | 1 => w.or o
  | 2 => o.or w
  | _ => none

/-- The choice of R227. -/
def choose (s : State) (j : Job) (g : Group) : Option Pick :=
  let p := j.strand.pipe
  let ts := j.groupStages g.id
  let limit := ((ts.head?).map (·.wLimit)).getD 1
  if p.policy ≠ 2 ∧ g.deferred ≠ [] then wPick j g
  else if p.policy = 2 ∧ limit ≤ g.deferred.length then wPick j g
  else match seqNext p g ts with
    | none => if g.deferred ≠ [] then wPick j g else (optPick p ts).filter (pickReady s j)
    | some x => if pickReady s j x then some x else fillPick s j g ts

/-- List-table index of an item (R211). -/
def setIndex (t : Stage) (kind : ItemKind) (n : Nat) : Nat :=
  match kind with
  | .f => n % t.mbSlots
  | .b => t.mbSlots + n % t.mbSlots
  | .w => 2 * t.mbSlots + n % t.mbSlots
  | .reset => 3 * t.mbSlots
  | .opt => 3 * t.mbSlots + 1 + n

/-- A group takes an item: it is outstanding, with its set still to be pushed. -/
def takeItem (g : Group) (t : Stage) (kind : ItemKind) (n : Nat) : Group :=
  { g with out := some { tag := ⟨t.idx, kind, n, 0⟩, toPush := t.sets.getD (setIndex t kind n) [] } }

/-- The group's place in its sequence after a choice. -/
def advanceSeq (g : Group) (x : Pick) : Group :=
  match x.kind with
  | .f => { g with fwd := g.fwd + 1 }
  | .b => { g with bwd := g.bwd + 1 }
  | .w => { g with deferred := g.deferred.tail }
  | _ => g

/-- The engine may choose items for the job: RUNNING, not stopped, not waiting in a replay for a lost edge (R242, R248), and
the job not halted (R351). -/
def mayChoose (j : Job) : Bool :=
  let p := j.strand.pipe
  decide (p.st = PipeState.running) && !p.stopped && !j.recov.halted &&
  !(p.replay && j.strand.edges.any (fun e => decide (e.st = EdgeState.down)))

/-! ## Bubble accounting (R249) -/

/-- State of a group at a beat. -/
inductive GroupState where
  | busy
  | waitIn
  | waitCredit
  | waitStep
  deriving DecidableEq, Repr

/-- Why an item that a group wants is not ready: an entry, a gradient or OPT_CTR, else a credit or a send buffer. -/
def waitsFor (s : State) (j : Job) (x : Pick) : GroupState :=
  let t := x.stage
  let n := j.strand.pipe.mb x.a
  let here (bwd : Bool) : Bool := (j.receives t bwd).all (fun e => entryHere e bwd t n)
  match x.kind with
  | .f => if here false then .waitCredit else .waitIn
  | .b => if decide (x.a < t.fDone) && here true then .waitCredit else .waitIn
  | _ => .waitIn

/-- State of a group (R249): an item outstanding, else what the item that R227 wants next lacks, else the step. DESIGN CHOICE
(log 122): an item that is ready and not yet taken counts BUSY, and a group for which the engine may not choose WAIT_STEP. -/
def groupState (s : State) (j : Job) (g : Group) : GroupState :=
  let p := j.strand.pipe
  let ts := j.groupStages g.id
  if g.out.isSome then .busy
  else if !mayChoose j then .waitStep
  else if (choose s j g).isSome then .busy
  else match (seqNext p g ts).or (optPick p ts) with
    | none => .waitStep
    | some x => waitsFor s j x

/-- Beats added to a group's count of a state. -/
def GroupBeats.add (b : GroupBeats) (st : GroupState) (n : Nat) : GroupBeats :=
  match st with
  | .busy => { b with busy := b.busy + n }
  | .waitIn => { b with waitIn := b.waitIn + n }
  | .waitCredit => { b with waitCredit := b.waitCredit + n }
  | .waitStep => { b with waitStep := b.waitStep + n }

/-- The beats of one unit of the management timers pass on the running job's groups; how many they are is a free value (R249). -/
def State.countBeats (s : State) : State :=
  match s.runJob with
  | none => s
  | some j =>
    if j.strand.pipe.st = PipeState.idle then s
    else
      let n := Config.beatsAt s.now
      s.updJob j.id (fun k =>
        (k.setPipe { k.strand.pipe with span := k.strand.pipe.span + n }).mapGroups
          (fun g => { g with beats := g.beats.add (groupState s j g) n }))

/-! ## Taking an item (R227) -/

/-- A group takes its next item, or in a replay the RESET item of its next stage. -/
def chooseItem (gid : Nat) (s : State) : State :=
  match strandJob s with
  | none => s
  | some j =>
    match j.strand.groups.find? (fun g => g.id == gid) with
    | none => s
    | some g =>
      let p := j.strand.pipe
      if holding s j || g.out.isSome then s
      else if decide (p.st = PipeState.replaying) && p.restored then
        match (j.groupStages gid).find? (fun t => p.resets.contains t.idx) with
        | none => s
        | some t => s.updJob j.id (fun j =>
            (j.setGroup (takeItem g t .reset 0)).setPipe { p with resets := p.resets.filter (· != t.idx) })
      else if !mayChoose j then s
      else match choose s j g with
        | none => s
        | some x =>
          let n := match x.kind with
            | .f => p.mb x.a
            | .b => p.mb x.a
            | _ => x.a
          let g := takeItem (advanceSeq g x) x.stage x.kind n
          s.updJob j.id (fun j =>
            let j := j.setGroup g
            if x.kind = ItemKind.opt then j.setStage { x.stage with optNext := x.stage.optNext + 1 } else j)

/-- ITEM_CHOOSE (R227). -/
def execItemChoose (g : Nat) (s : State) : Host.Outcome State Fault Refusal := done s (chooseItem g s)

/-! ## Pushing (R213-R215, R221, R235) -/

/-- Version slot of a micro-batch at a stage: the one it bound, else the CURRENT one. -/
def slotFor (t : Stage) (n : Nat) : Nat := ((t.binds.find? (fun b => b.1 == n)).map (·.2)).getD t.cur

/-- The dispatch of an item at its first push: an F binds its slot, F and B take their credits and send buffers. -/
def dispatchItem (s : State) (jid gid : Nat) : State :=
  match s.job? jid with
  | none => s
  | some j =>
    match j.strand.groups.find? (fun g => g.id == gid) with
    | none => s
    | some g =>
      match g.out with
      | none => s
      | some o =>
        match j.stage? o.tag.stage with
        | none => s
        | some t =>
          let p := j.strand.pipe
          let n := o.tag.n
          let slot := slotFor t n
          let bwd := decide (o.tag.kind = ItemKind.b)
          let sends := if o.tag.kind = ItemKind.f ∨ o.tag.kind = ItemKind.b then j.sends t bwd else []
          let entry : SendEntry := { n := n, version := (t.slot slot).num, poison := t.poisonMb.contains n }
          let s := if o.tag.kind = ItemKind.f then s.bindVer jid t.idx slot n (p.stepOf n) else s
          let s := sends.foldl (fun s e => s.updEdge jid e.slot (fun e =>
            let x := e.dir bwd
            e.setDir bwd { x with credits := x.credits - 1, send := x.send ++ [entry] })) s
          let tag := { o.tag with slot := if o.tag.kind = ItemKind.opt ∨ o.tag.kind = ItemKind.reset then 0 else slot }
          let s := s.updJob jid (fun j => j.setGroup { g with out := some { o with tag := tag, started := true } })
          if p.fresh ∧ o.tag.kind ≠ ItemKind.reset then
            (s.updPipe jid (fun p => { p with fresh := false })).pedalEnd (if p.replay then pedalOnRecovery else pedalOnStart)
          else s

/-- The next list of a group's item goes to its queue, once the queue has room. -/
def pushItem (gid : Nat) (s : State) : State :=
  match strandJob s with
  | none => s
  | some j =>
    match if holding s j then none else (j.strand.groups.find? (fun g => g.id == gid)).bind (·.out) with
    | none => s
    | some o =>
      match o.toPush with
      | [] => if o.started then s else dispatchItem s j.id gid
      | e :: rest =>
        if (j.queue? e.target).all (fun q => !queueRoomFor q) then s
        else
          let s := if o.started then s else dispatchItem s j.id gid
          match s.job? j.id with
          | none => s
          | some j =>
            match j.strand.groups.find? (fun g => g.id == gid) with
            | none => s
            | some g =>
              match g.out with
              | none => s
              | some o =>
                let s := s.updJob j.id (fun j =>
                  j.setGroup { g with out := some { o with toPush := rest, openLists := o.openLists ++ [j.listSeq] } })
                s.pushList j.id e.target e.addr e.count (some o.tag)
where
  queueRoomFor (q : Queue) : Bool := State.queueRoom q

/-- ITEM_PUSH (R214). -/
def execItemPush (g : Nat) (s : State) : Host.Outcome State Fault Refusal := done s (pushItem g s)

/-! ## Completion (R213, R221, R235) -/

/-- Entries of a micro-batch released at a stage after items of code `rel` (0 F, 1 B, 2 W). -/
def releaseAt (s : State) (jid : Nat) (t : Stage) (n rel : Nat) : State :=
  match s.job? jid with
  | none => s
  | some j =>
    let ins := (j.receives t false).filter (fun e => (e.view false).rel == rel)
    let outs := (j.receives t true).filter (fun e => (e.view true).rel == rel)
    let s := ins.foldl (fun s e => s.release jid e false n) s
    outs.foldl (fun s e => s.release jid e true n) s

/-- The entries of an item that has completed may be forwarded whole (R219 step 2). -/
def sealSends (s : State) (jid : Nat) (t : Stage) (bwd : Bool) (n : Nat) : State :=
  match s.job? jid with
  | none => s
  | some j => (j.sends t bwd).foldl (fun s e => s.updEdge jid e.slot (fun e =>
      let x := e.dir bwd
      e.setDir bwd { x with send := x.send.map (fun y => if y.n == n then { y with itemDone := true } else y) })) s

/-- What follows from the completion of an item of a stage. -/
def itemDone (s : State) (jid gid : Nat) (fwdOnly : Bool) (tag : ItemTag) : State :=
  let upd (f : Stage → Stage) (s : State) : State := s.updStage jid tag.stage f
  let t? := (s.job? jid).bind (fun j => j.stage? tag.stage)
  match t? with
  | none => s
  | some t =>
    match tag.kind with
    | .f =>
      let s := sealSends (upd (fun t => { t with fDone := t.fDone + 1 }) s) jid t false tag.n
      let s := releaseAt s jid t tag.n 0
      if fwdOnly then s.unbindVer jid t.idx tag.n else s
    | .b =>
      let s := sealSends (upd (fun t => { t with bDone := t.bDone + 1 }) s) jid t true tag.n
      let s := releaseAt s jid t tag.n 1
      s.updJob jid (fun j =>
        match j.strand.groups.find? (fun g => g.id == gid) with
        | some g => j.setGroup { g with deferred := g.deferred ++ [(t.idx, tag.n)] }
        | none => j)
    | .w =>
      let s := releaseAt (upd (fun t => { t with wDone := t.wDone + 1 }) s) jid t tag.n 2
      s.unbindVer jid t.idx tag.n
    | .opt => upd (fun t => { t with optDone := t.optDone + 1 }) s
    | .reset => s

/-- Every list of a group's item has completed. -/
def completeItem (gid : Nat) (s : State) : State :=
  match strandJob s with
  | none => s
  | some j =>
    match j.strand.groups.find? (fun g => g.id == gid) with
    | none => s
    | some g =>
      match g.out with
      | none => s
      | some o =>
        if !o.started || !o.toPush.isEmpty || !o.openLists.isEmpty then s
        else
          let s := s.updJob j.id (fun j => j.setGroup { g with out := none })
          let s := itemDone s j.id gid j.strand.pipe.fwdOnly o.tag
          (s.replayAdvance j.id).stopAdvance j.id

/-- ITEM_COMPLETE (R213). -/
def execItemComplete (g : Nat) (s : State) : Host.Outcome State Fault Refusal := done s (completeItem g s)

/-! ## The send path (R219, R220) -/

/-- Every byte of [a, a+64) lies in one of the spans. -/
def covered (spans : List (Nat × Nat)) (a : Nat) : Bool :=
  let near := spans.filter (fun p => overlaps p.1 p.2 a 64)
  (List.range 64).all (fun i => near.any (fun p => inside (a + i) 1 p.1 p.2))

/-- Scratch address of unit `u` of entry `n` in the sending tiles (R218). -/
def sendAddr (v : DirView) (t : Stage) (n u : Nat) : Nat :=
  State.scratchAddr (t.tileFirst + u / v.sunits) (v.sbuf + (n % 2) * (v.sunits * 64) + (u % v.sunits) * 64)

/-- A unit can be forwarded: written whole, or its item has completed. -/
def unitReady (v : DirView) (t : Stage) (x : SendEntry) (u : Nat) : Bool :=
  !x.sent.contains u && (x.itemDone || covered x.written (sendAddr v t x.n u))

/-- Units that travel together from unit `u` on a remote edge: up to 4 of one part. -/
def unitGroup (v : DirView) (u : Nat) : List Nat := rangeFrom u (min 4 (v.sunits - u % v.sunits))

/-- First units of the groups of an entry, whole units on a local edge. -/
def groupHeads (v : DirView) (remote : Bool) (t : Stage) : List Nat :=
  (List.range (v.sendUnits t.tileCount)).filter (fun u => !remote || (u % v.sunits) % 4 == 0)

/-- Units received on a local edge: bytes copied and the receiving entry told. -/
def landUnits (s : State) (jid slot : Nat) (bwd : Bool) (n : Nat) (us : List Nat) (bytes : Bytes) : State :=
  match (s.job? jid).bind (fun j => (j.edge? slot).bind (fun e => (j.stageNamed (e.view bwd).rcv).map (fun t => (e, t)))) with
  | none => s
  | some (e, t) =>
    let v := e.view bwd
    let ix := (List.range us.length).zip us
    let s := ix.foldl (fun s p =>
      (unitPlaces v t n p.2).foldl (fun s a => s.write a ((bytes.drop (64 * p.1)).take 64)) s) s
    s.updEdge jid slot (fun e =>
      let x := e.dir bwd
      let old := (x.recv.find? (fun r => r.n == n)).getD { n := n }
      let new := { old with units := old.units ++ us.filter (fun u => !old.units.contains u) }
      e.setDir bwd { x with recv := x.recv.filter (fun r => r.n != n) ++ [new] })

/-- The oldest entry with a unit to forward, and that unit (or group of units). -/
def nextUnits (v : DirView) (remote : Bool) (t : Stage) (xs : List SendEntry) : Option (SendEntry × List Nat) :=
  xs.findSome? (fun x =>
    ((groupHeads v remote t).find? (fun u => (if remote then unitGroup v u else [u]).all (unitReady v t x))).map
      (fun u => (x, if remote then unitGroup v u else [u])))

/-- A unit is handed on: into the receiving tiles on this module, or to the Spoke link layer (R219); not while a die that it touches holds. -/
def forwardUnit (slot : Nat) (bwd : Bool) (s : State) : State :=
  match strandJob s with
  | none => s
  | some j =>
    match j.edge? slot with
    | none => s
    | some e =>
      let v := e.view bwd
      match j.stageNamed v.snd with
      | none => s
      | some t =>
        if !v.sndHere || decide (e.st ≠ EdgeState.opened) then s
        else match nextUnits v (!v.rcvHere) t (e.dir bwd).send with
          | none => s
          | some (x, us) =>
            let bytes := us.flatMap (fun u => s.read (sendAddr v t x.n u) 64)
            let held := us.any (fun u => s.windowHeld (sendAddr v t x.n u) 64 ||
              (v.rcvHere && (j.stageNamed v.rcv).any (fun t => (unitPlaces v t x.n u).any (fun a => s.windowHeld a 64))))
            let mark (s : State) : State := s.updEdge j.id slot (fun e =>
              let d := e.dir bwd
              e.setDir bwd { d with send := d.send.map (fun y => if y.n == x.n then { y with sent := y.sent ++ us } else y) })
            if held then s
            else if v.rcvHere then mark (landUnits s j.id slot bwd x.n us bytes)
            else
              let word := State.stageWord 0 (gId e.desc) + place 18 5 x.n + place 23 24 (us.headD 0) + place 47 16 x.version
              match s.sendJob j 0 (j.alias? e.peerMod) (State.dirVc bwd) word (ofLe bytes) with
              | some s => mark s
              | none => s

/-- UNIT_FORWARD (R219). -/
def execUnitForward (e : Nat) (bwd : Bool) (s : State) : Host.Outcome State Fault Refusal := done s (forwardUnit e bwd s)

/-- An entry's notice at the receiving end: recorded; a poisoned entry poisons its micro-batch once it has arrived. -/
def noticeAt (s : State) (jid slot : Nat) (bwd : Bool) (n version bytes : Nat) (poison : Bool) : State :=
  s.updEdge jid slot (fun e =>
    let x := e.dir bwd
    let old := (x.recv.find? (fun r => r.n == n)).getD { n := n }
    let new := { old with noticed := true, poison := poison, version := version, bytes := bytes }
    e.setDir bwd { x with recv := x.recv.filter (fun r => r.n != n) ++ [new] })

/-- R238 for an entry that has arrived with POISON set. -/
def entryPoison (s : State) (jid slot : Nat) (bwd : Bool) (n : Nat) : State :=
  match (s.job? jid).bind (fun j => (j.edge? slot).bind (fun e => (j.stageNamed (e.view bwd).rcv).map (fun t => (e, t)))) with
  | none => s
  | some (e, t) =>
    let hit := (e.dir bwd).recv.any (fun x => x.n == n && x.poison && x.arrived ((e.view bwd).recvUnits t.tileCount))
    if hit then s.poisonMb jid t.idx n else s

/-- The closing notice of the oldest entry whose units are all handed on (R220); one without units closes with its item. -/
def closeEntry (slot : Nat) (bwd : Bool) (s : State) : State :=
  match strandJob s with
  | none => s
  | some j =>
    match j.edge? slot with
    | none => s
    | some e =>
      let v := e.view bwd
      match j.stageNamed v.snd with
      | none => s
      | some t =>
        let all := v.sendUnits t.tileCount
        match (e.dir bwd).send.find? (fun x => decide (all ≤ x.sent.length) && (x.itemDone || decide (0 < all))) with
        | none => s
        | some x =>
          if !v.sndHere || decide (e.st ≠ EdgeState.opened) then s
          else
            let drop (s : State) : State := s.updEdge j.id slot (fun e =>
              let d := e.dir bwd
              e.setDir bwd { d with send := d.send.filter (fun y => y.n != x.n) })
            if v.rcvHere then
              entryPoison (noticeAt (drop s) j.id slot bwd x.n x.version (64 * all) x.poison) j.id slot bwd x.n
            else
              let word := State.stageWord 1 (gId e.desc) + place 18 1 (boolNat x.poison) + place 32 32 x.n
              match s.sendJob j 0 (j.alias? e.peerMod) (State.dirVc bwd) word (place 0 16 x.version + place 64 64 (64 * all)) with
              | some s => drop s
              | none => s

/-- CLOSING_NOTICE (R220). -/
def execClosingNotice (e : Nat) (bwd : Bool) (s : State) : Host.Outcome State Fault Refusal := done s (closeEntry e bwd s)

/-! ## Stage flits that arrive (R220, R221, R248, R289) -/

def fKind (f : SpokeFlit) : Nat := bits (fCls f) 0 2
def fEdge (f : SpokeFlit) : Nat := bits (fCls f) 2 16

/-- The job whose stage flits are taken: the running one, or in phase 1 of a switch the outgoing one (R338). -/
def stageJob (s : State) : Option Job :=
  s.runJob.or (s.sched.switch.bind (fun w => if w.asked then none else w.outgoing.bind s.job?))

/-- The edge of that job that a stage flit names. -/
def flitEdge (s : State) (f : SpokeFlit) : Option (Job × Edge) :=
  (stageJob s).bind (fun j => (j.strand.edges.find? (fun e => gId e.desc == fEdge f)).map (fun e => (j, e)))

/-- Another admitted job has the edge (R328). -/
def otherJobEdge (s : State) (f : SpokeFlit) : Option Job :=
  s.jobs.find? (fun j => decide (some j.id ≠ s.running) && j.strand.edges.any (fun e => gId e.desc == fEdge f))

/-- The flit comes from the edge's peer (R309). -/
def ofPeer (f : SpokeFlit) (j : Job) (e : Edge) : Bool := gRemote e.desc && fSrc f == j.alias? e.peerMod

/-- A stage flit without an open edge, or from a module outside its edge: discarded, and logged (R248, R309, R328); what the peer sends on a
DOWN edge is lost (R239). -/
def strayFlit (s : State) (f : SpokeFlit) : State :=
  match flitEdge s f with
  | some (j, e) => if decide (e.st = EdgeState.down) && ofPeer f j e then s else s.log eEdge engStrand 0 j.id e.slot
  | none =>
    match otherJobEdge s f with
    | some j => s.log eJob engStrand 0 j.id
    | none => s.log eEdge engStrand 0 (s.running.getD 0)

/-- The micro-batch that MB_LO names: the first of the entries not released whose low 5 bits agree. -/
def mbOfLo (p : Pipe) (released lo : Nat) : Nat :=
  p.mb (((List.range 32).map (released + ·)).find? (fun a => p.mb a % 32 == lo) |>.getD released)

/-- A DATA flit whose units lie in a tile of a die that holds: it waits in the receive buffer (R32). -/
def dataHeld (s : State) (f : SpokeFlit) (j : Job) (e : Edge) (bwd : Bool) : Bool :=
  anyHeld s && (j.stageNamed (e.view bwd).rcv).any (fun t =>
    let v := e.view bwd
    let n := mbOfLo j.strand.pipe (e.dir bwd).released (bits (fCls f) 18 5)
    (unitGroup v (bits (fCls f) 23 24)).any (fun u => (unitPlaces v t n u).any (fun a => s.windowHeld a 64)))

/-- The oldest stage flit of a channel of a port, if it is of the kind given: taken by the Strand engine, not while die 1 holds (R31). On a
slot that is BOUND and not yet open it waits in the receive buffer (DESIGN CHOICE, log 155). -/
def onStage (port vc kind : Nat) (s : State) (k : SpokeFlit → Job → Edge → State → State) : State :=
  match if dieHeld s 1 then none else s.takeRx port vc (fun f => fKind f == kind) with
  | none => s
  | some (f, t) =>
    match flitEdge s f with
    | some (j, e) =>
      if decide (e.st = EdgeState.bound) && ofPeer f j e then s
      else if !(decide (e.st = EdgeState.opened) && ofPeer f j e) then strayFlit t f
      else if kind == 0 && dataHeld s f j e (vc == 2) then s
      else k f j e t
    | none => strayFlit t f

/-- DATA: the units are committed in the receiving tiles' buffer. -/
def takeData (bwd : Bool) (f : SpokeFlit) (j : Job) (e : Edge) (s : State) : State :=
  let v := e.view bwd
  let n := mbOfLo j.strand.pipe (e.dir bwd).released (bits (fCls f) 18 5)
  let u := bits (fCls f) 23 24
  if !v.rcvHere then s
  else entryPoison (landUnits s j.id e.slot bwd n (unitGroup v u) (leBytes 256 (fPay f))) j.id e.slot bwd n

/-- A flit of kind 3 is discarded before the one asked for is looked at (R289). -/
def dropKind3 (port vc : Nat) (s : State) : State :=
  match s.takeRx port vc (fun f => fKind f == 3) with
  | some (_, s) => s
  | none => s

/-- DATA on channel `vc` (1 activations, 2 gradients) of a port (R289). -/
def execDataFlit (port vc : Nat) (s : State) : Host.Outcome State Fault Refusal :=
  done s (if vc = 1 ∨ vc = 2 then onStage port vc 0 (dropKind3 port vc s) (takeData (vc == 2)) else s)

def takeNotice (bwd : Bool) (f : SpokeFlit) (j : Job) (e : Edge) (s : State) : State :=
  let n := bits (fCls f) 32 32
  if !(e.view bwd).rcvHere then s
  else entryPoison (noticeAt s j.id e.slot bwd n (bits (fPay f) 0 16) (bits (fPay f) 64 64) (bitAt (fCls f) 18))
    j.id e.slot bwd n

/-- NOTICE (R220). -/
def execNotice (port vc : Nat) (s : State) : Host.Outcome State Fault Refusal :=
  done s (if vc = 1 ∨ vc = 2 then onStage port vc 1 (dropKind3 port vc s) (takeNotice (vc == 2)) else s)

def takeCredit (bwd : Bool) (_ : SpokeFlit) (j : Job) (e : Edge) (s : State) : State :=
  if (e.view bwd).sndHere then s.addCredit j.id e.slot bwd else s

/-- CREDIT (R221). -/
def execCredit (port vc : Nat) (s : State) : Host.Outcome State Fault Refusal :=
  done s (if vc = 1 ∨ vc = 2 then onStage port vc 2 (dropKind3 port vc s) (takeCredit (vc == 2)) else s)

/-! ## The exchanges of an edge's ends (R239, R245, R246) -/

/-- An opening notice is answered if the edge is bound, else held, also before its job is admitted; an answer is kept for PIPE_START, or opens a DOWN edge
whose EDGE_REPOINT named its sender. -/
def openingArrives (m : OpenMsg) (s : State) : State :=
  match s.job? m.job with
  | none => if m.answer then s else { s with notices := s.notices ++ [m] }
  | some j =>
    match j.strand.edges.find? (fun e => gId e.desc == m.edgeId) with
    | none =>
      if m.answer then s
      else s.updJob j.id (fun j => { j with strand := { j.strand with notices := j.strand.notices ++ [m] } })
    | some e =>
      if !m.answer then s.send m.src (.openingNotice (openMsg s j e true))
      else if j.alias? e.peerMod != m.src then s
      else if e.st = EdgeState.down then
        if answerOk s j e m then s.updEdge j.id e.slot (openEdge j.strand.pipe) else s
      else s.updEdge j.id e.slot (fun e => { e with answer := some m })

/-- A message to the Strand engine is not taken while its die holds (R31). -/
def onStrand (f : State → State) (s : State) : State := if dieHeld s 1 then s else f s

/-- OPENING_NOTICE (R245). -/
def execOpeningNotice (m : OpenMsg) (s : State) : Host.Outcome State Fault Refusal := done s (onStrand (openingArrives m) s)

/-- The peer has acknowledged the closing of an edge. -/
def closingAcked (src job edgeId : Nat) (s : State) : State :=
  (s.keys job).foldl (fun s k => s.updJob k (fun j => { j with strand := { j.strand with edges := j.strand.edges.map (fun e =>
    if gId e.desc == edgeId && e.st == EdgeState.closed && j.alias? e.peerMod == src then { e with acked := true } else e) } })) s

/-- CLOSING_ACK (R246). -/
def execClosingAck (src job edgeId : Nat) (s : State) : Host.Outcome State Fault Refusal :=
  done s (onStrand (closingAcked src job edgeId) s)

/-- The entry of the job table whose edge a peer closes: one whose end is in progress before the admitted one (R327). -/
def closingKey (s : State) (job edgeId : Nat) : Nat :=
  ((s.keys job).find? (fun k => k != job && (s.job? k).any (fun j => j.strand.edges.any (fun e => gId e.desc == edgeId)))).getD job

/-- The local end of an edge closes and acknowledges. -/
def edgeCloses (src job edgeId : Nat) (s : State) : State :=
  (s.updJob (closingKey s job edgeId) (fun j => { j with strand := { j.strand with edges := j.strand.edges.map (fun e =>
    if gId e.desc == edgeId && j.alias? e.peerMod == src then { e with st := .closed, acked := true } else e) } })).send src
      (.closingAck s.mod.id job edgeId)

/-- EDGE_CLOSING (R246). -/
def execEdgeClosing (src job edgeId : Nat) (s : State) : Host.Outcome State Fault Refusal := done s (onStrand (edgeCloses src job edgeId) s)

/-- The peer of an edge is unreachable: DOWN, logged; what was under way on it is lost (R239). -/
def State.edgeLost (s : State) (jid slot : Nat) : State :=
  match (s.job? jid).bind (fun j => (j.edge? slot).map (fun e => (j, e))) with
  | none => s
  | some (j, e) =>
    if decide (e.st ≠ EdgeState.opened) || !gRemote e.desc || s.reachable j 0 (j.alias? e.peerMod) then s
    else
      let s := s.updEdge jid slot (fun e => { e with st := .down, fwd := { e.fwd with send := [] }, bwd := { e.bwd with send := [] } })
      s.log eLinkDown engStrand 0 jid slot

/-- EDGE_DOWN (R239). -/
def execEdgeDown (e : Nat) (s : State) : Host.Outcome State Fault Refusal :=
  done s (match if dieHeld s 1 then none else s.running with
    | some j => s.edgeLost j e
    | none => s)

end Sys2Proof.Machine
end

