-- ==== Sys2Proof/Machine/Time.lean ====
section
/-! DEFINITION. Fabric time and the date (R412). Times are in units of 10 ns. -/
namespace Sys2Proof.Machine

/-- The date held at a management time, in seconds. -/
def DateSt.at (d : DateSt) (now : Nat) : Nat := d.date + (now - d.since) / 100000000

/-- The module whose time this one follows, or itself. -/
def timeSource (s : State) : Nat := if s.mss.time.peer.isSome then s.mss.time.source else s.mod.id

/-- The direct peers, each with the lowest port in service to it. -/
def directPeers (s : State) : List (Nat × Nat) :=
  ((List.range 36).filter (fun i => State.inService (s.port i))).foldl (fun l i =>
    let m := (s.port i).peerMod
    if l.any (fun x => x.1 == m) then l else l ++ [(m, i)]) []

/-- TIME_MESSAGE_SEND: a time message to every direct peer. -/
def sendTimes (s : State) : State :=
  let ps := directPeers s
  let msg (p : Nat × Nat) : TimeMsg := {
    src := s.mod.id, port := (s.port p.2).peerPort, fabric := s.fabric, date := s.mss.date.at s.now, dateAt := s.mss.date.setAt
    source := timeSource s, turn := (s.mss.time.arrivals.find? (fun a => a.1 == p.1)).map (fun a => (a.2, s.now)) }
  let s := ps.foldl (fun s p =>
    let i := Instr.timeMessage (msg p)
    let f := mkFlit 0 p.1 s.mod.id (State.msgFrame i).1 (Config.msgPayload i)
    ((s.sendFlow 0 (State.portsMask [p.2]) f).getD s).emit (.msg p.1 i)) s
  if ps.isEmpty then s else { s with mss := { s.mss with time := { s.mss.time with sent := s.now } } }

def execTimeMessageSend (s : State) : Host.Outcome State Fault Refusal := done s (sendTimes s)

/-- Half the round trip, less the peer's turnaround. -/
def linkDelay (s : State) (m : TimeMsg) : Option Nat :=
  m.turn.map (fun t => ((s.now - s.mss.time.sent) - (t.2 - t.1)) / 2)

def State.updTime (s : State) (f : TimeSt → TimeSt) : State := { s with mss := { s.mss with time := f s.mss.time } }

/-- The peer's arrival is noted, with the delay of its link. -/
def noteTime (m : TimeMsg) (s : State) : State :=
  let d := linkDelay s m
  s.updTime (fun t => { t with
    arrivals := t.arrivals.filter (fun a => a.1 != m.src) ++ [(m.src, s.now)]
    delays := match d with
      | none => t.delays
      | some x => t.delays.filter (fun e => e.1 != m.port) ++ [(m.port, x)] })

/-- The time source followed: a direct peer whose source is below this module's own; a followed peer whose source no longer is
below this module's ID is left. -/
def chooseSource (m : TimeMsg) (s : State) : State :=
  let followed := s.mss.time.peer == some m.src
  if followed && decide (s.mod.id ≤ m.source) then s.updTime (fun t => { t with peer := none, source := 0, slew := 0 })
  else if followed || decide (m.source < timeSource s) then s.updTime (fun t => { t with peer := some m.src, source := m.source })
  else s

/-- An error is slewed away within the 10 ms to the next message, by at most 100 ppm; above 100 µs it is corrected in one step. -/
def correctTime (m : TimeMsg) (s : State) : State :=
  let d := ((s.mss.time.delays.find? (fun e => e.1 == m.port)).map (·.2)).getD 0
  let want := m.fabric + d
  if !s.mss.time.taken then ({ s with fabric := want }).updTime (fun t => { t with taken := true, slew := 0 })
  else if s.mss.time.peer ≠ some m.src then s
  else
    let e : Int := (want : Int) - (s.fabric : Int)
    if e < -10000 ∨ 10000 < e then ({ s with fabric := want }).updTime (fun t => { t with slew := 0 })
    else s.updTime (fun t => { t with slew := max (-100) (min 100 e) })

/-- The date set latest in fabric time wins. -/
def takeDate (m : TimeMsg) (s : State) : State :=
  match m.dateAt with
  | none => s
  | some t =>
    if s.mss.date.setAt.any (fun o => decide (t ≤ o)) then s
    else { s with mss := { s.mss with date := { date := m.date, setAt := some t, since := s.now, held := true } } }

/-- TIME_MESSAGE: from a direct peer, over a port that is UP. -/
def takeTime (m : TimeMsg) (s : State) : State :=
  if (s.port m.port).st = PortState.up ∧ (s.port m.port).peerMod = m.src ∧ m.port < 36 then
    takeDate m (correctTime m (chooseSource m (noteTime m s)))
  else s

def execTimeMessage (m : TimeMsg) (s : State) : Host.Outcome State Fault Refusal := done s (takeTime m s)

/-- Fabric time one unit of the management timers later: the rate correction while a port is UP. -/
def fabricAfter (s : State) : Nat :=
  let slew : Int := if s.ports.any State.inService then s.mss.time.slew else 0
  let corr (n : Nat) : Int := (n : Int) * slew / 1000000
  ((s.fabric : Int) + 1 + (corr (s.now + 1) - corr s.now)).toNat

end Sys2Proof.Machine
end

