-- ==== Sys2Proof/Machine/Spares.lean ====
section
/-! DEFINITION. Spares brought into use in service: tiles, scratch banks, regulator phases, the host port, and wear trending
(R342-R347). -/
namespace Sys2Proof.Machine

/-! ## Tiles (R344) -/

namespace State

/-- Every command in flight on a tile completes with E_DATA_POISON, POISON = 1, its results discarded. -/
def poisonTile (s : State) (l : Nat) : State :=
  s.jobs.foldl (fun s j => (j.queues.filter (fun q => q.ref.eng == engTile && q.ref.inst == l)).foldl (fun s q =>
    q.flight.foldl (fun s f =>
      match (s.job? j.id).bind (fun k => k.queue? q.ref) with
      | none => s
      | some p => s.completeAt j.id p 0 { f with
          res := { f.res with code := ePoison, poison := true }, writes := [], marks := [], amax := [], recomps := [] }) s) s) s

/-- The step of the job that runs is poisoned; a job whose pipeline is IDLE is ended (R344 step 3). -/
def poisonStep (s : State) : State :=
  match s.runJob with
  | none => s
  | some j =>
    if j.strand.pipe.st = PipeState.idle then (s.log ePoison engTile 0 j.id).endJob j.id
    else s.updPipe j.id (fun p => p.taint p.step)

end State

/-- TILE_FAIL: the tile's command is poisoned, a spare of its die takes its place, or with none left the module has failed (R10, R344). -/
def failTile (l : Nat) (s : State) : State :=
  if s.parts.map.length ≤ l ∨ !s.mod.mainOn then s
  else
    let s := s.poisonTile l
    let s := { s with parts := { s.parts with failed := s.parts.failed ++ [s.parts.map.getD l 0] } }
    match s.spareTiles (l / 64) with
    | [] => s.failModule
    | p :: _ => (s.mapTile l p 1).poisonStep

def execTileFail (tile : Nat) (s : State) : Host.Outcome State Fault Refusal := done s (failTile tile s)

/-! ## Scratch banks (R345) -/

/-- A command in flight that reads a scratch word meets its uncorrectable error: E_MEM_UNCORR, POISON = 1. -/
def State.poisonReader (s : State) (a : Nat) : State :=
  s.jobs.foldl (fun s j => s.mapFlights j.id (fun s _ _ f =>
    if f.reads.any (fun r => overlaps r.1 r.2 a 8) then
      (s, { f with res := { f.res with code := if f.res.code = 0 then eUncorr else f.res.code, poison := true } })
    else (s, f))) s

/-- An uncorrectable word of a bank: which one it is, is a free value; its readers are poisoned, and its copy holds undefined bytes. -/
def State.loseWord (s : State) (l bank : Nat) : State :=
  let (v, s) := s.draw
  let a := State.scratchAddr l (Config.bankWord bank v % 0x80000 * 8)
  let (bs, s) := (s.poisonReader a).drawBytes 8
  s.write a bs

/-- A bank fails: copied to a spare bank of its tile; with both in use the tile has failed (R345). -/
def failBank (l bank : Nat) (uncorr : Bool) (s : State) : State :=
  if s.parts.map.length ≤ l ∨ 32 ≤ bank ∨ !s.mod.mainOn then s
  else
    let s := if uncorr then s.loseWord l bank else s
    let n := countIf (fun b => b.1 == l) s.parts.banks
    if 2 ≤ n then failTile l s
    else
      let s := { s with parts := { s.parts with banks := s.parts.banks ++ [(l, bank, n)] } }
      s.ledger 0x02 (leBytes 8 (place 0 8 l + place 8 5 bank + place 16 1 n))

/-- SCRATCH_BANK_FAIL (R345). -/
def execScratchBankFail (tile bank : Nat) (uncorr : Bool) (s : State) : Host.Outcome State Fault Refusal :=
  done s (failBank tile bank uncorr s)

/-! ## Regulator phases (R346) -/

/-- Phases of a regulator: 24 work, phases 24 and 25 are its spares. -/
def spareFor (x : Die) : Option Nat :=
  [24, 25].find? (fun p => !x.phases.any (fun f => f.1 == p || f.2 == some p))

/-- A phase fails: a spare takes over, or the die's power share falls by 1/24; below 22 working phases the module has failed. -/
def failPhase (d phase : Nat) (s : State) : State :=
  match s.dies[d]? with
  | none => s
  | some x =>
    if x.phases.any (fun f => f.1 == phase) ∨ 26 ≤ phase then s
    else if 24 ≤ phase ∧ !x.phases.any (fun f => f.2 == some phase) then
      s.updDie d (fun x => { x with phases := x.phases ++ [(phase, none)] })
    else
      match spareFor x with
      | some p =>
        (s.updDie d (fun x => { x with phases := x.phases ++ [(phase, some p)] })).ledger 0x09
          (leBytes 8 (place 0 2 d + place 8 5 phase + place 16 5 p))
      | none =>
        let s := (s.updDie d (fun x => { x with phases := x.phases ++ [(phase, none)], shareLost := x.shareLost + 1 })).log eSpare 7 d 0
        if 24 < 22 + (x.shareLost + 1) then s.failModule else s

/-- REGULATOR_PHASE_FAIL (R346). -/
def execRegulatorPhaseFail (die phase : Nat) (s : State) : Host.Outcome State Fault Refusal := done s (failPhase die phase s)

/-! ## Wear trending (R343) -/

/-- Sums of a least-squares fit to hourly samples, newest first: count, values, times (the newest at 0), n Σx² − (Σx)², n Σxy − Σx Σy. -/
structure Fit where
  n   : Int
  sy  : Int
  sx  : Int
  sxx : Int
  sxy : Int
  deriving DecidableEq, Repr

def fitOf (samples : List Nat) : Fit :=
  let n : Int := samples.length
  let ys : List Int := samples.map Int.ofNat
  let xs : List Int := (List.range samples.length).map (fun (i : Nat) => -(i : Int))
  let sx := xs.sum
  let sy := ys.sum
  { n := n, sy := sy, sx := sx, sxx := n * (xs.map (fun x => x * x)).sum - sx * sx
    sxy := n * (xs.zipWith (fun x y => x * y) ys).sum - sx * sy }

/-- The line reaches a limit after so many hours. With mean time x̄ and mean value ȳ its value then is ȳ + b (h − x̄), b the slope; the test is
scaled to whole numbers. -/
def Fit.reaches (f : Fit) (limit h : Int) : Bool := decide (limit * f.n * f.sxx ≤ f.sy * f.sxx + f.sxy * (f.n * h - f.sx))

/-- The line predicts a limit within so many hours. -/
def predicts (samples : List Nat) (limit hours : Int) : Bool :=
  let f := fitOf samples
  decide (0 < f.sxx) && (f.reaches limit 0 || f.reaches limit hours)

/-- Predicted limit of a kind of source, and the hours within which it is acted on (R343). -/
def wearLimit (kind : Nat) : Int × Int :=
  match kind with
  | 0 => (600, 720)
  | 1 => (10000000, 168)
  | _ => (2000, 168)

/-- Samples of a source, one hour's reading added. -/
def addSample (w : List (Nat × List Nat)) (x : Nat × Nat) : List (Nat × List Nat) :=
  let old := ((w.find? (fun e => e.1 == x.1)).map (·.2)).getD []
  w.filter (fun e => e.1 != x.1) ++ [(x.1, (x.2 :: old).take 168)]

/-- Indices of the sources of a kind whose lines predict its limit. -/
def wearDue (w : List (Nat × List Nat)) (kind : Nat) : List Nat :=
  (w.filter (fun e => e.1 / 65536 == kind && predicts e.2 (wearLimit kind).1 (wearLimit kind).2)).map (fun e => e.1 % 65536)

/-- The physical tiles assigned to a monitor of a die; the assignment is the implementation's. -/
def monitorTiles (m : Nat) : List Nat := (rangeFrom (72 * (m / 32)) 72).filter (fun p => Config.monitorOf p % 32 == m % 32)

/-- A lane in service gives way to its port's spare. -/
def State.retireLane (s : State) (x : Nat) : State :=
  let p := s.port (x / 8)
  if State.inService p && p.failed.isNone && decide (x % 8 ≠ p.spare) then s.laneFails (x / 8) (x % 8) else s

/-- A working phase gives way to a spare of its die. -/
def State.retirePhase (s : State) (x : Nat) : State :=
  match s.dies[x / 32]? with
  | none => s
  | some d => if d.phases.any (fun f => f.1 == x % 32) || (spareFor d).isNone then s else failPhase (x / 32) (x % 32) s

/-- WEAR_SAMPLE: the hour's readings are added; tiles of due monitors are flagged, and substituted if no job is admitted; due lanes and phases
are substituted at once. -/
def sampleWear (slow : List Nat) (ber share : List (Nat × Nat)) (s : State) : State :=
  let of (kind : Nat) (l : List (Nat × Nat)) : List (Nat × Nat) := l.map (fun x => (kind * 65536 + x.1, x.2))
  let wear := (of 0 ((List.range 128).zip slow) ++ of 1 ber ++ of 2 share).foldl addSample s.parts.wear
  let tiles := ((wearDue wear 0).flatMap monitorTiles).filter (fun p => !s.parts.flagged.contains p)
  let s := ({ s with parts := { s.parts with wear := wear, flagged := s.parts.flagged ++ tiles } }).substituteFlagged
  (wearDue wear 2).foldl State.retirePhase ((wearDue wear 1).foldl State.retireLane s)

/-- WEAR_SAMPLE (R343). -/
def execWearSample (slow : List Nat) (rest : WearRest) (s : State) : Host.Outcome State Fault Refusal :=
  done s (sampleWear slow rest.ber rest.share s)

/-- a / b as an exact value but for a sticky last bit far below any rounding. -/
def ratioVal (neg : Bool) (a b : Nat) : Val := .fin neg (2 * (a * 2 ^ 256 / b) + boolNat (a * 2 ^ 256 % b != 0)) (-257)

/-- FP32 slope per day of a fit: percent for monitors and phases, the BER itself for lanes (DESIGN CHOICE, log 130). -/
def Fit.slope (f : Fit) (kind : Nat) : Nat :=
  (toFp32 (ratioVal (decide (f.sxy < 0)) (24 * f.sxy.natAbs) (f.sxx.toNat * (if kind = 1 then 10 ^ 12 else 100)))).code

/-- Hours until the line reaches a limit; none where it does not rise. -/
def Fit.hours (f : Fit) (limit : Int) : Option Nat :=
  if f.reaches limit 0 then some 0
  else if f.sxy ≤ 0 then none
  else some (ceilDiv (limit * f.n * f.sxx - f.sy * f.sxx + f.sxy * f.sx).toNat (f.sxy * f.n).toNat)

/-- The ledger record of a source's fit (R403). Where the fit gives no slope (fewer than two samples) or no date (a line that never reaches its
limit), the record has what the operands give (DESIGN CHOICE, log 130). -/
def ledgerFit (kind idx slope date : Nat) (s : State) : State :=
  match s.parts.wear.find? (fun e => e.1 == kind * 65536 + idx) with
  | none => s
  | some e =>
    let f := fitOf e.2
    let fits := decide (f.sxx ≠ 0)
    let day := if fits then (f.hours (wearLimit kind).1).map (fun h => (s.mss.date.at s.now + 3600 * h) / 86400) else none
    s.ledger 0x0B (leBytes 16 (place 0 8 kind + place 8 16 idx + place 32 32 (if fits then f.slope kind else slope) +
      place 64 32 (day.getD date)))

/-- WEAR_LEDGER_WRITE: the day's record of one source's fit (R343, R403). -/
def execWearLedgerWrite (kind idx slope date : Nat) (s : State) : Host.Outcome State Fault Refusal :=
  done s (ledgerFit kind idx slope date s)

/-! ## Host ports (R347) -/

/-- PERST is asserted on host port A (false) or B. -/
def State.perstOf (s : State) (b : Bool) : Bool := if b then s.mod.perstB else s.mod.perstA

/-- The active host port has failed: the standby port takes over, or none is left. The time of PERST does not count (R417): a port held in it
has not failed, and a standby port held in it comes up once it is released. -/
def failHostPort (trains : Bool) (s : State) : State :=
  if s.mod.hostLost ∨ !s.mod.mainOn ∨ s.perstOf s.mod.portB then s
  else
    let s := s.dropHost
    let lost (s : State) : State := ({ s with mod := { s.mod with hostLost := true, hostUp := false } }).log eSpare 7 0 0
    if s.mod.hostSwitched || !trains then lost s
    else
      let b := !s.mod.portB
      let s := { s with mod := { s.mod with portB := b, hostSwitched := true, hostUp := !s.perstOf b } }
      s.ledger 0x0A (leBytes 8 (boolNat b))

/-- HOST_PORT_FAILOVER (R347). -/
def execHostPortFailover (trains : Bool) (s : State) : Host.Outcome State Fault Refusal := done s (failHostPort trains s)

end Sys2Proof.Machine
end

