-- ==== Sys2Proof/Machine/Recovery.lean ====
section
/-! DEFINITION. Recovery orders at the modules of a job (R364), the restore from a durable checkpoint (R368), and the spare's part of a
takeover (R367). -/
namespace Sys2Proof.Machine

def State.updRecov (s : State) (jid : Nat) (f : Recov → Recov) : State := s.updJob jid (fun j => { j with recov := f j.recov })

/-- An order of the job's lead or deputy. -/
def orderOf (s : State) (src jid : Nat) : Option Job :=
  (s.job? jid).filter (fun j => src == j.lead || src == j.deputy || s.leadNow j == some src)

/-- Link map: each port that is UP, with the module behind it. -/
def linkMap (s : State) : List (Nat × Nat) :=
  ((List.range 36).filter (fun i => decide ((s.port i).st = PortState.up))).map (fun i => (i, (s.port i).peerMod))

/-! ## The quiescent report (R364, R365) -/

/-- Steps of the valid checkpoints of a module's two slots (R360). A slot keeps its place when a spare takes a module over, so MODULE is
not compared. -/
def ckptSteps (s : State) (job a size : Nat) : List Nat := (ckptHeaders s job a size).map (fun h => bits h.2 0 32)

/-- Newest sealed step of the hosted copy. -/
def newestSealed (l : Locket) : Option Nat :=
  match l.half0.sealed, l.half1.sealed with
  | some a, some b => some (if newer 32 a.step b.step then a.step else b.step)
  | some a, none => some a.step
  | none, b => b.map (·.step)

def quietMsg (s : State) (j : Job) : QuietMsg :=
  let l := j.locket
  let host : Option HostReport :=
    if l.bound && lHost l.desc then l.srcInfo.map (fun i =>
      { source := lSource l.desc, sealed := newestSealed l, info := i, ckpts := ckptSteps s j.id i.ckpt i.ckptSlot })
    else none
  { src := s.mod.id, job := j.id, step := j.strand.pipe.step, links := linkMap s, host := host
    ckpts := if l.bound then ckptSteps s j.id (lCkpt l.desc) (lCkptSlot l.desc) else []
    named := (j.routes.filter (fun r => r.ports != 0)).map (·.key) }

/-- No item is outstanding or ready, and no bucket is under way. -/
def quiescent (s : State) (j : Job) : Bool :=
  j.quiet && j.ring.buckets.isEmpty && j.ring.closes.isEmpty &&
  !(mayChoose j && j.strand.groups.any (fun g => (choose s j g).isSome))

/-- The quiescent report goes out when the job is quiescent. -/
def State.reportQuiet (s : State) (jid : Nat) : State :=
  match s.job? jid with
  | none => s
  | some j =>
    match j.recov.quiesce with
    | none => s
    | some l =>
      if !quiescent s j then s
      else (s.send l (.quiescentReport (quietMsg s j))).updRecov jid (fun r => { r with quiesce := none })

/-- Every pending NORM_CLOSE completes as if its timeout had expired. -/
def State.expireCloses (s : State) (jid : Nat) : State :=
  match s.job? jid with
  | none => s
  | some j =>
    let s := s.updRing jid (fun r => { r with closes := r.closes.map (fun (c : NormClose) => { c with sent := true }) })
    j.ring.closes.foldl (fun s c => s.closeTotal jid c.step none []) s

/-- RECOVER (R364). -/
def obeyRecover (src jid : Nat) (s : State) : State :=
  match orderOf s src jid with
  | none => s
  | some _ =>
    let s := s.expireCloses jid
    let s := s.updRecov jid (fun r => { r with active := true, quiesce := some src })
    (s.pedalStart pedalOnRecovery jid).reportQuiet jid

def execRecover (src job : Nat) (s : State) : Host.Outcome State Fault Refusal := done s (onLocket (obeyRecover src job) s)

/-! ## ALIAS, REPOINT, REPLAY, RETIRE -/

/-- The acknowledgement of an order (R364). -/
def State.ackOrder (s : State) (dst jid : Nat) (o : OrderKind) (ok : Bool) : State := s.send dst (.takeoverOffer (.ack s.mod.id jid o ok))

/-- ALIAS x → y: 16 entries, a 17th is refused. A module whose buddy was x resends its static ranges to y, and has no sealed copy until its
next seal; that of the step before stays acknowledged (R358, R364, R367). -/
def obeyAlias (src jid x y : Nat) (s : State) : State :=
  match orderOf s src jid with
  | none => s
  | some j =>
    let known := j.aliases.any (fun a => a.1 == x)
    if !known && decide (16 ≤ j.aliases.length) then s.ackOrder src jid .alias_ false
    else
      let as := j.aliases.filter (fun a => a.1 != x) ++ [(x, y)]
      let s := s.updJob jid (fun j => { j with aliases := as })
      if j.locket.bound && j.alias? (lBuddy j.locket.desc) == x || j.locket.bound && lBuddy j.locket.desc == x then
        (((s.job? jid).map (fun j => s.sendOffer j)).getD s).ackOrder src jid .alias_ true
      else s.ackOrder src jid .alias_ true

/-- ALIAS at the spare that accepted the takeover of x: the pulls from the buddy begin (R367 step 3). -/
def startPulls (src jid x y : Nat) (s : State) : State :=
  match s.mod.take with
  | some t =>
    if t.lead = src ∧ t.job = jid ∧ t.failed = x ∧ y = s.mod.id then
      (if t.buddy < 256 then s.send t.buddy (.takeoverOffer (.pull s.mod.id jid)) else s).ackOrder src jid .alias_ true
    else s
  | none => s

def execAliasOrder (src job x y : Nat) (s : State) : Host.Outcome State Fault Refusal :=
  done s (onLocket (fun s => startPulls src job x y (obeyAlias src job x y s)) s)

/-- Edges that are DOWN and whose peer has an alias. -/
def lostEdges (j : Job) : List Edge :=
  j.strand.edges.filter (fun e => decide (e.st = EdgeState.down) && j.aliases.any (fun a => a.1 == e.peerMod))

/-- The first Locket queue of a job: its ring takes the records of commands that the Locket engine issues itself (R364, log 143). -/
def ownQueue (j : Job) : Option Queue := j.queues.find? (fun q => q.ref.eng == engLocket)

/-- The record of a command that the Locket engine issues itself: CREC = 1, no signal, a free SEQ. -/
def ownCommand (kind jid seq body : Nat) : Nat :=
  place 0 8 kind + place 12 1 1 + place 96 16 jid + place 112 16 seq + 2 ^ 128 * body

namespace State

/-- EDGE_REPOINT issued by the Locket engine: its record follows when the edge is open (R239, R364). -/
def ownEdgeRepoint (s : State) (jid slot peer : Nat) : State :=
  match s.job? jid with
  | none => s
  | some j =>
    let (v, s) := (repointEdge s j slot peer).draw
    let f : Flight := { record := ownCommand 0x66 jid v (Machine.place 0 6 slot + Machine.place 8 8 peer), listId := 0, last := false, op := .edgeOpen slot }
    match ownQueue j with
    | none => s
    | some q => s.updJob jid (fun j => j.setQueue { q with flight := q.flight ++ [f] })

/-- GROUP_REPOINT issued by the Locket engine: it acts and reports at once (R278, R364). -/
def ownGroupRepoint (s : State) (jid g i m : Nat) : State :=
  match s.job? jid with
  | none => s
  | some j =>
    let (v, s) := (s.pointMember jid g i m).draw
    match ownQueue j with
    | none => s
    | some q => s.reportDone jid q.ref (ownCommand 0x85 jid v (Machine.place 0 4 g + Machine.place 4 8 i + Machine.place 12 8 m)) {}

/-- EDGE_REPOINT and GROUP_REPOINT for everything that names an aliased module. -/
def repointAll (s : State) (jid : Nat) : State :=
  match s.job? jid with
  | none => s
  | some j =>
    let s := (lostEdges j).foldl (fun s e => s.ownEdgeRepoint jid e.slot (j.alias? e.peerMod)) s
    j.ring.groups.foldl (fun s g =>
      ((List.range g.members.length).zip g.members).foldl (fun s p =>
        if j.aliases.any (fun a => a.1 == p.2) then s.ownGroupRepoint jid g.num p.1 (j.alias? p.2) else s) s) s

end State

/-- REPOINT is carried out once no edge that it re-opens is still DOWN. -/
def State.reportRepoint (s : State) (jid : Nat) : State :=
  match s.job? jid with
  | none => s
  | some j =>
    match j.recov.owing with
    | none => s
    | some l =>
      if j.strand.edges.any (fun e => decide (e.st = EdgeState.down)) || s.mod.take.any (fun t => t.job == jid) then s
      else (s.send l (.takeoverOffer (.carried s.mod.id jid true))).updRecov jid (fun r => { r with owing := none })

/-- Reference of a list of the Locket descriptor: TAKEOVER at bit 640, RESTART at bit 768. -/
def takeoverRef : Nat := 640
def restartRef : Nat := 768

/-- A list of a Locket descriptor pushed on the job-control queue. -/
def State.pushLocketList (s : State) (jid desc ref : Nat) : State :=
  s.pushList jid ⟨engJob, 0, 0⟩ (bits desc ref 48) (bits desc (ref + 48) 16) none

/-- REPOINT (R364); at the spare it starts the TAKEOVER list (R367 step 5). -/
def obeyRepoint (src jid : Nat) (s : State) : State :=
  match orderOf s src jid with
  | none => s
  | some _ =>
    match s.mod.take with
    | some t =>
      if t.job ≠ jid ∨ t.stage ≠ .admitted then s
      else
        let s := s.pushLocketList jid (s.num t.info.desc 128) takeoverRef
        { s with mod := { s.mod with take := some { t with stage := .started } } }
    | none => ((s.repointAll jid).updRecov jid (fun r => { r with owing := some src })).reportRepoint jid

def execRepoint (src job : Nat) (s : State) : Host.Outcome State Fault Refusal := done s (onLocket (obeyRepoint src job) s)

/-- Halted queues of the job released with DISCARD_LIST. -/
def State.releaseHalted (s : State) (jid : Nat) : State :=
  match s.job? jid with
  | none => s
  | some j => (j.queues.filter (·.halted)).foldl (fun s q => s.controlQueue jid q.ref 2) s

/-- A recovery is over; the lag of the next boundary is not counted (R369). -/
def State.endRecovery (s : State) (jid : Nat) : State :=
  s.updJob jid (fun j => { j with
    recov := { j.recov with active := false, quiesce := none, owing := none, restoring := none, replaying := none }
    lock := { j.lock with excuse := 1 } })

/-- REPLAY_STEP issued by the Locket engine: rejected, it reports at once; else its record follows step 4 of R241 (R364, log 143). -/
def State.ownReplay (s : State) (jid step : Nat) : State :=
  let (v, s) := s.draw
  let r := ownCommand replaySpec.kind jid v step
  match s.job? jid with
  | none => s
  | some j =>
    match ownQueue j with
    | none => if replayUnfit j step then s else s.replayBegin jid
    | some q =>
      if replayUnfit j step then s.reportDone jid q.ref r { code := eState }
      else (s.updJob jid (fun j => j.setQueue { q with flight := q.flight ++ [{ record := r, listId := 0, last := false, op := .replay }] })).replayBegin jid

/-- REPLAY s (R364): halted queues released, REPLAY_STEP issued; the recovery is over. What GATHERs of the step had completed counts toward
no seal any more (R356, R357): they run again. The order is acknowledged when REPLAY_STEP has completed. -/
def obeyReplay (src jid step : Nat) (s : State) : State :=
  match orderOf s src jid with
  | none => s
  | some _ =>
    let s := ((s.releaseHalted jid).endRecovery jid).newSeal jid
    match s.job? jid with
    | none => s
    | some j =>
      let t := s.ownReplay jid step
      if replayUnfit j step then t.ackOrder src jid .replay false else t.updRecov jid (fun r => { r with replaying := some src })

/-- REPLAY is acknowledged once the step runs again (R367 step 7). -/
def State.reportReplay (s : State) (jid : Nat) : State :=
  match s.job? jid with
  | none => s
  | some j =>
    match j.recov.replaying with
    | none => s
    | some l =>
      if j.strand.pipe.st = PipeState.replaying then s
      else (s.ackOrder l jid .replay true).updRecov jid (fun r => { r with replaying := none })

def execReplayOrder (src job step : Nat) (s : State) : Host.Outcome State Fault Refusal := done s (onLocket (obeyReplay src job step) s)

/-- RETIRE (R369): the job stops without a seal, MODULE_RETIRE in the ledger, offers declined until the next reset. In DRAIN the
retirement is logged and leaves no ledger record (R421). -/
def obeyRetire (src jid step : Nat) (s : State) : State :=
  match orderOf s src jid with
  | none => s
  | some _ =>
    let s := s.ackOrder src jid .retire true
    if s.mod.st = MState.drain then (s.log eStraggler engLocket 0 jid step).endJob jid
    else
      let s := { s with mss := { s.mss with retired := true } }
      (s.ledger 0x0C (leBytes 8 (place 0 16 jid + place 32 32 step))).endJob jid

def execRetire (src job step : Nat) (s : State) : Host.Outcome State Fault Refusal := done s (onLocket (obeyRetire src job step) s)

/-! ## Restoring a state block (R367 step 4) -/

/-- The patch list: VER_FIRST of stage descriptors, FIRST_MB and FIRST_STEP of PIPE_START records (R354). -/
def State.patchRecords (s : State) (patches : List Nat) (b : StateBlockMsg) : State :=
  patches.foldl (fun s p =>
    let a := bits p 0 48
    match bits p 48 2 with
    | 0 =>
      match b.versions.find? (fun v => v.1 == bits p 50 4) with
      | some v => s.store (a + 16) (leBytes 2 v.2)
      | none => s
    | 1 => (s.store (a + 16) (leBytes 4 b.firstMb)).store (a + 20) (leBytes 4 (b.step + 1))
    | _ => s) s

/-- The slots of a state block, with R150 applied once, and the patch list of the Locket descriptor at `desc`. -/
def State.applyBlock (s : State) (jid desc : Nat) (b : StateBlockMsg) : State :=
  let s := b.slots.foldl (fun s x =>
    s.setSlot x.slot { s.slot x.slot with k := x.k, hist := x.hist, pending := x.pending, savedK := x.k, savedHist := x.hist }) s
  let s := ((s.job? jid).map (fun j => s.updateSlots j)).getD s
  let d := s.num desc 128
  s.patchRecords (listOf s (lPatchList d) (lPatches d) 16) b

/-- The spare admits the job from its restored descriptor: the route table is cleared, and given to the lead; the job knows this module
in the failed one's place (R367 step 4). -/
def admitRestored (s : State) (t : TakeSt) (b : StateBlockMsg) : Option (State × List (Nat × Nat × Bool)) :=
  let routes := (readItems s b.descAddr).routes
  let table := (routesOf routes).map (fun r => (r.key, r.ports.toNat, r.transit))
  let s := s.store (jdRoutes (s.num b.descAddr 128)) (List.replicate (1280 * 8) 0)
  let x := readItems s b.descAddr
  if x.desc % 2 ^ 16 ≠ t.job ∨ (admitFail s t.job x).isSome then none
  else
    let s := s.enterJob b.descAddr x
    let s := s.updJob t.job (fun j => { j with aliases := [(t.failed, s.mod.id)], recov := { j.recov with active := true } })
    some (s.applyBlock t.job t.info.desc b, table)

/-! ## The durable checkpoint read back (R360, R368) -/

def pad64Len (n : Nat) : Nat := (n + 63) / 64 * 64

/-- Ranges of a directory of n entries at address a, whose bytes begin at address b: address, length, place of the bytes. -/
def directory (s : State) (a : Nat) : Nat → Nat → List (Nat × Nat × Nat)
  | 0, _ => []
  | n + 1, b =>
    let len := s.num (a + 8) 8 % 2 ^ 40
    (s.num a 8, len, b) :: directory s (a + 16) n (b + len)

/-- A checkpoint slot at address a: static ranges, state block, ranges of the seal. -/
structure Ckpt where
  statics : List (Nat × Nat × Nat)
  block   : StateBlockMsg
  ranges  : List (Nat × Nat × Nat)

def readSlotSeal (s : State) (a : Nat) : SlotSeal :=
  { slot := s.num a 2, k := sbits (s.num (a + 2) 1) 0 8, pending := BitVec.ofNat 32 (s.num (a + 4) 4)
    hist := (List.range (min 16 (s.num (a + 3) 1))).map (fun i => BitVec.ofNat 32 (s.num (a + 8 + 4 * i) 4)) }

def readCkpt (s : State) (a : Nat) : Ckpt :=
  let n := min 65535 (s.num (a + 64) 8)
  let st := directory s (a + 72) n (a + 64 + pad64Len (8 + 16 * n))
  let b := a + 64 + pad64Len (8 + 16 * n) + (st.map (fun x => x.2.1)).sum
  let nv := min 16 (s.num (b + 16) 4)
  let ns := min 4096 (s.num (b + 20) 4)
  let nr := min (2 ^ 16) (s.num (b + 24) 8)
  let v := b + 32
  let x := v + 4 * nv
  let r := x + 72 * ns
  let data := b + pad64Len (r + 16 * nr - b)
  { statics := st
    block := {
      step := s.num b 4, firstMb := s.num (b + 4) 4, descAddr := s.num (b + 8) 8
      versions := (List.range nv).map (fun i => (s.num (v + 4 * i) 2, s.num (v + 4 * i + 2) 2))
      slots := (List.range ns).map (fun i => readSlotSeal s (x + 72 * i)) }
    ranges := directory s r nr data }

/-- The slot that holds a valid checkpoint of a step. -/
def findCkpt (s : State) (job a size step : Nat) : Option Nat :=
  ((ckptHeaders s job a size).find? (fun h => bits h.2 0 32 == step)).map (·.1)

/-- Every range written back to its source address. -/
def State.writeBack (s : State) (c : Ckpt) : State :=
  (c.statics ++ c.ranges).foldl (fun s r => s.store r.1 (s.read r.2.2 r.2.1)) s

/-- Copies of a step that a durable restart undoes are no longer part of a half (R356, R368). -/
def Locket.dropOpen (l : Locket) : Locket :=
  let clear (h : Half) : Half := if h.sealed.isSome then h else {}
  { l with half0 := clear l.half0, half1 := clear l.half1, awaited := none }

/-- DURABLE at a module of the job, once its pipeline has stopped: the slot is read back, the block applied, RESTART pushed. -/
def State.restoreDurable (s : State) (jid : Nat) : State :=
  match s.job? jid with
  | none => s
  | some j =>
    match j.recov.restoring with
    | none => s
    | some d =>
      if decide (j.strand.pipe.st ≠ PipeState.idle) && !stopOver j then s
      else
        let l := j.locket
        let s := if j.strand.pipe.st = PipeState.idle then s else s.unbindAll jid
        let s := ((s.endRecovery jid).newSeal jid).updLocket jid Locket.dropOpen
        match findCkpt s jid (lCkpt l.desc) (lCkptSlot l.desc) d with
        | none => s
        | some a =>
          let c := readCkpt s a
          let s := (s.writeBack c).applyBlock jid l.descAddr c.block
          s.pushLocketList jid l.desc restartRef

/-- Entries of a route table that name a destination other than this module. -/
def tableKeys (s : State) (table : List (Nat × Nat × Bool)) : List Nat :=
  (table.filter (fun e => e.2.1 != 0 && e.1 % 256 != s.mod.id)).map (·.1)

/-- DURABLE at the spare: it reads the failed module's slot, admits the job and gives the lead its route table; RESTART is pushed when the
lead has patched every entry (R367 step 4, R368). -/
def spareDurable (t : TakeSt) (d : Nat) (s : State) : State :=
  match findCkpt s t.job t.info.ckpt t.info.ckptSlot d with
  | none => s
  | some a =>
    let c := readCkpt s a
    let s := s.writeBack c
    match admitRestored s t c.block with
    | none => s.send t.lead (.takeoverOffer (.admitted s.mod.id t.job false [] []))
    | some (s, table) =>
      let s := { s with mod := { s.mod with take := some { t with stage := .routing, keys := tableKeys s table } } }
      s.send t.lead (.takeoverOffer (.admitted s.mod.id t.job true table (linkMap s)))

/-- DURABLE d (R368). -/
def obeyDurable (src jid d : Nat) (s : State) : State :=
  match s.mod.take.filter (fun _ => (s.job? jid).isNone) with
  | some t => if t.job = jid ∧ t.lead = src then (spareDurable t d s).ackOrder src jid .durable true else s
  | none =>
    match orderOf s src jid with
    | none => s
    | some j =>
      let s := { s with mod := { s.mod with take := s.mod.take.filter (fun t => t.job != jid) } }
      let s := s.updRecov jid (fun r => { r with restoring := some d, quiesce := none, owing := none })
      let s := if j.strand.pipe.st = PipeState.idle ∨ j.strand.pipe.st = PipeState.stopping then s else s.stopBegin jid
      (s.restoreDurable jid).ackOrder src jid .durable true

def execDurable (src job step : Nat) (s : State) : Host.Outcome State Fault Refusal := done s (onLocket (obeyDurable src job step) s)

/-! ## The spare (R367) -/

/-- An offer: accepted in RUN with no admitted job, unless retired. -/
def takeOffered (lead job x buddy sealed : Nat) (info : SrcInfo) (s : State) : State :=
  let ok := decide (s.mod.st = MState.run) && !s.jobs.any Job.admitted && !s.mss.retired
  let s := if ok then
      { s with mod := { s.mod with take := some { lead := lead, job := job, failed := x, buddy := buddy, step := sealed, info := info } } }
    else s
  s.send lead (.takeoverOffer (.answer s.mod.id job ok))

namespace State

/-- The takeover of this module has failed at the spare: the lead hears of it. -/
def takeFails (s : State) (t : TakeSt) : State := s.send t.lead (.takeoverOffer (.admitted s.mod.id t.job false [] []))

/-- Everything is pulled: the state block is applied and the job admitted, and the lead gets the restored route table (R367 step 4). -/
def takeRestoredAll (s : State) (t : TakeSt) : State :=
  match t.block with
  | none => s
  | some b =>
    match admitRestored s t b with
    | none => s.takeFails t
    | some (s, table) =>
      let s := { s with mod := { s.mod with take := some { t with stage := .admitted, block := none } } }
      s.send t.lead (.takeoverOffer (.admitted s.mod.id t.job true table (linkMap s)))

end State

/-- Tandem entries of a Locket descriptor at an address. -/
def tandemsAt (s : State) (desc : Nat) : List Nat := let d := s.num desc 128; listOf s (lTandemList d) (lTandems d) 64

/-- What the spare pulled from the buddy is written at its source addresses; then each Tandem entry's tensor is pulled from the partner
(R367 step 3). -/
def takeRestored (job : Nat) (ranges : List (Nat × Bytes)) (b : StateBlockMsg) (bad : Bool) (s : State) : State :=
  match s.mod.take with
  | none => s
  | some t =>
    if t.job ≠ job ∨ t.stage ≠ .pulling then s
    else if bad then s.takeFails t
    else
      let s := ranges.foldl (fun s r => s.store r.1 r.2) s
      let es := if t.info.tandem then tandemsAt s t.info.desc else []
      let t := { t with stage := .tensors, block := some b, due := List.range es.length }
      let s := { s with mod := { s.mod with take := some t } }
      if es.isEmpty then s.takeRestoredAll t
      else ((List.range es.length).zip es).foldl (fun s p =>
        s.send t.info.partner (.takeoverOffer (.pullTensor s.mod.id job p.1 (tStage p.2) (tSlot0 p.2) (tPitch p.2) (tLen p.2)))) s

/-- A tensor pulled from the partner goes into version slot 0 (R367 step 3). -/
def takeTensor (job i : Nat) (bs : Bytes) (bad : Bool) (s : State) : State :=
  match s.mod.take with
  | none => s
  | some t =>
    if t.job ≠ job ∨ t.stage ≠ .tensors ∨ !t.due.contains i then s
    else if bad then s.takeFails t
    else
      let s := ((tandemsAt s t.info.desc)[i]?.map (fun e => s.store (tSlot0 e) bs)).getD s
      let t := { t with due := t.due.filter (· != i) }
      let s := { s with mod := { s.mod with take := some t } }
      if t.due.isEmpty then s.takeRestoredAll t else s

/-- The buddy serves the spare's pull: static ranges, ranges of the newest sealed half, and the feed mirror, each with its address on the
failed module (R356, R359, R367 step 3). -/
def servePull (src jid : Nat) (s : State) : State :=
  match s.job? jid with
  | none => s
  | some j =>
    let l := j.locket
    let i := 1 - openHalf j
    match (l.half i).sealed with
    | none => s
    | some b =>
      let feed := ((l.srcInfo.map (·.feeds)).getD []).map (fun f => (f.1, lHostAddr l.desc + 2 * lHalf l.desc, f.2))
      let rs := (l.srcStatics ++ (l.half i).ranges).map (fun r => (r.addr, State.halfAddr l i + r.off, r.len)) ++ feed
      let bad := rs.any (fun r => !(s.badUnits r.2.1 r.2.2).isEmpty)
      let (s, out) := rs.foldl (fun (acc : State × List (Nat × Bytes)) r =>
        let (bs, s) := acc.1.fetch jid r.2.1 r.2.2
        (s, acc.2 ++ [(r.1, bs)])) (s, [])
      s.send src (.takeoverOffer (.restored jid out b bad))

/-- The partner serves the pull of a tensor: its CURRENT version (R367 step 3). -/
def serveTensor (src jid i stage slot0 pitch len : Nat) (s : State) : State :=
  match (s.job? jid).bind (fun j => j.stage? stage) with
  | none => s
  | some t =>
    let a := slot0 + t.cur * pitch
    let bad := !(s.badUnits a len).isEmpty
    let (bs, s) := s.fetch jid a len
    s.send src (.takeoverOffer (.tensor jid i bs bad))

/-- The spare goes on: on the durable path it pushes RESTART once its route table is patched (R368); on the buddy path its check begins when
its pipeline runs with every edge open, and ends the takeover here (R367 steps 5 and 6). -/
def State.takeAdvance (s : State) : State :=
  match s.mod.take with
  | none => s
  | some t =>
    match s.job? t.job with
    | none => s
    | some j =>
      let finish (s : State) (ok : Bool) : State :=
        let s := { s with mod := { s.mod with take := none } }
        s.send t.lead (.takeoverOffer (.carried s.mod.id t.job ok))
      match t.stage with
      | .routing =>
        if t.keys.any (fun k => (j.route (k / 256) (j.alias? (k % 256))).isNone && (j.route (k / 256) (k % 256)).isNone) then s
        else
          let s := { s with mod := { s.mod with take := none } }
          (s.endRecovery t.job).pushLocketList t.job (s.num t.info.desc 128) restartRef
      | .started =>
        if decide (j.strand.pipe.st ≠ PipeState.running) || !j.locket.bound || j.strand.edges.any (fun e => decide (e.st ≠ EdgeState.opened)) then s
        else if j.locket.tandems.isEmpty then finish s true
        else
          let s := { s with mod := { s.mod with take := some { t with stage := .checking } } }
          let s := (s.updLocket t.job (fun l => { l with tandem := some { queue := ⟨engLocket, 0, 0⟩, entry := 0 } })).updRecov t.job
            (fun r => { r with checked := none })
          ((s.job? t.job).map (fun j => askFingerprint s j 0)).getD s
      | .checking =>
        match j.recov.checked with
        | some ok => finish s ok
        | none => s
      | _ => s

end Sys2Proof.Machine
end

