-- ==== Sys2Proof/Machine/Takeover.lean ====
section
/-! DEFINITION. The lead's part of a recovery: confirming failures (R351), replay, takeover and durable path (R365-R370), stragglers
(R369). -/
namespace Sys2Proof.Machine

/-- This module acts as the job's lead. -/
def actsFor (s : State) (j : Job) : Bool := s.leadNow j == some s.mod.id

/-- Modules of the job that have not failed; a spare that took a module's place is one of them once its ID is in the table (R367 step 2). -/
def survivors (s : State) (j : Job) : List Nat := (jobModules s j).filter (fun m => !j.recov.failed.contains m)

/-- Those, and every spare that stands in for a module. -/
def orderTargets (s : State) (j : Job) : List Nat :=
  (survivors s j ++ j.recov.spare.toList ++
    (j.aliases.map (·.2)).filter (fun m => !j.recov.failed.contains m && !j.aliases.any (fun a => a.1 == m))).eraseDups

/-- The quiescent reports of this recovery, then those kept of the rounds before it. -/
def allReports (j : Job) : List QuietMsg := j.recov.reports ++ j.recov.kept

/-- The present reports kept for what is still to come (R368, R370). -/
def Recov.keep (r : Recov) : Recov :=
  { r with reports := [], kept := r.reports ++ r.kept.filter (fun m => !r.reports.any (fun n => n.src == m.src)) }

/-- Failed modules that no alias replaces yet. -/
def unreplaced (j : Job) : List Nat := j.recov.failed.filter (fun x => !j.aliases.any (fun a => a.1 == x))

namespace State

/-- The job is halted: E_RES_SPARE is logged, no item is chosen any more (R351). -/
def haltJob (s : State) (jid : Nat) : State :=
  (s.log eSpare engLocket 0 jid).updRecov jid (fun r => { r with
    halted := true, phase := .idle, hold := false, since := none, reports := [], taking := none, spare := none, askedAt := none
    replays := [], taken := [], retiring := [], restarts := [] })

/-- The lead halts the job on every module of it (R351, R364). -/
def haltAll (s : State) (jid : Nat) : State :=
  match s.job? jid with
  | none => s
  | some j =>
    ((orderTargets s j).filter (· != s.mod.id)).foldl (fun s m => s.send m (.takeoverOffer (.halt s.mod.id jid))) (s.haltJob jid)

/-- A module that the job lost: confirmed failed, replaced, or a peer of the job that this module no longer reaches (R307, R351). -/
def lostTo (s : State) (j : Job) (m : Nat) : Bool :=
  j.recov.failed.contains m || j.aliases.any (fun a => a.1 == m) || (m != s.mod.id && j.hasModule m && !s.canReach m)

/-- A job whose lead and deputy are both lost is halted on every module (R351). -/
def haltIfHeadless (s : State) (jid : Nat) : State :=
  match s.job? jid with
  | none => s
  | some j => if !(s.lostTo j j.lead && s.lostTo j j.deputy) || j.recov.halted || !j.admitted then s else s.haltJob jid

end State

/-! ## Candidates and patches (R367 steps 1 and 2) -/

/-- The module that m's name stands for, where no alias of x itself is followed. -/
def nameBefore (j : Job) (x m : Nat) : Nat :=
  let k := { j with aliases := j.aliases.filter (fun a => a.1 != x) }
  k.alias? m

/-- The report of the module that hosts x's copy; a module that stands in for another is known to its host by the other's name (R364). -/
def hostReport (j : Job) (x : Nat) : Option (Nat × HostReport) :=
  (allReports j).findSome? (fun m => (m.host.filter (fun h => h.source == x || nameBefore j x h.source == x)).map (fun h => (m.src, h)))

/-- Ports of a module, by its link map, that lead to `dst`: its direct ports, else those to the first module that has a direct one, with
TRANSIT. -/
def portsTo (links : List (Nat × Nat)) (others : List QuietMsg) (dst : Nat) : BitVec 36 × Bool :=
  let mask (m : Nat) : BitVec 36 := (links.filter (fun l => l.2 == m)).foldl (fun b l => b ||| (1#36 <<< l.1)) 0
  if mask dst != 0 then (mask dst, false)
  else
    match others.find? (fun o => mask o.src != 0 && o.links.any (fun l => l.2 == dst)) with
    | some o => (mask o.src, true)
    | none => (0, false)

namespace State

/-- One route patch to a module, or applied here (R306). -/
def sendPatch (s : State) (jid m key : Nat) (e : BitVec 36 × Bool) : State :=
  match s.job? jid with
  | none => s
  | some j =>
    let ep := (j.recov.epoch + 1) % 2 ^ 16
    let pay := Machine.place 1 3 (key / 256) + Machine.place 8 8 key + Machine.place 16 16 ep + Machine.place 32 36 e.1.toNat +
      Machine.place 68 1 (boolNat e.2)
    let s := s.updRecov jid (fun r => { r with epoch := ep })
    if m = s.mod.id then applyPatch (mkFlit 0 m m (Machine.place 0 8 3 + Machine.place 8 16 jid + Machine.place 24 40 ep) pay) s
    else (s.sendVc0 m 3 jid ep pay).updRecov jid (fun r => { r with patches := r.patches ++ [(m, ep)] })

/-- The candidate of the present index is asked. A buddy is named on the buddy path only: no module has the number 256. -/
def offerTo (s : State) (jid : Nat) : State :=
  match s.job? jid with
  | none => s
  | some j =>
    match j.recov.taking, (lSpares j.locket.desc)[j.recov.cand]? with
    | some (x, r), some c =>
      let h := hostReport j x
      let info : SrcInfo := ((h.map (·.2.info)).getD { desc := 0, partner := 0, tandem := false, mirror := false, ckpt := 0, ckptSlot := 0 })
      let s := s.updRecov jid (fun y => { y with phase := .asking, askedAt := some s.now, spare := none })
      let buddy := if j.recov.durable.isSome then 256 else (h.map (·.1)).getD 256
      s.send c (.takeoverOffer (.offer s.mod.id jid x buddy r info))
    | _, _ => s.haltAll jid

/-- Durable checkpoints of a module: as it reported them, or, of one that failed, as its buddy did. -/
def ckptsOf (j : Job) (m : Nat) : List Nat :=
  match (allReports j).find? (fun q => q.src == m) with
  | some q => q.ckpts
  | none =>
    let x := ((j.aliases.find? (fun a => a.2 == m)).map (·.1)).getD m
    ((hostReport j x).map (fun h => h.2.ckpts)).getD []

/-- Newest step for which every module, the failed ones included, holds a durable checkpoint (R368). -/
def commonCkpt (s : State) (j : Job) : Option Nat :=
  let lists := (orderTargets s j ++ unreplaced j).map (ckptsOf j)
  match lists with
  | [] => none
  | l :: ls =>
    (l.filter (fun d => ls.all (fun k => k.contains d))).foldl (fun b d =>
      match b with
      | none => some d
      | some e => some (if newer 32 d e then d else e)) none

/-- RETIRE to the stragglers whose place has been taken (R369, R421). -/
def sendRetires (s : State) (jid : Nat) : State :=
  match s.job? jid with
  | none => s
  | some j =>
    (j.recov.retiring.foldl (fun s m => s.send m.1 (.retire s.mod.id jid m.2)) s).updRecov jid (fun r => { r with retiring := [] })

/-- DURABLE d to every module and the spares; the restart step in a PLDM event. -/
def sendDurable (s : State) (jid d : Nat) : State :=
  match s.job? jid with
  | none => s
  | some j =>
    let spares := (orderTargets s j).filter (fun m => !(allReports j).any (fun q => q.src == m))
    let s := (orderTargets s j).foldl (fun s m => s.send m (.durable s.mod.id jid d)) s
    (s.emit (.pldm 6 [((d + 1) % 2 ^ 32 : Nat)])).updRecov jid (fun r => { r.keep with
      phase := .idle, taking := none, spare := none, askedAt := none, durable := none, since := none, hold := false
      restarts := spares, taken := [], replays := [] })
    |>.sendRetires jid

/-- The durable path (R368). -/
def durablePath (s : State) (jid : Nat) : State :=
  match s.job? jid with
  | none => s
  | some j =>
    match s.commonCkpt j with
    | none => s.haltAll jid
    | some d =>
      match unreplaced j with
      | [] => s.sendDurable jid d
      | x :: _ => (s.updRecov jid (fun r => { r with durable := some d, taking := some (x, d), cand := 0 })).offerTo jid

/-- The next candidate, after a refusal or no answer; with none left the durable path, and there the job halts. -/
def nextCandidate (s : State) (jid : Nat) : State :=
  match s.job? jid with
  | none => s
  | some j =>
    if j.recov.cand + 1 < (lSpares j.locket.desc).length then (s.updRecov jid (fun r => { r with cand := r.cand + 1 })).offerTo jid
    else if j.recov.durable.isSome then s.haltAll jid
    else s.durablePath jid

/-! ## The paths (R365, R366) -/

/-- Takeovers that are complete are logged with x, the spare and r (R367 step 7). -/
def logTakeovers (s : State) (jid : Nat) : State :=
  match s.job? jid with
  | none => s
  | some j =>
    (j.recov.taken.foldl (fun s t =>
      s.logAt 0 engLocket 0 jid 3 (Machine.place 0 8 t.1 + Machine.place 8 8 t.2.1 + Machine.place 32 32 t.2.2)) s).updRecov jid
      (fun r => { r with taken := [] })

/-- The takeover in progress has been carried out everywhere. -/
def countTakeover (s : State) (j : Job) : State :=
  match j.recov.taking, j.recov.spare with
  | some (x, r), some m => s.updRecov j.id (fun y => { y with taken := y.taken ++ [(x, m, r)] })
  | _, _ => s

/-- REPLAY to every module; takeovers are logged when every REPLAY_STEP has completed (R365, R367 step 7). -/
def sendReplay (s : State) (jid step : Nat) : State :=
  match s.job? jid with
  | none => s
  | some j =>
    let ms := orderTargets s j
    let s := ms.foldl (fun s m => s.send m (.replayOrder s.mod.id jid step)) s
    (s.countTakeover j).updRecov jid (fun r => { r.keep with
      phase := .idle, taking := none, spare := none, askedAt := none, durable := none, since := none, hold := false, replays := ms })
    |>.sendRetires jid

/-- The conditions of the buddy path for x (R366): its newest sealed step. -/
def buddyStep (s : State) (j : Job) (x : Nat) : Option Nat :=
  match hostReport j x with
  | none => none
  | some (b, h) =>
    match h.sealed with
    | none => none
    | some r =>
      let p := j.strand.pipe
      if s.canReach b && j.recov.reports.all (fun m => m.step == (r + 1) % 2 ^ 32) && h.info.mirror && !p.overlap && p.normWait &&
          !j.recov.failed.contains b && (!h.info.tandem ||
            (s.canReach (nameBefore j x h.info.partner) && !j.recov.failed.contains (nameBefore j x h.info.partner))) then some r
      else none

/-- The takeover of the next failed module, by the buddy path where R366 allows it. -/
def startTakeover (s : State) (jid x : Nat) : State :=
  match s.job? jid with
  | none => s
  | some j =>
    match s.buddyStep j x with
    | some r => (s.updRecov jid (fun y => { y with taking := some (x, r), cand := 0, durable := none })).offerTo jid
    | none => s.durablePath jid

/-- Every survivor has reported: REPLAY after a HOLD, else a takeover (R365, R366). -/
def decidePath (s : State) (jid : Nat) : State :=
  match s.job? jid with
  | none => s
  | some j =>
    match unreplaced j with
    | x :: _ => s.startTakeover jid x
    | [] =>
      match j.recov.reports with
      | [] => s
      | m :: ms => if ms.all (fun n => n.step == m.step) then s.sendReplay jid m.step else s.durablePath jid

end State

/-! ## Confirming a failure (R351, R366) -/

namespace State

/-- RECOVER to every survivor; reports are awaited from now. -/
def sendRecover (s : State) (jid : Nat) : State :=
  match s.job? jid with
  | none => s
  | some j =>
    let s := s.updRecov jid (fun r => { r.keep with
      phase := .reports, since := some s.now, replays := [], taking := none, spare := none, askedAt := none, durable := none,
      cand := 0, patches := [], patchBad := false, repoint := [], hold := false })
    (survivors s j).foldl (fun s m => s.send m (.recover s.mod.id jid)) s

/-- A candidate of the takeover in progress: the one that took it over, or one asked before it that stands for no other module. -/
def isSpare (j : Job) (x : Nat) : Bool :=
  j.recov.taking.any (fun t =>
    j.recov.spare == some x || j.aliases.contains (t.1, x) ||
    (((lSpares j.locket.desc).take j.recov.cand).contains x && !j.aliases.any (fun a => a.2 == x)))

/-- Module x is confirmed failed: RECOVER to every other module, and a takeover in progress starts again with both; if x is the spare of
a takeover, the next candidate is asked (R366, R370). -/
def confirmFailed (s : State) (jid x : Nat) : State :=
  match s.job? jid with
  | none => s
  | some j =>
    if j.recov.failed.contains x || x == s.mod.id then s
    else
      let s := s.updRecov jid (fun r => { r with
        suspects := r.suspects.filter (fun p => p.1 != x), probes := r.probes.filter (fun p => p.1 != x) })
      if isSpare j x then (if j.recov.spare = some x then s.nextCandidate jid else s)
      else
        let s := s.updJob jid (fun k => { k with
          aliases := k.aliases.filter (fun a => !j.recov.taking.any (fun t => t.1 == a.1))
          routes := k.routes.filter (fun r => j.recov.spare != some (r.key % 256)) })
        (s.updRecov jid (fun r => { r with failed := r.failed ++ [x] })).sendRecover jid

end State

/-- Who takes a suspicion of x: the acting lead, or the deputy where x is the lead. -/
def hears (s : State) (j : Job) (x : Nat) : Bool := if x = j.lead then s.mod.id == j.deputy || actsFor s j else actsFor s j

/-- SUSPECT(x): confirmed by two modules, else probed (R351). -/
def takeSuspect (src jid x : Nat) (s : State) : State :=
  match s.job? jid with
  | none => s
  | some j =>
    if !hears s j x || j.recov.failed.contains x then s
    else
      let s := s.updRecov jid (fun r => if r.suspects.contains (x, src) then r else { r with suspects := r.suspects ++ [(x, src)] })
      let n := ((s.job? jid).map (fun j => countIf (fun p => p.1 == x) j.recov.suspects)).getD 0
      if 2 ≤ n then s.confirmFailed jid x
      else if j.recov.probes.any (fun p => p.1 == x) then s
      else (s.updRecov jid (fun r => { r with probes := r.probes ++ [(x, s.now)] })).emit (.probe x)

def execSuspect (src job x : Nat) (s : State) : Host.Outcome State Fault Refusal := done s (onLocket (takeSuspect src job x) s)

/-- A probe that went unanswered for 1 ms (R351). -/
def probeOver (jid x : Nat) (s : State) : State :=
  match s.job? jid with
  | none => s
  | some j =>
    if j.recov.probes.any (fun p => p.1 == x && decide (p.2 + 100000 ≤ s.now)) then s.confirmFailed jid x else s

def execProbeTimeout (job x : Nat) (s : State) : Host.Outcome State Fault Refusal := done s (onLocket (probeOver job x) s)

/-- A failure notice: the acting lead confirms its sender, any other Locket engine suspects it (R351). -/
def takeNoticeOf (src jid : Nat) (s : State) : State :=
  match s.job? jid with
  | none => s
  | some j => if hears s j src then s.confirmFailed jid src else s.sendSuspect jid src

def execFailureNotice (src job : Nat) (s : State) : Host.Outcome State Fault Refusal := done s (onLocket (takeNoticeOf src job) s)

/-- A straggler's report: E_TIME_STRAGGLER, recovery with the module as the failed one, and RETIRE once a spare has taken its place (R369,
R421). The deputy hears the lead's. -/
def takeStraggler (src jid step : Nat) (s : State) : State :=
  match s.job? jid with
  | none => s
  | some j =>
    if !hears s j src || !(survivors s j).contains src then s
    else
      ((s.log eStraggler engLocket 0 jid step).updRecov jid (fun r => { r with retiring := r.retiring ++ [(src, step)] })).confirmFailed jid src

def execStragglerReport (src job step : Nat) (s : State) : Host.Outcome State Fault Refusal := done s (onLocket (takeStraggler src job step) s)

/-- A quiescent report at the lead (R364, R365). -/
def takeQuiet (m : QuietMsg) (s : State) : State :=
  match s.job? m.job with
  | none => s
  | some j =>
    if !actsFor s j || !(survivors s j).contains m.src || j.recov.halted then s
    else
      let s := s.updRecov j.id (fun r => { r with
        reports := r.reports.filter (fun n => n.src != m.src) ++ [m], since := r.since.orElse (fun _ => some s.now)
        phase := if r.phase = .idle then .reports else r.phase })
      match s.job? j.id with
      | none => s
      | some j =>
        if j.recov.phase = .reports ∧ (survivors s j).all (fun x => j.recov.reports.any (fun n => n.src == x)) then s.decidePath j.id
        else s

def execQuiescentReport (m : QuietMsg) (s : State) : Host.Outcome State Fault Refusal := done s (onLocket (takeQuiet m) s)

/-- A module that has not reported within 1 s counts as failed (R364). -/
def quietOver (jid : Nat) (s : State) : State :=
  match s.job? jid with
  | none => s
  | some j =>
    if !actsFor s j || decide (j.recov.phase ≠ .reports) || !j.recov.since.any (fun t => decide (t + 100000000 ≤ s.now))
    then s
    else
      ((survivors s j).filter (fun x => !j.recov.reports.any (fun n => n.src == x))).foldl (fun s x => s.confirmFailed jid x) s

def execQuiescentTimeout (job : Nat) (s : State) : Host.Outcome State Fault Refusal := done s (onLocket (quietOver job) s)

/-! ## The takeover at the lead (R367) -/

/-- The candidate's answer: ALIAS to every module and the spare, and patches for the spare's ID to every module whose table names x, in the
classes in which it does; or the next candidate. -/
def takeAnswer (src jid : Nat) (ok : Bool) (s : State) : State :=
  match s.job? jid with
  | none => s
  | some j =>
    match j.recov.taking, (lSpares j.locket.desc)[j.recov.cand]? with
    | some (x, _), some c =>
      if j.recov.phase ≠ .asking ∨ c ≠ src then s
      else if !ok then s.nextCandidate jid
      else if 16 ≤ (j.aliases.filter (fun a => a.1 != x)).length then s.haltAll jid
      else
        let s := s.updRecov jid (fun r => { r with phase := .patching, spare := some src, askedAt := none, patches := [], patchBad := false })
        let ms := survivors s j
        let s := (ms ++ [src]).foldl (fun s m => s.send m (.aliasOrder s.mod.id jid x src)) s
        let rs := allReports j
        let named (m : Nat) : List Nat := if m = s.mod.id then (j.routes.filter (fun r => r.ports != 0)).map (·.key)
          else ((rs.find? (fun n => n.src == m)).map (·.named)).getD []
        ms.foldl (fun s m =>
          let links := ((rs.find? (fun n => n.src == m)).map (·.links)).getD []
          let e := portsTo links rs src
          ((List.range 5).filter (fun k => (named m).contains (k * 256 + x))).foldl (fun s k => s.sendPatch jid m (k * 256 + src) e) s) s
    | _, _ => s

/-- The spare has admitted the job, or could not: every entry of its route table is patched (R367 step 4), or the durable path; a spare of
the durable path that cannot leaves the job halted (DESIGN CHOICE, log 152). -/
def takeAdmitted (src jid : Nat) (ok : Bool) (routes : List (Nat × Nat × Bool)) (links : List (Nat × Nat)) (s : State) : State :=
  match s.job? jid with
  | none => s
  | some j =>
    let keys := (routes.filter (fun e => e.2.1 != 0 && e.1 % 256 != src)).map (·.1)
    let patch (s : State) : State := keys.foldl (fun s k => s.sendPatch jid src k (portsTo links (allReports j) (j.alias? (k % 256)))) s
    if j.recov.restarts.contains src then
      let s := s.updRecov jid (fun r => { r with restarts := r.restarts.filter (· != src) })
      if ok then patch s else s.haltAll jid
    else if j.recov.spare ≠ some src ∨ j.recov.phase ≠ .patching ∨ j.recov.durable.isSome then s
    else if !ok then s.durablePath jid
    else patch (s.updRecov jid (fun r => { r with phase := .routing }))

/-- REPOINT has been carried out at a module; after the last one, the next failed module's takeover, or REPLAY r + 1. A failed check
sends the lead to the durable path (R367 steps 5 to 7). -/
def takeCarried (src jid : Nat) (ok : Bool) (s : State) : State :=
  match s.job? jid with
  | none => s
  | some j =>
    if j.recov.phase ≠ .repointing ∨ !j.recov.repoint.contains src then s
    else if !ok then s.durablePath jid
    else
      let s := s.updRecov jid (fun r => { r with repoint := r.repoint.filter (· != src) })
      match s.job? jid with
      | none => s
      | some j =>
        if j.recov.repoint ≠ [] then s
        else
          match unreplaced j, j.recov.taking with
          | x :: _, _ => (s.countTakeover j).startTakeover jid x
          | [], some (_, r) => s.sendReplay jid ((r + 1) % 2 ^ 32)
          | [], none => s

/-- An order's acknowledgement at the lead: a refused ALIAS halts the job (R364); after the last REPLAY_STEP the takeovers are logged, and a
REPLAY_STEP that failed sends the lead to the durable path (R367 step 7; log 152). -/
def takeAck (src jid : Nat) (o : OrderKind) (ok : Bool) (s : State) : State :=
  match s.job? jid with
  | none => s
  | some j =>
    if !actsFor s j then s
    else match o with
      | .alias_ => if ok then s else s.haltAll jid
      | .replay =>
        if !j.recov.replays.contains src then s
        else if !ok then (s.updRecov jid (fun r => { r with replays := [], taken := [] })).durablePath jid
        else
          let rest := j.recov.replays.filter (· != src)
          let s := s.updRecov jid (fun r => { r with replays := rest })
          if rest.isEmpty then s.logTakeovers jid else s
      | .durable => s
      | .retire => s

/-- The lead has halted the job (R351). -/
def takeHalt (src jid : Nat) (s : State) : State :=
  match orderOf s src jid with
  | none => s
  | some j => if j.recov.halted then s else s.haltJob jid

/-- TAKEOVER_OFFER: the messages of a takeover, at the spare, at the modules that it pulls from and at the lead, and what else passes between
the lead and the modules of a recovery (R364, R367). -/
def takeTakeover (m : TakeoverMsg) (s : State) : State :=
  match m with
  | .offer lead job x buddy r info => takeOffered lead job x buddy r info s
  | .answer src job ok => takeAnswer src job ok s
  | .restored job ranges b bad => takeRestored job ranges b bad s
  | .admitted src job ok routes links => takeAdmitted src job ok routes links s
  | .carried src job ok => takeCarried src job ok s
  | .pull src job => servePull src job s
  | .pullTensor src job i stage slot0 pitch len => serveTensor src job i stage slot0 pitch len s
  | .tensor job i bytes bad => takeTensor job i bytes bad s
  | .ack src job o ok => takeAck src job o ok s
  | .halt src job => takeHalt src job s

def execTakeoverOffer (m : TakeoverMsg) (s : State) : Host.Outcome State Fault Refusal := done s (onLocket (takeTakeover m) s)

/-- No acceptance within 1 ms: the next candidate is asked (R367 step 1). -/
def acceptOver (jid : Nat) (s : State) : State :=
  match s.job? jid with
  | none => s
  | some j =>
    if j.recov.phase = .asking ∧ j.recov.askedAt.any (fun t => decide (t + 100000 ≤ s.now)) then s.nextCandidate jid else s

def execTakeoverAcceptTimeout (job : Nat) (s : State) : Host.Outcome State Fault Refusal := done s (onLocket (acceptOver job) s)

/-- What the acknowledgement of every patch lets the lead do: on the durable path the next failed module's spare, and then DURABLE; REPOINT on the buddy path; a patch that failed
sends it to the durable path, and there halts the job. -/
def State.leadAdvance (s : State) (jid : Nat) : State :=
  match s.job? jid with
  | none => s
  | some j =>
    if !j.recov.patches.isEmpty then s
    else match j.recov.phase with
      | .patching =>
        match j.recov.durable with
        | some d =>
          if j.recov.patchBad then s.haltAll jid
          else match unreplaced j with
            | x :: _ => (s.updRecov jid (fun r => { r with taking := some (x, d), cand := 0 })).offerTo jid
            | [] => s.sendDurable jid d
        | none => if j.recov.patchBad then s.durablePath jid else s
      | .routing =>
        if j.recov.patchBad then s.durablePath jid
        else
          let ms := orderTargets s j
          let s := ms.foldl (fun s m => s.send m (.repoint s.mod.id jid)) s
          s.updRecov jid (fun r => { r with phase := .repointing, repoint := ms })
      | _ => s

/-- What the Locket engine of a module in a recovery does on its own, in the order of the jobs (R364-R368); not while its die holds. -/
def State.recoveryTick (s : State) : State :=
  if dieHeld s 2 then s
  else (s.jobs.map (·.id)).foldl (fun s jid =>
    ((((((s.reportQuiet jid).reportRepoint jid).reportReplay jid).restoreDurable jid).leadAdvance jid).haltIfHeadless jid)) s.takeAdvance

end Sys2Proof.Machine
end

