-- ==== Sys2Proof/Machine/Flash.lean ====
section
/-! DEFINITION. The boot flash (R392): factory record (R393), images and banks (R394-R400), ledger (R402-R405), training cache (R406),
log (R407, R408), and what LOG_FLASH_WRITE does. -/
namespace Sys2Proof.Machine

/-! ## Layout (R392) -/

def bankSize : Nat := 0x2000000
def bankBase (bank : Bool) : Nat := if bank then 0x2100000 else 0x100000
def ledgerSize : Nat := 0x800000
def ledgerBase (bank : Nat) : Nat := 0x4100000 + bank * ledgerSize
def cacheSize : Nat := 0x400000
def cacheBase (half : Nat) : Nat := 0x5100000 + half * cacheSize
def logBase : Nat := 0x5900000
def logEntries : Nat := 262144
def sectorBytes : Nat := 0x10000

/-- An erased byte of flash. -/
def erasedByte : Byte := 0xFF

namespace State

def flashByte (s : State) (a : Nat) : Byte := sget erasedByte s.mss.flash a
def flashRead (s : State) (a n : Nat) : Bytes := (List.range n).map (fun i => s.flashByte (a + i))
def flashNum (s : State) (a n : Nat) : Nat := ofLe (s.flashRead a n)

/-- Bytes programmed from an address upwards. -/
def flashWrite (s : State) (a : Nat) (bs : Bytes) : State :=
  let l := s.mss.flash
  let new := ((List.range bs.length).zip bs).filterMap (fun p => if p.2 = erasedByte then none else some (a + p.1, p.2))
  { s with mss := { s.mss with
    flash := l.filter (fun c => decide (c.1 < a)) ++ new ++ l.filter (fun c => decide (a + bs.length ≤ c.1)) } }

/-- Every byte of [a, a+n) erased. -/
def flashErase (s : State) (a n : Nat) : State :=
  { s with mss := { s.mss with flash := s.mss.flash.filter (fun c => !(decide (a ≤ c.1) && decide (c.1 < a + n))) } }

/-! ## The factory record (R393). Its layout is the model's own: serial number at byte 0, variant at bit 64, key slots from byte 16, CRC at
byte 400. -/

def serial (s : State) : Nat := s.flashNum 0 8
def factoryVariant (s : State) : Bool := bitAt (s.flashNum 8 1) 0
def factoryKey (s : State) (slot : Nat) : Bytes := s.flashRead (16 + 96 * slot) 96
def factoryOk (s : State) : Bool := s.flashNum 400 4 == crc32c (s.flashRead 0 400)

/-- The key of a slot that is not empty. -/
def keyIn (s : State) (slot : Nat) : Option Bytes :=
  let k := s.factoryKey slot
  if k.all (· == 0) then none else some k

/-! ## Images (R394-R399) -/

def imgVersion (s : State) (b : Nat) : Nat := s.flashNum (b + 4) 2
def imgKey (s : State) (b : Nat) : Nat := bits (s.flashNum (b + 7) 1) 0 2
def imgLength (s : State) (b : Nat) : Nat := s.flashNum (b + 8) 4
def imgSections (s : State) (b : Nat) : Nat := bits (s.flashNum (b + 12) 1) 0 5

/-- An entry of the section directory: TYPE, reserved bits, OFFSET, SIZE, CRC. -/
def imgEntry (s : State) (b i : Nat) : Nat := s.flashNum (b + 64 + 16 * i) 16
def secType (e : Nat) : Nat := bits e 0 8
def secOffset (e : Nat) : Nat := bits e 32 32
def secSize (e : Nat) : Nat := bits e 64 32
def secCrc (e : Nat) : Nat := bits e 96 32
def imgEntries (s : State) (b : Nat) : List Nat := (List.range (s.imgSections b)).map (s.imgEntry b)

/-- The first section of a type. -/
def sec? (s : State) (b t : Nat) : Option Nat := (s.imgEntries b).find? (fun e => secType e == t)

/-- Bytes of a section as one number; 0 for a section that is absent. -/
def secNum (s : State) (b t : Nat) : Nat :=
  match s.sec? b t with
  | none => 0
  | some e => s.flashNum (b + secOffset e) (secSize e)

/-- Sizes of R395; a timetable's is its header's. -/
def secSizeOk (s : State) (b e : Nat) : Bool :=
  let n := secSize e
  match secType e with
  | 1 => n == 32
  | 2 => n == 40
  | 3 => n == 144
  | 4 => n == 4096
  | 5 => n == 16
  | 6 => n == 80
  | 7 => decide (64 ≤ n) && n == 64 + 16 * ttCount (s.flashNum (b + secOffset e) 64)
  | 8 => n == 16
  | 9 => decide (65536 ≤ n) && decide (n ≤ 1572864)
  | _ => false

/-- Check 1 of R400: the commit record. -/
def commitBase (b : Nat) : Nat := b + bankSize - 64
def commitSeq (s : State) (b : Nat) : Nat := s.flashNum (commitBase b + 4) 4
def commitOk (s : State) (b : Nat) : Bool :=
  let c := commitBase b
  s.flashNum c 4 == 0x54494D43 && s.flashNum (c + 12) 4 == crc32c (s.flashRead c 12) && s.flashNum (c + 8) 4 == s.imgLength b

/-- LENGTH reaches to the end of the last section, at the next multiple of 64 (R394; DEDUCED, log 157). -/
def lengthOk (s : State) (b : Nat) : Bool :=
  s.imgLength b == (((s.imgEntries b).map (fun e => secOffset e + secSize e)).foldl max 0 + 63) / 64 * 64

/-- Check 2: MAGIC, FORMAT, HDR_CRC, reserved fields, and the ranges of LENGTH and SECTIONS. -/
def headerOk (s : State) (b : Nat) : Bool :=
  let h := s.flashNum b 64
  let n := s.imgSections b
  bits h 0 32 == 0x52424245 && bits h 48 8 == 1 && bits h 58 6 == 0 && bits h 101 27 == 0 && bits h 160 352 == 0 &&
  decide (1 ≤ n) && decide (n ≤ 16) && s.lengthOk b && decide (s.imgLength b ≤ 0x1FFFF00) &&
  bits h 128 32 == crc32c (s.flashRead b 16 ++ s.flashRead (b + 64) (16 * n))

/-- Check 3: every section is listed, sized, placed apart from the others, the header and the directory, and has its CRC; each required
type is there, each at most once. -/
def sectionsOk (s : State) (b : Nat) : Bool :=
  let es := s.imgEntries b
  let n := es.length
  let apart (i : Nat) (e : Nat) : Bool :=
    decide (64 + 16 * n ≤ secOffset e) &&
    (es.take i).all (fun o => !overlaps (secOffset e) (secSize e) (secOffset o) (secSize o) && secType o != secType e)
  ((List.range n).zip es).all (fun p =>
    let e := p.2
    bits e 8 24 == 0 && s.secSizeOk b e && secOffset e % 64 == 0 && apart p.1 e &&
    secCrc e == crc32c (s.flashRead (b + secOffset e) (secSize e))) &&
  [1, 2, 3, 4, 5, 6, 8, 9].all (fun t => (s.sec? b t).isSome)

/-- Check 4: the signature over bytes 0 to LENGTH − 1 verifies under the image's key. -/
def imageSigned (s : State) (b : Nat) : Bool :=
  match s.keyIn (s.imgKey b) with
  | none => false
  | some k => Config.signatureOk k (s.flashRead b (s.imgLength b)) (s.flashRead (b + s.imgLength b) 96)

/-- Check 5: variant and position. -/
def identityOk (s : State) (b : Nat) : Bool :=
  let x := s.secNum b 1
  bitAt x 8 == s.factoryVariant && bits x 0 8 == s.mod.idPins

/-- The checks of R400 from `lo` to `hi` that a bank fails. -/
def failedChecks (s : State) (bank : Bool) (lo hi : Nat) : List Nat :=
  let b := bankBase bank
  ([(1, s.commitOk b), (2, s.headerOk b), (3, s.sectionsOk b), (4, s.imageSigned b), (5, s.identityOk b)].filter (fun c =>
    decide (lo ≤ c.1) && decide (c.1 ≤ hi) && !c.2)).map (·.1)

/-- The log entries of the checks that a bank fails (R400, R408). -/
def logChecks (s : State) (bank : Bool) (cs : List Nat) : State :=
  cs.foldl (fun s c =>
    s.log (if c = 4 then eSignature else eField) 7 (boolNat bank) 0 (Machine.place 0 1 (boolNat bank) + Machine.place 4 4 c)) s

/-- The bank chosen, with its log entries (R400). -/
def chooseBank (s : State) : Option Bool × State :=
  let f0 := s.failedChecks false 1 5
  let f1 := s.failedChecks true 1 5
  let t := (s.logChecks false f0).logChecks true f1
  match f0.isEmpty, f1.isEmpty with
  | true, true => (some (newer 32 (s.commitSeq (bankBase true)) (s.commitSeq (bankBase false))), t)
  | true, false => (some false, t)
  | false, true => (some true, t)
  | false, false => (none, t)

/-! ## The ledger (R402-R405) -/

/-- A record's frame and body, up to the next 16-byte boundary. -/
def recordBytes (seq kind : Nat) (body : Bytes) : Bytes :=
  let head := leBytes 8 (Machine.place 0 32 seq + Machine.place 32 8 kind + Machine.place 48 16 body.length)
  head ++ leBytes 8 (crc32c (head ++ body)) ++ body ++ List.replicate ((16 - body.length % 16) % 16) 0

/-- Bytes that a record takes. -/
def recordRoom (len : Nat) : Nat := 16 + (len + 15) / 16 * 16

/-- A record read at an address: SEQ, kind, body; none where its CRC fails. -/
def recordAt (s : State) (a : Nat) : Option (Nat × (Nat × Bytes)) :=
  let head := s.flashRead a 8
  let h := ofLe head
  let body := s.flashRead (a + 16) (bits h 48 16)
  if s.flashNum (a + 8) 4 = crc32c (head ++ body) then some (bits h 0 32, (bits h 32 8, body)) else none

/-- The object that a record concerns, with its kind: a BASE keeps the newest record of each (R403). -/
def recordKey (kind : Nat) (body : Bytes) : Nat :=
  let x := ofLe body
  let obj :=
    match kind with
    | 0x01 => bits x 0 8
    | 0x02 => bits x 0 13
    | 0x03 => bits x 0 6
    | 0x04 => bits x 0 3 + Machine.place 3 5 (bits x 8 5) + Machine.place 8 5 (bits x 16 5)
    | 0x05 => bits x 0 32
    | 0x06 => bits x 0 32
    | 0x07 => bits x 0 48
    | 0x08 => bits x 0 7
    | 0x09 => bits x 0 2 + Machine.place 2 5 (bits x 8 5)
    | 0x0B => bits x 0 24
    | _ => 0
  kind * 2 ^ 48 + obj

/-- The records in force once one more is appended. -/
def inForceWith (l : List (Nat × (Nat × Bytes))) (r : Nat × (Nat × Bytes)) : List (Nat × (Nat × Bytes)) :=
  l.filter (fun o => recordKey o.2.1 o.2.2 != recordKey r.2.1 r.2.2) ++ [r]

/-- The records that the body of a BASE carries. -/
def baseRecords : Nat → Bytes → List (Nat × (Nat × Bytes))
  | 0, _ => []
  | n + 1, bs =>
    if bs.length < 16 then []
    else
      let h := ofLe (bs.take 8)
      let len := bits h 48 16
      (bits h 0 32, (bits h 32 8, (bs.drop 16).take len)) :: baseRecords n (bs.drop (recordRoom len))

/-- The chain of a bank from an offset on: records, last SEQ, and the offset at which it ends (R405). -/
def chainFrom (s : State) (bank : Nat) : Nat → Nat → Nat → List (Nat × (Nat × Bytes)) → List (Nat × (Nat × Bytes)) × (Nat × Nat)
  | 0, off, seq, l => (l, (seq, off))
  | n + 1, off, seq, l =>
    if ledgerSize < off + 16 then (l, (seq, off))
    else match s.recordAt (ledgerBase bank + off) with
      | none => (l, (seq, off))
      | some r =>
        if r.1 = (seq + 1) % 2 ^ 32 then
          chainFrom s bank n (off + recordRoom r.2.2.length) r.1 (l ++ [r])
        else (l, (seq, off))

/-- A bank's chain: those of its BASE and the later records in order, its SEQ, its end; none where the bank is invalid. -/
def ledgerChain (s : State) (bank : Nat) : Option (List (Nat × (Nat × Bytes)) × (Nat × Nat)) :=
  match s.recordAt (ledgerBase bank) with
  | none => none
  | some r =>
    if r.2.1 ≠ 0 then none
    else some (s.chainFrom bank (ledgerSize / 16) (recordRoom r.2.2.length) r.1
      (baseRecords (r.2.2.length / 16) r.2.2))

/-- The ledger bank that the MSS uses, with its chain (R405). -/
def chooseLedger (s : State) : Option (Nat × (List (Nat × (Nat × Bytes)) × (Nat × Nat))) :=
  match s.ledgerChain 0, s.ledgerChain 1 with
  | none, none => none
  | some a, none => some (0, a)
  | none, some b => some (1, b)
  | some a, some b => if newer 32 b.2.1 a.2.1 then some (1, b) else some (0, a)

/-- A BASE of the records in force is written into the other bank, which is used from then on; the old one is erased (R404). -/
def compact (s : State) : State :=
  let other := 1 - s.mss.ledBank
  let body := (s.mss.force.map (fun r => recordBytes r.1 r.2.1 r.2.2)).flatten
  let seq := (s.mss.ledgerSeq + 1) % 2 ^ 32
  let old := s.mss.ledBank
  let s := s.flashWrite (ledgerBase other) (recordBytes seq 0 body)
  let s := { s with mss := { s.mss with ledBank := other, ledPos := recordRoom body.length, ledgerSeq := seq } }
  s.flashErase (ledgerBase old) ledgerSize

/-- A record appended to the bank in use, which is compacted first when less than 1 MiB of it is free (R404). -/
def append (s : State) (kind : Nat) (body : Bytes) : State :=
  let s := if ledgerSize < s.mss.ledPos + 0x100000 then s.compact else s
  let seq := (s.mss.ledgerSeq + 1) % 2 ^ 32
  let s := s.flashWrite (ledgerBase s.mss.ledBank + s.mss.ledPos) (recordBytes seq kind body)
  { s with mss := { s.mss with
    ledgerSeq := seq, ledPos := s.mss.ledPos + recordRoom body.length, force := inForceWith s.mss.force (seq, (kind, body)) } }

/-! ## The training cache (R406). What follows the frame is the model's own (log 160): serial number, ledger SEQ, date; a byte of trained
values for every memory channel, Clasp lane, Glint lane and Spoke lane; the count of margining results, and 12 bytes for each. -/

/-- A half: SEQ and body. -/
def cacheHalf? (s : State) (h : Nat) : Option (Nat × Bytes) :=
  match s.recordAt (cacheBase h) with
  | some r => if r.2.1 = 0 then some (r.1, r.2.2) else none
  | none => none

def cacheSerial (b : Bytes) : Nat := ofLe (b.take 8)
def cacheLedger (b : Bytes) : Nat := ofLe ((b.drop 8).take 4)
def cacheDate (b : Bytes) : Nat := ofLe ((b.drop 12).take 4)

/-- A half is kept: serial number, ledger SEQ and date (R406). -/
def cacheFits (s : State) (date : Nat) (b : Bytes) : Bool :=
  let last := (s.mss.force.filter (fun r => r.2.1 == 0x08 || r.2.1 == 0x03 || r.2.1 == 0x04)).map (·.1)
  cacheSerial b == s.serial && last.all (fun q => !newer 32 q (cacheLedger b)) && decide (date ≤ cacheDate b + 180 * 86400)

/-- The half in use: the newer of those that are whole and kept. -/
def chooseCache (s : State) (date : Nat) : Option Nat :=
  let fit (h : Nat) : Option Nat := ((s.cacheHalf? h).filter (fun x => s.cacheFits date x.2)).map (·.1)
  match fit 0, fit 1 with
  | none, none => none
  | some _, none => some 0
  | none, some _ => some 1
  | some a, some b => some (if newer 32 b a then 1 else 0)

/-- Channels and lanes with trained values: 128 channels, 4 × 32 Clasp lanes, 2 × 16 Glint lanes, 36 × 5 Spoke lanes. -/
def trainedCount : Nat := 128 + 4 * 32 + 2 * 16 + 36 * 5

def cacheTrained (b : Bytes) : Bytes := (b.drop 16).take trainedCount
def cacheRecs (b : Bytes) : List Nat :=
  let r := b.drop (16 + trainedCount)
  (List.range (ofLe (r.take 4))).map (fun i => ofLe ((r.drop (4 + 12 * i)).take 12))

/-- The cache written into the half that is not in use. New margining results, each with its kind, instance and item in its low 32 bits, take
the place of older ones; after a training in full the trained values, free values, are new, and no older result stays. -/
def writeCache (s : State) (full : Bool) (recs : List Nat) : State :=
  let half := 1 - s.mss.cacheHalf % 2
  let old := s.cacheHalf? (1 - half)
  let seq := ((old.map (·.1)).getD 0 + 1) % 2 ^ 32
  let (trained, s) := match if full then none else old with
    | some x => (cacheTrained x.2, s)
    | none => s.drawBytes trainedCount
  let kept := if full then [] else ((old.map (fun x => cacheRecs x.2)).getD []).filter (fun r => recs.all (fun x => x % 2 ^ 32 != r % 2 ^ 32))
  let rs := kept ++ recs
  let body := leBytes 8 s.serial ++ leBytes 4 s.mss.ledgerSeq ++ leBytes 4 (s.mss.date.at s.now) ++ trained ++ leBytes 4 rs.length ++
    (rs.map (leBytes 12)).flatten
  let body := body ++ List.replicate ((8 - body.length % 8) % 8) 0
  let s := (s.flashErase (cacheBase half) cacheSize).flashWrite (cacheBase half) (recordBytes seq 0 body)
  { s with mss := { s.mss with cacheHalf := half } }

/-! ## The log (R407) -/

/-- An entry of 64 bytes. -/
def entryBytes (index boot : Nat) (e : LogEntry) : Bytes :=
  let b := leBytes 60 (Machine.place 0 32 index + Machine.place 32 64 e.time + Machine.place 96 16 e.code + Machine.place 112 8 e.engine +
    Machine.place 120 8 e.inst + Machine.place 128 16 e.job + Machine.place 144 16 boot + Machine.place 160 8 e.event +
    Machine.place 168 312 e.detail)
  b ++ leBytes 4 (crc32c b)

/-- An entry of class 0x5 or higher sets IRQ_STATUS.LOG and is sent as a PLDM event, as is a STATE entry (R407, R411). -/
def announce (s : State) (index : Nat) (e : LogEntry) : State :=
  let s := if 0x5000 ≤ e.code then s.irq 6 else s
  if 0x5000 ≤ e.code ∨ e.event = 1 then
    s.emit (.pldm 0 [index, e.code, e.engine, e.inst, e.job, e.event, e.detail])
  else s

/-- An entry written at its place; at the start of a sector, the sector is erased first. -/
def writeEntry (s : State) (e : LogEntry) : State :=
  let i := s.mss.logIndex
  let a := logBase + 64 * (i % logEntries)
  let s := if a % sectorBytes = 0 then s.flashErase a sectorBytes else s
  let s := s.flashWrite a (entryBytes i s.mss.bootCount e)
  ({ s with mss := { s.mss with logIndex := (i + 1) % 2 ^ 32 } }).announce i e

/-- Entries of the log that flash holds: index and body, of those with a correct CRC. -/
def entryAt (s : State) (k : Nat) : Option (Nat × Nat) :=
  let b := s.flashRead (logBase + 64 * k) 60
  if s.flashNum (logBase + 64 * k + 60) 4 = crc32c b then some (bits (ofLe b) 0 32, ofLe b) else none

/-- Places of the log of which some byte is programmed. -/
def placesFrom : Option Nat → List (Nat × Byte) → List Nat
  | _, [] => []
  | last, c :: t =>
    let k := (c.1 - logBase) / 64
    if last = some k then placesFrom last t else k :: placesFrom (some k) t

def storedEntries (s : State) : List (Nat × Nat) :=
  (placesFrom none (s.mss.flash.filter (fun c => decide (logBase ≤ c.1) && decide (c.1 < logBase + 64 * logEntries)))).filterMap s.entryAt

/-- The log resumes after the highest INDEX (R407). -/
def resumeLog (s : State) : State :=
  match s.storedEntries with
  | [] => { s with mss := { s.mss with logIndex := 0 } }
  | l => { s with mss := { s.mss with logIndex := ((l.map (·.1)).foldl max 0 + 1) % 2 ^ 32 } }

/-- Newest date that the log's BOOT entries and the cache record (R412). -/
def storedDate (s : State) : Nat :=
  let inLog := (s.storedEntries.filter (fun e => bits e.2 160 8 == 2)).map (fun e => bits e.2 264 32)
  let inCache := [0, 1].filterMap (fun h => (s.cacheHalf? h).map (fun x => cacheDate x.2))
  (inLog ++ inCache).foldl max 0

end State

/-! ## LOG_FLASH_WRITE -/

/-- The oldest log entry that waits is written. -/
def flushLog (s : State) : State :=
  match s.mss.logQ with
  | e :: t => ({ s with mss := { s.mss with logQ := t } }).writeEntry e
  | [] => s

/-- The oldest ledger record that waits is appended, once the ledger has been read; else the oldest log entry is written. -/
def flushOne (s : State) : State :=
  if s.mod.st = MState.off then s
  else match s.mss.ledgerQ with
    | (kind, body) :: t =>
      if s.mss.ledPos = 0 then flushLog s else ({ s with mss := { s.mss with ledgerQ := t } }).append kind body
    | [] => flushLog s

/-- LOG_FLASH_WRITE (R404, R407). -/
def execLogFlashWrite (s : State) : Host.Outcome State Fault Refusal := done s (flushOne s)

end Sys2Proof.Machine
end

