-- ==== Sys2Proof/Machine/Memctl.lean ====
section
/-! DEFINITION. The memory controllers' own steps: retrain and hold queue (R178, R179), patrol (R176), write runs and refresh (R173),
row remap and page retirement (R180, R181), channel failure (R183-R185). -/
namespace Sys2Proof.Machine
namespace State

/-! ## Rows and pages -/

/-- First byte, in the pools laid out from a start address, of the stripe with channel-local index `n` on channel `c`: R167 backwards. -/
def stripeIn (tVar : Bool) (c n : Nat) : List Pool → Nat → Nat → Option Nat
  | [], _, _ => none
  | p :: ps, start, b =>
    let next := start + p.gib * 2 ^ 30
    let w := poolW tVar p
    if !(p.die.isNone || p.die == some (c / 32)) then stripeIn tVar c n ps next b
    else
      let len := p.gib * 2 ^ 19 / 2 ^ w
      if n < b + len then
        let hi := n - b
        let k := if p.die.isSome then c % 32 else if tVar then 16 * (c / 32) + c % 32 else c
        some (start + (hi * 2 ^ w + (k ^^^ foldXor w 64 hi)) * 2048)
      else stripeIn tVar c n ps next (b + len)

/-- Stripe of the channel where a moved stripe lay before, and that channel: R184 backwards, for a place in the stripe-spare region. -/
def movedFrom (s : State) (c m : Nat) : Option (Nat × Nat) :=
  let sl := spareSlice s.mod.tVar
  let i := (m - spareStripesAt) / sl
  (s.lp.moved[i]?).bind (fun f =>
    let left := s.channelIds.filter (fun x => !(s.lp.moved.take (i + 1)).contains x)
    ((List.range left.length).find? (fun k => left.getD k 0 == c)).map (fun k => (f, (m - spareStripesAt) % sl * left.length + k)))

/-- User address of the stripe that lies at stripe `m` of channel `c`: of its own user data, of a moved stripe in the stripe-spare region,
or of a row in whose place a spare row stands. -/
def stripeHome (s : State) : Nat → Nat → Nat → Option Nat
  | 0, _, _ => none
  | k + 1, c, m =>
    if m < userStripes then stripeIn s.mod.tVar c m s.lp.pools 0 0
    else if m < spareStripesAt then
      (s.lp.rows.find? (fun r => r.ch == c && r.spare == some (m - spareRowsAt))).bind (fun r => s.stripeHome k c (rowStripe r.bank r.row))
    else (s.movedFrom c m).bind (fun p => s.stripeHome k p.1 p.2)

/-- User address of the stripe in a row; none where no user data lie now. -/
def rowAddr (s : State) (c bank row : Nat) : Option Nat :=
  (s.stripeHome (s.lp.moved.length + 4) c (rowStripe bank row)).filter (fun a => s.channelNow (a / 64) == some c)

def rowDetail (s : State) (c bank row : Nat) : Nat :=
  Machine.place 0 7 c + Machine.place 8 4 bank + Machine.place 12 20 row +
    Machine.place 48 48 (((s.rowAddr c bank row).map s.poolOffset).getD 0)

/-- The page that holds a row is retired (R181): ledger, by its pool offset, and log; once released it is never granted again. -/
def retirePage (s : State) (c bank row : Nat) : State :=
  match s.rowAddr c bank row with
  | none => s
  | some a =>
    let pg := a / 0x200000 * 0x200000
    if s.lp.retired.contains pg then s
    else
      let s := (s.ledger 0x07 (leBytes 8 (s.poolOffset pg))).log eRetire 7 c 0 (s.rowDetail c bank row)
      { s with lp := { s.lp with retired := s.lp.retired ++ [pg] } }

/-- Rows of a channel's row-spare region: 32 MiB in rows of 2 KiB (R162). -/
def spareRows : Nat := 16384

/-- The lowest row of a channel's row-spare region that is free. -/
def freeSpare (s : State) (c : Nat) : Option Nat :=
  let used := (s.lp.rows.filter (fun r => r.ch == c)).filterMap (·.spare)
  (List.range (used.length + 1)).find? (fun i => decide (i < spareRows) && !used.contains i)

/-- The units of a row. -/
def rowUnits (s : State) (c bank row : Nat) : List Nat :=
  match s.rowAddr c bank row with
  | none => []
  | some a => rangeFrom (a / 64) 32

/-- The row failed with an uncorrectable unit: one that a read has found or that is known, else one of its 32, which one a free value. -/
def findBad (s : State) (c bank row : Nat) : State :=
  let us := s.rowUnits c bank row
  if us.isEmpty || s.lp.failing.contains (c, bank, row) || us.any (fun u => decide (s.markOf u = Mark.uncorr)) then s
  else
    let (v, s) := s.draw
    s.setMark (us.getD (v % 32) 0) .uncorr

/-- A failed row's record with one more failure. -/
def countRow (s : State) (c bank row : Nat) : FailedRow :=
  let old := s.lp.rows.find? (fun r => r.ch == c && r.bank == bank && r.row == row)
  { ch := c, bank := bank, row := row, count := min 3 ((old.map (·.count)).getD 0 + 1), spare := (old.map (·.spare)).getD none }

def putRow (s : State) (x : FailedRow) : State :=
  { s with lp := { s.lp with
    rows := s.lp.rows.filter (fun r => !(r.ch == x.ch && r.bank == x.bank && r.row == x.row)) ++ [x] } }

/-- A row's copy (R180, R187): its uncorrectable units are poison-marked in it, those with one symbol in error are corrected. -/
def copyRow (s : State) (c bank row : Nat) : State :=
  let us := s.rowUnits c bank row
  (us.filter (fun u => decide (s.markOf u = Mark.soft ∨ s.markOf u = Mark.hard))).foldl (fun s u => s.setMark u .clean)
    (s.poisonUnits (us.filter (fun u => decide (s.markOf u = Mark.uncorr))))

/-- The ledger's record of a row failure (R403). DESIGN CHOICE (log 121): a row that stays in place for want of a spare is recorded with
the spare number 0xFFFFF, so that its count lasts. -/
def ledgerRow (s : State) (x : FailedRow) : State :=
  s.ledger 0x05 (leBytes 16 (Machine.place 0 7 x.ch + Machine.place 8 4 x.bank + Machine.place 12 20 x.row +
    Machine.place 32 2 x.count + Machine.place 64 20 (x.spare.getD 0xFFFFF)))

/-- A failed row remapped, and its page retired at the third failure or when the region is full (R180). -/
def remapRow (s : State) (c bank row : Nat) (uncorr : Bool) : State :=
  let s := if uncorr then (s.findBad c bank row).log eUncorr 7 c 0 (s.rowDetail c bank row) else s
  let s := if uncorr then s.updChan c (fun x => { x with
      badRows := x.badRows.filter (fun r => r.1 != row * 16 + bank && decide (s.now ≤ r.2 + 100000000)) ++ [(row * 16 + bank, s.now)] })
    else s.countCe c
  let s := { s with lp := { s.lp with failing := s.lp.failing.filter (· != (c, bank, row)) } }
  let x := s.countRow c bank row
  match s.freeSpare c with
  | none => (((s.putRow x).ledgerRow x).log eSpare 7 c 0 (s.rowDetail c bank row)).retirePage c bank row
  | some k =>
    let x := { x with spare := some k }
    let s := ((s.copyRow c bank row).putRow x).ledgerRow x
    if 3 ≤ x.count then s.retirePage c bank row else s

/-! ## Channel failure (R183-R185) -/

/-- Rows in four distinct locations of the channel have failed with uncorrectable errors within 1 s (R183). -/
def rowsGone (s : State) (c : Nat) : Bool :=
  (s.chan? c).any (fun x => decide (4 ≤ (x.badRows.filter (fun r => decide (s.now ≤ r.2 + 100000000))).length))

/-- Channels that the stripe-spare regions can replace (R185). -/
def spareChannels (s : State) : Nat := if s.mod.tVar then 1 else 3

/-- A channel fails in service: its stripes, and those that it hosts, move and are poison-marked, and then its held requests are released
(R184). Beyond what the spare absorbs the module declares itself failed (R185). -/
def failChannel (s : State) (c : Nat) : State :=
  let s := { s with marks := s.marks.filter (fun m => !(s.hostsOf m.1).contains c) }
  let s := s.updChan c (fun x => { x with failed := true, held := false, hold := 0, refused := [], writes := 0 })
  let s := { s with lp := { s.lp with
    moved := s.lp.moved ++ [c], lost := s.lp.lost ++ [c], failing := s.lp.failing.filter (fun r => r.1 != c) } }
  let absorbed := decide (s.lp.moved.length ≤ s.spareChannels)
  let s := (s.issueHeld.log eChannel 7 c 0 (Machine.place 0 7 c)).ledger 0x08 (leBytes 8 (Machine.place 0 7 c))
  if absorbed then s else (s.log eSpare 7 c 0 (Machine.place 0 7 c)).failModule

end State

/-- A step of a channel that is in service. -/
def onChannel (c : Nat) (f : Channel → State → State) (s : State) : State :=
  match s.chan? c with
  | some x => if x.failed || !s.mod.mainOn then s else f x s
  | none => s

/-- ROW_REMAP waits for the channel's self-refresh exit (R187); the fourth row within 1 s fails the channel (R183). -/
def rowFails (ch bank row : Nat) (uncorr : Bool) (s : State) : State :=
  onChannel ch (fun x s =>
    if x.held || decide (16 ≤ bank) || decide (2 ^ 20 ≤ row) then s
    else
      let s := s.remapRow ch bank row uncorr
      if uncorr && s.rowsGone ch then s.failChannel ch else s) s

/-- ROW_REMAP (R180). -/
def execRowRemap (ch bank row : Nat) (uncorr : Bool) (s : State) : Host.Outcome State Fault Refusal :=
  done s (rowFails ch bank row uncorr s)

/-- CHANNEL_FAIL (R183, R184). -/
def execChannelFail (ch : Nat) (s : State) : Host.Outcome State Fault Refusal := done s (onChannel ch (fun _ s => s.failChannel ch) s)

/-- A channel is due for retrain (R178): 30 minutes, 10 K, or more than 1,000 correctable errors in one minute. -/
def retrainDue (s : State) (x : Channel) : Bool :=
  decide (x.lastTrain + 180000000000 ≤ s.now) || x.trainTemp.any (fun t => decide (t + 100 ≤ x.temp) || decide (x.temp + 100 ≤ t)) ||
  decide (1000 < (x.ceRecent.filter (fun t => decide (s.now < t + 6000000000))).length)

/-- A retrain starts: one channel at a time, 1 ms apart; issued reads return and queued writes drain (R178, R187). -/
def startRetrain (ch : Nat) (s : State) : State :=
  onChannel ch (fun x s =>
    if s.lp.channels.any (fun c => c.2.held) || !retrainDue s x || s.lp.lastStart.any (fun t => decide (s.now < t + 100000)) then s
    else
      let s := s.updChan ch (fun x => { x with held := true, writes := 0 })
      { s with lp := { s.lp with lastStart := some s.now } }) s

/-- CHANNEL_RETRAIN_START (R178). -/
def execChannelRetrainStart (ch : Nat) (s : State) : Host.Outcome State Fault Refusal := done s (startRetrain ch s)

/-- A channel as it is after a training: the counts towards the next one start anew (R178). DESIGN CHOICE (log 167): so also after a retrain that
did not converge. -/
def Channel.trained (x : Channel) (now nonConv : Nat) : Channel :=
  { x with
    held := false, hold := 0, nonConv := nonConv, lastTrain := now, trainTemp := x.trainTemp.map (fun _ => x.temp), ceRecent := [] }

/-- A retrain ends: held requests are issued in the order of age; a third non-convergence in a row fails the channel, and the held requests
then find its stripes moved (R178, R183, R184). -/
def endRetrain (ch : Nat) (converged : Bool) (s : State) : State :=
  onChannel ch (fun x s =>
    if !x.held then s
    else if converged then
      (s.updChan ch (fun x => x.trained s.now 0)).issueHeld
    else
      let s := (s.updChan ch (fun x => x.trained s.now (x.nonConv + 1))).logOpen ch 0 (place 0 7 ch)
      if 3 ≤ x.nonConv + 1 then s.failChannel ch else s.issueHeld) s

/-- CHANNEL_RETRAIN_END (R178). -/
def execChannelRetrainEnd (ch : Nat) (converged : Bool) (s : State) : Host.Outcome State Fault Refusal := done s (endRetrain ch converged s)

/-- Entries of a Mover's refused transactions moved into the hold queue while it has room. -/
def admitRefused (mover : Nat) : List (Nat × Nat) → Nat → Nat × List (Nat × Nat)
  | [], hold => (hold, [])
  | (m, n) :: t, hold =>
    if m = mover then
      let k := min n (512 - hold)
      let (h, r) := admitRefused mover t (hold + k)
      (h, if n = k then r else (m, n - k) :: r)
    else
      let (h, r) := admitRefused mover t hold
      (h, (m, n) :: r)

/-- HOLD_QUEUE_RETRY: a Mover retries what the channel's full hold queue refused; once the channel is in service the retried requests are
issued (R179). -/
def retryHold (ch mover : Nat) (s : State) : State :=
  (s.updChan ch (fun x =>
    if x.held then
      let (h, r) := admitRefused mover x.refused x.hold
      { x with hold := h, refused := r }
    else { x with refused := x.refused.filter (fun r => r.1 != mover) })).issueHeld

def execHoldQueueRetry (ch mover : Nat) (s : State) : Host.Outcome State Fault Refusal := done s (retryHold ch mover s)

/-- An error may arise in a unit at any time: one symbol that a write back mends or does not, or more than can be corrected (R163, R175). Where
and which a free value says (log 151); a unit that holds an error keeps it. -/
def State.decay (s : State) : State :=
  let (k, s) := s.draw
  let (v, s) := s.draw
  let u := v % (s.userEnd / 64)
  if !s.mod.mainOn || s.userEnd = 0 || decide (s.markOf u ≠ Mark.clean) || (s.wipedBy u).isSome then s
  else match k % 4 with
    | 1 => s.setMark u .soft
    | 2 => s.setMark u .hard
    | 3 => s.setMark u .uncorr
    | _ => s

/-- Units of a channel: 24 GiB (R162). -/
def channelUnits : Nat := 24 * 2 ^ 30 / 64

/-- Bank and row of a channel's unit `u`, and the user unit that lies there now (R162, R167, R184). -/
def patrolPlace (s : State) (ch u : Nat) : Nat × Nat × Option Nat :=
  let (bank, row) := State.stripeRow (u / 32)
  (bank, row, (s.rowAddr ch bank row).map (fun a => a / 64 + u % 32))

/-- What the patrol finds at a unit (R163, R175): nothing, a transient error that is corrected and written back, an error that is still
there after the write back, or an error that cannot be corrected; the last two fail the row. An error that the unit is known to hold is
found whatever the command says. -/
def patrolFinds (ch u : Nat) (found : PatrolFind) (s : State) : State :=
  let (bank, row, at_) := patrolPlace s ch u
  let due (s : State) : State :=
    if s.lp.failing.contains (ch, bank, row) then s
    else { s with lp := { s.lp with failing := s.lp.failing ++ [(ch, bank, row)] } }
  let mark := (at_.map s.markOf).getD .clean
  let put (m : Mark) (s : State) : State :=
    match at_ with
    | some a => s.setMark a m
    | none => s
  match mark, found with
  | .uncorr, _ => due s
  | .soft, .uncorrectable | .hard, .uncorrectable => due (put .uncorr s)
  | .soft, .persistent => due (put .hard (s.countCe ch))
  | .soft, _ => put .clean (s.countCe ch)
  | .hard, _ => due (s.countCe ch)
  | _, .clean => s
  | _, .corrected => s.countCe ch
  | _, .persistent => due (s.countCe ch)
  | .clean, .uncorrectable => due (put .uncorr s)
  | .poison, .uncorrectable => due s

/-- PATROL_READ: the next unit, unless the channel is in retrain (R176). -/
def patrol (ch : Nat) (found : PatrolFind) (s : State) : State :=
  onChannel ch (fun x s =>
    if x.held then s
    else (patrolFinds ch x.patrol found s).updChan ch (fun x => { x with patrol := (x.patrol + 1) % channelUnits })) s

def execPatrolRead (unit : PatrolUnit) (s : State) : Host.Outcome State Fault Refusal := done s (patrol unit.ch unit.found s)

/-- A command under way still reads on the channel. -/
def readQueued (s : State) (ch : Nat) : Bool :=
  s.jobs.any (fun j => j.queues.any (fun q => q.flight.any (fun f => f.reads.any (fun x => s.chanUnits ch x.1 x.2 != 0))))

/-- WRITE_RUN_DRAIN: the queued writes of a channel reach the array as one run, once 64 are queued, the oldest has waited 1 µs, or no read is
queued (R173). -/
def drainWrites (ch : Nat) (s : State) : State :=
  onChannel ch (fun x s =>
    if x.held || !(decide (64 ≤ x.writes) || decide (x.oldest + 100 ≤ s.now) || !readQueued s ch) then s
    else s.updChan ch (fun x => { x with writes := 0 })) s

def execWriteRunDrain (ch : Nat) (s : State) : Host.Outcome State Fault Refusal := done s (drainWrites ch s)

/-- REFRESH_RATE_CHECK: each package's temperature, in 0.1 °C, with the refresh rate it calls for (R173); the first reading after a training
stands for the temperature at the training (DESIGN CHOICE, log 121). -/
def checkRefresh (temps : List Int) (s : State) : State :=
  { s with lp := { s.lp with channels := s.lp.channels.map (fun (c : Nat × Channel) =>
      match temps[c.1 / 4]? with
      | none => c
      | some t => (c.1, { c.2 with temp := t, fast := decide (850 < t), trainTemp := some (c.2.trainTemp.getD t) })) } }

def execRefreshRateCheck (temps : List Int) (s : State) : Host.Outcome State Fault Refusal := done s (checkRefresh temps s)

end Sys2Proof.Machine
end

