-- ==== Sys2Proof/Machine/Mss.lean ====
section
/-! DEFINITION. The management subsystem (R390-R411, R424-R427): restart, image update, sensors, effecters, margining runs, MCTP. -/
namespace Sys2Proof.Machine

/-! ## Answers -/

namespace State

/-- A PLDM completion code. -/
def answer (s : State) (code : Int) : State := s.emit (.pldm 3 [code])

end State

/-- PLDM and DSP0267 completion codes. -/
def pldmOk : Int := 0x00
def pldmError : Int := 0x01
def pldmInvalidData : Int := 0x02
def pldmNotReady : Int := 0x04
def pldmInvalidSensor : Int := 0x80
def fwNotInUpdate : Int := 0x80
def fwInUpdate : Int := 0x81
def fwWrongState : Int := 0x84

/-- The test situation ends when neither a test run nor a PLDM request stands (R384). -/
def State.endTestHold (s : State) : State := if s.mss.margin.isSome || s.pwr.pedalReq then s else s.pedalEnd pedalOnTest

/-! ## Restart (R391) -/

/-- What a restart from ROM loses: log entries in SRAM, messages, the update and the test run in progress. -/
def State.restartMss (s : State) : State :=
  { s with
    bar := { s.bar with busy := false, outQueue := [] }
    mss := { s.mss with logQ := [], inbox := [], upd := .idle, updLen := 0, margin := none, eid := 0, bootCount := (s.mss.bootCount + 1) % 2 ^ 16 } }

/-- 24 hours in 10 ns units. -/
def dayUnits : Nat := 8640000000000

/-- The firmware comes again from the bank selected at the last boot, its CRCs and signature checked as at boot: what fails is logged, and
leaves no valid bank to run from (R400). Before a boot the MSS runs from ROM. -/
def State.reloadFw (s : State) : State :=
  if !s.mod.mainOn then s
  else match s.failedChecks s.mod.bank 1 4 with
    | [] => s
    | cs => (s.logChecks s.mod.bank cs).failModule

/-- The lockstep processors disagree: restart, firmware reloaded, log entry; a second time within 24 hours the module has failed. -/
def mssRestart (s : State) : State :=
  let again := s.mss.restart.any (fun t => decide (s.now < t + dayUnits))
  let s := (if s.mss.margin.isSome then s.restartMss.endTestHold else s.restartMss).logAt 0 7 0 0 5 0
  let s := { s with mss := { s.mss with restart := some s.now } }
  if again then s.failModule else s.reloadFw

/-- MSS_RESTART (R391). -/
def execMssRestart (s : State) : Host.Outcome State Fault Refusal := done s (onMss mssRestart s)

/-! ## Image update (R401) -/

def State.setUpd (s : State) (u : UpdStage) : State := { s with mss := { s.mss with upd := u } }

/-- The inactive bank. -/
def State.otherBank (s : State) : Bool := !s.mod.bank

/-- Identifier of the one component (R401). -/
def fwComponent : Nat := 0x0001

/-- RequestFirmwareData: the update agent is asked for the component from the first byte not yet written on. -/
def State.askFirmware (s : State) : State := s.emit (.pldm 5 [fwComponent, s.mss.updLen])

def requestUpdate (s : State) : State :=
  if s.mod.st = MState.boot then s.answer pldmNotReady
  else if s.mss.upd ≠ .idle then s.answer fwInUpdate
  else
    let s := s.flashErase (bankBase s.otherBank) bankSize
    (({ s with mss := { s.mss with upd := .writing, updLen := 0 } }).answer pldmOk).askFirmware

/-- REQUEST_UPDATE (R401 steps 1 and 2). -/
def execRequestUpdate (s : State) : Host.Outcome State Fault Refusal := done s (onMss requestUpdate s)

/-- A block of the component is written, and the next one asked for; the commit record is not part of it, nor what leaves out bytes before
it. -/
def firmwareData (off : Nat) (bs : Bytes) (s : State) : State :=
  if s.mss.upd ≠ .writing ∨ bankSize - 64 < off + bs.length ∨ s.mss.updLen < off then s
  else
    let s := s.flashWrite (bankBase s.otherBank + off) bs
    ({ s with mss := { s.mss with updLen := max s.mss.updLen (off + bs.length) } }).askFirmware

/-- FIRMWARE_DATA (R401 step 2). -/
def execFirmwareData (off : Nat) (bytes : Bytes) (s : State) : Host.Outcome State Fault Refusal :=
  done s (onMss (firmwareData off bytes) s)

/-- A report of the update's progress: step, and 0 for success. -/
def State.reportUpd (s : State) (step res : Int) : State := s.emit (.pldm 4 [step, res])

/-- The transfer is over: a success once every byte up to the end of the signature has been written, as read back. -/
def transferDone (s : State) : State :=
  if s.mss.upd ≠ .writing then s
  else if s.imgLength (bankBase s.otherBank) + 96 ≤ s.mss.updLen then (s.setUpd .written).reportUpd 2 0
  else (s.setUpd .idle).reportUpd 2 1

/-- TRANSFER_COMPLETE (R401 step 2). -/
def execTransferComplete (s : State) : Host.Outcome State Fault Refusal := done s (onMss transferDone s)

/-- Checks 2 to 5 on the written image; a failure ends the update. -/
def verifyImage (s : State) : State :=
  if s.mss.upd ≠ .written then s
  else match s.failedChecks s.otherBank 2 5 with
    | [] => (s.setUpd .verified).reportUpd 3 0
    | cs => ((s.logChecks s.otherBank cs).setUpd .idle).reportUpd 3 1

/-- VERIFY_COMPLETE (R401 step 3). -/
def execVerifyComplete (s : State) : Host.Outcome State Fault Refusal := done s (onMss verifyImage s)

/-- The commit record of a bank (R399). -/
def commitBytes (seq len : Nat) : Bytes :=
  let b := leBytes 12 (place 0 32 0x54494D43 + place 32 32 seq + place 64 32 len)
  b ++ leBytes 4 (crc32c b) ++ List.replicate 48 0

def applyImage (s : State) : State :=
  if s.mss.upd ≠ .verified then s
  else
    let b := bankBase s.otherBank
    let seq := (s.commitSeq (bankBase s.mod.bank) + 1) % 2 ^ 32
    ((s.flashWrite (State.commitBase b) (commitBytes seq (s.imgLength b))).setUpd .applied).reportUpd 4 0

/-- APPLY_COMPLETE (R401 step 4). -/
def execApplyComplete (s : State) : Host.Outcome State Fault Refusal := done s (onMss applyImage s)

def activateImage (s : State) : State :=
  match s.mss.upd with
  | .applied => ((s.setUpd .idle).logAt 0 7 0 0 4 0).answer pldmOk
  | .idle => s.answer fwNotInUpdate
  | _ => s.answer fwWrongState

/-- ACTIVATE_FIRMWARE (R401 step 5): the new image takes effect at the next reset. -/
def execActivateFirmware (s : State) : Host.Outcome State Fault Refusal := done s (onMss activateImage s)

/-! ## Sensors (R409) -/

/-- A value of a listed sensor: what the state gives, or none where only the part itself knows. -/
def sensorValue (s : State) (id : Nat) : Option (Option Int) :=
  let kept : Option Int := (s.mss.sensors.find? (fun x => x.1 == id)).map (·.2)
  let nat (n : Nat) : Option (Option Int) := some (some n)
  if 1 ≤ id ∧ id ≤ 0x120 then some kept
  else if 0x201 ≤ id ∧ id ≤ 0x204 then some ((s.dies[id - 0x201]?).map (fun d => (d.mv : Int)))
  else if 0x205 ≤ id ∧ id ≤ 0x208 then some ((s.dies[id - 0x205]?).map (fun d => ((d.cad / 1000 : Nat) : Int)))
  else if id = 0x209 then nat (s.cadence / 1000)
  else if id = 0x20A then nat s.pwr.occ
  else if id = 0x220 then nat s.mod.inputMv
  else if id = 0x222 then nat s.pwr.power
  else if (0x210 ≤ id ∧ id ≤ 0x212) ∨ id = 0x221 ∨ (0x230 ≤ id ∧ id ≤ 0x235) then some kept
  else if 0x300 ≤ id ∧ id ≤ 0x37F then
    some (((s.parts.wear.find? (fun w => w.1 == id - 0x300)).bind (fun w => w.2.head?)).map Int.ofNat)
  else if 0x400 ≤ id ∧ id ≤ 0x4FF then nat (sget 0 s.tiles.events (id - 0x400)).toNat
  else if 0x500 ≤ id ∧ id ≤ 0x57F then some ((s.chan? (id - 0x500)).map (fun c => (c.ceCount : Int)))
  else if 0x600 ≤ id ∧ id ≤ 0x6B3 then
    some (((s.port ((id - 0x600) / 5)).ber.find? (fun b => b.1 == (id - 0x600) % 5)).map (·.2))
  else if 0x700 ≤ id ∧ id ≤ 0x703 then nat (s.pwr.energy.getD (id - 0x700) 0 / 1000000)
  else if 0x800 ≤ id ∧ id ≤ 0x83F then
    let r := ((s.sched.records.find? (fun r => r.1 == (id - 0x800) / 2)).map (·.2)).getD (0, 0)
    nat (if id % 2 = 0 then r.1 / 100 else r.2)
  else none

/-- A reading; a peak acceleration starts again once it is read. -/
def readSensor (id : Nat) (s : State) : State :=
  match sensorValue s id with
  | none => s.answer pldmInvalidSensor
  | some v =>
    let (w, t) := s.draw
    let (v, s) := match v with
      | some v => (v, s)
      | none => ((w : Int), t)
    let s := if 0x233 ≤ id ∧ id ≤ 0x235 then
        { s with mss := { s.mss with sensors := s.mss.sensors.filter (fun x => x.1 != id) } }
      else s
    s.emit (.pldm 2 [id, v])

/-- SENSOR_READ (R409). -/
def execSensorRead (id : Nat) (s : State) : Host.Outcome State Fault Refusal := done s (onMss (readSensor id) s)

/-! ## Effecters (R410) -/

/-- A write that the MSS refuses: its answer, its log entry, LAST_ERROR (R71, R410). -/
def State.refuseWrite (s : State) (answer : Int) (code : Nat) : State := ((s.answer answer).log code 7 0 0).refuse code

def State.outOfRange (s : State) : State := s.refuseWrite pldmInvalidData eField

/-- The cap, unless a gear's budget would fall below 1,200 W (R374). -/
def writeCap (v : Nat) (s : State) : State :=
  if v < 1200 ∨ 2400 < v ∨ v % 10 ≠ 0 then s.outOfRange
  else if gearOverCap s.pwr.table v then s.refuseWrite pldmError eCap
  else ({ s with pwr := { s.pwr with cap := v } }).answer pldmOk

/-- EFFECTER_POWER_CAP (R374). -/
def execEffecterPowerCap (v : Nat) (s : State) : Host.Outcome State Fault Refusal := done s (onMss (writeCap v) s)

def writeStandby (v : Nat) (s : State) : State :=
  if 1 < v then s.outOfRange else ({ s with pwr := { s.pwr with standbyEn := v == 1 } }).answer pldmOk

/-- EFFECTER_STANDBY_ENABLE (R388). -/
def execEffecterStandbyEnable (v : Nat) (s : State) : Host.Outcome State Fault Refusal := done s (onMss (writeStandby v) s)

def writePedal (v : Nat) (s : State) : State :=
  if 1 < v then s.outOfRange
  else
    let on := v == 1
    let begins := on && !s.pwr.pedalReq && s.mss.margin.isNone
    let s := { s with pwr := { s.pwr with pedalReq := on } }
    let s := if begins then s.pedalStart pedalOnTest (s.running.getD 0) else s.endTestHold
    s.answer pldmOk

/-- EFFECTER_PEDAL (R384). -/
def execEffecterPedal (v : Nat) (s : State) : Host.Outcome State Fault Refusal := done s (onMss (writePedal v) s)

def writeDate (v : Nat) (s : State) : State :=
  if 2 ^ 32 ≤ v then s.outOfRange
  else
    ({ s with mss := { s.mss with date := { date := v, setAt := some s.fabric, since := s.now, held := true } } }).answer pldmOk

/-- EFFECTER_DATE (R412). -/
def execEffecterDate (v : Nat) (s : State) : Host.Outcome State Fault Refusal := done s (onMss (writeDate v) s)

/-! ## Margining (R188, R308, R424-R427) -/

def mgTarget (v : Nat) : Nat := bits v 0 2
def mgStress (v : Nat) : Bool := bitAt v 2
def mgInst (v : Nat) : Nat := bits v 8 8

/-- The value breaks the map of R424. -/
def marginBad (v : Nat) : Bool :=
  let t := mgTarget v
  let i := mgInst v
  let top := if t = 0 then 128 else if t = 1 then 6 else 36
  t == 3 || bits v 3 5 != 0 || bits v 16 16 != 0 || (mgStress v && t != 2) || (i != 0xFF && decide (top ≤ i))

/-- Ports that a Spoke run measures. -/
def marginPorts (s : State) (i : Nat) : List Nat :=
  if i = 0xFF then (List.range 36).filter (fun n => decide ((s.port n).st = PortState.up)) else [i]

/-- The port carries no job's traffic and no transit (R308). -/
def portQuiet (s : State) (n : Nat) : Bool :=
  unrouted s n && (s.port n).txq.isEmpty && (s.port n).replay.isEmpty && (s.port n).rx.isEmpty

/-- The state rule of a target (R424). -/
def marginFits (s : State) (v : Nat) : Bool :=
  let st := s.mod.st
  s.mss.margin.isNone &&
  match mgTarget v with
  | 0 => (decide (st = MState.boot) || decide (st = MState.ready)) && s.jobs.isEmpty
  | 1 => decide (st = MState.ready) && !s.jobs.any Job.admitted
  | _ =>
    let ps := marginPorts s (mgInst v)
    !ps.isEmpty && ps.all (fun n => decide ((s.port n).st = PortState.up) && (!mgStress v || portQuiet s n))

/-- Every unit of a set of channels is written with zeros, in the place where it lies now: poison marks of channels that failed before go, also
of one that failed in this very run (R188, R425, R431). -/
def State.zeroChannels (s : State) (cs : List Nat) : State :=
  let hit (u : Nat) : Bool := (s.hostsOf u).any cs.contains
  { s with
    mem := s.mem.filter (fun c => !(decide (c.1 < s.userEnd) && hit (c.1 / 64)))
    marks := s.marks.filter (fun m => !hit m.1)
    lp := { s.lp with
      wiped := s.lp.wiped.filter (fun w => !cs.contains w.1), renewed := s.lp.renewed ++ cs.map (fun c => (c, s.lp.lost.length)) } }

/-- A margining run destroys the contents of the channels under test, poison marks included (R188): until they are written their bytes are
free values. -/
def State.wipeChannels (s : State) (cs : List Nat) : State :=
  let s := s.zeroChannels cs
  { s with
    free := s.free + 1
    lp := { s.lp with
      wiped := s.lp.wiped ++ cs.map (fun c => (c, s.free))
      failing := s.lp.failing.filter (fun r => !cs.contains r.1) } }

/-- Channels of a memory run. -/
def State.marginChannels (s : State) (i : Nat) : List Nat := if i = 0xFF then s.channelIds else [i]

/-- A write of the margining effecter. -/
def startMargin (v : Nat) (s : State) : State :=
  if marginBad v then s.outOfRange
  else if !marginFits s v then s.refuseWrite pldmError eState
  else
    let begins := !s.pwr.pedalReq
    let s := { s with mss := { s.mss with margin := some { target := mgTarget v, inst := mgInst v, stress := mgStress v } } }
    let s := if mgTarget v = 0 then s.wipeChannels (s.marginChannels (mgInst v)) else s
    let s := if begins then s.pedalStart pedalOnTest (s.running.getD 0) else s
    let s := if mgStress v then
        (marginPorts s (mgInst v)).foldl (fun s n => s.send (s.port n).peerMod (.stressRequest s.mod.id (s.port n).peerPort)) s
      else s
    s.answer pldmOk

/-- MARGIN_MEMORY (R188, R425). -/
def execMarginMemory (v : Word32) (s : State) : Host.Outcome State Fault Refusal := done s (onMss (startMargin v.toNat) s)
/-- MARGIN_DIE_LINKS (R426). -/
def execMarginDieLinks (v : Word32) (s : State) : Host.Outcome State Fault Refusal := done s (onMss (startMargin v.toNat) s)
/-- MARGIN_SPOKE (R308, R427). -/
def execMarginSpoke (v : Word32) (s : State) : Host.Outcome State Fault Refusal := done s (onMss (startMargin v.toNat) s)

/-- The far end of a port asks for a transmit stress run: taken while the port carries no job's traffic and no transit (R308). -/
def stressAsked (src n : Nat) (s : State) : State :=
  if decide ((s.port n).st = PortState.up) && (s.port n).peerMod == src && decide (n < 36) && portQuiet s n then
    (s.updPort n (fun p => { p with stress := true })).answer pldmOk
  else (s.log eState 7 n 0).answer pldmError

/-- STRESS_REQUEST (R308). -/
def execStressRequest (src port : Nat) (s : State) : Host.Outcome State Fault Refusal := done s (onMss (stressAsked src port) s)

/-- RESULT of a measurement: 0 pass, 1 in service and logged, 2 failed (R188, R308, R426). Eyes in 1/64 UI and mV, BER as log10 × 100,
the optical margin in 0.1 dB. -/
def marginResult (r : MarginRec) : Nat :=
  let grade (pass stay : Bool) : Nat := if pass then 0 else if stay then 1 else 2
  let eye (ui mv : Nat) : Bool := decide (64 * ui ≤ 100 * r.eyeT) && decide (mv ≤ r.eyeV)
  match r.kind with
  | 0 => grade (eye 30 40) (eye 15 20)
  | 1 => grade (eye 35 60) (eye 20 30)
  | 2 => grade (decide (30 ≤ r.eyeV)) (decide (15 ≤ r.eyeV))
  | _ => grade (decide (r.ber ≤ -800) && eye 10 10) (decide (r.ber ≤ -600) && eye 6 6)

/-- A record of MARGIN_REPORT (R424). -/
def marginRecord (r : MarginRec) : Nat :=
  place 0 8 r.kind + place 8 8 r.unit + place 16 16 r.item + place 32 8 (marginResult r) + place 48 16 r.eyeT + place 64 16 r.eyeV +
  (if r.kind = 3 then place 80 16 (toField 16 r.ber) else 0)

/-- What the training cache keeps of a result: the same with its written-zero fields left out, 12 bytes. -/
def cacheResult (r : MarginRec) : Nat :=
  let x := marginRecord r
  bits x 0 40 + place 40 16 (bits x 48 16) + place 56 16 (bits x 64 16) + place 72 16 (bits x 80 16)

/-- The lanes of a die link have each left the mask and come back, two width changes for each (R319, R426; DEDUCED, log 158). -/
def State.cycleLanes (s : State) (l : Nat) : State :=
  let go (e : LinkEnd) : LinkEnd := { e with width := e.width.map (fun w => ((w.1 + 2 * linkLanes l) % 2 ^ 16, w.2)) }
  if (s.link l).out then s else s.updLink l (fun k => { k with near := go k.near, far := go k.far })

/-- Die links of a run. -/
def marginLinks (i : Nat) : List Nat := if i = 0xFF then List.range 6 else [i]

/-- What a measurement leads to: a channel fails, a wire or waveguide is replaced, a lane is substituted; one that stays is logged. -/
def actOnMargin (s : State) (r : MarginRec) : State :=
  match marginResult r with
  | 0 => s
  | 1 => s.logOpen r.unit 0 (place 0 8 r.unit + place 8 16 r.item)
  | _ =>
    match r.kind with
    | 0 => onChannel r.unit (fun _ s => s.failChannel r.unit) s
    | 1 =>
      if r.item % 34 < 32 then onLink r.unit (fun s => s.failWire r.unit false (r.item / 34) (r.item % 34)) s
      else s.log eLane 7 r.unit 0 (place 0 8 r.unit + place 8 8 (r.item / 34))
    | 2 =>
      if r.item < 16 then onLink r.unit (fun s => s.failWire r.unit false r.item 0) s
      else s.log eLane 7 r.unit 0 (place 0 8 r.unit + place 8 8 r.item)
    | _ => if r.item < 5 then s.laneFails r.unit r.item else s

/-- MCTP message types (R411). -/
def mctpControl : Nat := 0x00
def mctpPldm : Nat := 0x01
def mctpVendor : Nat := 0x7E

/-- Kinds of record that a target has. -/
def kindsOf (target : Nat) : List Nat := if target = 0 then [0] else if target = 1 then [1, 2] else [3]

/-- The run ends: what it found, memory written with zeros, log entry, training cache, report to the requester. -/
def marginDone (recs : List MarginRec) (refused : List Nat) (s : State) : State :=
  match s.mss.margin with
  | none => s
  | some m =>
    let rs := recs.filter (fun r => (kindsOf m.target).contains r.kind)
    let s := if m.target = 1 then (marginLinks m.inst).foldl State.cycleLanes s else s
    let s := rs.foldl actOnMargin s
    let s := if m.stress then refused.foldl (fun s n => s.log eState 7 n 0) s else s
    let s := if m.target = 0 then s.zeroChannels (s.marginChannels m.inst) else s
    let s := (s.logAt 0 7 0 0 6 0).writeCache false (rs.map cacheResult)
    let s := s.emit (.mctp (BitVec.ofNat 8 mctpVendor :: rs.flatMap (fun r => leBytes 16 (marginRecord r))))
    ({ s with mss := { s.mss with margin := none } }).endTestHold

/-- MARGIN_RUN_COMPLETE (R424-R427). -/
def execMarginRunComplete (recs : List MarginRec) (refused : List Nat) (s : State) : Host.Outcome State Fault Refusal :=
  done s (onMss (withLoss (marginDone recs refused)) s)

/-! ## MCTP (R411) -/

/-- The component that the module offers: identifier, and the decimal VERSION as its version string (R401). -/
def fwOffer (s : State) : Bytes :=
  leBytes 2 fwComponent ++ (toString s.mod.version).toList.map (fun c => BitVec.ofNat 8 c.toNat)

/-- A message over I3C or PCIe VDM: its type, and for a control message the command in the low byte and its operand in the next, for PLDM the
PLDM type. Type 5 is answered with the component offered. -/
def mctpMessage (kind v : Nat) (s : State) : State :=
  let say (code : Nat) : State := s.emit (.mctp [BitVec.ofNat 8 kind, BitVec.ofNat 8 v, BitVec.ofNat 8 code])
  if kind = mctpControl then
    let arg := bits v 8 8
    if bits v 0 8 = 1 then
      if arg = 0 ∨ arg = 0xFF then say 0x02
      else ({ s with mss := { s.mss with eid := arg } }).emit (.mctp [0, 1, 0, BitVec.ofNat 8 arg])
    else if bits v 0 8 = 2 then s.emit (.mctp [0, 2, 0, BitVec.ofNat 8 s.mss.eid])
    else say 0x05
  else if kind = mctpPldm then
    if v = 5 then s.emit (.mctp ([1, 5, 0] ++ fwOffer s)) else say (if v = 0 ∨ v = 2 then 0x00 else 0x20)
  else if kind = mctpVendor then s
  else say 0x05

/-- MCTP_ENDPOINT_MESSAGE (R411). -/
def execMctpEndpointMessage (kind v : Nat) (s : State) : Host.Outcome State Fault Refusal := done s (onMss (mctpMessage kind v) s)

end Sys2Proof.Machine
end

