-- ==== Sys2Proof/Machine/Boot.lean ====
section
/-! DEFINITION. The power-on sequence (R415): tables of the image (R166, R297, R301, R377, R396-R398, R334), ledger (R405, R348), tiles
(R10), memory (R182, R183, R431), links, ports, host port, READY, and the entry into RUN (R414, R420). -/
namespace Sys2Proof.Machine

/-! ## Content rules of the tables -/

def plKind (e : Nat) : Nat := bits e 0 2
def plDie (e : Nat) : Nat := bits e 2 2
def plGib (e : Nat) : Nat := bits e 16 12

def poolEntries (x : Nat) : List Nat := (List.range 5).map (fun i => bits x (64 * i) 64)

/-- GiB per die that V of R166 allows. -/
def poolBound (tVar : Bool) : Nat := if tVar then 372 else 744

/-- R166. -/
def poolsOk (tVar : Bool) (x : Nat) : Bool :=
  let es := poolEntries x
  let used := es.filter (fun e => plKind e != 0)
  let module_ := used.filter (fun e => plKind e == 1)
  let of (d : Nat) : List Nat := used.filter (fun e => plKind e == 2 && plDie e == d)
  let gib (l : List Nat) : Nat := (l.map plGib).sum
  es == used ++ List.replicate (5 - used.length) 0 &&
  used.all (fun e => plKind e != 3 && bits e 4 12 == 0 && bits e 28 36 == 0 && decide (1 ≤ plGib e) && decide (plGib e ≤ 2976) &&
    (plKind e == 2 || plDie e == 0)) &&
  decide (module_.length ≤ 1) &&
  (List.range 4).all (fun d => decide ((of d).length ≤ 1) && decide (gib module_ + 4 * gib (of d) ≤ 4 * poolBound tVar))

def lmPeer (e : Nat) : Nat := bits e 0 8
def lmPort (e : Nat) : Nat := bits e 8 6
def lmDark (e : Nat) : Bool := bitAt e 14
def lmShare (e : Nat) : Nat := bits e 16 6

def linkEntry (x n : Nat) : Nat := bits x (32 * n) 32

/-- R297, for the entry of port n of module `me`. -/
def linkEntryOk (me n e : Nat) : Bool :=
  bits e 15 1 == 0 && bits e 22 10 == 0 && decide (lmShare e ≤ 50) &&
  decide (lmPort e < 36) && globalPort (lmPort e) == globalPort n &&
  (lmDark e || (if globalPort n then lmPeer e / 16 != me / 16 else lmPeer e / 16 == me / 16 && lmPeer e != me))

/-- The lowest port whose entry breaks R297. -/
def badPort (me x : Nat) : Option Nat := (List.range 36).find? (fun n => !linkEntryOk me n (linkEntry x n))

def forwardEntry (x m : Nat) : Nat := bits x (128 * m) 128

/-- Reserved fields of the forwarding table (R301). -/
def forwardsOk (x : Nat) : Bool :=
  (List.range 256).all (fun m => bits (forwardEntry x m) 36 28 == 0 && bits (forwardEntry x m) 100 28 == 0)

def pwCap (x : Nat) : Nat := bits x 0 12
def pwStandby (x : Nat) : Bool := bitAt x 16
def pwShock (x : Nat) : Nat := bits x 32 16

/-- R397. -/
def powerOk (x : Nat) : Bool :=
  bits x 12 4 == 0 && bits x 17 15 == 0 && bits x 48 80 == 0 && decide (1200 ≤ pwCap x) && decide (pwCap x ≤ 2400) && pwCap x % 10 == 0 &&
  decide (500 ≤ pwShock x) && decide (pwShock x ≤ 16000)

def wrPeer (x : Nat) : Bool := bitAt x 0
def wrOwner (x : Nat) : Nat := bits x 8 8
def wrLog (x : Nat) : Nat := bits x 16 4
def wrAddr (x : Nat) : Nat := bits x 64 48

/-- R398, with the packet and result rings of R64 inside the owner's space. -/
def workRingOk (x : Nat) : Bool :=
  let n := 96 * 2 ^ wrLog x
  bits x 1 7 == 0 && bits x 20 44 == 0 && bits x 112 16 == 0 && decide (4 ≤ wrLog x) && wrAddr x % 64 == 0 &&
  (if wrPeer x then decide (wrAddr x + n ≤ 2976 * 2 ^ 30) else wrOwner x == 0 && State.inHost (wrAddr x) n)

/-- R396's reserved fields. -/
def identityFieldsOk (x : Nat) : Bool := bits x 10 22 == 0 && bits x 64 192 == 0

/-- No condition of a list of checks fails. -/
def allPass (l : List Chk) : Bool := l.all (fun c => !c.bad)

/-- The tables' content rules: what the log entry of the first that is broken carries as instance (R166, R297, R400). -/
def contentFault (s : State) (b : Nat) : Option Nat :=
  let me := bits (s.secNum b 1) 0 8
  if !poolsOk s.mod.tVar (s.secNum b 2) then some 0
  else match badPort me (s.secNum b 3) with
    | some n => some n
    | none =>
      if forwardsOk (s.secNum b 4) && powerOk (s.secNum b 5) && allPass (gearTableChecks (s.secNum b 6)) &&
          ((s.sec? b 7).isNone || allPass (ttChecks (s.secNum b 7))) && workRingOk (s.secNum b 8) &&
          identityFieldsOk (s.secNum b 1) then none
      else some 0

/-! ## Applying them -/

def poolsOf (x : Nat) : List Pool :=
  ((poolEntries x).filter (fun e => plKind e != 0)).map (fun e =>
    { die := if plKind e = 2 then some (plDie e) else none, gib := plGib e })

def portOf (e : Nat) : Port :=
  { st := if lmDark e then .dark else .down, peerMod := lmPeer e, peerPort := lmPort e, share := lmShare e }

def forwardOf (e : Nat) : Forward := { primary := BitVec.ofNat 36 (bits e 0 36), fallback := BitVec.ofNat 36 (bits e 64 36) }

namespace State

/-- Step 4: pools, link map, forwarding table, work ring, identity. -/
def applyTables (s : State) (b : Nat) : State :=
  let ident := s.secNum b 1
  let wr := s.secNum b 8
  let fw := s.secNum b 4
  let lm := s.secNum b 3
  { s with
    mod := { s.mod with id := bits ident 0 8, portB := bitAt ident 9, version := s.imgVersion b }
    lp := { s.lp with pools := poolsOf (s.secNum b 2), channels := s.channelIds.map (fun c => (c, {})) }
    ports := (List.range 36).map (fun n => portOf (linkEntry lm n))
    spoke := { s.spoke with forward := (List.range 256).foldl (fun l m => sput {} l m (forwardOf (forwardEntry fw m))) [] }
    wring := { base := wrAddr wr, log2 := wrLog wr, peer := wrPeer wr, owner := wrOwner wr } }

/-- Pages of the pools at a pool offset: the record of a retired page names no pool (R403), so those that hold a row for which a page is
retired (R180), or, where none does, all of them. DESIGN CHOICE (log 42). -/
def pagesAt (s : State) (o : Nat) : List Nat :=
  let starts := (List.range s.lp.pools.length).map (fun i => ((s.lp.pools.take i).map (fun p => p.gib * 2 ^ 30)).sum)
  let all := ((s.lp.pools.zip starts).filter (fun p => decide (o < p.1.gib * 2 ^ 30))).map (fun p => p.2 + o)
  let bad := (s.lp.rows.filter (fun r => decide (3 ≤ r.count) || r.spare.isNone)).filterMap (fun r => s.rowAddr r.ch r.bank r.row)
  match all.filter (fun pg => bad.any (fun a => a / 0x200000 * 0x200000 == pg)) with
  | [] => all
  | l => l

/-- A ledger record applied at boot (R348, R403). -/
def applyRecord (s : State) (kind : Nat) (body : Bytes) : State :=
  let x := ofLe body
  match kind with
  | 0x01 =>
    let d := bits x 0 2
    let l := 64 * d + bits x 2 6
    let old := 72 * d + bits x 8 7
    let new := 72 * d + bits x 16 7
    { s with parts := { s.parts with
      map := s.parts.map.set l new, banks := s.parts.banks.filter (fun b => b.1 != l)
      failed := if old = new || bits x 24 2 == 2 then s.parts.failed else s.parts.failed ++ [old]
      flagged := if old != new && bits x 24 2 == 2 then s.parts.flagged ++ [old] else s.parts.flagged } }
  | 0x02 => { s with parts := { s.parts with
      banks := s.parts.banks.filter (fun b => !(b.1 == bits x 0 8 && b.2.1 == bits x 8 5)) ++ [(bits x 0 8, bits x 8 5, bits x 16 1)] } }
  | 0x03 => s.updPort (bits x 0 6) (fun p => { p with failed := some (bits x 8 3) })
  | 0x04 =>
    let l := bits x 0 3
    let lane := bits x 8 5
    let wire := bits x 16 5
    let put (e : LinkEnd) : LinkEnd :=
      if bitAt x 25 then { e with mask := if bitAt e.mask lane then e.mask - 2 ^ lane else e.mask }
      else
        let ws := (if isGlint l then e.wires else e.wires.filter (fun w => !(w.1 == lane && w.2.1 == wire))) ++ [(lane, wire, bits x 24 1)]
        { e with wires := ws, txWires := ws }
    s.updLink l (fun k => { k with near := put k.near, far := put k.far })
  | 0x05 =>
    s.putRow { ch := bits x 0 7, bank := bits x 8 4, row := bits x 12 20, count := bits x 32 2
               spare := if bits x 64 20 < State.spareRows then some (bits x 64 20) else none }
  | 0x06 =>
    { s with lp := { s.lp with rows := s.lp.rows.map (fun (r : FailedRow) =>
        if r.ch = bits x 0 7 ∧ r.bank = bits x 8 4 ∧ r.row = bits x 12 20 then { r with spare := none } else r) } }
  | 0x07 => { s with lp := { s.lp with retired := s.lp.retired ++ (s.pagesAt (bits x 0 48)).filter (fun p => !s.lp.retired.contains p) } }
  | 0x08 =>
    let s := s.updChan (bits x 0 7) (fun c => { c with failed := true })
    if s.lp.moved.contains (bits x 0 7) then s else { s with lp := { s.lp with moved := s.lp.moved ++ [bits x 0 7] } }
  | 0x09 => s.updDie (bits x 0 2) (fun d => { d with
      phases := d.phases.filter (fun p => p.1 != bits x 8 5) ++ [(bits x 8 5, some (bits x 16 5))] })
  | 0x0A => { s with mod := { s.mod with portB := bitAt x 0 } }
  | _ => s

end State

/-! ## The steps. Each answers whether the sequence goes on. -/

def bootFault (s : State) : Bool × State := (false, s.enter .fault)

/-- A step that can have failed the module. -/
def unlessFault (s : State) : Bool × State := (decide (s.mod.st = MState.boot), s)

/-- Step 3: the factory record, and the bank (R393, R400). -/
def bankStep (_ : BootEnv) (s : State) : Bool × State :=
  if !s.factoryOk then bootFault s
  else
    let s := { s with mod := { s.mod with tVar := s.factoryVariant } }
    match s.chooseBank with
    | (none, s) => bootFault s
    | (some b, s) => (true, { s with mod := { s.mod with bank := b } })

/-- The module's tiles and links as manufactured. -/
def freshParts (s : State) : State :=
  let full (l : Nat) : LinkEnd := { mask := 2 ^ linkLanes l - 1 }
  { s with
    parts := { s.parts with map := (List.range 256).map (fun l => 72 * (l / 64) + l % 64), failed := [], banks := [] }
    links := (List.range 6).map (fun l => { near := full l, far := full l }) }

/-- The date at boot (R412). -/
def bootDate (s : State) : State :=
  if s.mss.date.held then s
  else { s with mss := { s.mss with date := { date := s.storedDate, setAt := none, since := s.now, held := false } } }

/-- Step 4: the ledger read, the training cache selected, the BOOT log entry, the tables and the ledger's records applied. -/
def ledgerStep (_ : BootEnv) (s : State) : Bool × State :=
  match s.chooseLedger with
  | none => bootFault s
  | some (bank, recs, seq, pos) =>
    let s := bootDate { s with mss := { s.mss with
      ledBank := bank, ledPos := pos, ledgerSeq := seq, force := recs.foldl State.inForceWith [] } }
    let date := s.mss.date.at s.now
    let cache := s.chooseCache date
    let s := { s with mss := { s.mss with cacheHalf := cache.getD s.mss.cacheHalf, cacheUsed := cache.isSome } }
    let b := bankBase s.mod.bank
    let s := s.logAt 0 7 0 0 2 (place 0 1 (boolNat s.mod.bank) + place 16 16 (s.imgVersion b) + place 32 32 seq +
      place 64 1 (boolNat cache.isSome) + place 96 32 date)
    match contentFault s b with
    | some n => bootFault (s.log eField 7 n 0 (place 0 1 (boolNat s.mod.bank)))
    | none => (true, recs.foldl (fun s r => s.applyRecord r.2.1 r.2.2) ((freshParts s).applyTables b))

/-- Step 5: main power; the gear table and the cap (R377, R397). -/
def mainStep (_ : BootEnv) (s : State) : Bool × State :=
  let b := bankBase s.mod.bank
  let p := s.secNum b 5
  let g := s.secNum b 6
  (true, { s with
    mod := { s.mod with mainOn := true }
    dies := s.dies.map (fun (d : Die) => { d with volt := voltFloor })
    pwr := { cap := pwCap p, capBoot := pwCap p, standbyEn := pwStandby p, shockMg := pwShock p, table := g, bootTable := g, gear := gtMap g 5 } })

/-- A logical tile that has failed its test, or that wear has flagged, gets a spare; a flagged one only while its die keeps two unused
spares (R10, R342, R343). Answers none when a failed tile has no spare left. -/
def bistTile (bad : List Nat) (l : Nat) (s : State) : Option State :=
  let p := s.parts.map.getD l 0
  let spares := s.spareTiles (l / 64)
  if bad.contains p then
    (spares.head?).map (fun q => ({ s with parts := { s.parts with failed := s.parts.failed ++ [p] } }).mapTile l q 0)
  else
    match s.parts.flagged.contains p, s.unusedTiles (l / 64) false with
    | true, q :: _ :: _ => some (s.mapTile l q 2)
    | _, _ => some s

/-- A die has too few usable tiles: the die is logged with their count (R10). -/
def State.logTiles (s : State) (die : Nat) (bad : List Nat) : State :=
  s.logOpen die 0 (countIf (fun p => !bad.contains p && !s.parts.failed.contains p) (rangeFrom (72 * die) 72))

/-- The tiles' test, in the order of the logical tiles; with it come the tiles that found no spare. -/
def bistTiles (bad : List Nat) (s : State) : List Nat × State :=
  (List.range s.parts.map.length).foldl (fun x l =>
    match bistTile bad l x.2 with
    | some s => (x.1, s)
    | none => (x.1 ++ [x.2.parts.map.getD l 0], x.2)) ([], s)

/-- A scratch bank that fails: a spare bank of the tile; a tile with both in use has failed (R345). -/
def bistBank (x : List Nat × State) (b : Nat × Nat) : List Nat × State :=
  let s := x.2
  let n := countIf (fun e => e.1 == b.1) s.parts.banks
  let p := s.parts.map.getD b.1 0
  if x.1.contains p then x
  else if n < 2 then
    (x.1, ({ s with parts := { s.parts with banks := s.parts.banks ++ [(b.1, b.2, n)] } }).ledger 0x02
      (leBytes 8 (place 0 8 b.1 + place 8 5 b.2 + place 16 1 n)))
  else
    match bistTile [p] b.1 s with
    | some s => (x.1, s)
    | none => (x.1 ++ [p], s)

/-- Step 6. A spare that fails its own test is not used. Every die is tested; each one with fewer than 64 usable tiles is logged (R10). -/
def bistStep (env : BootEnv) (s : State) : Bool × State :=
  let spareBad := env.bistTiles.filter (fun p => !s.parts.map.contains p && !s.parts.failed.contains p)
  let s := { s with parts := { s.parts with failed := s.parts.failed ++ spareBad } }
  let (lost, s) := env.bistBanks.foldl bistBank (bistTiles env.bistTiles s)
  match (List.range 4).filter (fun d => lost.any (fun p => p / 72 == d)) with
  | [] => (true, s)
  | ds => bootFault (ds.foldl (fun s d => s.logTiles d lost) s)

/-- A row repaired in its package: its spare row is free again (R182). -/
def repairRow (s : State) (r : Nat × Nat × Nat) : State :=
  if s.lp.rows.any (fun x => x.ch == r.1 && x.bank == r.2.1 && x.row == r.2.2 && x.spare.isSome) then
    let s := { s with lp := { s.lp with rows := s.lp.rows.map (fun (x : FailedRow) =>
      if x.ch = r.1 ∧ x.bank = r.2.1 ∧ x.row = r.2.2 then { x with spare := none } else x) } }
    s.ledger 0x06 (leBytes 8 (place 0 7 r.1 + place 8 4 r.2.1 + place 12 20 r.2.2))
  else s

/-- Step 7: channels that do not train fail, and more recorded failures than the spare absorbs fail the module (R185); repair; every unit written with zeros. -/
def memoryStep (env : BootEnv) (s : State) : Bool × State :=
  let s := env.badChannels.foldl (fun s c => onChannel c (fun _ s => s.failChannel c) s) s
  let s := if s.spareChannels < s.lp.moved.length && decide (s.mod.st = MState.boot) then (s.log eSpare 7 0 0).failModule else s
  let s := env.repairable.foldl repairRow s
  let s := { s with
    mem := s.mem.filter (fun c => decide (State.scratchBase ≤ c.1)), marks := []
    lp := { s.lp with
      lost := [], failing := [], wiped := [], renewed := []
      channels := s.lp.channels.map (fun (c : Nat × Channel) => (c.1,
        { c.2 with
          held := false, hold := 0, refused := [], nonConv := 0, ceRecent := [], lastTrain := s.now, trainTemp := none
          writes := 0, badRows := [] })) } }
  unlessFault s

/-- Step 8: each link commits the lanes that both its ends can use (R319). -/
def linkStep (_ : BootEnv) (s : State) : Bool × State :=
  unlessFault ((List.range 6).foldl (fun s l =>
    let k := s.link l
    let m := k.near.mask &&& k.far.mask
    let put (e : LinkEnd) : LinkEnd := { e with width := some (1, m), quarter := false, wstate := .normal, rxMask := m, txMask := m }
    if lanesIn m < quarterLanes l then s.linkOut l else s.updLink l (fun k => { k with near := put k.near, far := put k.far })) s)

/-- A port's first training: the lanes that do not train have failed, the identities are exchanged, and the port is UP, MISWIRED or DOWN
(R284, R285, R293). What identity a wrong peer sends is a free value. -/
def trainPort (env : BootEnv) (n : Nat) (s : State) : State :=
  let s := match (s.port n).failed with
    | some f => if env.goodLanes.contains n then s.updPort n (fun p => { p with spare := f, failed := none }) else s
    | none => s
  let s := attemptTraining n s
  let s := (env.deadLanes.filter (fun x => x.1 == n)).foldl (fun s x => substituteLane n x.2 s) s
  if (s.port n).st ≠ PortState.training then s
  else if env.miswired.contains n then
    let (a, s) := s.draw
    s.miswire n (a % 256)
  else if env.goodPorts.contains n then s.portUp n
  else s.updPort n (fun p => { p with st := .down, fails := 1 })

/-- Step 9: every port that is not dark trains and is identified; a recorded lane that passes is the spare again (R284, R285, R293). After a
training in full the cache is written (R406). -/
def spokeStep (env : BootEnv) (s : State) : Bool × State :=
  let s := (List.range 36).foldl (fun s n => if (s.port n).st = PortState.dark then s else trainPort env n s) s
  (true, if s.mss.cacheUsed then s else s.writeCache true [])

/-- READY: fabric time is that of the first time message, or, with no port UP, the management timers' count (R412). -/
def toReady (env : BootEnv) (s : State) : State :=
  let up := s.ports.any State.inService
  let f := if up then env.fabric else some s.now
  let s := match f with
    | some f => { s with fabric := f, mss := { s.mss with time := { s.mss.time with taken := true } } }
    | none => s
  ({ s with mod := { s.mod with bootWait := none, holdN := false } }).enter .ready

/-- Step 10: the active host port trains, else the standby port (R347); it waits while PERST is held, at either of them (R417). -/
def hostStep (env : BootEnv) (s : State) : Bool × State :=
  let b := s.mod.portB
  let held (b : Bool) : Bool := if b then s.mod.perstB else s.mod.perstA
  if held b then (false, { s with mod := { s.mod with bootWait := some env } })
  else if env.hostTrains then (true, toReady env { s with mod := { s.mod with hostUp := true } })
  else if held (!b) && env.standbyTrains then (false, { s with mod := { s.mod with bootWait := some { env with hostTrains := false } } })
  else if env.standbyTrains then
    let s := { s with mod := { s.mod with hostUp := true, portB := !b, hostSwitched := true } }
    (true, toReady env (s.ledger 0x0A (leBytes 8 (boolNat (!b)))))
  else (true, toReady env (({ s with mod := { s.mod with hostLost := true } }).log eSpare 7 0 0))

def runSteps : List (BootEnv → State → Bool × State) → BootEnv → State → State
  | [], _, s => s
  | f :: t, env, s =>
    let r := f env s
    if r.1 then runSteps t env r.2 else r.2

def bootSteps : List (BootEnv → State → Bool × State) :=
  [bankStep, ledgerStep, mainStep, bistStep, memoryStep, linkStep, spokeStep, hostStep]

/-- Steps 3 to 10, from STANDBY or from BOOT. -/
def bootModule (env : BootEnv) (s : State) : State :=
  runSteps bootSteps env (({ s with mod := { s.mod with idPins := env.idPins } }).enter .boot)

/-- The standby domain comes up: the management timers start, the MSS runs from ROM, and the log resumes (R390, R407). -/
def standbyUp (s : State) : State :=
  let s := { s with now := 0, fabric := 0, mss := { s.mss with bootCount := (s.mss.bootCount + 1) % 2 ^ 16 } }
  s.resumeLog.enter .standby

/-- The input has been within 38–60 V when a module starts (R415 step 1): a reading outside gives way to a free one inside. -/
def qualified (s : State) : State :=
  if 38000 ≤ s.mod.inputMv ∧ s.mod.inputMv ≤ 60000 then s
  else let (v, s) := s.draw; { s with mod := { s.mod with inputMv := 38000 + v % 22001 } }

/-- The input lies within 38–60 V (R414). -/
def inputGood (s : State) : Bool := decide (38000 ≤ s.mod.inputMv) && decide (s.mod.inputMv ≤ 60000)

/-- POWER_ON_SEQUENCE: from OFF at insertion, with PWR_EN high, from STANDBY once PWR_EN is high and the input qualified, or for a module that
has entered BOOT. -/
def powerOn (env : BootEnv) (s : State) : State :=
  match s.mod.st with
  | .off => if s.mod.overvolt then s else bootModule env (standbyUp (qualified { s with mod := { s.mod with absent := false, pwrEn := true } }))
  | .standby => if s.mod.pwrEn && inputGood s then bootModule env s else s
  | .boot => if s.mod.bootWait.isSome then s else bootModule env s
  | _ => s

def execPowerOnSequence (env : BootEnv) (s : State) : Host.Outcome State Fault Refusal := done s (powerOn env s)

/-! ## RUN (R414, R420) -/

/-- An EXTEST instruction holds the module in READY until the TAP is back in Test-Logic-Reset (R423). -/
def extestLoaded (s : State) : Bool := s.mod.tapTest

/-- The image's timetable is loaded. -/
def imageTimetable (s : State) : State :=
  let b := bankBase s.mod.bank
  match s.sec? b 7 with
  | none => s
  | some _ =>
    let t := timetableOf (s.secNum b 7)
    { s with sched := { s.sched with table := some t, window := t.inForce [] s.fabric } }

/-- Every UP peer is told the module's ID, in an MCTP packet on VC0. -/
def announceAll (s : State) : State := (directPeers s).foldl (fun s p => s.sendVc0 p.1 1 0 0 s.mod.id) s

/-- HOLD_N is sampled high; no test run is active, no EXTEST instruction is loaded. -/
def enterRun (s : State) : State :=
  if s.mod.st ≠ MState.ready then s
  else
    let s := { s with mod := { s.mod with holdN := true } }
    if s.mss.margin.isSome ∨ extestLoaded s then s else announceAll ((imageTimetable s).enter .run)

/-- ENTER_RUN (R414). -/
def execEnterRun (s : State) : Host.Outcome State Fault Refusal := done s (enterRun s)

end Sys2Proof.Machine
end

