-- ==== Sys2Proof/Machine/Cadlock.lean ====
section
/-! DEFINITION. Cadence lock and lead-out (R380-R382). Cadences are in Mbeat/s here. -/
namespace Sys2Proof.Machine

/-- This module acts as the job's lead. -/
def isLead (s : State) (j : Job) : Bool := s.leadNow j == some s.mod.id

/-! ## Reports -/

def sendLockReport (mean : Nat) (est : List (Nat × Nat)) (s : State) : State :=
  match s.runJob with
  | none => s
  | some j =>
    match s.leadNow j with
    | none => s
    | some l =>
      let s := s.send l (.lockReport (lockMsg s j mean est))
      let s := s.updJob j.id (fun j => { j with lock := { j.lock with ask := false } })
      { s with pwr := { s.pwr with used := [] } }

/-- LOCK_REPORT_SEND (R380). -/
def execLockReportSend (meanMs : Nat) (estimate : List (Nat × Nat)) (s : State) : Host.Outcome State Fault Refusal :=
  done s (sendLockReport meanMs estimate s)

/-- Reports that are no older than 10 ms. -/
def freshReports (now : Nat) (l : List (Nat × LockMsg)) : List (Nat × LockMsg) := l.filter (fun r => decide (now ≤ r.1 + 1000000))

/-! ## Locks -/

/-- Bound of a lock below: TARGET × (1 − LOCK_GIVE / 100). -/
def lockFloor (t g : Nat) : Nat := ceilDiv (gtTarget t g * (100 - gtGive t)) 100

/-- The lock of a gear: the lowest of TARGET and the reported A, within its bound, rising by at most 1 % (R380 step 2). -/
def nextLock (t : Nat) (old : Option (List Nat)) (rs : List (Nat × LockMsg)) (g : Nat) : Nat :=
  let as := rs.flatMap (fun r => (r.2.gears.filter (fun x => x.1 == g)).map (·.2))
  let l := max (lockFloor t g) (as.foldl min (gtTarget t g))
  match old.bind (fun ls => ls[g]?) with
  | none => l
  | some o => min l (o * 101 / 100)

/-! ## Lead-out (R382) -/

/-- The newest report of each module. -/
def newestReports (rs : List (Nat × LockMsg)) : List LockMsg :=
  rs.foldl (fun l r => l.filter (fun m => m.src != r.2.src) ++ [r.2]) []

def lookupOr (l : List (Nat × Nat)) (k d : Nat) : Nat := ((l.find? (fun x => x.1 == k)).map (·.2)).getD d

/-- Grants, budgets and the estimated power of the granted modules, by module. -/
structure LeadOut where
  grants  : List (Nat × Nat)
  budgets : List (Nat × Nat)
  powers  : List (Nat × Nat)
  deriving DecidableEq, Repr

/-- The power with which a module counts: the estimate of its grant, else its reported mean. -/
def countedPower (powers : List (Nat × Nat)) (m : LockMsg) : Nat := lookupOr powers m.src m.power

/-- The largest grant for a module: its power within its cap, its voltage within VMAX of every gear that it used, the job's power within the job's budgets. -/
def largestGrant (t : Nat) (ms : List LockMsg) (powers : List (Nat × Nat)) (m : LockMsg) : Nat :=
  let others := ((ms.filter (fun n => n.src != m.src)).map (countedPower powers)).sum
  let room := (ms.map (·.budget)).sum
  let fits (x : Nat) : Bool :=
    match m.estimate[x - 1]? with
    | none => false
    | some e => decide (e.1 ≤ m.cap) && !m.gears.isEmpty && m.gears.all (fun g => decide (e.2 ≤ gtVmax t g.1)) && decide (e.1 + others ≤ room)
  ((rangeFrom 1 (gtLead t)).filter fits).foldl max 0

/-- One asking module: its grant, its budget raised to its estimate, every other budget lowered by an equal share. -/
def grantOne (t : Nat) (ms : List LockMsg) (acc : LeadOut) (m : LockMsg) : LeadOut :=
  let x := largestGrant t ms acc.powers m
  if !m.critical || m.estimate.isEmpty || acc.grants.any (fun g => g.1 == m.src) || x == 0 then acc
  else
    let now (n : LockMsg) : Nat := lookupOr acc.budgets n.src n.budget
    let est := ((m.estimate[x - 1]?).map (·.1)).getD 0
    let raise := est - now m
    let share := ceilDiv raise (ms.length - 1)
    { grants := acc.grants ++ [(m.src, x)], powers := acc.powers ++ [(m.src, est)]
      budgets := if raise = 0 then acc.budgets
        else ms.map (fun n => (n.src, if n.src = m.src then now n + raise else now n - share)) }

/-- In a switch the lead answers when every module of the incoming job has reported, or 1 ms after its own report (R380). -/
def answerWaits (s : State) (j : Job) (rs : List (Nat × LockMsg)) : Bool :=
  s.sched.switch.any (fun sw => sw.incoming == some j.id && (match sw.locking with
    | none => true
    | some t => decide (s.now < t + 100000) && (jobModules s j).any (fun m => !rs.any (fun r => decide (t ≤ r.1) && r.2.src == m))))

/-- LOCK_BROADCAST: locks and grants to every module of the job (R380, R382). -/
def broadcastLocks (jid : Nat) (s : State) : State :=
  match s.job? jid with
  | none => s
  | some j =>
    let rs := freshReports s.now j.lock.reports
    if !isLead s j || answerWaits s j rs then s
    else
      let t := s.pwr.table
      let ls := (List.range 8).map (nextLock t j.lock.locks rs)
      let ms := newestReports rs
      let x := ms.foldl (grantOne t ms) ⟨j.lock.grants, j.lock.budgets, j.lock.powers⟩
      let s := s.updJob jid (fun j => { j with lock := { j.lock with reports := rs, grants := x.grants, budgets := x.budgets, powers := x.powers } })
      (jobModules s j).foldl (fun s m =>
        s.send m (.lockReceive
          { src := s.mod.id, job := jid, locks := ls, grant := lookupOr x.grants m 0, budget := lookupOr x.budgets m 0 })) s

def execLockBroadcast (job : Nat) (s : State) : Host.Outcome State Fault Refusal := done s (broadcastLocks job s)

/-- A report at the lead; the last one of a switch's first exchange is answered at once (R380). -/
def takeLockReport (m : LockMsg) (s : State) : State :=
  match s.job? m.job with
  | none => s
  | some j =>
    if !isLead s j then s
    else
      let rs := freshReports s.now j.lock.reports ++ [(s.now, m)]
      let t := s.updJob j.id (fun j => { j with lock := { j.lock with reports := rs } })
      if s.sched.switch.any (fun sw => sw.incoming == some j.id) && !answerWaits s j rs then broadcastLocks j.id t else t

/-- LOCK_REPORT (R380). -/
def execLockReport (m : LockMsg) (s : State) : Host.Outcome State Fault Refusal := done s (takeLockReport m s)

/-- LOCK_RECEIVE: locks stay at their last values during a recovery; no grant while one is withdrawn (R381, R389). Budget 0 stands
for SHARE × cap; another one is kept as what it adds to the active gear's, so that it follows gear and cap (R374, R389). -/
def takeLocks (m : LockOut) (s : State) : State :=
  match s.job? m.job with
  | none => s
  | some j =>
    if j.recov.active then s
    else
      let off := j.lock.withdrawn || s.pwr.throttled || s.pwr.limited
      s.updJob j.id (fun j => { j with lock := { j.lock with
        locks := some m.locks, grant := if off then 0 else m.grant, withdrawn := j.lock.withdrawn || (off && m.grant != 0)
        lead := if m.budget = 0 then 0
          else
            let d : Int := (m.budget : Int) - baseBudget s s.pwr.gear
            if off then min 0 d else d
        at_ := s.now } })

def execLockReceive (m : LockOut) (s : State) : Host.Outcome State Fault Refusal := done s (takeLocks m s)

end Sys2Proof.Machine
end

