-- ==== Sys2Proof/Machine/Hotplug.lean ====
section
/-! DEFINITION. Loss and return of power (R414, R418), reset, eject and removal (R421, R422), PERST (R417), shocks (R408), and what the
module does at every tick of its own. -/
namespace Sys2Proof.Machine

namespace State

/-- Main power goes off: what the core, the memory and the ports hold is lost, and a droop hold ends (R31); the standby domain with what
the MSS read from the boot image, and host memory are not. -/
def mainOff (s : State) : State :=
  let s := s.coreOff
  { s with
    mod := { s.mod with
      mainOn := false, hostUp := false, hostLost := false, hostSwitched := false, bootWait := none, drainWait := false, drainFrom := none, take := none, tapTest := false }
    mem := s.mem.filter (fun c => decide (hostBase ≤ c.1)), marks := [], ctrs := [], slots := [], tiles := {}
    jobs := [], running := none, sched := {}, offers := [], notices := [], lp := {}, ports := List.replicate 36 {}, spoke := {}
    dies := List.replicate 4 {}, links := List.replicate 6 {}, pwr := { shockMg := s.pwr.shockMg }, bar := {}, wring := {}
    mss := { s.mss with margin := none, time := { s.mss.time with taken := false, peer := none } } }

/-- All power goes off: only what lies in flash, and the pins, stay (R392, R407). -/
def allOff (s : State) : State :=
  let t := s.mainOff
  { t with
    parts := {}
    mss := { flash := s.mss.flash, bootCount := s.mss.bootCount }
    mod := { t.mod with st := .off, tap := .idcode, tapOpen := false } }

/-- Main power off and back to STANDBY. -/
def toStandby (s : State) : State := s.mainOff.enter .standby

end State

/-! ## The input (R414, R418) -/

def State.setInput (s : State) (mv : Nat) : State := { s with mod := { s.mod with inputMv := mv } }

/-- Below 36 V for 2 ms: failure notices, main power off, STANDBY; a module in FAULT stays there. -/
def undervolt (mv : Nat) (s : State) : State :=
  if 36000 ≤ mv ∨ s.mod.st = MState.off then s
  else
    let s := s.setInput mv
    match s.mod.st with
    | .boot => s.toStandby
    | .ready => s.toStandby
    | .run => s.sendNotices.toStandby
    | .drain => s.sendNotices.toStandby
    | .fault => s.mainOff
    | _ => s

/-- UNDERVOLTAGE_SHUTDOWN (R418). -/
def execUndervoltageShutdown (mv : Nat) (s : State) : Host.Outcome State Fault Refusal := done s (undervolt mv s)

/-- In STANDBY, with PWR_EN high and the input within 38-60 V for 1 s, the module enters BOOT. -/
def qualify (mv : Nat) (s : State) : State :=
  if s.mod.st = MState.standby ∧ s.mod.pwrEn = true ∧ 38000 ≤ mv ∧ mv ≤ 60000 then (s.setInput mv).enter .boot else s

/-- UNDERVOLTAGE_RECOVERY (R418). -/
def execUndervoltageRecovery (mv : Nat) (s : State) : Host.Outcome State Fault Refusal := done s (qualify mv s)
/-- PWR_EN goes high. -/
def pwrEnHigh (s : State) : State := { s with mod := { s.mod with pwrEn := true } }

/-- PWR_EN_QUALIFIED (R414). -/
def execPwrEnQualified (mv : Nat) (s : State) : Host.Outcome State Fault Refusal := done s (qualify mv (pwrEnHigh s))

def overvolt (mv : Nat) (s : State) : State :=
  if mv ≤ 63000 then s
  else
    let t := (s.setInput mv).allOff
    { t with mod := { t.mod with overvolt := true } }

/-- OVERVOLTAGE_OFF (R418). -/
def execOvervoltageOff (mv : Nat) (s : State) : Host.Outcome State Fault Refusal := done s (overvolt mv s)

def inputLoss (mv : Nat) (s : State) : State := if 30000 ≤ mv then s else (s.setInput mv).allOff

/-- INPUT_LOSS (R414). -/
def execInputLoss (mv : Nat) (s : State) : Host.Outcome State Fault Refusal := done s (inputLoss mv s)

/-- The standby converter runs from 30 V to 63 V; after an overvoltage, from below 61 V. -/
def converterUp (mv : Nat) (s : State) : State :=
  if s.mod.st ≠ MState.off ∨ s.mod.absent ∨ mv < 30000 ∨ 63000 < mv ∨ (s.mod.overvolt ∧ 61000 ≤ mv) then s
  else
    let s := s.setInput mv
    standbyUp { s with mod := { s.mod with overvolt := false } }

/-- STANDBY_CONVERTER_UP (R414, R418). -/
def execStandbyConverterUp (mv : Nat) (s : State) : Host.Outcome State Fault Refusal := done s (converterUp mv s)

/-! ## Reset (R414, R418) -/

/-- PWR_EN low for 100 ms: failure notices in RUN, main power off, the MSS restarted, STANDBY; after a trip the module stays in FAULT until
every sensor reads below 85 °C (R386). -/
def resetModule (s : State) : State :=
  if s.mod.st = MState.off then s
  else
    let s := if s.mod.st = MState.run ∨ s.mod.st = MState.drain then s.sendNotices else s
    let s := s.mainOff.restartMss
    let s := { s with mod := { s.mod with tap := .idcode, tapOpen := false, pwrEn := false }, mss := { s.mss with retired := false } }
    if s.mss.tripped && s.mss.hot then s
    else ({ s with mss := { s.mss with tripped := false, hot := false } }).enter .standby

/-- RESET (R414). -/
def execResetPin (s : State) : Host.Outcome State Fault Refusal := done s (resetModule s)

/-! ## Eject and removal (R421, R422, R428) -/

/-- A recovery is under way in which this module is lead or deputy. -/
def leadsRecovery (s : State) : Bool :=
  s.jobs.any (fun j => j.admitted && (j.recov.active || decide (j.recov.phase ≠ .idle)) &&
    (j.alias? j.lead == s.mod.id || j.alias? j.deputy == s.mod.id))

/-- The running job is reported to its lead; with none running, every job is (R421 steps 2 and 3). -/
def drainReports (s : State) : State :=
  match s.runJob with
  | some j => s.reportDrain j.id
  | none => (s.jobs.map (·.id)).foldl (fun s i => s.reportDrain i) s

/-- A test run in progress is abandoned: no report, no change of the training cache (R428). -/
def State.dropTest (s : State) : State :=
  if s.mss.margin.isNone then s else ({ s with mss := { s.mss with margin := none } }).endTestHold

def ejectRequest (s : State) : State :=
  match s.mod.st with
  | .standby => s.enter .ejectReady
  | .boot => s.mainOff.enter .ejectReady
  | .ready => s.mainOff.enter .ejectReady
  | .run =>
    let s := (s.enter .drain).dropTest
    if leadsRecovery s then { s with mod := { s.mod with drainWait := true } } else drainReports s
  | .fault => s.mainOff
  | _ => s

/-- EJECT_REQUEST (R421). -/
def execEjectRequest (s : State) : Host.Outcome State Fault Refusal := done s (ejectRequest s)

/-- Only 1 is an eject request; the MSS refuses any other value (R410, R417). -/
def writeEject (v : Nat) (s : State) : State := if v = 1 then ejectRequest (s.answer pldmOk) else s.outOfRange

/-- EFFECTER_EJECT (R417, R421). -/
def execEffecterEject (v : Nat) (s : State) : Host.Outcome State Fault Refusal := done s (onMss (writeEject v) s)

/-- The button held for 5 s. -/
def forceEject (s : State) : State :=
  match s.mod.st with
  | .run => s.mainOff.enter .ejectReady
  | .drain => s.mainOff.enter .ejectReady
  | _ => ejectRequest s

/-- FORCE_EJECT (R421). -/
def execForceEject (s : State) : Host.Outcome State Fault Refusal := done s (forceEject s)

/-- In DRAIN with no job admitted any more. -/
def drainEmpty (s : State) : Bool := decide (s.mod.st = MState.drain) && !s.mod.drainWait && !s.jobs.any Job.admitted

/-- No job is admitted any more, and transit has gone on for 100 ms (R421 step 4). -/
def drainComplete (s : State) : State :=
  if drainEmpty s ∧ s.mod.drainFrom.any (fun t => decide (t + 10000000 ≤ s.now)) then s.mainOff.enter .ejectReady else s

/-- DRAIN_COMPLETE (R421). -/
def execDrainComplete (s : State) : Host.Outcome State Fault Refusal := done s (drainComplete s)

/-- The module is withdrawn: no record that is not yet in flash is written any more (R422). -/
def removed (s : State) : State :=
  let t := s.allOff
  { t with mod := { t.mod with absent := true } }

/-- SURPRISE_REMOVAL (R422). -/
def execSurpriseRemoval (s : State) : Host.Outcome State Fault Refusal := done s (removed s)

/-! ## PERST (R417, R428) -/

/-- The line of host port A (0) or B (1). -/
def setPerst (port : Nat) (v : Bool) (s : State) : State :=
  if port = 0 then { s with mod := { s.mod with perstA := v } }
  else if port = 1 then { s with mod := { s.mod with perstB := v } }
  else s

/-- The port is the active one. -/
def activeHost (port : Nat) (s : State) : Bool := port == boolNat s.mod.portB

/-- The link of the active port is reset; host-window transfers in flight complete with E_LINK_DOWN and POISON. -/
def perst (port : Nat) (s : State) : State :=
  let s := setPerst port true s
  if activeHost port s && s.mod.hostUp then
    let s := s.dropHost
    { s with mod := { s.mod with hostUp := false } }
  else s

/-- PERST (R417). -/
def execPerst (hostPort : Nat) (s : State) : Host.Outcome State Fault Refusal := done s (perst hostPort s)

/-- The link trains again; step 10 of the power-on sequence goes on. -/
def perstOff (port : Nat) (s : State) : State :=
  let s := setPerst port false s
  match s.mod.bootWait with
    | some env => (hostStep env s).2
    | none => if activeHost port s && s.mod.mainOn && decide (s.mod.st ≠ MState.boot) && !s.mod.hostLost then { s with mod := { s.mod with hostUp := true } } else s

/-- PERST_DEASSERT (R417, R428). -/
def execPerstDeassert (hostPort : Nat) (s : State) : Host.Outcome State Fault Refusal := done s (perstOff hostPort s)

/-! ## Shocks (R408, R409) -/

/-- A peak joins the peak kept since the last read. -/
def keepPeak (id v : Nat) (s : State) : State :=
  let old := ((s.mss.sensors.find? (fun x => x.1 == id)).map (·.2)).getD 0
  s.setSensor id (max old v)

/-- An excursion above the threshold is logged, at most once a second. -/
def shocked (x y z : Nat) (s : State) : State :=
  let s := keepPeak 0x235 z (keepPeak 0x234 y (keepPeak 0x233 x s))
  if (x ≤ s.pwr.shockMg ∧ y ≤ s.pwr.shockMg ∧ z ≤ s.pwr.shockMg) ∨ s.mss.lastShock.any (fun t => decide (s.now < t + 100000000)) then s
  else
    let s := s.logAt 0 7 0 0 7 (place 0 16 x + place 16 16 y + place 32 16 z)
    { s with mss := { s.mss with lastShock := some s.now } }

/-- SHOCK (R408). -/
def execShock (x y z : Nat) (s : State) : Host.Outcome State Fault Refusal := done s (onMss (shocked x y z) s)

/-! ## What a tick does -/

/-- DRAIN goes on once the recovery is over (R428); the time is kept since which no job is admitted (R421). -/
def drainTick (s : State) : State :=
  let s := if s.mod.drainWait && !leadsRecovery s then drainReports { s with mod := { s.mod with drainWait := false } } else s
  let s := if decide (s.mod.st = MState.drain) && !s.mod.drainWait && s.runJob.isNone then drainReports s else s
  { s with mod := { s.mod with drainFrom := if drainEmpty s then some (s.mod.drainFrom.getD s.now) else none } }

/-- 10 ns pass: the management timers and fabric time count (R390, R412), recovery and drain go on by themselves, and a unit of memory may
come to hold an error (R163). A module without standby power keeps no time. -/
def tick (s : State) : State :=
  if s.mod.st = MState.off then s
  else drainTick ({ s.countBeats with now := s.now + 1, fabric := fabricAfter s }).recoveryTick.instantTick.decay

/-- FAULT_N is low in FAULT (R417). -/
def faultLow (s : State) : Bool := decide (s.mod.st = MState.fault)

/-- The state indicator (R414): colour and pattern. -/
inductive Indicator where
  | dark
  | amberSlow
  | greenFast
  | greenDouble
  | greenSteady
  | amberFast
  | blueSteady
  | amberSteady
  | amberSteadyBlue
  deriving DecidableEq, Repr

def indicator (s : State) : Indicator :=
  match s.mod.st with
  | .off => .dark
  | .standby => .amberSlow
  | .boot => .greenFast
  | .ready => .greenDouble
  | .run => .greenSteady
  | .drain => .amberFast
  | .ejectReady => .blueSteady
  | .fault => if s.mod.mainOn then .amberSteady else .amberSteadyBlue

end Sys2Proof.Machine
end

