-- ==== Sys2Proof/Machine/Tap.lean ====
section
/-! DEFINITION. The test access port (R423). -/
namespace Sys2Proof.Machine

/-- A link of the scan chain. -/
inductive ChainPart where
  | mss
  | die (d : Nat)
  deriving DecidableEq, Repr

/-- The chain from TDI to TDO: the MSS alone while the dies are unpowered. -/
def tapChain (s : State) : List ChainPart :=
  if s.mod.mainOn then [.mss, .die 0, .die 1, .die 3, .die 2] else [.mss]

/-- The states in which the TAP is enabled: in READY while HOLD_N is low (R423, R428). -/
def tapEnabled (s : State) : Bool :=
  match s.mod.st with
  | .standby => true
  | .ready => !s.mod.holdN
  | .ejectReady => true
  | .fault => true
  | _ => false

/-- An instruction is loaded, where the TAP is enabled. -/
def tapLoad (i : TapIr) (s : State) : State := if tapEnabled s then { s with mod := { s.mod with tap := i } } else s

/-- Outputs of the TAP: the identification register, and the boundary cells as sampled. Their contents are not in the spec. -/
def tapIdOut : Nat := 32
def tapSampleOut : Nat := 33

/-- An instruction that captures a register whose contents are a free value. -/
def tapCapture (i : TapIr) (out : Nat) (s : State) : State :=
  if tapEnabled s then
    let (v, s) := (tapLoad i s).draw
    s.emit (.pin out v)
  else s

/-- IDCODE (R423). -/
def execIdcode (s : State) : Host.Outcome State Fault Refusal := done s (tapCapture .idcode tapIdOut s)
/-- BYPASS (R423). -/
def execBypass (s : State) : Host.Outcome State Fault Refusal := done s (tapLoad .bypass s)
/-- SAMPLE/PRELOAD (R423). -/
def execSamplePreload (s : State) : Host.Outcome State Fault Refusal := done s (tapCapture .sample tapSampleOut s)
/-- An EXTEST instruction is loaded: it holds READY from now on. -/
def tapExtest (i : TapIr) (s : State) : State :=
  if tapEnabled s then { s with mod := { s.mod with tap := i, tapTest := true } } else s

/-- EXTEST (R423). -/
def execExtest (s : State) : Host.Outcome State Fault Refusal := done s (tapExtest .extest s)
/-- EXTEST_PULSE (R423). -/
def execExtestPulse (s : State) : Host.Outcome State Fault Refusal := done s (tapExtest .extestPulse s)
/-- EXTEST_TRAIN (R423). -/
def execExtestTrain (s : State) : Host.Outcome State Fault Refusal := done s (tapExtest .extestTrain s)

/-- IDCODE is loaded, as IEEE 1149.1 has it, and EXTEST no longer holds READY; TRST_N reaches a TAP that an EXTEST instruction holds in READY also
while HOLD_N is high, where TMS is ignored (DEDUCED, log 161). -/
def tapReset (s : State) : State :=
  if tapEnabled s || (decide (s.mod.st = MState.ready) && s.mod.tapTest) then
    { s with mod := { s.mod with tap := .idcode, tapTest := false } }
  else s

/-- TEST_LOGIC_RESET (R423). -/
def execTestLogicReset (s : State) : Host.Outcome State Fault Refusal := done s (tapReset s)

/-- The private instructions respond once a challenge is signed with a key of the factory record. -/
def tapUnlock (challenge sig : Nat) (s : State) : State :=
  let good (slot : Nat) : Bool :=
    match s.keyIn slot with
    | none => false
    | some k => Config.signatureOk k (leBytes 96 challenge) (leBytes 96 sig)
  if tapEnabled s && (List.range 4).any good then { s with mod := { s.mod with tapOpen := true } } else s

/-- TAP_UNLOCK (R423). -/
def execTapUnlock (challenge sig : BitVec 768) (s : State) : Host.Outcome State Fault Refusal :=
  done s (tapUnlock challenge.toNat sig.toNat s)

end Sys2Proof.Machine
end

