-- ==== Sys2Proof/Machine/Dispatch.lean ====
section
/-! DEFINITION. The meaning of every command: one arm for each row of the table. -/
namespace Sys2Proof.Machine

def exec (i : Instr) (s : State) : Host.Outcome State Fault Refusal :=
  match i with
  | .nop q => Sys2Proof.Machine.execNop q s
  | .wait q => Sys2Proof.Machine.execWait q s
  | .signal q => Sys2Proof.Machine.execSignal q s
  | .pushList q => Sys2Proof.Machine.execPushList q s
  | .queueControl q => Sys2Proof.Machine.execQueueControl q s
  | .commandWaitSatisfied q => Sys2Proof.Machine.execCommandWaitSatisfied q s
  | .commandComplete q k => Sys2Proof.Machine.execCommandComplete q k s
  | .completionRingRetry q => Sys2Proof.Machine.execCompletionRingRetry q s
  | .deferredApply job k => Sys2Proof.Machine.execDeferredApply job k s
  | .mm q => Sys2Proof.Machine.execMm q s
  | .accInit q => Sys2Proof.Machine.execAccInit q s
  | .accDrain q => Sys2Proof.Machine.execAccDrain q s
  | .attnStep q => Sys2Proof.Machine.execAttnStep q s
  | .attnFinal q => Sys2Proof.Machine.execAttnFinal q s
  | .vprogLoad q => Sys2Proof.Machine.execVprogLoad q s
  | .vrun q => Sys2Proof.Machine.execVrun q s
  | .vnop tile => Sys2Proof.Machine.execVnop tile s
  | .vld tile => Sys2Proof.Machine.execVld tile s
  | .vldh tile => Sys2Proof.Machine.execVldh tile s
  | .vst tile => Sys2Proof.Machine.execVst tile s
  | .vsth tile => Sys2Proof.Machine.execVsth tile s
  | .vlda tile => Sys2Proof.Machine.execVlda tile s
  | .vsta tile => Sys2Proof.Machine.execVsta tile s
  | .vadd tile => Sys2Proof.Machine.execVadd tile s
  | .vsub tile => Sys2Proof.Machine.execVsub tile s
  | .vmul tile => Sys2Proof.Machine.execVmul tile s
  | .vfma tile => Sys2Proof.Machine.execVfma tile s
  | .vmin tile => Sys2Proof.Machine.execVmin tile s
  | .vmax tile => Sys2Proof.Machine.execVmax tile s
  | .vabs tile => Sys2Proof.Machine.execVabs tile s
  | .vneg tile => Sys2Proof.Machine.execVneg tile s
  | .vmovi tile => Sys2Proof.Machine.execVmovi tile s
  | .vsel tile => Sys2Proof.Machine.execVsel tile s
  | .vcvti tile => Sys2Proof.Machine.execVcvti tile s
  | .vscl tile => Sys2Proof.Machine.execVscl tile s
  | .vaddw tile => Sys2Proof.Machine.execVaddw tile s
  | .vmulw tile => Sys2Proof.Machine.execVmulw tile s
  | .vfmaw tile => Sys2Proof.Machine.execVfmaw tile s
  | .vaddh tile => Sys2Proof.Machine.execVaddh tile s
  | .vmulh tile => Sys2Proof.Machine.execVmulh tile s
  | .vfmah tile => Sys2Proof.Machine.execVfmah tile s
  | .vcmp tile => Sys2Proof.Machine.execVcmp tile s
  | .mlogic tile => Sys2Proof.Machine.execMlogic tile s
  | .vexp tile => Sys2Proof.Machine.execVexp tile s
  | .vrcp tile => Sys2Proof.Machine.execVrcp tile s
  | .vrsqrt tile => Sys2Proof.Machine.execVrsqrt tile s
  | .vlog tile => Sys2Proof.Machine.execVlog tile s
  | .vtanh tile => Sys2Proof.Machine.execVtanh tile s
  | .vrsum tile => Sys2Proof.Machine.execVrsum tile s
  | .vrmax tile => Sys2Proof.Machine.execVrmax tile s
  | .moveData q => Sys2Proof.Machine.execMoveData q s
  | .fill q => Sys2Proof.Machine.execFill q s
  | .wstream q => Sys2Proof.Machine.execWstream q s
  | .chunkIssue q k => Sys2Proof.Machine.execChunkIssue q k s
  | .chunkCommit q k => Sys2Proof.Machine.execChunkCommit q k s
  | .stageBind q => Sys2Proof.Machine.execStageBind q s
  | .edgeBind q => Sys2Proof.Machine.execEdgeBind q s
  | .pipeStart q => Sys2Proof.Machine.execPipeStart q s
  | .feedPost q => Sys2Proof.Machine.execFeedPost q s
  | .versionPublish q => Sys2Proof.Machine.execVersionPublish q s
  | .schedPolicySet q => Sys2Proof.Machine.execSchedPolicySet q s
  | .edgeRepoint q => Sys2Proof.Machine.execEdgeRepoint q s
  | .replayStep q => Sys2Proof.Machine.execReplayStep q s
  | .pipeStop q => Sys2Proof.Machine.execPipeStop q s
  | .itemChoose g => Sys2Proof.Machine.execItemChoose g s
  | .itemPush g => Sys2Proof.Machine.execItemPush g s
  | .itemComplete g => Sys2Proof.Machine.execItemComplete g s
  | .unitForward e bwd => Sys2Proof.Machine.execUnitForward e bwd s
  | .closingNotice e bwd => Sys2Proof.Machine.execClosingNotice e bwd s
  | .dataFlit port vc => Sys2Proof.Machine.execDataFlit port vc s
  | .notice port vc => Sys2Proof.Machine.execNotice port vc s
  | .credit port vc => Sys2Proof.Machine.execCredit port vc s
  | .openingNotice m => Sys2Proof.Machine.execOpeningNotice m s
  | .closingAck src job edgeId => Sys2Proof.Machine.execClosingAck src job edgeId s
  | .edgeDown e => Sys2Proof.Machine.execEdgeDown e s
  | .stepBoundary => Sys2Proof.Machine.execStepBoundary s
  | .yieldPoint => Sys2Proof.Machine.execYieldPoint s
  | .groupBind q => Sys2Proof.Machine.execGroupBind q s
  | .reduce q => Sys2Proof.Machine.execReduce q s
  | .gather q => Sys2Proof.Machine.execGather q s
  | .normClose q => Sys2Proof.Machine.execNormClose q s
  | .reshard q => Sys2Proof.Machine.execReshard q s
  | .groupRepoint q => Sys2Proof.Machine.execGroupRepoint q s
  | .partialPkt port => Sys2Proof.Machine.execPartialPkt port s
  | .resultPkt port vc => Sys2Proof.Machine.execResultPkt port vc s
  | .closePkt port => Sys2Proof.Machine.execClosePkt port s
  | .shardTimeout tag => Sys2Proof.Machine.execShardTimeout tag s
  | .normContributionSend => Sys2Proof.Machine.execNormContributionSend s
  | .normContribution port => Sys2Proof.Machine.execNormContribution port s
  | .normWindowClose step => Sys2Proof.Machine.execNormWindowClose step s
  | .normTotal port => Sys2Proof.Machine.execNormTotal port s
  | .normTotalTimeout => Sys2Proof.Machine.execNormTotalTimeout s
  | .poisonSourceReport job src => Sys2Proof.Machine.execPoisonSourceReport job src s
  | .poisonCountsClear job => Sys2Proof.Machine.execPoisonCountsClear job s
  | .locketBind q => Sys2Proof.Machine.execLocketBind q s
  | .locketSeal q => Sys2Proof.Machine.execLocketSeal q s
  | .ckptIntervalSet q => Sys2Proof.Machine.execCkptIntervalSet q s
  | .tandem q => Sys2Proof.Machine.execTandem q s
  | .tandemFingerprintRequest m => Sys2Proof.Machine.execTandemFingerprintRequest m s
  | .buddyOffer m => Sys2Proof.Machine.execBuddyOffer m s
  | .locketCopy src job addr bytes => Sys2Proof.Machine.execLocketCopy src job addr bytes s
  | .stateBlock m => Sys2Proof.Machine.execStateBlock m s
  | .feedMirror src job off bytes => Sys2Proof.Machine.execFeedMirror src job off bytes s
  | .gearTableLoad q => Sys2Proof.Machine.execGearTableLoad q s
  | .timetableLoad q => Sys2Proof.Machine.execTimetableLoad q s
  | .submit far => Sys2Proof.Machine.execSubmit far s
  | .jobCancel far => Sys2Proof.Machine.execJobCancel far s
  | .controlList far => Sys2Proof.Machine.execControlList far s
  | .doorbell v => Sys2Proof.Machine.execDoorbell v s
  | .doorbellMessage port => Sys2Proof.Machine.execDoorbellMessage port s
  | .irqStatusClear v => Sys2Proof.Machine.execIrqStatusClear v s
  | .irqMaskWrite v => Sys2Proof.Machine.execIrqMaskWrite v s
  | .mboxGo v => Sys2Proof.Machine.execMboxGo v s
  | .mboxOutReadyClear v => Sys2Proof.Machine.execMboxOutReadyClear v s
  | .mboxErrClear v => Sys2Proof.Machine.execMboxErrClear v s
  | .mboxOutPost msg => Sys2Proof.Machine.execMboxOutPost msg s
  | .bar0Write off size v => Sys2Proof.Machine.execBar0Write off size v s
  | .telemetryPublish => Sys2Proof.Machine.execTelemetryPublish s
  | .cadenceGate meters steps => Sys2Proof.Machine.execCadenceGate meters steps s
  | .occupancyMismatch die => Sys2Proof.Machine.execOccupancyMismatch die s
  | .governorGate meanMs mean100us => Sys2Proof.Machine.execGovernorGate meanMs mean100us s
  | .capFastLimit mean100us => Sys2Proof.Machine.execCapFastLimit mean100us s
  | .throttleEngage sensor reading => Sys2Proof.Machine.execThrottleEngage sensor reading s
  | .throttleStep reading => Sys2Proof.Machine.execThrottleStep reading s
  | .throttleRelease reading => Sys2Proof.Machine.execThrottleRelease reading s
  | .thermalTrip sensor reading => Sys2Proof.Machine.execThermalTrip sensor reading s
  | .coolantEvent inlet outlet => Sys2Proof.Machine.execCoolantEvent inlet outlet s
  | .lockReportSend meanMs estimate => Sys2Proof.Machine.execLockReportSend meanMs estimate s
  | .lockReport m => Sys2Proof.Machine.execLockReport m s
  | .lockBroadcast job => Sys2Proof.Machine.execLockBroadcast job s
  | .lockReceive m => Sys2Proof.Machine.execLockReceive m s
  | .pedalHoldExpire => Sys2Proof.Machine.execPedalHoldExpire s
  | .droopHoldStart die mv => Sys2Proof.Machine.execDroopHoldStart die mv s
  | .droopHoldEnd die mv => Sys2Proof.Machine.execDroopHoldEnd die mv s
  | .droopHoldTimeout die => Sys2Proof.Machine.execDroopHoldTimeout die s
  | .channelRetrainStart ch => Sys2Proof.Machine.execChannelRetrainStart ch s
  | .channelRetrainEnd ch converged => Sys2Proof.Machine.execChannelRetrainEnd ch converged s
  | .holdQueueRetry ch mover => Sys2Proof.Machine.execHoldQueueRetry ch mover s
  | .patrolRead unit => Sys2Proof.Machine.execPatrolRead unit s
  | .writeRunDrain ch => Sys2Proof.Machine.execWriteRunDrain ch s
  | .refreshRateCheck temps => Sys2Proof.Machine.execRefreshRateCheck temps s
  | .rowRemap ch bank row uncorr => Sys2Proof.Machine.execRowRemap ch bank row uncorr s
  | .channelFail ch => Sys2Proof.Machine.execChannelFail ch s
  | .readReq port => Sys2Proof.Machine.execReadReq port s
  | .writeReq port => Sys2Proof.Machine.execWriteReq port s
  | .writeData port => Sys2Proof.Machine.execWriteData port s
  | .readData port => Sys2Proof.Machine.execReadData port s
  | .doneMsg port => Sys2Proof.Machine.execDoneMsg port s
  | .ownQuery port => Sys2Proof.Machine.execOwnQuery port s
  | .ownAnswer port => Sys2Proof.Machine.execOwnAnswer port s
  | .portTrainingAttempt port => Sys2Proof.Machine.execPortTrainingAttempt port s
  | .portTrainingComplete port ok peerMod peerPort expected => Sys2Proof.Machine.execPortTrainingComplete port ok peerMod peerPort expected s
  | .flitReceive port f => Sys2Proof.Machine.execFlitReceive port f s
  | .controlFlit port f => Sys2Proof.Machine.execControlFlit port f s
  | .ackSend port => Sys2Proof.Machine.execAckSend port s
  | .portRetrain port => Sys2Proof.Machine.execPortRetrain port s
  | .portDown port => Sys2Proof.Machine.execPortDown port s
  | .laneSubstitution port lane => Sys2Proof.Machine.execLaneSubstitution port lane s
  | .laneBerWindow port lane ber => Sys2Proof.Machine.execLaneBerWindow port lane ber s
  | .portStandby port => Sys2Proof.Machine.execPortStandby port s
  | .portWake port => Sys2Proof.Machine.execPortWake port s
  | .transitForward port vc => Sys2Proof.Machine.execTransitForward port vc s
  | .routePatch port => Sys2Proof.Machine.execRoutePatch port s
  | .patchAck port => Sys2Proof.Machine.execPatchAck port s
  | .unreachable port => Sys2Proof.Machine.execUnreachable port s
  | .mctpPacket port => Sys2Proof.Machine.execMctpPacket port s
  | .timeMessageSend => Sys2Proof.Machine.execTimeMessageSend s
  | .timeMessage m => Sys2Proof.Machine.execTimeMessage m s
  | .dieFlitReceive link far f => Sys2Proof.Machine.execDieFlitReceive link far f s
  | .dieControlFlit link far f => Sys2Proof.Machine.execDieControlFlit link far f s
  | .propose link f => Sys2Proof.Machine.execPropose link f s
  | .accept link f => Sys2Proof.Machine.execAccept link f s
  | .commit link far f => Sys2Proof.Machine.execCommit link far f s
  | .widthChangeTimeout link => Sys2Proof.Machine.execWidthChangeTimeout link s
  | .dieLinkRetrain link how => Sys2Proof.Machine.execDieLinkRetrain link how s
  | .wireSubstitution link far lane wire => Sys2Proof.Machine.execWireSubstitution link far lane wire s
  | .dieLinkDown link laser => Sys2Proof.Machine.execDieLinkDown link laser s
  | .barrierArrive die => Sys2Proof.Machine.execBarrierArrive die s
  | .beaconFail die => Sys2Proof.Machine.execBeaconFail die s
  | .windowStopTime w => Sys2Proof.Machine.execWindowStopTime w s
  | .agingPeriod => Sys2Proof.Machine.execAgingPeriod s
  | .commandBoundary => Sys2Proof.Machine.execCommandBoundary s
  | .switchComplete => Sys2Proof.Machine.execSwitchComplete s
  | .switchRequest m => Sys2Proof.Machine.execSwitchRequest m s
  | .switchInstant m => Sys2Proof.Machine.execSwitchInstant m s
  | .switchInstantReached job => Sys2Proof.Machine.execSwitchInstantReached job s
  | .startInstantTimeout job => Sys2Proof.Machine.execStartInstantTimeout job s
  | .tileFail tile => Sys2Proof.Machine.execTileFail tile s
  | .scratchBankFail tile bank uncorr => Sys2Proof.Machine.execScratchBankFail tile bank uncorr s
  | .regulatorPhaseFail die phase => Sys2Proof.Machine.execRegulatorPhaseFail die phase s
  | .wearSample slow rest => Sys2Proof.Machine.execWearSample slow rest s
  | .wearLedgerWrite kind idx slope date => Sys2Proof.Machine.execWearLedgerWrite kind idx slope date s
  | .hostPortFailover trains => Sys2Proof.Machine.execHostPortFailover trains s
  | .moduleFailed => Sys2Proof.Machine.execModuleFailed s
  | .failureNotice src job => Sys2Proof.Machine.execFailureNotice src job s
  | .suspect src job x => Sys2Proof.Machine.execSuspect src job x s
  | .probeTimeout job x => Sys2Proof.Machine.execProbeTimeout job x s
  | .recover src job => Sys2Proof.Machine.execRecover src job s
  | .aliasOrder src job x y => Sys2Proof.Machine.execAliasOrder src job x y s
  | .repoint src job => Sys2Proof.Machine.execRepoint src job s
  | .replayOrder src job step => Sys2Proof.Machine.execReplayOrder src job step s
  | .durable src job step => Sys2Proof.Machine.execDurable src job step s
  | .quiescentReport m => Sys2Proof.Machine.execQuiescentReport m s
  | .quiescentTimeout job => Sys2Proof.Machine.execQuiescentTimeout job s
  | .takeoverOffer m => Sys2Proof.Machine.execTakeoverOffer m s
  | .takeoverAcceptTimeout job => Sys2Proof.Machine.execTakeoverAcceptTimeout job s
  | .stragglerReport src job step => Sys2Proof.Machine.execStragglerReport src job step s
  | .retire src job step => Sys2Proof.Machine.execRetire src job step s
  | .mssRestart => Sys2Proof.Machine.execMssRestart s
  | .requestUpdate => Sys2Proof.Machine.execRequestUpdate s
  | .firmwareData off bytes => Sys2Proof.Machine.execFirmwareData off bytes s
  | .transferComplete => Sys2Proof.Machine.execTransferComplete s
  | .verifyComplete => Sys2Proof.Machine.execVerifyComplete s
  | .applyComplete => Sys2Proof.Machine.execApplyComplete s
  | .activateFirmware => Sys2Proof.Machine.execActivateFirmware s
  | .sensorRead id => Sys2Proof.Machine.execSensorRead id s
  | .effecterPowerCap v => Sys2Proof.Machine.execEffecterPowerCap v s
  | .effecterStandbyEnable v => Sys2Proof.Machine.execEffecterStandbyEnable v s
  | .effecterPedal v => Sys2Proof.Machine.execEffecterPedal v s
  | .marginMemory v => Sys2Proof.Machine.execMarginMemory v s
  | .marginDieLinks v => Sys2Proof.Machine.execMarginDieLinks v s
  | .marginSpoke v => Sys2Proof.Machine.execMarginSpoke v s
  | .marginRunComplete recs refused => Sys2Proof.Machine.execMarginRunComplete recs refused s
  | .stressRequest src port => Sys2Proof.Machine.execStressRequest src port s
  | .effecterEject v => Sys2Proof.Machine.execEffecterEject v s
  | .effecterDate v => Sys2Proof.Machine.execEffecterDate v s
  | .powerOnSequence env => Sys2Proof.Machine.execPowerOnSequence env s
  | .undervoltageShutdown mv => Sys2Proof.Machine.execUndervoltageShutdown mv s
  | .undervoltageRecovery mv => Sys2Proof.Machine.execUndervoltageRecovery mv s
  | .overvoltageOff mv => Sys2Proof.Machine.execOvervoltageOff mv s
  | .inputLoss mv => Sys2Proof.Machine.execInputLoss mv s
  | .perst hostPort => Sys2Proof.Machine.execPerst hostPort s
  | .shock x y z => Sys2Proof.Machine.execShock x y z s
  | .tapUnlock challenge sig => Sys2Proof.Machine.execTapUnlock challenge sig s
  | .standbyConverterUp mv => Sys2Proof.Machine.execStandbyConverterUp mv s
  | .pwrEnQualified mv => Sys2Proof.Machine.execPwrEnQualified mv s
  | .perstDeassert hostPort => Sys2Proof.Machine.execPerstDeassert hostPort s
  | .dieControlFlitSend link far => Sys2Proof.Machine.execDieControlFlitSend link far s
  | .mctpEndpointMessage kind v => Sys2Proof.Machine.execMctpEndpointMessage kind v s
  | .edgeClosing src job edgeId => Sys2Proof.Machine.execEdgeClosing src job edgeId s
  | .idcode => Sys2Proof.Machine.execIdcode s
  | .bypass => Sys2Proof.Machine.execBypass s
  | .samplePreload => Sys2Proof.Machine.execSamplePreload s
  | .extest => Sys2Proof.Machine.execExtest s
  | .extestPulse => Sys2Proof.Machine.execExtestPulse s
  | .extestTrain => Sys2Proof.Machine.execExtestTrain s
  | .testLogicReset => Sys2Proof.Machine.execTestLogicReset s
  | .logFlashWrite => Sys2Proof.Machine.execLogFlashWrite s
  | .enterRun => Sys2Proof.Machine.execEnterRun s
  | .resetPin => Sys2Proof.Machine.execResetPin s
  | .ejectRequest => Sys2Proof.Machine.execEjectRequest s
  | .forceEject => Sys2Proof.Machine.execForceEject s
  | .drainComplete => Sys2Proof.Machine.execDrainComplete s
  | .surpriseRemoval => Sys2Proof.Machine.execSurpriseRemoval s

end Sys2Proof.Machine
end

