-- ==== Sys2Proof/Safety.lean ====
section
/-! DEFINITION. What the statements say of the module, in their own terms. -/
namespace Sys2Proof.Machine

/-- A command answers a next state of which something holds. -/
def Answers (i : Instr) (s : State) (P : State → Prop) : Prop := ∃ t, exec i s = .next t ∧ P t

/-! ## Records at the head of a queue -/

/-- Record r at the head of queue q of the running job j can be fetched now: list l heads the queue, no boundary stops the job,
the die of the engine does not hold, the queue is not halted and holds no record back, and no queue of its engine goes first (R31,
R47, R50, R61, R332). -/
structure AtHead (ref : QRef) (s : State) (j : Job) (q : Queue) (l : ListRef) (r : Nat) : Prop where
  job    : s.runJob = some j
  queue  : j.queue? ref = some q
  list   : q.lists.head? = some l
  record : s.num (l.addr + 64 * q.pos) 64 = r
  moves  : holding s j = false
  awake  : dieHeld s (engDie ref) = false
  free   : canFetch q = true
  turn   : myTurn s j ref (couldGo s j) = true

/-- The checks 1 to 3 of R56 on record r: header first, then, for a kind the engine accepts, what its body must satisfy. -/
def firstChecks (sp : CmdSpec) (ref : QRef) (s : State) (j : Job) (q : Queue) (l : ListRef) (r : Nat) : Option Fail :=
  firstFail (hdrChecks j ref.eng r (decide (l.count ≤ q.pos + 1)) ++
    (if accepts ref.eng (hKind r) then sp.checks s j q (sp.whole s r) else [])) 0 7

/-- The queue with record r, as its engine holds it, taken up. -/
def taken (q : Queue) (r : Nat) : Queue := { q with cur := some { record := r } }

/-- The state with the record taken up by its queue. -/
def fetched (s : State) (j : Job) (q : Queue) (r : Nat) : State :=
  (s.takeTurn q.ref).updJob j.id (fun x => x.setQueue (taken q r))

/-- What a command meets at its start: the state, the job and the queue with record r, as its engine holds it, taken up. -/
def atStart {α : Type} (s : State) (j : Job) (q : Queue) (r : Nat) (k : State → Job → Queue → Nat → α) : α :=
  k (fetched s j q r) (j.setQueue (taken q r)) (taken q r) r

/-- Record r passes every check, asks no peer for its ownership, and nothing that a command waits for holds it back (R46, R53,
R54, R56, R154). -/
structure Passes (sp : CmdSpec) (ref : QRef) (s : State) (j : Job) (q : Queue) (l : ListRef) (r : Nat) : Prop where
  head   : AtHead ref s j q l r
  kind   : hKind r = sp.kind
  known  : accepts ref.eng (hKind r) = true
  fetch  : sp.fetch s j q r = true
  checks : firstChecks sp ref s j q l r = none
  alone  : sp.asks (s.takeTurn ref) j q (sp.whole s r) = (s.takeTurn ref, [])
  wait   : waitOver s r = true
  fence  : Sys2Proof.Machine.alone q.ref r = true → q.flight = []
  ready  : atStart s j q (sp.whole s r) sp.ready = true
  gate   : gateOf j r = none
  late   : firstFail (atStart s j q (sp.whole s r) sp.late) 7 2 = none

/-- Such a record starts at once: its kind makes no exchange with peers first (R245, R355). -/
structure StartsNow (sp : CmdSpec) (ref : QRef) (s : State) (j : Job) (q : Queue) (l : ListRef) (r : Nat) : Prop where
  passes : Passes sp ref s j q l r
  alone  : sp.exchange (fetched s j q (sp.whole s r)) (j.setQueue (taken q (sp.whole s r))) (taken q (sp.whole s r))
    { record := sp.whole s r } = none

/-- What the start of a record gives. -/
def startOf (sp : CmdSpec) (s : State) (j : Job) (q : Queue) (r : Nat) : Started :=
  atStart s j q (sp.whole s r) (begin sp)

/-- A completing command owes a completion record (R60). -/
def needRecordOf (f : Flight) : Bool := State.needRecord f.record f.res

/-- The commands of a queue and how each is run. -/
def engineCommands (q : QRef) : List (Instr × CmdSpec) :=
  [(.nop q, plainSpec 0x00), (.wait q, plainSpec 0x01), (.signal q, plainSpec 0x02), (.pushList q, pushSpec),
   (.queueControl q, ctlSpec)] ++
  [(.mm q, mmSpec), (.accInit q, initSpec), (.accDrain q, drainSpec), (.attnStep q, attnSpec), (.attnFinal q, finalSpec),
   (.vprogLoad q, vpSpec), (.vrun q, vrSpec)] ++
  [(.moveData q, moveSpec), (.fill q, fillSpec), (.wstream q, wsSpec)] ++
  [(.stageBind q, stageSpec), (.edgeBind q, edgeSpec), (.pipeStart q, pipeSpec), (.feedPost q, feedSpec),
   (.versionPublish q, publishSpec), (.schedPolicySet q, policySpec), (.edgeRepoint q, repointSpec),
   (.replayStep q, replaySpec), (.pipeStop q, stopSpec)] ++
  [(.groupBind q, groupSpec), (.reduce q, reduceSpec), (.gather q, gatherSpec), (.normClose q, closeSpec),
   (.reshard q, reshardSpec), (.groupRepoint q, gpointSpec)] ++
  [(.locketBind q, locketSpec), (.locketSeal q, sealSpec), (.ckptIntervalSet q, ckptSpec), (.tandem q, tandemSpec)] ++
  [(.gearTableLoad q, gearSpec), (.timetableLoad q, ttSpec)]

/-! ## Vector instructions -/

/-- The opcode and the command of each vector instruction (R135). -/
def vectorCommands (t : Nat) : List (Nat × Instr) :=
  [(0x00, .vnop t), (0x01, .vld t), (0x02, .vldh t), (0x03, .vst t), (0x04, .vsth t), (0x05, .vlda t), (0x06, .vsta t),
   (0x10, .vadd t), (0x11, .vsub t), (0x12, .vmul t), (0x13, .vfma t), (0x14, .vmin t), (0x15, .vmax t), (0x16, .vabs t),
   (0x17, .vneg t), (0x18, .vmovi t), (0x19, .vsel t), (0x1A, .vcvti t), (0x1B, .vscl t), (0x1C, .vaddw t),
   (0x1D, .vmulw t), (0x1E, .vfmaw t), (0x20, .vaddh t), (0x21, .vmulh t), (0x22, .vfmah t), (0x28, .vcmp t),
   (0x29, .mlogic t), (0x30, .vexp t), (0x31, .vlog t), (0x32, .vrcp t), (0x33, .vrsqrt t), (0x34, .vtanh t),
   (0x38, .vrsum t), (0x39, .vrmax t)]

/-- Lane i of register v of a tile, and the number it holds. -/
def lane (s : State) (tile v i : Nat) : Nat := (sget 0 s.tiles.vregs ((tile * 32 + v) * 64 + i)).toNat
def laneVal (s : State) (tile v i : Nat) : Val := decodeFp w40 (lane s tile v i)

/-- The lane-wise arithmetic of R135: opcode, command, whether the result is W40, and the exact operation with its INVALID flag. -/
def laneArithmetic (t : Nat) : List (Nat × Instr × Bool × (Val → Val → Val → Val × Bool)) :=
  [(0x10, .vadd t, false, fun a b _ => addVal a b), (0x11, .vsub t, false, fun a b _ => addVal a b.neg),
   (0x12, .vmul t, false, fun a b _ => mulVal a b), (0x13, .vfma t, false, fmaVal),
   (0x14, .vmin t, false, fun a b _ => (minVal a b, false)), (0x15, .vmax t, false, fun a b _ => (maxVal a b, false)),
   (0x1C, .vaddw t, true, fun a b _ => addVal a b), (0x1D, .vmulw t, true, fun a b _ => mulVal a b), (0x1E, .vfmaw t, true, fmaVal),
   (0x30, .vexp t, false, fun a _ _ => (expVal a, false)), (0x31, .vlog t, false, fun a _ _ => logVal a),
   (0x32, .vrcp t, false, fun a _ _ => (rcpVal a, false)), (0x33, .vrsqrt t, false, fun a _ _ => rsqrtVal a),
   (0x34, .vtanh t, false, fun a _ _ => (tanhVal a, false))]

/-- The instruction word that a tile's VRUN issues next is w, of flight i of queue q of the running job j, at run v. -/
structure Issues (s : State) (tile : Nat) (j : Job) (q : Queue) (i : Nat) (f : Flight) (v : VRun) (w : Nat) : Prop where
  run  : vrunOf s tile = some (j, q, i, f, v)
  word : (sget 0 s.tiles.istore (tile * 256 + bits f.record 128 8 + v.pc)).toNat = w

end Sys2Proof.Machine
end

