-- ==== Sys2Proof/Certificates/Slice0/Obligations.lean ====
section
/-! DEFINITION. The statements about the model. -/
open Sys2Proof Sys2Proof.Machine

/-- A step with a command in front of the queue is exactly that command's effect on the state whose queue is the rest; the queue
of commands is the model's (log entry 1). (R65) -/
def Obligations.StepTakesFront : Prop :=
  ∀ (c : Instr) (rest : List Instr) (s : State), s.pending = c :: rest → step s = exec c { s with pending := rest }

/-- With an empty queue a step answers a next state, the queue stays empty, and the management time is one tick of 10 ns later
unless the module is OFF, where nothing changes. That the empty queue stands for a tick is the model's choice (log entry 2).
(R412) -/
def Obligations.IdleStepIsOneTick : Prop :=
  ∀ s : State, s.pending = [] →
    (s.mod.st ≠ .off → ∃ t, step s = .next t ∧ t.now = s.now + 1 ∧ t.pending = []) ∧ (s.mod.st = .off → step s = .next s)

/-- Whatever the state, every command answers a next state: it never stops. The commands that wait behind it stay as they are,
and the last things it sends out are the MSI-X vectors of exactly those causes that are set and unmasked after it and were
not so before it, each once, in ascending order. (R69) -/
def Obligations.EveryCommandSettles : Prop :=
  ∀ (c : Instr) (s : State), ∃ t pre, exec c s = .next t ∧ t.pending = s.pending ∧
    t.out = pre ++ ((List.range 8).filter (fun n =>
      t.bar.irqStatus.getLsbD n && !t.bar.irqMask.getLsbD n &&
        !(s.bar.irqStatus.getLsbD n && !s.bar.irqMask.getLsbD n))).map Out.msix

/-- From every state whose memory lists its bytes by strictly rising address, none of them zero, every step leads to such a
state, whatever command is in front: so equal memories are equal data after any run. The form is the model's (log entry 3).
(R161, R431) -/
def Obligations.MemoryStaysCanonical : Prop :=
  ∀ s t : State, s.mem.wf = true → step s = .next t → t.mem.wf = true

/-- After reset the module is in STANDBY, no cause is set and every cause is masked, the mailbox and the error counts read zero,
no job is admitted, and memory lists nothing, which is its canonical form. (R67, R70, R71, R414, R431) -/
def Obligations.ResetValues : Prop :=
  State.reset.mod.st = .standby ∧ State.reset.bar.irqStatus = 0 ∧ State.reset.bar.irqMask = 0xFF ∧
  barWord State.reset 0x10 4 = 0 ∧ (∀ c < 16, State.reset.bar.counts[c]? = some 0) ∧ State.reset.jobs = [] ∧
  State.reset.pending = [] ∧ State.reset.mem = [] ∧ State.reset.mem.wf = true

/-- Where the host port presents the device and its die does not hold, a write of IRQ_STATUS clears exactly the causes whose bits
are written 1 and a write of IRQ_MASK stores the low eight bits; nothing else changes but the MSI-X vectors that become due.
Elsewhere both change nothing. Where the host port presents the device and its die does not hold: an aligned 32-bit write of
the doorbell, of IRQ_STATUS, of IRQ_MASK and of MBOX_CTRL is the command of that register; one of MBOX_IN changes the four
bytes at its place and no other; every other write (misaligned, of another size, of a read-only or reserved place) changes
nothing. MBOX_IN is read in the model's canonical form, which the write keeps. Rows named: IRQ_STATUS_CLEAR, IRQ_MASK_WRITE,
BAR0_WRITE, DOORBELL, MBOX_GO, MBOX_OUT_READY_CLEAR, MBOX_ERR_CLEAR. (R67, R68, R69, R72) -/
def Obligations.Bar0RegistersWrite : Prop :=
  (∀ (v : Word32) (s : State),
    (barUp s = true → dieHeld s (hostDie s) = false →
      exec (.irqStatusClear v) s =
        .next (settle s { s with bar := { s.bar with irqStatus := s.bar.irqStatus &&& ~~~(v.setWidth 8) } }) ∧
      exec (.irqMaskWrite v) s = .next (settle s { s with bar := { s.bar with irqMask := v.setWidth 8 } })) ∧
    (barUp s = false ∨ dieHeld s (hostDie s) = true → exec (.irqStatusClear v) s = .next s ∧ exec (.irqMaskWrite v) s = .next s)) ∧
  (∀ (off size : Nat) (v : BitVec 64) (s : State), barUp s = true → dieHeld s (hostDie s) = false →
    exec (.bar0Write 0x0 4 v) s = exec (.doorbell (v.setWidth 32)) s ∧
    exec (.bar0Write 0x8 4 v) s = exec (.irqStatusClear (v.setWidth 32)) s ∧
    exec (.bar0Write 0xC 4 v) s = exec (.irqMaskWrite (v.setWidth 32)) s ∧
    (v.getLsbD 16 = true → exec (.bar0Write 0x10 4 v) s = exec (.mboxGo (v.setWidth 32)) s) ∧
    (v.getLsbD 16 = false → v.getLsbD 18 = true → exec (.bar0Write 0x10 4 v) s = exec (.mboxOutReadyClear (v.setWidth 32)) s) ∧
    (v.getLsbD 16 = false → v.getLsbD 19 = true → exec (.bar0Write 0x10 4 v) s = exec (.mboxErrClear (v.setWidth 32)) s) ∧
    (off % 4 = 0 → 0x100 ≤ off → off ≤ 0x4FF → ∃ m, exec (.bar0Write off 4 v) s =
        .next (settle s { s with bar := { s.bar with mboxIn := m } }) ∧
      (swf 0 s.bar.mboxIn = true → swf 0 m = true ∧
        (∀ i < 4, sget 0 m (off - 0x100 + i) = BitVec.ofNat 8 (v.toNat >>> (8 * i))) ∧
        (∀ a, (a < off - 0x100 ∨ off - 0x100 + 4 ≤ a) → sget 0 m a = sget 0 s.bar.mboxIn a))) ∧
    ((size ≠ 4 ∨ off % 4 ≠ 0 ∨ (off ≠ 0 ∧ off ≠ 8 ∧ off ≠ 0xC ∧ off ≠ 0x10 ∧ (off < 0x100 ∨ 0x4FF < off))) →
      exec (.bar0Write off size v) s = .next s))

/-- A write of MBOX_CTRL with GO: with 1 to 1,024 bytes and BUSY 0 it makes BUSY 1 and gives the MSS exactly those bytes of
MBOX_IN; while BUSY is 1 it is refused with E_STATE, and with a length of 0 or above 1,024 with E_ILL_FIELD, either of which
sets ERR and LAST_ERROR with engine 7 and delivers nothing. IN_LEN takes the value written in every case, before GO is
judged, OUT_READY and ERR clear where their bit is written 1, and nothing else changes. The codes of the two refusals are the
model's reading (log entry 14). A message of 1 to 1,024 bytes from the MSS joins those it holds: while OUT_READY is 0 the
first of them goes into MBOX_OUT with its length, sets OUT_READY and the cause MBOX; while OUT_READY is 1 they stay held.
BUSY ends with the message that answers the inbound one, and stays with any other. A write of MBOX_CTRL without GO clears
OUT_READY and ERR where their bit is written 1, and stores IN_LEN; nothing else changes. With GO it is that command. Rows
named: MBOX_GO, MBOX_OUT_POST, MBOX_OUT_READY_CLEAR, MBOX_ERR_CLEAR. (R70, R71) -/
def Obligations.MailboxBothWays : Prop :=
  (∀ (v : Word32) (s : State), barUp s = true → dieHeld s (hostDie s) = false →
    let n := v.toNat % 2048
    let b := { s.bar with
      inLen := BitVec.ofNat 11 n, outReady := s.bar.outReady && !v.getLsbD 18, mboxErr := s.bar.mboxErr && !v.getLsbD 19 }
    (s.bar.busy = false → 1 ≤ n → n ≤ 1024 → exec (.mboxGo v) s = .next (settle s { s with
      bar := { b with busy := true }
      mss := { s.mss with inbox := s.mss.inbox ++ [(256, (List.range n).map (sget 0 s.bar.mboxIn))] } })) ∧
    (s.bar.busy = true → exec (.mboxGo v) s = .next (settle s { s with
      bar := { b with mboxErr := true, lastError := ⟨0x2001, 7, 0, 0⟩ } })) ∧
    (s.bar.busy = false → (n = 0 ∨ 1024 < n) → exec (.mboxGo v) s = .next (settle s { s with
      bar := { b with mboxErr := true, lastError := ⟨0x1001, 7, 0, 0⟩ } }))) ∧
  ((∀ (msg : Bytes) (reply : Bool) (s : State),
    let busy := s.bar.busy && !reply
    let inbox := if reply then s.mss.inbox.filter (fun x => x.1 != 256) else s.mss.inbox
    let q := s.bar.outQueue ++ (if 1 ≤ msg.length ∧ msg.length ≤ 1024 then [msg] else [])
    (∀ m rest, s.bar.outReady = false → q = m :: rest → exec (.mboxOutPost ⟨msg, reply⟩) s = .next (settle s { s with
      bar := { s.bar with mboxOut := m ++ s.bar.mboxOut.drop m.length, outLen := BitVec.ofNat 11 m.length, outReady := true,
                          outQueue := rest, busy := busy, irqStatus := s.bar.irqStatus ||| 8 }
      mss := { s.mss with inbox := inbox } })) ∧
    (s.bar.outReady = true ∨ q = [] → exec (.mboxOutPost ⟨msg, reply⟩) s = .next (settle s { s with
      bar := { s.bar with outQueue := q, busy := busy }, mss := { s.mss with inbox := inbox } }))) ∧
  (∀ (v : Word32) (s : State), barUp s = true → dieHeld s (hostDie s) = false →
    (v.getLsbD 16 = true → exec (.mboxOutReadyClear v) s = exec (.mboxGo (v ||| 0x40000)) s ∧
      exec (.mboxErrClear v) s = exec (.mboxGo (v ||| 0x80000)) s) ∧
    (v.getLsbD 16 = false → exec (.mboxOutReadyClear v) s = .next (settle s { s with
        bar := { s.bar with inLen := v.setWidth 11, outReady := false, mboxErr := s.bar.mboxErr && !v.getLsbD 19 } }) ∧
      exec (.mboxErrClear v) s = .next (settle s { s with
        bar := { s.bar with inLen := v.setWidth 11, outReady := s.bar.outReady && !v.getLsbD 18, mboxErr := false } }))))

/-- Where the host port presents the device and its die does not hold, a doorbell write of a ring that the host owns: a TAIL at
most the entry count past HEAD is held in place of the last one and nothing else changes; a larger one is discarded with
E_ILL_FIELD, and any from the host to a ring that a peer owns with E_PERM_PROTECT: TAIL stays, LAST_ERROR names engine 6, the
count of the code's class advances, and the cause DB_ERR is set. Rows named: DOORBELL. (R66, R68, R71) -/
def Obligations.DoorbellHoldsNewestTail : Prop :=
  ∀ (v : Word32) (s : State), barUp s = true → dieHeld s (hostDie s) = false →
    let ahead := (v.toNat % 65536 + 65536 - s.wring.head.toNat) % 65536
    let drop (code : Nat) : State := { s with bar := { s.bar with
      lastError := ⟨code, 6, 0, 0⟩, irqStatus := s.bar.irqStatus ||| 0x20
      counts := s.bar.counts.set (code / 4096) (satAdd 32 (s.bar.counts.getD (code / 4096) 0) 1) } }
    (s.wring.peer = false → ahead ≤ 2 ^ s.wring.log2 →
      exec (.doorbell v) s = .next (settle s { s with wring := { s.wring with tail := v.setWidth 16 } })) ∧
    (s.wring.peer = false → 2 ^ s.wring.log2 < ahead → exec (.doorbell v) s = .next (settle s (drop 0x1001))) ∧
    (s.wring.peer = true → exec (.doorbell v) s = .next (settle s (drop 0x9001)))

/-- In STANDBY, EJECT_READY and FAULT, and in READY while HOLD_N is low: BYPASS, IDCODE and SAMPLE/PRELOAD load their
instruction, the last two with a free value shifted out; EXTEST, EXTEST_PULSE and EXTEST_TRAIN load theirs and hold READY
until a test-logic reset, which loads IDCODE and ends that hold; nothing else changes. In READY with HOLD_N high, and in
every other state, none of them changes anything, but that a test-logic reset (TRST_N) still ends the hold of an EXTEST
instruction in READY. That a test-logic reset loads IDCODE is IEEE 1149.1 (log entry 62); TRST_N beside a high HOLD_N is the
model's reading (log entry 161). TAP_UNLOCK where the TAP is enabled: with a challenge signed by one of the four keys of the
factory record the private instructions respond from then on; with a signature that no key accepts nothing changes. Nothing
else changes in either case. Whether a signature is good is a free function of key, challenge and signature. Rows named:
BYPASS, EXTEST, EXTEST_PULSE, EXTEST_TRAIN, TEST_LOGIC_RESET, IDCODE, SAMPLE_PRELOAD, TAP_UNLOCK. (R423, R428) -/
def Obligations.TapAnswersWhereEnabled : Prop :=
  (∀ s : State,
    let load (i : TapIr) : State := { s with mod := { s.mod with tap := i } }
    let test (i : TapIr) : State := { s with mod := { s.mod with tap := i, tapTest := true } }
    let shift (i : TapIr) (o : Nat) : State :=
      { load i with free := s.free + 1, out := s.out ++ [.pin o (Config.freeNat s.free)] }
    let on := s.mod.st = .standby ∨ (s.mod.st = .ready ∧ s.mod.holdN = false) ∨ s.mod.st = .ejectReady ∨ s.mod.st = .fault
    let reset : State := { s with mod := { s.mod with tap := .idcode, tapTest := false } }
    (on →
      exec .bypass s = .next (settle s (load .bypass)) ∧ exec .extest s = .next (settle s (test .extest)) ∧
      exec .extestPulse s = .next (settle s (test .extestPulse)) ∧
      exec .extestTrain s = .next (settle s (test .extestTrain)) ∧
      exec .testLogicReset s = .next (settle s reset) ∧
      exec .idcode s = .next (settle s (shift .idcode 32)) ∧
      exec .samplePreload s = .next (settle s (shift .sample 33))) ∧
    (¬ on →
      (∀ c ∈ [Instr.bypass, .extest, .extestPulse, .extestTrain, .idcode, .samplePreload], exec c s = .next s) ∧
      (s.mod.st = .ready → s.mod.tapTest = true → exec .testLogicReset s = .next (settle s reset)) ∧
      (¬ (s.mod.st = .ready ∧ s.mod.tapTest = true) → exec .testLogicReset s = .next s))) ∧
  (∀ (c g : BitVec 768) (s : State), tapEnabled s = true →
    let good := ∃ slot < 4, ∃ k, s.keyIn slot = some k ∧
      Config.signatureOk k (leBytes 96 c.toNat) (leBytes 96 g.toNat) = true
    (good → exec (.tapUnlock c g) s = .next (settle s { s with mod := { s.mod with tapOpen := true } })) ∧
    (¬ good → exec (.tapUnlock c g) s = .next s))

/-- When the packet at HEAD of the served ring is of the row's type and passes the checks on TYPE and reserved fields: in RUN a
SUBMIT whose descriptor's place is aligned and mapped and which no check of admission fails enters its job; in RUN, DRAIN and
FAULT a JOB_CANCEL of an admitted running job, with none pending, is deferred and stops the choice of its items; one of a
parked job ends it at once; in RUN a CONTROL_LIST without IMMEDIATE is placed on the job-control queue, and with IMMEDIATE
its QUEUE_CONTROL records are executed. The result of each then follows, of the JOB_CANCEL with DEFERRED. Where a check
fails, the failure is the result. The packet of a peer's ring is read from it first, which changes no memory, no job and
nothing of the ring. In DRAIN, and in FAULT with main power on, a SUBMIT or CONTROL_LIST at HEAD that passes the checks on
TYPE and reserved fields is answered with E_STATE_MODULE before any other field of it is read; a packet that fails those
checks is answered with that failure's code in these states and in RUN. In every other state the ring is not served and
nothing changes. The result of a packet of a host-owned ring lands in entry W mod 2^k behind the packet entries, W being the
results written: the 32 bytes there are the record, and every byte of memory outside them is as before; of a ring in a peer's
memory it goes to that peer, and no byte of this module's memory changes. HEAD and W each advance by one, the cause PKT is
set, TAIL and the ring's place stay, and the count of the code's class advances when the code is not 0. Rows named: SUBMIT,
JOB_CANCEL, CONTROL_LIST. (R64, R65, R69, R71, R327, R340, R398) -/
def Obligations.WorkRingAnswersPackets : Prop :=
  (∀ (far : BitVec 512) (s : State) (p : Nat), headPacket far s = some p → firstFail (pkChecks p) 0 7 = none →
    let u := s.readRing
    (pkType p = 1 → s.mod.st = .run → pkAddr p % 64 = 0 → u.inStore (pkAddr p) 128 = true →
      admitFail u (pkJob p) (readItems u (pkAddr p)) = none →
      exec (.submit far) s = .next (settle s ((u.enterJob (pkAddr p) (readItems u (pkAddr p))).finishPkt p {}))) ∧
    (∀ j, pkType p = 2 → u.job? (pkJob p) = some j → j.st = .running → cancelPending j = false →
      exec (.jobCancel far) s = .next (settle s (((u.updJob j.id (fun j => { j with
        deferrals := j.deferrals ++ [{ kind := .jobCancel, record := p, queue := ⟨5, 0, 0⟩, since := u.fabric }]
        cancel := some (pkTag p, u.wring.head.toNat) })).updPipe j.id (fun x => { x with stopped := true })).finishPkt p
          { deferred := true }))) ∧
    (∀ j q, pkType p = 3 → s.mod.st = .run → pkImmediate p = false → u.job? (pkJob p) = some j → j.admitted = true →
      j.queue? ⟨5, 0, 0⟩ = some q → q.lists.length < 64 → firstFail (listChecks u p) 0 7 = none →
      exec (.controlList far) s =
        .next (settle s ((u.pushList j.id ⟨5, 0, 0⟩ (pkAddr p) (pkCount p) none).finishPkt p {}))) ∧
    (∀ j, pkType p = 3 → s.mod.st = .run → pkImmediate p = true → u.job? (pkJob p) = some j → j.admitted = true →
      firstFail (listChecks u p) 0 7 = none →
      exec (.controlList far) s = .next (settle s ((runControls j.id (pkAddr p) (pkCount p) 0 u).1.finishPkt p
        (runControls j.id (pkAddr p) (pkCount p) 0 u).2)) ∧
      (∀ g, pkCount p = 1 → let r := u.num (pkAddr p) 64
        hKind r = 4 → hWaitOp r = 0 → hSigOp r = 0 → firstFail (hdrChecks j 5 r true) 0 7 = none →
        (∀ q, firstFail (ctlChecks u j q r) 0 7 = none) → j.queue? (targetOf r) = some g → g.halted = true →
        exec (.controlList far) s = .next (settle s ((u.controlQueue j.id (targetOf r) (bits r 208 2)).finishPkt p {})))) ∧
    (∀ f, pkType p = 1 → s.mod.st = .run → pkAddr p % 64 = 0 → u.inStore (pkAddr p) 128 = true →
      admitFail u (pkJob p) (readItems u (pkAddr p)) = some f → exec (.submit far) s = .next (settle s (u.finishPkt p (pktFail f)))) ∧
    (∀ j, pkType p = 2 → u.job? (pkJob p) = some j → j.st = .parked → cancelPending j = false →
      (∀ w, u.sched.switch = some w → w.incoming ≠ some j.id) →
      exec (.jobCancel far) s = .next (settle s (((u.updJob j.id (fun j => { j with
        deferrals := j.deferrals ++ [{ kind := .jobCancel, record := p, queue := ⟨5, 0, 0⟩, since := u.fabric }]
        cancel := some (pkTag p, u.wring.head.toNat) })).endJob j.id).finishPkt p { deferred := true }))) ∧
    (pkType p = 2 → u.job? (pkJob p) = none → exec (.jobCancel far) s = .next (settle s (u.finishPkt p { code := eJob }))) ∧
    (∀ j, pkType p = 2 → u.job? (pkJob p) = some j → j.admitted = true → cancelPending j = true →
      exec (.jobCancel far) s = .next (settle s (u.finishPkt p { code := ePending }))) ∧
    u.mem = s.mem ∧ u.jobs = s.jobs ∧ u.wring = s.wring ∧ (s.wring.peer = false → u = s)) ∧
  (∀ (far : BitVec 512) (s : State) (p : Nat) (c : Instr), c = .submit far ∨ c = .controlList far →
    (headPacket far s = some p → (pkType p = 1 ∧ c = .submit far ∨ pkType p = 3 ∧ c = .controlList far) → s.mod.st ≠ .run →
      firstFail (pkChecks p) 0 7 = none → exec c s = .next (settle s (s.readRing.finishPkt p { code := 0x2011 }))) ∧
    (∀ f, headPacket far s = some p → (pkType p = 1 ∧ c = .submit far ∨ pkType p = 3 ∧ c = .controlList far) →
      firstFail (pkChecks p) 0 7 = some f → exec c s = .next (settle s (s.readRing.finishPkt p (pktFail f)))) ∧
    ((s.mod.st = .ready ∨ s.mod.st = .ejectReady ∨ (s.mod.st = .fault ∧ s.mod.mainOn = false)) → exec c s = .next s)) ∧
  (∀ (s : State) (p : Nat) (r : PktResult),
    let w := s.wring
    let a := w.base + 64 * 2 ^ w.log2 + 32 * (w.wcount % 2 ^ w.log2)
    let t := s.finishPkt p r
    (s.mem.wf = true → w.peer = false →
      (∀ i < 32, t.mem.byte (a + i) = BitVec.ofNat 8 ((State.mkRecord r.code w.head.toNat (pkJob p) (pkType p)
        { arg := r.arg, deferred := r.deferred } r.row 0xFFFF (pkTag p) s.now +
          (if (w.wcount / 2 ^ w.log2) % 2 = 0 then 2 ^ 63 else 0)) >>> (8 * i))) ∧
      (∀ b, (b < a ∨ a + 32 ≤ b) → t.mem.byte b = s.mem.byte b)) ∧
    (w.peer = true → t.mem = s.mem) ∧
    t.wring = { w with head := w.head + 1, wcount := w.wcount + 1 } ∧ t.bar.irqStatus = s.bar.irqStatus ||| 1 ∧
    (r.code < 4096 → t.bar.counts = s.bar.counts) ∧ (r.code = 0 → t.bar.lastError = s.bar.lastError) ∧ t.jobs = s.jobs)

/-- When the oldest VC0 flit for this module on a port carries the row's message, it leaves its slot and then: the doorbell of
the ring's owner within the entry count becomes TAIL, any other is discarded as R66 says; an MCTP packet joins the MSS's
inbox with its source and 256 bytes; an UNREACHABLE is noted with its destination and the time, in place of an earlier one
for it, and what the jobs' engines lose by it follows. What takes a flit off a port takes the oldest for this module on the
channel, and only that one: the flits behind it keep their order, the total of slots freed advances by one for its link
channel and class and for no other, and nothing else of the state changes. Rows named: DOORBELL_MESSAGE, MCTP_PACKET,
UNREACHABLE. (R66, R289, R290, R293, R307, R411) -/
def Obligations.Vc0FlitsAct : Prop :=
  (∀ (port : Nat) (f : SpokeFlit) (s u : State),
    (s.takeRx port 0 (fun f => bits (fCls f) 0 8 == 2) = some (f, u) → u.wring.peer = true → fSrc f = u.wring.owner →
      (bits (fCls f) 24 16 + 65536 - u.wring.head.toNat) % 65536 ≤ 2 ^ u.wring.log2 →
      exec (.doorbellMessage port) s =
        .next (settle s { u with wring := { u.wring with tail := BitVec.ofNat 16 (bits (fCls f) 24 16) } })) ∧
    (s.takeRx port 0 (fun f => bits (fCls f) 0 8 == 2) = some (f, u) →
      let code := if u.wring.peer = true ∧ fSrc f = u.wring.owner then 0x1001 else 0x9001
      ¬ (u.wring.peer = true ∧ fSrc f = u.wring.owner ∧
        (bits (fCls f) 24 16 + 65536 - u.wring.head.toNat) % 65536 ≤ 2 ^ u.wring.log2) →
      exec (.doorbellMessage port) s = .next (settle s { u with bar := { u.bar with
        lastError := ⟨code, 6, 0, 0⟩, irqStatus := u.bar.irqStatus ||| 0x20
        counts := u.bar.counts.set (code / 4096) (satAdd 32 (u.bar.counts.getD (code / 4096) 0) 1) } })) ∧
    (s.takeRx port 0 (fun f => bits (fCls f) 0 8 == 1) = some (f, u) →
      exec (.mctpPacket port) s =
        .next (settle s { u with mss := { u.mss with inbox := u.mss.inbox ++ [(fSrc f, leBytes 256 (fPay f))] } })) ∧
    (s.takeRx port 0 (fun f => bits (fCls f) 0 8 == 5) = some (f, u) →
      exec (.unreachable port) s = .next (settle s (linkLoss u { u with spoke := { u.spoke with
        unreach := u.spoke.unreach.filter (fun x => x.1 != bits (fCls f) 24 8) ++ [(bits (fCls f) 24 8, u.now)] } })))) ∧
  (∀ (s u : State) (n vc : Nat) (ok : SpokeFlit → Bool) (f : SpokeFlit), n < s.ports.length →
    s.takeRx n vc ok = some (f, u) → ∃ i, (s.port n).rx[i]? = some f ∧ ok f = true ∧ lvcOrigin (fLvc f) = vc ∧ fDst f = s.mod.id ∧
      (∀ k < i, ∀ g, (s.port n).rx[k]? = some g → ¬ (lvcOrigin (fLvc g) = vc ∧ fDst g = s.mod.id)) ∧
      u = s.setPort n { s.port n with
        rx := (s.port n).rx.eraseIdx i
        freed := (s.port n).freed.set (flitClass f s.mod.id * 8 + lvcChannel (fLvc f))
          ((s.port n).freed.getD (flitClass f s.mod.id * 8 + lvcChannel (fLvc f)) 0 + 1) })

/-- A ROUTE_PATCH of a job's table from its lead or deputy, with its reserved fields 0, an entry R300 allows, and an epoch newer
than the last one applied: exactly that entry of the route table is replaced, its epoch recorded, and the patch acknowledged
with code 0; one of the forwarding table replaces both masks of its entry, and one whose epoch is not newer is acknowledged
only. Such a patch with another sender than the lead or the deputy of the job changes nothing but the log. A PATCH_ACK takes
its epoch from those its sender owes. The oldest flit of a channel that does not end here, where the port's die does not
hold, may leave by the ports of its forwarding entry in use, but never by a second global port: with no port that can carry
it, its source is told UNREACHABLE, or, where only such a port is listed, it is dropped and logged E_ILL_FIELD. It waits in
its slot while its flow has flits on a port that a patch dropped, while its bundle re-forms or must wake, and, where the port
it is dealt to is another die's, while the die link on the way cannot take it; else it leaves its slot and goes out by that
port, over the die links in three flits of class 3 where the dies differ. Rows named: ROUTE_PATCH, PATCH_ACK,
TRANSIT_FORWARD. (R17, R300, R302, R305, R306, R307, R316) -/
def Obligations.RoutesPatchAndForward : Prop :=
  (∀ (port : Nat) (f : SpokeFlit) (s u : State) (j : Job),
    let job := bits (fCls f) 8 16
    let key := bits (fPay f) 1 3 * 256 + bits (fPay f) 8 8
    let ports : BitVec 36 := BitVec.ofNat 36 (bits (fPay f) 32 36)
    let rs := putRoute j.routes key ports (bitAt (fPay f) 68)
    (s.takeRx port 0 (fun f => bits (fCls f) 0 8 == 3) = some (f, u) → u.job? job = some j → j.id = job → j.admitted = true →
      j ∈ u.jobs → (∀ k ∈ u.jobs, k.id = job → k = j) → bitAt (fPay f) 0 = false →
      ((fSrc f = j.alias? j.lead ∨ fSrc f = j.alias? j.deputy) → bits (fPay f) 1 3 ≤ 4 → bits (fPay f) 4 4 = 0 →
        bits (fPay f) 69 59 = 0 → bits (fPay f) 128 36 = 0 → bits (fPay f) 164 1884 = 0 →
        entryBad u (bits (fPay f) 8 8) ports (bitAt (fPay f) 68) = false → classesMeet rs = false →
        patchNewer j.routeEpoch (bits (fPay f) 16 16) = true →
        exec (.routePatch port) s = .next (settle s
          ((u.updJob job (fun j => { j with routes := rs, routeEpoch := some (bits (fPay f) 16 16) })).sendVc0
            (fSrc f) 4 job (bits (fPay f) 16 16) 0))) ∧
      (fSrc f ≠ j.alias? j.lead → fSrc f ≠ j.alias? j.deputy →
        exec (.routePatch port) s = .next (settle s (u.log 0x9001 7 (fSrc f) job))) ∧
      ((fSrc f = j.alias? j.lead ∨ fSrc f = j.alias? j.deputy) → patchNewer j.routeEpoch (bits (fPay f) 16 16) = false →
        bits (fPay f) 1 3 ≤ 4 → bits (fPay f) 4 4 = 0 → bits (fPay f) 69 59 = 0 → bits (fPay f) 128 36 = 0 → bits (fPay f) 164 1884 = 0 →
        entryBad u (bits (fPay f) 8 8) ports (bitAt (fPay f) 68) = false → classesMeet rs = false →
        exec (.routePatch port) s = .next (settle s (u.sendVc0 (fSrc f) 4 job (bits (fPay f) 16 16) 0)))) ∧
    (∀ k ∈ u.jobs, s.takeRx port 0 (fun f => bits (fCls f) 0 8 == 3) = some (f, u) → k.admitted = true → bitAt (fPay f) 0 = true →
      (fSrc f = k.alias? k.lead ∨ fSrc f = k.alias? k.deputy) →
      bits (fPay f) 1 3 = 0 → bits (fPay f) 4 4 = 0 → bits (fPay f) 68 60 = 0 → bits (fPay f) 164 1884 = 0 →
      entryBad u (bits (fPay f) 8 8) ports false = false → entryBad u (bits (fPay f) 8 8) (BitVec.ofNat 36 (bits (fPay f) 128 36)) false = false →
      patchNewer u.spoke.epoch (bits (fPay f) 16 16) = true →
      let e := u.forward (bits (fPay f) 8 8)
      let fall : BitVec 36 := BitVec.ofNat 36 (bits (fPay f) 128 36)
      exec (.routePatch port) s = .next (settle s (({ u with spoke := { u.spoke with
        forward := sput {} u.spoke.forward (bits (fPay f) 8 8) { e with
          primary := ports, fallback := fall, dropped := (e.dropped ||| e.primary ||| e.fallback) &&& ~~~ports &&& ~~~fall }
        epoch := some (bits (fPay f) 16 16) } } : State).sendVc0 (fSrc f) 4 job (bits (fPay f) 16 16) 0))) ∧
    (s.takeRx port 0 (fun f => bits (fCls f) 0 8 == 4) = some (f, u) →
      exec (.patchAck port) s = .next (settle s (u.updJob job (fun j => { j with
        recov := { j.recov with
          patches := j.recov.patches.filter (fun p => !(p.1 == fSrc f && p.2 == bits (fCls f) 24 16))
          patchBad := j.recov.patchBad || bits (fPay f) 0 16 != 0 } }))))) ∧
  (∀ (n vc i : Nat) (f : SpokeFlit) (s : State), s.rxIdx n vc false = some i → (s.port n).rx[i]? = some f → dieHeld s (n / 9) = false →
    let m := outMask s n f
    let key := State.flowKey f
    let go (u : State) : State := (u.sendMask m key f).getD s
    let stays := exec (.transitForward n vc) s = .next s
    (∀ p < 36, m.getLsbD p = ((s.forwardMask (fDst f)).getLsbD p && !(globalPort p && (globalPort n || flitClass f s.mod.id == 1)))) ∧
    (s.usable m = [] → ¬ (m = 0 ∧ s.forwardMask (fDst f) ≠ 0) →
      exec (.transitForward n vc) s = .next (settle s ((s.dropRx n i).tellUnreachable (fSrc f) (fDst f)))) ∧
    (m = 0 → s.forwardMask (fDst f) ≠ 0 → exec (.transitForward n vc) s = .next (settle s ((s.dropRx n i).log 0x1001 7 n 0))) ∧
    (s.usable m ≠ [] → s.flowOn (s.forward (fDst f)).dropped f = true → stays) ∧
    (s.usable m ≠ [] → s.flowOn (s.forward (fDst f)).dropped f = false →
      ((∀ p, s.nextPort m key f = some p → State.inService (s.port p) = false) → stays) ∧
      (∀ p, s.nextPort m key f = some p → State.inService (s.port p) = true →
        (p / 9 = n / 9 → exec (.transitForward n vc) s = .next (settle s (go (s.dropRx n i)))) ∧
        (p / 9 ≠ n / 9 → crossReady s (n / 9) (p / 9) = true →
          exec (.transitForward n vc) s = .next (settle s (go (crossDies (s.dropRx n i) n p)))) ∧
        (p / 9 ≠ n / 9 → crossReady s (n / 9) (p / 9) = false → stays))))

/-- On a port that is UP: a flit with a good CRC, a listed LVC and the SEQ expected, bound for another module, of a kind that a
command takes here, or met by a droop hold of the port's die, joins the receive buffer, while one of another kind gives its
slot back, and the SEQ expected and the flits to be acknowledged advance by one, and the 32nd of these sends the
acknowledgement; any other flit but a good control flit is dropped and makes the port send one control flit with NAK, until a
flit is accepted again. A port that is not UP takes none. ACK_SEND sends a control flit and clears the count of flits to be
acknowledged. A good control flit on a port that is UP, whose ACK_SEQ acknowledges the k oldest flits of the replay buffer:
those leave it, the peer's sixteen credit totals are taken as they stand in it, and with NAK everything left is sent again
before new flits, or, after eight replays without progress, the port retrains; a lane request moves that lane to the spare,
or takes the port out if another lane has failed; then the port sends what its arbiter allows, and the bundles and flows that
waited for the acknowledgement go on. One that does not pass its CRC asks for a replay, as any flit does, once. In training
an identity that is not the link map's makes the port MISWIRED, and the totals are taken all the same. Rows named:
FLIT_RECEIVE, ACK_SEND, CONTROL_FLIT. (R286, R288, R292, R293) -/
def Obligations.SpokeFlitSequence : Prop :=
  (∀ (n : Nat) (f : SpokeFlit) (s : State), (s.port n).st = .up →
    (fLvc f ≠ 15 → flitGood f = true → fSeq f = (s.port n).rxSeq.toNat →
      let vc := lvcOrigin (fLvc f)
      let kept := fDst f ≠ s.mod.id ∨ dieHeld s (n / 9) = true ∨ (vc = 0 ∧ 1 ≤ bits (fCls f) 0 8 ∧ bits (fCls f) 0 8 ≤ 5) ∨
        (s.mod.st ≠ .fault ∧ ((vc = 1 ∨ vc = 2) ∧ bits (fCls f) 0 2 ≠ 3 ∨ vc = 3 ∨ vc = 4 ∧ bits (fCls f) 46 2 = 1 ∨
          vc = 5 ∧ bits (fCls f) 0 3 ≠ 7))
      (n < s.ports.length → ¬ kept → ∃ t, exec (.flitReceive n f) s = .next t ∧ (t.port n).rx = (s.port n).rx ∧
        (t.port n).rxSeq = (s.port n).rxSeq + 1 ∧ t.mem = s.mem ∧ t.jobs = s.jobs) ∧
      (kept → let t := s.setPort n { s.port n with
        rxSeq := (s.port n).rxSeq + 1, nakSent := false, unacked := (s.port n).unacked + 1, lastFlit := s.now, rx := (s.port n).rx ++ [f] }
      exec (.flitReceive n f) s = .next (settle s (if 32 ≤ (s.port n).unacked + 1 then t.sendControl n 0 0 else t)))) ∧
    (¬ (flitGood f = true ∧ (fLvc f = 15 ∨ fSeq f = (s.port n).rxSeq.toNat)) →
      ((s.port n).nakSent = false →
        exec (.flitReceive n f) s = .next (settle s ((s.setPort n { s.port n with nakSent := true }).sendControl n 1 0))) ∧
      ((s.port n).nakSent = true → exec (.flitReceive n f) s = .next s)) ∧
    (∃ w, exec (.ackSend n) s = .next (settle s { s.setPort n { s.port n with unacked := 0 } with
      out := s.out ++ [.flit n (sealFlit (mkFlit 15 (s.port n).peerMod s.mod.id 0 w) ((s.port n).rxSeq.toNat + 4095))] }))) ∧
  (∀ (n k : Nat) (f : SpokeFlit) (s : State), fLvc f = 15 →
    ((s.port n).st = .training → flitGood f = true → 
      let t := s.setPort n { s.port n with peerFreed := (List.range 16).map (fun i => BitVec.ofNat 16 (bits (fPay f) (16 * i) 16)) }
      exec (.controlFlit n f) s = .next (settle s (linkLoss s
      (if bitAt (fCls f) 1 = true ∧ ¬ (bits (fPay f) 256 8 = (t.port n).peerMod ∧ bits (fPay f) 264 8 = (t.port n).peerPort ∧
          bits (fPay f) 272 8 = n) then t.miswire n (bits (fPay f) 256 8) else t)))) ∧
    ((s.port n).st = .up → flitGood f = true → k ≤ (s.port n).replay.length → (s.port n).replay.length ≤ 512 →
      fSeq f = ((s.port n).txSeq.toNat + 2 * 4096 - (s.port n).replay.length + k - 1) % 4096 →
      let p : Port := { s.port n with
        peerFreed := (List.range 16).map (fun i => BitVec.ofNat 16 (bits (fPay f) (16 * i) 16))
        replay := (s.port n).replay.drop k
        replays := if k = 0 then (s.port n).replays else 0 }
      let q := if bitAt (fCls f) 0 = false then p
        else if 8 ≤ p.replays then { p with st := .training, retrain := true, replays := 0 }
        else { p with resend := p.replay, replays := p.replays + 1 }
      let lane := bits (fPay f) 280 8
      let t := s.setPort n q
      let t := if bitAt (fCls f) 2 = false ∨ q.failed = some lane then t
        else if q.failed = none then t.swapLane n lane else t.portOut n true
      exec (.controlFlit n f) s = .next (settle s (linkLoss s (t.pump n).reform.releaseParked))) ∧
    ((s.port n).st = .up → flitGood f = false → (s.port n).nakSent = true → exec (.controlFlit n f) s = .next s) ∧
    ((s.port n).st = .up → flitGood f = false → (s.port n).nakSent = false →
      exec (.controlFlit n f) s = .next (settle s ((s.setPort n { s.port n with nakSent := true }).sendControl n 1 0))))

/-- With main power on a port in DOWN that begins an attempt is in TRAINING and sends its identity. An attempt that succeeds with
the peer's identity as the link map has it brings the port UP with its replay buffer to be sent first; with another identity
it makes the port MISWIRED and logs E_LINK_DOWN with the peer the map has and with the one received, a port of a retrain
leaving its bundles first; one that fails leaves it DOWN, and the third failure in a row is logged; a retrain that fails
takes the port out of service. A retrain from UP keeps the replay buffer. A port goes to STANDBY only where the effecter
allows it, it is UP, no admitted job's route table names it, nothing of it is queued, unacknowledged or received, no flit
moved for 100 ms, and it is a global port or another port of its bundle is UP; nothing else changes. A port in STANDBY that
wakes is UP and sends what its arbiter allows. Where any condition fails nothing changes. Rows named: PORT_TRAINING_ATTEMPT,
PORT_TRAINING_COMPLETE, PORT_RETRAIN, PORT_STANDBY, PORT_WAKE. (R284, R293, R294, R388) -/
def Obligations.PortTrainsRestsAndWakes : Prop :=
  (∀ (n : Nat) (s : State), n < s.ports.length → n < 36 →
    ((s.port n).st = .down → s.mod.mainOn = true → exec (.portTrainingAttempt n) s =
      .next (settle s ((s.setPort n { s.port n with st := .training, retrain := false }).sendControl n 2 (s.identExtra n)))) ∧
    (∀ (pm pp ex : Nat), (s.port n).st = .training →
      (pm = (s.port n).peerMod ∧ pp = (s.port n).peerPort ∧ ex = n →
        exec (.portTrainingComplete n true pm pp ex) s = .next (settle s (linkLoss s ((s.setPort n { s.port n with
          st := .up, resend := (s.port n).replay, retrain := false, fails := 0, replays := 0, nakSent := false }).pump n)))) ∧
      (¬ (pm = (s.port n).peerMod ∧ pp = (s.port n).peerPort ∧ ex = n) →
        ∃ t, exec (.portTrainingComplete n true pm pp ex) s = .next (settle s (linkLoss s t)) ∧ (t.port n).st = .miswired ∧
          t.mss.logQ = s.mss.logQ ++
            [⟨s.now, 0x6001, 7, n, 0, 0, place 0 8 n + place 16 8 (s.port n).peerMod⟩,
             ⟨s.now, 0x6001, 7, n, 0, 0, place 0 8 n + place 16 8 pm⟩] ∧ t.mem = s.mem ∧ t.jobs = s.jobs) ∧
      ((s.port n).retrain = false → ∃ t, exec (.portTrainingComplete n false pm pp ex) s = .next (settle s (linkLoss s t)) ∧
        (t.port n).st = .down ∧ (t.port n).fails = (s.port n).fails + 1 ∧ t.mem = s.mem ∧ t.jobs = s.jobs ∧
        t.mss.logQ.length = s.mss.logQ.length + (if (s.port n).fails + 1 = 3 then 1 else 0))) ∧
    (∀ pm pp ex, (s.port n).st = .training → (s.port n).retrain = true →
      exec (.portTrainingComplete n false pm pp ex) s = .next (settle s (linkLoss s (s.portOut n true)))) ∧
    ((s.port n).st = .up → exec (.portRetrain n) s =
      .next (settle s (s.setPort n { s.port n with st := .training, retrain := true, replays := 0 })))) ∧
  (∀ (n : Nat) (s : State),
    let p := s.port n
    let may := s.pwr.standbyEn = true ∧ p.st = .up ∧ (∀ j ∈ s.jobs, ∀ r ∈ j.routes, r.ports.getLsbD n = false) ∧
      p.lastFlit + 10000000 ≤ s.now ∧ p.txq = [] ∧ p.replay = [] ∧ p.rx = [] ∧
      (globalPort n = true ∨ ∃ i < 36, i ≠ n ∧ (s.port i).peerMod = p.peerMod ∧ (s.port i).st = .up)
    (may → exec (.portStandby n) s = .next (settle s (s.setPort n { p with st := .standby }))) ∧
    (¬ may → exec (.portStandby n) s = .next s) ∧
    (p.st = .standby → exec (.portWake n) s = .next (settle s ((s.setPort n { p with
      st := .up, resend := p.replay, retrain := false, fails := 0, replays := 0, nakSent := false }).pump n))))

/-- On a port in service, or in training that a lane does not complete: when an active lane fails for the first time, both ends
are told, the spare takes its place, E_LINK_LANE is logged and a ledger record SPOKE_LANE with the port and lane placed; the
failure of the lane that is the spare is only recorded; and after a lane has failed already, the failure of another takes the
port out of service. A BER window above 10^-5 is such a failure; one at or below it only records the BER. A port in service
that goes down ends DOWN with its queues empty and its sequence numbers 0, the slots its receive buffer still occupies
counted against the credits it gives, and one more log entry E_LINK_DOWN; a time source that no port reaches any more is
followed no longer. Each bundle it was a member of stops, with the flits it had not sent or had unacknowledged in front, and
re-forms over the ports left; memory, counters and jobs are unchanged, before what the jobs' engines lose by it follows,
which is nothing where no job is admitted. With no bundle of its own and none that waits, every other port is as before. Rows
named: LANE_SUBSTITUTION, LANE_BER_WINDOW, PORT_DOWN. (R285, R294, R304, R308, R403) -/
def Obligations.LanesAndPortsFail : Prop :=
  (∀ (n lane : Nat) (ber : Int) (s : State), State.inService (s.port n) = true ∨ (s.port n).st = .training → lane < 5 →
    ((s.port n).failed = none → lane ≠ (s.port n).spare →
      exec (.laneSubstitution n lane) s = .next (settle s (linkLoss s ((s.sendControl n 4 (place 24 8 lane)).swapLane n lane)))) ∧
    ((s.port n).failed = none → lane = (s.port n).spare →
      exec (.laneSubstitution n lane) s = .next (settle s (linkLoss s (s.setPort n { s.port n with failed := some lane })))) ∧
    (∀ l, (s.port n).failed = some l → l ≠ lane → exec (.laneSubstitution n lane) s =
      .next (settle s (linkLoss s (s.portOut n true)))) ∧
    (State.inService (s.port n) = true → ber ≤ -500 → exec (.laneBerWindow n lane ber) s = .next (settle s (linkLoss s (s.setPort n { s.port n with
      ber := (s.port n).ber.filter (fun x => x.1 != lane) ++ [(lane, ber)] })))) ∧
    (State.inService (s.port n) = true → -500 < ber → exec (.laneBerWindow n lane ber) s = .next (settle s (linkLoss s ((s.setPort n { s.port n with
      ber := (s.port n).ber.filter (fun x => x.1 != lane) ++ [(lane, ber)] }).laneFails n lane))))) ∧
  (∀ (n : Nat) (s : State), n < s.ports.length → State.inService (s.port n) = true →
    let p := s.port n
    let down := s.setPort n { p with
      st := .down, retrain := false, txq := [], resend := [], replay := [], txSeq := 0, rxSeq := 0, nakSent := false
      freed := s.freshTotals p.rx, peerFreed := List.replicate 16 0, used := List.replicate 16 0
      window := [], unacked := 0, replays := 0, fails := 0, stress := false }
    let logged : State := { down with mss := { down.mss with logQ := down.mss.logQ ++
      [⟨s.now, 0x6001, 7, n, 0, 0, place 0 8 n + place 16 8 p.peerMod⟩] } }
    let timed := logged.dropTime p.peerMod
    let t := (timed.stopBundles n p.replay p.txq).reform
    exec (.portDown n) s = .next (settle s (linkLoss s t)) ∧ (s.jobs = [] → exec (.portDown n) s = .next (settle s t)) ∧
    (t.port n).st = .down ∧ (t.port n).replay = [] ∧ t.mss.logQ = logged.mss.logQ ∧ t.mem = s.mem ∧ t.ctrs = s.ctrs ∧ t.jobs = s.jobs ∧
    ((∀ b ∈ s.spoke.bundles, b.members.getLsbD n = false ∧ b.waiting = none) → t = timed))

/-- The oldest VC5 flit of a port, when no channel in retrain holds it back: a READ_REQ of a range that the job owns here is
answered with its bytes and DONE, one of any other range with DONE and E_PERM_PROTECT alone; a WRITE_REQ opens a transaction,
or is refused in the same way; an OWN_QUERY is answered with OK or E_PERM_PROTECT. A read or write that touches a channel in
retrain enters the hold queues of the channels it touches, behind what is older, while each has room for its units; with no
room in one, or where a die holds, it waits in its slot. A request without a job is a ring read or a result write of a peer's
work ring, which needs no owner. Rows named: READ_REQ, WRITE_REQ, OWN_QUERY. (R171, R289, R398) -/
def Obligations.RemoteRequestsServed : Prop :=
  ∀ (port : Nat) (f : SpokeFlit) (s u : State),
    let own := (xJob f = 0 ∧ u.inUser (xAddr f) (xLen f) = true) ∨
      (xJob f ≠ 0 ∧ u.inUser (xAddr f) (xLen f) = true ∧ ∃ j, u.job? (xJob f) = some j ∧ j.owns (xAddr f) (xLen f) = true)
    (s.takeRx port 5 (fun f => xOp f == 0) = some (f, u) → waitsHere port s = false →
      (own → exec (.readReq port) s = .next (settle s (u.serveRead (fSrc f) (xJob f) (xXid f) (xAddr f) (xLen f)))) ∧
      (¬ own → exec (.readReq port) s = .next (settle s (u.sendDone (fSrc f) (xJob f) (xXid f) 0x9001)))) ∧
    (waitsHere port s = true → ∀ x ∈ [(0, Instr.readReq port), (2, Instr.writeData port)],
      (s.takeRx port 5 (fun f => xOp f == x.1) = none → exec x.2 s = .next s) ∧
      (s.takeRx port 5 (fun f => xOp f == x.1) = some (f, u) → ∀ r, flitRange s f = some r →
        let units (c : Nat × Channel) : Nat := if c.2.held then s.chanUnits c.1 r.1 r.2 else 0
        (s.stalledRange r.1 r.2 = false → (∀ c ∈ s.lp.channels, c.2.hold + units c ≤ 512) → exec x.2 s = .next (settle s { u with lp := { u.lp with
          ages := u.lp.ages + 1, peers := u.lp.peers ++ [(u.lp.ages, f)]
          channels := u.lp.channels.map (fun (c : Nat × Channel) => (c.1, { c.2 with hold := c.2.hold + units c })) } })) ∧
        ((s.stalledRange r.1 r.2 = true ∨ ∃ c ∈ s.lp.channels, 512 < c.2.hold + units c) → exec x.2 s = .next s))) ∧
    (s.takeRx port 5 (fun f => xOp f == 1) = some (f, u) →
      (own → exec (.writeReq port) s = .next (settle s { u with spoke := { u.spoke with
        serving := u.spoke.serving.filter (fun x => !(x.xid == xXid f && x.peer == fSrc f)) ++
          [{ xid := xXid f, peer := fSrc f, job := xJob f, addr := xAddr f, len := xLen f, write := true }] } })) ∧
      (¬ own → exec (.writeReq port) s = .next (settle s (u.sendDone (fSrc f) (xJob f) (xXid f) 0x9001)))) ∧
    (s.takeRx port 5 (fun f => xOp f == 5) = some (f, u) → u.peerOwns (xJob f) (xAddr f) (xLen f) = true →
      exec (.ownQuery port) s = .next (settle s ((u.sendVc5 (xJob f) (fSrc f) (vc5Word 6 false (xJob f) (xXid f) 0) 0).getD u))) ∧
    (s.takeRx port 5 (fun f => xOp f == 5) = some (f, u) → u.peerOwns (xJob f) (xAddr f) (xLen f) = false →
      exec (.ownQuery port) s = .next (settle s ((u.sendVc5 (xJob f) (fSrc f) (vc5Word 6 false (xJob f) (xXid f) 0) 0x9001).getD u)))

/-- A WRITE_DATA flit of an open transaction writes the bytes of the piece at the transaction's address plus 256 times the
offset, and no other byte of memory; the bytes received are counted, the transaction stays open until its last piece, and no
counter, register or job changes. READ_DATA and DONE are given to the copies and streams of the job they name (and of a
draining one of the same JOB_ID): a MOVE that reads under the flit's transaction takes the piece and, with POISON, notes it;
a copy or stream under another transaction is untouched. An OWN_ANSWER sets the answer of the query with its peer and
transaction, and the records that waited for it go on. Rows named: WRITE_DATA, READ_DATA, DONE, OWN_ANSWER. (R165, R171,
R289) -/
def Obligations.RemoteTransactionsLand : Prop :=
  (∀ (port : Nat) (f : SpokeFlit) (s u : State) (x : Txn), s.mem.wf = true →
    s.takeRx port 5 (fun f => xOp f == 2) = some (f, u) → waitsHere port s = false →
    u.spoke.serving.find? (fun t => t.xid == xXid f && t.peer == fSrc f) = some x →
    let o := xOff f * 256
    let n := min 256 (x.len - o)
    ∃ t, exec (.writeData port) s = .next t ∧
      (∀ i < n, t.mem.byte (x.addr + o + i) = BitVec.ofNat 8 (fPay f >>> (8 * i))) ∧
      (∀ b, (b < x.addr + o ∨ x.addr + o + n ≤ b) → t.mem.byte b = s.mem.byte b) ∧
      (x.got + n < x.len → ∃ y ∈ t.spoke.serving, y.xid = x.xid ∧ y.peer = x.peer ∧ y.got = x.got + n) ∧
      (x.len ≤ x.got + n → ∀ y ∈ t.spoke.serving, ¬ (y.xid = x.xid ∧ y.peer = x.peer)) ∧
      t.ctrs = s.ctrs ∧ t.slots = s.slots ∧ t.jobs = s.jobs ∧ t.bar = s.bar) ∧
  ((∀ (port : Nat) (f : SpokeFlit) (s u : State),
    (s.takeRx port 5 (fun f => xOp f == 3) = some (f, u) → exec (.readData port) s =
      .next (settle s ((u.keys (xJob f)).foldl
        (fun v k => (v.mapFlights k (moveReadData f)).mapFlights k (streamReadData f)) u))) ∧
    (s.takeRx port 5 (fun f => xOp f == 4) = some (f, u) → exec (.doneMsg port) s =
      .next (settle s ((u.keys (xJob f)).foldl
        (fun v k => ((v.mapFlights k (moveDone f)).mapFlights k (streamDone f)).noteAllWaits k) u))) ∧
    (s.takeRx port 5 (fun f => xOp f == 6) = some (f, u) →
      let key := fSrc f * 2 ^ 14 + xXid f
      let v := u.answerAsks (xJob f) (· == key) (bits (fPay f) 0 16)
      (u.runJob = none → exec (.ownAnswer port) s = .next (settle s v)) ∧
      (∀ j, u.runJob = some j → exec (.ownAnswer port) s = .next (settle s
        (((j.queues.filter (fun q => q.cur.any (fun w => w.asks.any (fun a => a.1 == key)))).map (·.ref)).foldl
          (fun s r => resume r s) v))))) ∧
  (∀ (f : SpokeFlit) (s : State) (j : Job) (q : QRef) (g : Flight) (m : PeerMove), g.op = .move m →
    (m.rd = some (xXid f) → moveReadData f s j q g = (s, { g with op := .move { m with
      got := m.got ++ [(xOff f, leBytes 256 (fPay f))]
      tainted := if xPoison f then m.tainted ++ [xOff f] else m.tainted } })) ∧
    (m.rd ≠ some (xXid f) → moveReadData f s j q g = (s, g) ∧
      (xXid f ∉ m.wrs → moveDone f s j q g = (s, g)))))

/-- TIME_MESSAGE_SEND sends one message with the module's fabric time to each direct peer, in order, over the lowest port to it;
memory, jobs and fabric time stay, and the time at which it was sent is noted. A TIME_MESSAGE over a port that is UP from the
peer followed, whose source stays below this module's ID: an error of at most 100 µs leaves fabric time and sets the slew to
it, at most 100 ppm; a larger one is corrected at once. The first message a module takes sets its fabric time. Link delay is
the measured one of the port. Rows named: TIME_MESSAGE_SEND, TIME_MESSAGE. (R412) -/
def Obligations.TimeMessages : Prop :=
  (∀ s : State, ∃ t, exec .timeMessageSend s = .next (settle s t) ∧
    t.out.filterMap (fun o => match o with | .msg m i => some (m, i) | _ => none) =
      s.out.filterMap (fun o => match o with | .msg m i => some (m, i) | _ => none) ++ (directPeers s).map (fun p => (p.1, .timeMessage {
      src := s.mod.id, port := (s.port p.2).peerPort, fabric := s.fabric, date := s.mss.date.at s.now
      dateAt := s.mss.date.setAt, source := timeSource s
      turn := (s.mss.time.arrivals.find? (fun a => a.1 == p.1)).map (fun a => (a.2, s.now)) })) ∧
    (directPeers s ≠ [] → t.mss.time = { s.mss.time with sent := s.now }) ∧ t.mem = s.mem ∧ t.jobs = s.jobs ∧ t.fabric = s.fabric) ∧
  (∀ (m : TimeMsg) (s : State), (s.port m.port).st = .up → (s.port m.port).peerMod = m.src → m.port < 36 →
    let d := match m.turn with
      | some x => (s.now - s.mss.time.sent - (x.2 - x.1)) / 2
      | none => ((s.mss.time.delays.find? (fun e => e.1 == m.port)).map (·.2)).getD 0
    let e : Int := ((m.fabric + d : Nat) : Int) - (s.fabric : Int)
    ∃ t, exec (.timeMessage m) s = .next t ∧ t.mem = s.mem ∧ t.ctrs = s.ctrs ∧ t.jobs = s.jobs ∧ t.out = s.out ∧
      (s.mss.time.taken = false → t.fabric = m.fabric + d ∧ t.mss.time.taken = true) ∧
      (s.mss.time.taken = true → s.mss.time.peer = some m.src → m.source < s.mod.id →
        (-10000 ≤ e → e ≤ 10000 → t.fabric = s.fabric ∧ t.mss.time.slew = max (-100) (min 100 e)) ∧
        ((e < -10000 ∨ 10000 < e) → t.fabric = m.fabric + d ∧ t.mss.time.slew = 0)))

/-- A channel in service whose retrain is due, with none in retrain and the last begun at least 1 ms ago, begins one: it holds
requests and its queued writes have drained; no other channel and nothing else changes. A retrain that converges clears the
counts of failures and of the minute's correctable errors, and the held requests are issued, which is nothing where no
command waits for them; one that does not, before the third in a row, lets them go too and is logged; the third in a row
fails the channel. A Mover retries what a hold queue refused: into at most 512 entries while the channel holds, else it is
issued. A channel in service that is not in retrain: a patrol read advances its unit, from the last of its 24 GiB to the
first, counts an error that it corrects, clears a transient one, and lists the unit's row as failed exactly where the error
persists or cannot be corrected, an error that the unit holds already among them; memory's bytes, counters and jobs stay. A
write run drains its write queue, once 64 writes are queued, the oldest has waited 1 us or no read is queued, and not before.
In retrain neither changes anything. A refresh check sets each channel's temperature from its package's reading and the
double rate exactly above 85 °C. Rows named: CHANNEL_RETRAIN_START, CHANNEL_RETRAIN_END, HOLD_QUEUE_RETRY, WRITE_RUN_DRAIN,
PATROL_READ, REFRESH_RATE_CHECK. (R162, R173, R176, R178, R183, R187) -/
def Obligations.ChannelUpkeepAndRetrain : Prop :=
  (∀ (ch : Nat) (x : Channel) (s : State), s.chan? ch = some x → x.failed = false → s.mod.mainOn = true →
    (retrainDue s x = true → (∀ c ∈ s.lp.channels, c.2.held = false) → (∀ t, s.lp.lastStart = some t → t + 100000 ≤ s.now) →
      exec (.channelRetrainStart ch) s = .next (settle s { s with lp := { s.lp with
        channels := s.lp.channels.map (fun (c : Nat × Channel) => if c.1 == ch then (c.1, { c.2 with held := true, writes := 0 }) else c)
        lastStart := some s.now } })) ∧
    (x.held = true → exec (.channelRetrainEnd ch true) s = .next (settle s (s.updChan ch (fun y => { y with
      held := false, hold := 0, nonConv := 0, lastTrain := s.now, trainTemp := y.trainTemp.map (fun _ => y.temp)
      ceRecent := [] })).issueHeld)) ∧
    (x.held = true →
      let u := (s.updChan ch (fun y => { y with held := false, hold := 0, nonConv := y.nonConv + 1, lastTrain := s.now
                                                trainTemp := y.trainTemp.map (fun _ => y.temp), ceRecent := [] })).logOpen ch 0 (place 0 7 ch)
      (x.nonConv < 2 → exec (.channelRetrainEnd ch false) s = .next (settle s u.issueHeld)) ∧
      (2 ≤ x.nonConv → exec (.channelRetrainEnd ch false) s = .next (settle s (u.failChannel ch)))) ∧
    (∀ mover, (∀ c ∈ s.lp.channels, c.1 = ch → c.2 = x) →
      (x.held = true → x.hold ≤ 512 → ∃ (h : Nat) (r : List (Nat × Nat)), exec (.holdQueueRetry ch mover) s = .next (settle s
          (s.updChan ch (fun y => { y with hold := h, refused := r })).issueHeld) ∧ h ≤ 512 ∧
        h + (r.map (·.2)).sum = x.hold + (x.refused.map (·.2)).sum ∧ (h = 512 ∨ ∀ p ∈ r, p.1 ≠ mover) ∧
        r.filter (fun p => p.1 != mover) = x.refused.filter (fun p => p.1 != mover)) ∧
      (x.held = false → exec (.holdQueueRetry ch mover) s =
        .next (settle s (s.updChan ch (fun y => { y with refused := y.refused.filter (fun p => p.1 != mover) })).issueHeld))) ∧
    (∀ u : State, heldAges u = [] → u.issueHeld = u)) ∧
  (∀ (ch : Nat) (x : Channel) (s : State),
    (s.chan? ch = some x → x.failed = false → x.held = true → exec (.writeRunDrain ch) s = .next s ∧
      ∀ found, exec (.patrolRead ⟨ch, found⟩) s = .next s) ∧
    (s.chan? ch = some x → x.failed = false → x.held = false → s.mod.mainOn = true →
      let at_ := patrolPlace s ch x.patrol
      let mark := (at_.2.2.map s.markOf).getD .clean
      ∀ found : PatrolFind,
      let counts := mark ≠ .uncorr ∧ found ≠ .uncorrectable ∧ (mark = .soft ∨ mark = .hard ∨ found = .corrected ∨ found = .persistent)
      let fails := mark = .uncorr ∨ mark = .hard ∨ found = .persistent ∨ found = .uncorrectable
      (∃ t y, exec (.patrolRead ⟨ch, found⟩) s = .next t ∧ t.mem = s.mem ∧ t.ctrs = s.ctrs ∧ t.jobs = s.jobs ∧
        t.chan? ch = some y ∧ y.patrol = (x.patrol + 1) % 402653184 ∧
        (counts → y.ceCount = x.ceCount + 1) ∧ (¬ counts → y.ceCount = x.ceCount) ∧
        (fails → (ch, at_.1, at_.2.1) ∈ t.lp.failing) ∧ (¬ fails → t.lp.failing = s.lp.failing) ∧
        (∀ a, at_.2.2 = some a →
          (mark = .soft → (found = .clean ∨ found = .corrected) → t.markOf a = .clean) ∧
          (mark = .soft → found = .persistent → t.markOf a = .hard) ∧
          ((mark = .clean ∨ mark = .soft ∨ mark = .hard) → found = .uncorrectable → t.markOf a = .uncorr) ∧
          ((mark = .poison ∨ mark = .uncorr ∨ found ≠ .uncorrectable ∧ (mark = .hard ∨ mark = .clean)) → t.markOf a = mark)))) ∧
    (s.chan? ch = some x → x.failed = false → x.held = false → s.mod.mainOn = true →
      (64 ≤ x.writes ∨ x.oldest + 100 ≤ s.now ∨ readQueued s ch = false →
        exec (.writeRunDrain ch) s = .next (settle s (s.updChan ch (fun x => { x with writes := 0 })))) ∧
      (x.writes < 64 → s.now < x.oldest + 100 → readQueued s ch = true → exec (.writeRunDrain ch) s = .next s)) ∧
    (∀ temps : List Int, ∃ cs : List (Nat × Channel), exec (.refreshRateCheck temps) s = .next (settle s { s with lp := { s.lp with channels := cs } }) ∧
      cs.length = s.lp.channels.length ∧
      (∀ (i : Nat) (c : Nat × Channel) (t : Int), s.lp.channels[i]? = some c → temps[c.1 / 4]? = some t →
        cs[i]? = some (c.1, { c.2 with temp := t, fast := decide (850 < t), trainTemp := some (c.2.trainTemp.getD t) })) ∧
      (∀ (i : Nat) (c : Nat × Channel), s.lp.channels[i]? = some c → temps[c.1 / 4]? = none → cs[i]? = some c)))

/-- A row of a channel in service that fails, while the channel has a free spare row and, for an uncorrectable error, no other
row of it failed so within 1 s: the row is recorded with one more failure (three at most) and the lowest free spare row, and
a ledger record ROW_REMAP placed; its uncorrectable units are poison-marked in the copy, and it is due no longer. Before the
third failure no page is retired; at the third, or with no spare row free, the page that holds it is. Memory's bytes,
counters and jobs are unchanged. A channel in service that fails is failed from then on, its stripes move and its units count
as lost; then its held requests are issued, and it is logged and put in the ledger. Up to three failed channels (one of the
PK960-T) are absorbed; beyond that the log also has the exhausted spare and the module declares itself failed. Rows named:
ROW_REMAP, CHANNEL_FAIL. (R180, R181, R184, R185, R403, R408) -/
def Obligations.RowsAndChannelsFail : Prop :=
  (∀ (ch bank row k : Nat) (x : Channel) (s : State), s.chan? ch = some x → x.failed = false → x.held = false → s.mod.mainOn = true →
    bank < 16 → row < 2 ^ 20 → ∀ uncorr : Bool, (uncorr = true → ∀ r ∈ x.badRows, r.2 + 100000000 < s.now) →
    (s.freeSpare ch = none → ∃ t, exec (.rowRemap ch bank row uncorr) s = .next t ∧ t.mem = s.mem ∧ t.ctrs = s.ctrs ∧ t.jobs = s.jobs ∧
      (ch, bank, row) ∉ t.lp.failing ∧ ∀ a, s.rowAddr ch bank row = some a → a / 0x200000 * 0x200000 ∈ t.lp.retired) ∧
    (s.freeSpare ch = some k →
    let n := min 3 (((s.lp.rows.find? (fun r => r.ch == ch && r.bank == bank && r.row == row)).map (·.count)).getD 0 + 1)
    ∃ t, exec (.rowRemap ch bank row uncorr) s = .next t ∧ t.mem = s.mem ∧ t.ctrs = s.ctrs ∧ t.jobs = s.jobs ∧
      t.lp.rows = s.lp.rows.filter (fun r => !(r.ch == ch && r.bank == bank && r.row == row)) ++
        [{ ch := ch, bank := bank, row := row, count := n, spare := some k }] ∧
      (0x05, leBytes 16 (place 0 7 ch + place 8 4 bank + place 12 20 row + place 32 2 n + place 64 20 k)) ∈ t.mss.ledgerQ ∧
      (∀ u ∈ s.rowUnits ch bank row, s.markOf u = .uncorr → t.markOf u = .poison) ∧ (ch, bank, row) ∉ t.lp.failing ∧
      (n < 3 → t.lp.retired = s.lp.retired) ∧
      (∀ a, n = 3 → s.rowAddr ch bank row = some a → a / 0x200000 * 0x200000 ∈ t.lp.retired))) ∧
  (∀ (ch : Nat) (x : Channel) (s : State), s.chan? ch = some x → x.failed = false → s.mod.mainOn = true →
    ∃ u : State, u.chan? ch = some { x with failed := true, held := false, hold := 0, refused := [], writes := 0 } ∧
      u.lp.moved = s.lp.moved ++ [ch] ∧ u.lp.lost = s.lp.lost ++ [ch] ∧ u.mem = s.mem ∧ u.jobs = s.jobs ∧ u.mss = s.mss ∧ u.mod = s.mod ∧
      let v := (u.issueHeld.log 0x7021 7 ch 0 (ch % 128)).ledger 0x08 (leBytes 8 (ch % 128))
      (s.lp.moved.length < (if s.mod.tVar then 1 else 3) → exec (.channelFail ch) s = .next (settle s v)) ∧
      ((if s.mod.tVar then 1 else 3) ≤ s.lp.moved.length →
        exec (.channelFail ch) s = .next (settle s ((v.log 0x3041 7 ch 0 (ch % 128)).failModule))))

/-- On a die link in service with main power on: a good data flit with the SEQ expected, between listed endpoints, advances the
SEQ expected and joins the receive buffer. It stays there while the die is in a droop hold; else it leaves its slot at once:
one for another die goes on to it, a request for this die is answered, anything else is at its end; and the sixteenth flit
accepted is acknowledged. A flit that is not good or a data flit out of sequence makes the end send one control flit with NAK
until a flit is accepted, and nothing while the die holds. A flit with a good CRC that names an unlisted endpoint is logged
with E_FAULT and fails the module. A control flit is sent with the slots freed so far; nothing else changes. On a die link in
service, a good control flit in NORMAL, where the die does not hold: the flits of the replay buffer that it acknowledges
leave it, the four credit totals and the epoch of the peer are taken. When its epoch and mask are this end's committed ones
and it is not in quarter mode, the end goes on sending, and retests the lanes on a spare; else an end of the higher-numbered
die enters quarter mode, and one of the lower-numbered die proposes a change, each unless it is at it already; a change in
progress restarts when the far end's epoch falls to 0. A die that holds takes none. Rows named: DIE_FLIT_RECEIVE,
DIE_CONTROL_FLIT_SEND, DIE_CONTROL_FLIT. (R31, R314, R315, R316, R317, R318, R320, R323) -/
def Obligations.DieFlitsAndControlFlits : Prop :=
  (∀ (l : Nat) (far : Bool) (f : DieFlit) (s : State), l < 6 → l < s.links.length → (s.link l).out = false → s.mod.mainOn = true →
    let e := s.linkEnd l far
    let d := endDie l far
    (dieFlitGood f = true → dCtrl f = false → dSeq f = e.rxSeq.toNat → endpointListed (dFrom f) = true →
      endpointListed (dTo f) = true →
      let ack (v : State) : State := if 16 ≤ (v.linkEnd l far).unacked then v.sendDieControl l far false else v
      let took := s.updEnd l far (fun e => { e with rxSeq := e.rxSeq + 1, nakSent := false, unacked := e.unacked + 1, rx := e.rx ++ [f] })
      let freed := s.updEnd l far (fun e => { e with
        rxSeq := e.rxSeq + 1, nakSent := false, unacked := e.unacked + 1, freed := e.freed.set (dClass f) (e.freed.getD (dClass f) 0 + 1) })
      exec (.dieFlitReceive l far f) s = .next (settle s (ack (took.drainDie l far))) ∧
      (dieHeld s d = true → exec (.dieFlitReceive l far f) s = .next (settle s took)) ∧
      (dieHeld s d = false → e.rx = [] →
        (dTo f / 1024 ≠ d → exec (.dieFlitReceive l far f) s = .next (settle s (ack (freed.routeDie d f)))) ∧
        (dTo f / 1024 = d → dClass f = 0 → exec (.dieFlitReceive l far f) s = .next (settle s (ack (freed.answerDie d f)))) ∧
        (dTo f / 1024 = d → dClass f ≠ 0 → exec (.dieFlitReceive l far f) s = .next (settle s (ack freed))))) ∧
    (dieFlitGood f = true → dCtrl f = true → endpointListed (dFrom f) = true → endpointListed (dTo f) = true →
      exec (.dieFlitReceive l far f) s = .next s) ∧
    (dieFlitGood f = true → endpointListed (dFrom f) = false ∨ endpointListed (dTo f) = false →
      exec (.dieFlitReceive l far f) s = .next (settle s (s.log 0xF001 7 l 0 0).failModule)) ∧
    (dieFlitGood f = false ∨ (dCtrl f = false ∧ endpointListed (dFrom f) = true ∧ endpointListed (dTo f) = true ∧ dSeq f ≠ e.rxSeq.toNat) →
      (e.nakSent = false → dieHeld s d = false → exec (.dieFlitReceive l far f) s =
        .next (settle s ((s.updEnd l far (fun e => { e with nakSent := true })).sendDieControl l far true))) ∧
      (e.nakSent = true ∨ dieHeld s d = true → exec (.dieFlitReceive l far f) s = .next s)) ∧
    (e.rx = [] → dieHeld s d = false → ∃ g, exec (.dieControlFlitSend l far) s = .next (settle s
      { s.updEnd l far (fun e => { e with unacked := 0 }) with out := s.out ++ [.dieFlit l far (if e.quarter then 2 ^ quarterLanes l - 1 else 0) g] }) ∧
      dCtrl g = true ∧ ∀ c < 4, kCredit g c = e.freed.getD c 0) ∧
    (e.rx ≠ [] → dieHeld s d = false → exec (.dieControlFlitSend l far) s = .next (settle s ((s.drainDie l far).sendDieControl l far false))) ∧
    (dieHeld s d = true → exec (.dieControlFlitSend l far) s = .next s)) ∧
  (∀ (l : Nat) (far : Bool) (f : DieFlit) (s : State), l < 6 → l < s.links.length → (s.link l).out = false → s.mod.mainOn = true →
    dieFlitGood f = true → dCtrl f = true → kWstate f = 0 → endpointListed (dFrom f) = true → endpointListed (dTo f) = true →
    let e := s.linkEnd l far
    let u := s.takeDieControl l far f
    let differs := kQuarter f = true ∨ e.width = none ∨ ∃ w, e.width = some w ∧ (kEpoch f ≠ w.1 ∨ (e.wstate = .normal ∧ kMask f ≠ w.2))
    (u.linkEnd l far).peerFreed = (List.range 4).map (kCredit f) ∧ (u.linkEnd l far).peerEpoch = kEpoch f ∧
    (u.linkEnd l far).replay = e.replay.dropWhile (fun g => decide ((dSeq f + 1024 - dSeq g) % 1024 < 512)) ∧
    u.linkEnd l (!far) = s.linkEnd l (!far) ∧
    (dieHeld s (endDie l far) = true → exec (.dieControlFlit l far f) s = .next s) ∧
    (dieHeld s (endDie l far) = false →
      (¬ differs → exec (.dieControlFlit l far f) s = .next (settle s ((u.pumpDie l far).retest l far))) ∧
      (differs →
        (far = true → e.quarter = false → exec (.dieControlFlit l far f) s =
          .next (settle s ((u.updEnd l true (fun e => { e with quarter := true })).sendDieControl l true false))) ∧
        (far = true → e.quarter = true → exec (.dieControlFlit l far f) s = .next (settle s u)) ∧
        (far = false → e.wstate = .normal → exec (.dieControlFlit l far f) s = .next (settle s (u.proposeWidth l))) ∧
        (far = false → e.wstate ≠ .normal → exec (.dieControlFlit l far f) s =
          .next (settle s (if kEpoch f = 0 ∧ e.peerEpoch ≠ 0 then u.proposeWidth l else u))))))

/-- On a die link in service: a good PROPOSE takes the higher-numbered die into quarter mode with the proposed epoch and, as
agreed mask, what both ends can use (one told again, what it was answered with), its committed width unchanged; a good ACCEPT
of the change in progress gives the proposer that mask for its receiver when quarter width is left; a good COMMIT of the
change, at the end that awaits it, makes the agreed epoch and mask its committed width, receive and transmit mask, and leaves
quarter mode. The other end is as before. A die in a droop hold takes none of them, and the lower-numbered die discards a
PROPOSE. On a die link in service: a change still in progress 2 us after it began, with no die of the link in a droop hold,
counts as failed and the proposer starts again with a partial reset, one that is younger or frozen goes on; a retrain of an
end that the MSS resets, that replayed one flit eight times, or that has waited 2 us for an acknowledgement with no hold, is
a partial reset that loses the lanes found failed in it, and no other retrain is. A partial reset of the higher-numbered
die's end clears its width, change and wire map, keeps its sequence numbers, replay buffer and credits, and changes no other
end. Rows named: PROPOSE, ACCEPT, COMMIT, DIE_CONTROL_FLIT, WIDTH_CHANGE_TIMEOUT, DIE_LINK_RETRAIN. (R317, R319, R320, R322,
R323) -/
def Obligations.DieLinkWidthChange : Prop :=
  (∀ (l : Nat) (f : DieFlit) (s : State), l < 6 → l < s.links.length → (s.link l).out = false → s.mod.mainOn = true →
    dieFlitGood f = true → dCtrl f = true → endpointListed (dFrom f) = true → endpointListed (dTo f) = true →
    (kWstate f = 1 → dieHeld s (endDie l true) = false → ∃ t, exec (.propose l f) s = .next t ∧ t.linkEnd l false = s.linkEnd l false ∧ t.mem = s.mem ∧ t.jobs = s.jobs ∧
      (t.linkEnd l true).wstate = .accepted ∧ (t.linkEnd l true).newEpoch = kEpoch f ∧ (t.linkEnd l true).quarter = true ∧
      (t.linkEnd l true).agreed = (if (s.linkEnd l true).wstate = .accepted ∧ (s.linkEnd l true).newEpoch = kEpoch f
        then (s.linkEnd l true).offered else (s.linkEnd l true).mask) &&& kMask f ∧ (t.linkEnd l true).width = (s.linkEnd l true).width) ∧
    (let e := s.linkEnd l false
     kWstate f = 2 → dieHeld s (endDie l false) = false → e.wstate = .proposed → kEpoch f = e.newEpoch → quarterLanes l ≤ lanesIn (e.offered &&& kMask f) →
      ∃ t, exec (.accept l f) s = .next t ∧ t.linkEnd l true = s.linkEnd l true ∧ t.mem = s.mem ∧ t.jobs = s.jobs ∧
        (t.linkEnd l false).wstate = .committed ∧ (t.linkEnd l false).rxMask = e.offered &&& kMask f ∧
        (t.linkEnd l false).agreed = e.offered &&& kMask f ∧ (t.linkEnd l false).width = e.width) ∧
    (∀ far : Bool, let e := s.linkEnd l far
     kWstate f = 3 → dieHeld s (endDie l far) = false → e.wstate = (if far then .accepted else .committed) → kEpoch f = e.newEpoch →
      ∃ t, exec (.commit l far f) s = .next t ∧ t.linkEnd l (!far) = s.linkEnd l (!far) ∧ t.mem = s.mem ∧ t.jobs = s.jobs ∧
        (t.linkEnd l far).width = some (e.newEpoch, e.agreed) ∧ (t.linkEnd l far).rxMask = e.agreed ∧
        (t.linkEnd l far).txMask = e.agreed ∧ (t.linkEnd l far).quarter = false ∧ (t.linkEnd l far).wstate = .normal ∧
        (far = false → (t.link l).failed = 0)) ∧
    (kWstate f = 1 → exec (.dieControlFlit l false f) s = .next s) ∧
    (dieHeld s (endDie l true) = true → exec (.propose l f) s = .next s) ∧ (dieHeld s (endDie l false) = true → exec (.accept l f) s = .next s) ∧
    (∀ far, dieHeld s (endDie l far) = true → exec (.commit l far f) s = .next s)) ∧
  (∀ (l : Nat) (s : State), l < 6 → l < s.links.length → (s.link l).out = false → s.mod.mainOn = true →
    let e := s.linkEnd l false
    (e.wstate ≠ .normal → e.began + 200 < s.now → linkFrozen s l = false → exec (.widthChangeTimeout l) s =
      .next (settle s ((s.updLink l (fun k => { k with failed := k.failed + 1 })).partialReset l false []))) ∧
    ((e.wstate = .normal ∨ s.now ≤ e.began + 200 ∨ linkFrozen s l = true) → exec (.widthChangeTimeout l) s = .next s) ∧
    (∀ (far reset : Bool) (bad : List (Nat × Nat)), let e := s.linkEnd l far
      let due := reset = true ∨ 8 ≤ e.replays ∨ (e.replay ≠ [] ∧ e.ackAt + 200 ≤ s.now ∧ linkFrozen s l = false)
      (due → exec (.dieLinkRetrain l ⟨far, reset, bad⟩) s = .next (settle s (s.partialReset l far bad))) ∧
      (¬ due → exec (.dieLinkRetrain l ⟨far, reset, bad⟩) s = .next s)) ∧
    (∀ bad : List (Nat × Nat), let t := s.partialReset l true bad
     (bad = [] → (t.linkEnd l true).mask = 2 ^ linkLanes l - 1 ∧ (t.linkEnd l true).sub = []) ∧ (t.linkEnd l true).width = none ∧ (t.linkEnd l true).wires = [] ∧ (t.linkEnd l true).quarter = true ∧ (t.linkEnd l true).wstate = .normal ∧
     (t.linkEnd l true).replay = (s.linkEnd l true).replay ∧ (t.linkEnd l true).txSeq = (s.linkEnd l true).txSeq ∧
     (t.linkEnd l true).rxSeq = (s.linkEnd l true).rxSeq ∧ (t.linkEnd l true).used = (s.linkEnd l true).used ∧
     (t.linkEnd l true).freed = (s.linkEnd l true).freed ∧ t.linkEnd l false = s.linkEnd l false ∧ t.mem = s.mem))

/-- On a die link in service: a wire that fails in a lane with a spare left takes the lane out of the end's mask and leaves the
substitution to be told; with no spare left the lane is lost, which is logged and put in the ledger; either way a width
change follows. A link whose laser fails, with three failed changes in a row, or with fewer common lanes than quarter width,
leaves service by the reroute; else a command to take it out changes nothing. Rows named: WIRE_SUBSTITUTION, DIE_LINK_DOWN.
(R321, R322, R403, R408) -/
def Obligations.WireSubstitutionAndLoss : Prop :=
  ∀ (l lane wire : Nat) (far : Bool) (s : State), l < 6 → l < s.links.length → (s.link l).out = false → s.mod.mainOn = true →
    lane < linkLanes l →
    let e := s.linkEnd l far
    let m := if bitAt e.mask lane then e.mask - 2 ^ lane else e.mask
    let told := if 4 ≤ l then 0x1F else wire
    let out (laser : Bool) : Prop := (laser = true ∧ 4 ≤ l) ∨ 3 ≤ (s.link l).failed ∨
      lanesIn ((s.link l).near.mask &&& (s.link l).far.mask) < quarterLanes l
    (State.spareLeft l e lane = true → exec (.wireSubstitution l far lane wire) s = .next (settle s
      ((s.updEnd l far (fun e => { e with mask := m, testing := e.testing.filter (· != lane), sub := e.sub ++ [(lane, told)] })).enterQuarter
        l far))) ∧
    (State.spareLeft l e lane = false → exec (.wireSubstitution l far lane wire) s = .next (settle s
      (((s.updEnd l far (fun e => { e with mask := m, testing := e.testing.filter (· != lane) })).recordWire l lane told 0 true
        (((e.width).map (·.2)).getD 0 &&& m)).enterQuarter l far))) ∧
    (∀ laser : Bool, out laser → exec (.dieLinkDown l laser) s = .next (settle s (s.linkOut l)) ∧ ((s.linkOut l).link l).out = true) ∧
    (∀ laser : Bool, ¬ out laser → exec (.dieLinkDown l laser) s = .next s)

/-- With main power on, a die in no droop hold that arrives has its arrival sent out, over the sideband once its beacon has
failed, and noted; when every other die has arrived the barrier is released and no arrival stands any more. A die whose
beacon fails is marked and E_LINK_DOWN logged for it; a second failure of the same beacon changes nothing. Rows named:
BARRIER_ARRIVE, BEACON_FAIL. (R31, R313, R408) -/
def Obligations.BarrierAndBeacon : Prop :=
  ∀ (d : Nat) (x : Die) (s : State), s.dies[d]? = some x →
    (s.mod.mainOn = true → x.hold = none →
      ((∃ i y, i ≠ d ∧ s.dies[i]? = some y ∧ y.arrived = false) → exec (.barrierArrive d) s = .next (settle s { s with
        dies := s.dies.set d { x with arrived := true }, out := s.out ++ [.pin (if x.beaconFail then 48 else 16) d] })) ∧
      ((∀ i y, i ≠ d → s.dies[i]? = some y → y.arrived = true) → ∃ ds, exec (.barrierArrive d) s = .next (settle s { s with
        dies := ds, out := s.out ++ [.pin (if x.beaconFail then 48 else 16) d, .pin 19 0] }) ∧ ∀ y ∈ ds, y.arrived = false)) ∧
    (x.beaconFail = false → exec (.beaconFail d) s = .next (settle s { s with
      dies := s.dies.set d { x with beaconFail := true }
      mss := { s.mss with logQ := s.mss.logQ ++ [⟨s.now, 0x6001, 7, d, 0, 0, d % 256⟩] } })) ∧
    (x.beaconFail = true → exec (.beaconFail d) s = .next s)

/-- With main power on. A cadence gate gives each die the lowest of its 32 readings, marks the gate on the beacon, and changes
nothing but die readings and occupancy. A governor gate runs the active gear, while no pedal work runs that of the phase
tags; keeps every die at 0.62 V to 0.90 V and moves it by at most 20 steps from a voltage in that range; keeps the means at
the floor of any pedal hold as far as the budget allows, and the 100 us mean from a fall of more than 20 W and, in phase 6 of
a switch, rising to its level; and changes no memory, counter or register of BAR0. Telemetry takes the module cadence,
occupancy, time, die cadences and voltages, and leaves TELEM_SEQ even. A 100 us mean above 105 % of the cap sets the duty
limit and logs E_POWER_CAP once an episode. Meters that departed 100 gates in a row are replaced and logged. Rows named:
CADENCE_GATE, GOVERNOR_GATE, TELEMETRY_PUBLISH, CAP_FAST_LIMIT, OCCUPANCY_MISMATCH. (R26, R40, R41, R42, R71, R374, R378,
R384) -/
def Obligations.GatesMeterAndGovern : Prop :=
  ∀ s : State, s.mod.mainOn = true →
    (∀ meters steps, ∃ ds occ, exec (.cadenceGate meters steps) s = .next (settle s { s with
          dies := ds, pwr := { s.pwr with occ := occ }
          out := s.out ++ [.pin (if (s.dies[0]?).any (·.beaconFail) then 52 else 20) 0] }) ∧ ds.length = s.dies.length ∧
      ∀ (d : Nat) (x y : Die), s.dies[d]? = some x → ds[d]? = some y → y.cad = 100 * lowest (dieReadings meters d) ∧
        y.replaced = x.replaced ∧ y.volt = x.volt ∧ y.hold = x.hold ∧ y.beaconFail = x.beaconFail) ∧
    (s.mss.tripped = false → ∀ mean mean100, ∃ t, exec (.governorGate mean mean100) s = .next t ∧ t.pwr.gear = activeGear s mean mean100 ∧
      (pedalWorks s mean mean100 = false → t.pwr.gear = taggedGear s) ∧
      (let held (n : Nat) : Nat := max n (min (budgetOf s (activeGear s mean mean100)) ((s.pwr.pedals.map (·.floor)).foldl max 0));
       let risen := max mean100 (min (s.pwr.power100 + 20) (switchLevel s));
        t.pwr.power = held mean ∧ t.pwr.power100 = held (if s.pwr.capDuty then risen else max risen (s.pwr.power100 - 20))) ∧ t.pwr.tags = flightTags t ∧ t.mem = s.mem ∧ t.ctrs = s.ctrs ∧ t.bar = s.bar ∧
      t.dies.length = s.dies.length ∧ ∀ (d : Nat) (x y : Die), s.dies[d]? = some x → t.dies[d]? = some y →
        248 ≤ y.volt ∧ y.volt ≤ 360 ∧ (248 ≤ x.volt → x.volt ≤ 360 → y.volt ≤ x.volt + 20 ∧ x.volt ≤ y.volt + 20)) ∧
    (∃ u : Telemetry, exec .telemetryPublish s = .next (settle s { s with bar := { s.bar with tel := u } }) ∧
      u.seq = (s.bar.tel.seq + 2) % 2 ^ 64 ∧ u.cadence = lowest (s.dies.map (fun d => if d.replaced then d.rate else d.cad)) / 1000 ∧ u.occ = s.pwr.occ ∧
      u.dies = s.dies.map (fun d => d.cad / 1000) ∧ u.volts = s.dies.map (fun d => d.volt * 5 / 2)) ∧
    (∀ mean100, 105 * s.pwr.cap < 100 * mean100 → s.pwr.capDuty = false → exec (.capFastLimit mean100) s = .next (settle s { s with
      pwr := { s.pwr with capDuty := true, capCut := s.pwr.capCut + (1000000 - s.pwr.capCut) * 2 / 100, power100 := mean100 }
      mss := { s.mss with logQ := s.mss.logQ ++ [⟨s.now, 0x8001, 7, 0, 0, 0, 0⟩] } })) ∧
    (∀ mean100, (100 * mean100 ≤ 105 * s.pwr.cap ∨ s.pwr.capDuty = true) → exec (.capFastLimit mean100) s = .next s) ∧
    (∀ d x, s.dies[d]? = some x → 100 ≤ x.departed → x.replaced = false → ∃ t e, exec (.occupancyMismatch d) s = .next t ∧
      t.dies = s.dies.set d { x with replaced := true } ∧ t.mss.logQ = s.mss.logQ ++ [e] ∧ e.code ∈ State.errorCodes ∧ t.mem = s.mem)

/-- With main power on. Above 95 C the throttle engages: every grant is withdrawn, with the budget it raised, and
E_POWER_THROTTLE logged; while it is on, each reading above 95 C deepens the cut by 2 %; at 92 C or less it ends, and below
85 C a trip no longer bars a reset. At 110 C core voltage leaves every die, which ends its hold, and the module fails.
Coolant temperatures are published, with an event when the inlet leaves 15 C to 45 C after a reading inside or none. A die
below 0.58 V begins a droop hold, ends it at 0.60 V with one log entry, after which what waited goes on, and after more than
1 ms fails the module. A pedal hold older than PEDAL_MS ends, and no other. Rows named: THROTTLE_ENGAGE, THROTTLE_STEP,
THROTTLE_RELEASE, THERMAL_TRIP, COOLANT_EVENT, DROOP_HOLD_START, DROOP_HOLD_END, DROOP_HOLD_TIMEOUT, PEDAL_HOLD_EXPIRE. (R31,
R382, R384, R385, R386, R387, R389) -/
def Obligations.HeatAndDroop : Prop :=
  ∀ s : State, s.mod.mainOn = true →
    (∀ k r, 950 < r → s.pwr.throttled = false → exec (.throttleEngage k r) s = .next (settle s { s with
      pwr := { s.pwr with throttled := true }
      jobs := s.jobs.map (fun (j : Job) => { j with lock := { j.lock with grant := 0, lead := min 0 j.lock.lead, withdrawn := true } })
      mss := { s.mss with logQ := s.mss.logQ ++ [⟨s.now, 0x8011, 7, 0, 0, 0, place 0 16 k + place 16 16 r⟩] } })) ∧
    (∀ k r, (r ≤ 950 ∨ s.pwr.throttled = true → exec (.throttleEngage k r) s = .next s) ∧
      (r ≤ 950 ∨ s.pwr.throttled = false → exec (.throttleStep r) s = .next s) ∧ (920 < r → exec (.throttleRelease r) s = .next s) ∧
      (r < 1100 ∨ s.mss.tripped = true → exec (.thermalTrip k r) s = .next s)) ∧
    (∀ r, 950 < r → s.pwr.throttled = true → exec (.throttleStep r) s = .next (settle s { s with
      pwr := { s.pwr with heatCut := s.pwr.heatCut + (1000000 - s.pwr.heatCut) * 2 / 100 } })) ∧
    (∀ r, r ≤ 920 → exec (.throttleRelease r) s = .next (settle s { s with
      pwr := { s.pwr with throttled := false }, mss := { s.mss with hot := s.mss.hot && decide (850 ≤ r) } })) ∧
    (∀ k r, 1100 ≤ r → s.mss.tripped = false → ∃ u : State, exec (.thermalTrip k r) s = .next (settle s u.failModule) ∧
      (∀ d ∈ u.dies, d.volt = 0 ∧ d.hold = none) ∧ u.mss.tripped = true ∧ u.mss.hot = true ∧ u.mem = s.mem ∧ u.jobs = s.jobs ∧ u.mod = s.mod) ∧
    (s.mod.st ≠ .off → ∀ i o : Int, ∃ t, exec (.coolantEvent i o) s = .next t ∧ (0x230, i) ∈ t.mss.sensors ∧ (0x231, o) ∈ t.mss.sensors ∧
      t.out = s.out ++ (if (i < 150 ∨ 450 < i) ∧ (∀ x, s.mss.sensors.find? (fun y => y.1 == 0x230) = some x → 150 ≤ x.2 ∧ x.2 ≤ 450)
        then [.pldm 1 [0x230, i]] else []) ∧ t.mem = s.mem ∧ t.jobs = s.jobs) ∧
    (∀ (d mv : Nat) (x : Die), s.dies[d]? = some x →
      (x.hold = none → mv < 580 → exec (.droopHoldStart d mv) s = .next (settle s { s with
        dies := s.dies.set d { x with hold := some s.now }, out := s.out ++ [.pin (if x.beaconFail then 49 else 17) d] })) ∧
      (∀ b, x.hold = some b → 600 ≤ mv → exec (.droopHoldEnd d mv) s = .next (settle s (({ s with
        dies := s.dies.set d { x with hold := none }, links := (s.thawLinks d b).links
        out := s.out ++ [.pin (if x.beaconFail then 50 else 18) d]
        mss := { s.mss with logQ := s.mss.logQ ++ [⟨s.now, 0x8021, 7, d, 0, 0, place 0 64 b + place 64 32 (s.now - b)⟩] } } :
          State).pumpDiePorts d).issueHeld)) ∧
      (∀ b, x.hold = some b → (b + 100000 < s.now → exec (.droopHoldTimeout d) s = .next (settle s s.failModule)) ∧
        (s.now ≤ b + 100000 → exec (.droopHoldTimeout d) s = .next s))) ∧
    (exec .pedalHoldExpire s = .next (settle s { s with pwr := { s.pwr with
      pedals := s.pwr.pedals.filter (fun p => decide (s.now < p.since + gtMs s.pwr.table * 100000)) } }))

/-- A module of the running job sends its report, of the gears used, its mean and its cap, to the lead and starts a new one. The
lead keeps a report with those of the last 10 ms; in the first exchange of a switch to the job, the one that makes them
complete, or comes 1 ms late, is answered at once. Its broadcast, which waits in such a switch for those reports, goes to
every module of the job with one lock per gear, each at least TARGET lowered by LOCK_GIVE or at most 1 % above the last lock.
A module that receives them, with no recovery under way, takes the locks, the grant, and what the budget adds to its own,
unless its grant was withdrawn, it throttles or a duty limit is in force: then no grant and no budget above its own. Rows
named: LOCK_REPORT_SEND, LOCK_REPORT, LOCK_BROADCAST, LOCK_RECEIVE. (R374, R380, R381, R382, R389) -/
def Obligations.CadenceLockExchange : Prop :=
  ∀ (s : State) (j : Job),
    let coming := ∃ w, s.sched.switch = some w ∧ w.incoming = some j.id
    (∀ l mean est, s.runJob = some j → s.leadNow j = some l → ∃ m : LockMsg,
      exec (.lockReportSend mean est) s = .next (settle s { ((s.send l (.lockReport m)).updJob j.id (fun j =>
        { j with lock := { j.lock with ask := false } })) with pwr := { s.pwr with used := [] } }) ∧
      m.src = s.mod.id ∧ m.job = j.id ∧ m.gears = s.pwr.used ∧ m.power = mean ∧ m.cap = s.pwr.cap ∧
      m.estimate = (if j.lock.ask then est.take 10 else [])) ∧
    (∀ mean est, s.runJob = none → exec (.lockReportSend mean est) s = .next s) ∧
    (∀ m : LockMsg, s.job? m.job = some j → s.leadNow j = some s.mod.id →
      let rs := j.lock.reports.filter (fun r => decide (s.now ≤ r.1 + 1000000)) ++ [(s.now, m)]
      let kept := s.updJob j.id (fun j => { j with lock := { j.lock with reports := rs } })
      (¬ coming → exec (.lockReport m) s = .next (settle s kept)) ∧
      (coming → answerWaits s j rs = true → exec (.lockReport m) s = .next (settle s kept)) ∧
      (coming → answerWaits s j rs = false → exec (.lockReport m) s = .next (settle s (broadcastLocks j.id kept)))) ∧
    (∀ jid, s.job? jid = some j → s.leadNow j = some s.mod.id → ¬ coming ∨ answerWaits s j (freshReports s.now j.lock.reports) = false →
      ∃ (u : State) (ls : List Nat) (gs bs : List (Nat × Nat)),
      exec (.lockBroadcast jid) s = .next (settle s ((jobModules u j).foldl (fun t m => t.send m (.lockReceive
        { src := u.mod.id, job := jid, locks := ls, grant := lookupOr gs m 0, budget := lookupOr bs m 0 })) u)) ∧
      ls.length = 8 ∧ u.mem = s.mem ∧ u.out = s.out ∧ u.mod = s.mod ∧
      ∀ g v, ls[g]? = some v → (j.lock.locks = none → lockFloor s.pwr.table g ≤ v) ∧
        (∀ o, (j.lock.locks.bind (fun l => l[g]?)) = some o → v ≤ o * 101 / 100)) ∧
    (∀ m : LockOut, s.job? m.job = some j → j.recov.active = false →
      let adds : Int := if m.budget = 0 then 0 else (m.budget : Int) - (baseBudget s s.pwr.gear : Nat)
      (j.lock.withdrawn = false → s.pwr.throttled = false → s.pwr.limited = false →
        exec (.lockReceive m) s = .next (settle s (s.updJob j.id (fun k => { k with lock := { k.lock with
          locks := some m.locks, grant := m.grant, withdrawn := k.lock.withdrawn, lead := adds, at_ := s.now } })))) ∧
      ((j.lock.withdrawn = true ∨ s.pwr.throttled = true ∨ s.pwr.limited = true) →
        exec (.lockReceive m) s = .next (settle s (s.updJob j.id (fun k => { k with lock := { k.lock with
          locks := some m.locks, grant := 0, withdrawn := k.lock.withdrawn || decide (m.grant ≠ 0)
          lead := min 0 adds, at_ := s.now } }))))) ∧
    (∀ m : LockOut, (s.job? m.job = none ∨ (s.job? m.job = some j ∧ j.recov.active = true)) → exec (.lockReceive m) s = .next s)

/-- At the yield point of the running job, of its pipeline or, where that is IDLE, its command boundary, a cancel ends it and a
stop asked for goes on to the command boundary. At the boundary the job's overrun is judged, the job is parked, no job runs,
and a switch begins: to the job that a window's stop time chose, else to the one of highest rank, each if it may start. Once
no stage flit is unacknowledged and no die holds, the switch saves the outgoing tile state and clears or restores the
incoming one; waits for the power to reach the incoming job's level; re-opens its remote edges and waits for their peers'
answers; exchanges the first locks of a multi-module job, for 1 ms at most; then the incoming job runs. A window's stop time
stops the running job unless it stays the choice, and gives its choice to a stop under way. An aging period raises waiting
eligible jobs that no window names by one rank, to 4 at most, those of one module at once and the others by their lead;
before it is over nothing changes. Rows named: YIELD_POINT, COMMAND_BOUNDARY, SWITCH_COMPLETE, WINDOW_STOP_TIME,
AGING_PERIOD. (R242, R330, R331, R332, R336, R338, R339) -/
def Obligations.JobsSwitchAtTheirBoundaries : Prop :=
  ∀ (s : State) (j : Job), 
    (s.runJob = some j → j.st = .running →
      (j.strand.pipe.st ≠ .idle ∧ j.strand.pipe.stopped = true ∧ j.quiet = true) ∨ (j.strand.pipe.st = .idle ∧ atBoundary j = true) →
      (∀ t, cancelPending j = false → s.sched.stop = some t → t.job = j.id →
        exec .yieldPoint s = .next (settle s { s with sched := { s.sched with stop := some { t with hard := true } } })) ∧
      (cancelPending j = true → exec .yieldPoint s = .next (settle s (s.endJob j.id)))) ∧
    (∀ st : Stop, s.runJob = some j → s.sched.stop = some st → st.job = j.id → st.hard = true →
      atBoundary j = true → j.st = .running → cancelPending j = false → s.sched.switch = none →
      let u := (s.overrun j.id st).parkJob j
      u.running = none ∧ u.sched.stop = none ∧
      (st.next = none → st.chosen = true ∨ choiceOf u = none →
        exec .commandBoundary s = .next (settle s (u.beginSwitch (some j.id) none))) ∧
      (∀ c, st.next = none → st.chosen = false → choiceOf u = some c → u.mayStart c = true →
        exec .commandBoundary s = .next (settle s (u.beginSwitch (some j.id) (some c.id)))) ∧
      (∀ c, st.next = some c.id → u.job? c.id = some c → c.st = .parked → (st.chosen = true → u.mayStart c = true) →
        exec .commandBoundary s = .next (settle s (u.beginSwitch (some j.id) (some c.id))))) ∧
    (∀ sw : Switch, s.sched.switch = some sw → sw.incoming = some j.id →
      (((∃ d ∈ s.dies, d.hold ≠ none) ∨ (sw.raised = false ∧ s.stageUnacked = true)) → exec .switchComplete s = .next s) ∧
      ((∀ d ∈ s.dies, d.hold = none) → s.job? j.id = some j →
        (sw.raised = false → s.stageUnacked = false →
          let v := s.saveOutgoing sw.outgoing
          let w := (if j.hasRun then (if j.parkAddr = 0 then v else v.restoreJob j) else v.clearTiles).setSwitch { sw with raised := true }
          (∀ o k, sw.outgoing = some o → s.job? o = some k → k.st = .parked → k.parkAddr ≠ 0 → v = s.saveTiles k.parkAddr) ∧
          (w.pwr.power100 < switchLevel w → exec .switchComplete s = .next (settle s w)) ∧
          (switchLevel w ≤ w.pwr.power100 → exec .switchComplete s = .next (settle s (switchEdges w { sw with raised := true } j)))) ∧
        (sw.raised = true → sw.asked = false → sw.locking = none →
          (s.pwr.power100 < switchLevel s → exec .switchComplete s = .next s) ∧
          (switchLevel s ≤ s.pwr.power100 → exec .switchComplete s = .next (settle s (switchEdges s sw j)))) ∧
        (sw.raised = true → sw.asked = true → sw.locking = none →
          ((∃ e ∈ s.reopening j, ∀ m, e.answer = some m → answerOk s j e m = false) → exec .switchComplete s = .next s) ∧
          ((∀ e ∈ s.reopening j, ∃ m, e.answer = some m ∧ answerOk s j e m = true) →
            exec .switchComplete s = .next (settle s (switchLock s sw j)))) ∧
        (∀ at_, sw.raised = true → sw.locking = some at_ →
          (((∃ ls, j.lock.locks = some ls) ∧ at_ ≤ j.lock.at_ ∨ s.leadNow j = none ∨ at_ + 100000 ≤ s.now) →
            exec .switchComplete s = .next (settle s (switchEnd s j.id))) ∧
          ((j.lock.locks = none ∨ j.lock.at_ < at_) → s.leadNow j ≠ none → s.now < at_ + 100000 → exec .switchComplete s = .next s)))) ∧
    (∀ sw : Switch,
      (s.reopening j = [] → switchEdges s sw j = switchLock s sw j) ∧
      (s.reopening j ≠ [] → switchEdges s sw j = (s.setSwitch { sw with asked := true }).reopenEdges j.id) ∧
      ((multiModule j = false ∨ s.leadNow j = none) → switchLock s sw j = switchEnd s j.id) ∧
      (∀ l, multiModule j = true → s.leadNow j = some l → ∃ m : LockMsg, m.src = s.mod.id ∧ m.job = j.id ∧
        switchLock s sw j = (s.send l (.lockReport m)).setSwitch { sw with locking := some s.now })) ∧
    (s.job? j.id = some j → j.st = .parked → s.mod.st ≠ .drain →
      let u := ({ s with sched := { s.sched with switch := none } } : State).startRun j.id
      u.running = some j.id ∧ switchEnd s j.id = u.reexamine) ∧
    (∀ t w, s.sched.table = some t → t.inForce s.sched.charges s.fabric = w → t.boundary w = true → s.sched.window ≠ w →
      s.runJob = some j → s.headless j = false → j.st = .running → s.sched.switch = none →
      let at_ := s.fabric - (t.phase s.fabric + t.frameLen - t.opens s.sched.charges w) % t.frameLen
      let u := spanEnds t w at_ s
      let stays := eligible u j = true ∧ ∀ c, choiceOf u = some c → rankNow u c ≤ rankNow u j
      (s.sched.stop = none → stays → exec (.windowStopTime w) s = .next (settle s u)) ∧
      (s.sched.stop = none → ¬ stays → exec (.windowStopTime w) s = .next (settle s (u.stopJob { job := j.id, at_ := at_, window := some w
                                                                                                 hard := true, next := (choiceOf u).map (·.id)
                                                                                                 chosen := true }))) ∧
      (∀ st, s.sched.stop = some st → exec (.windowStopTime w) s = .next (settle s { u with
        sched := { u.sched with stop := some { st with
          next := (choiceAt u j).map (·.id), chosen := true, at_ := at_, window := some w, instant := false } } }))) ∧
    (agingDue s = true → exec .agingPeriod s = .next (settle s (((s.jobs.filter (ages s)).filter multiModule).foldl State.reportAge { s with
      sched := { s.sched with aged := s.fabric }
      jobs := s.jobs.map (fun (j : Job) => if j.st = .parked ∧ eligible s j = true ∧ j.cls ≠ 5 ∧ namedByWindow s j.id = false ∧
          multiModule j = false then { j with rank := max j.rank (min 4 (j.rank + 1)) } else j) }).reexamine)) ∧
    (agingDue s = false → exec .agingPeriod s = .next s)

/-- At the lead a stop request without an instant in the last 10 ms sends one 2 ms ahead to every module of the job, and so does
the first start request's 10 ms timeout. A module takes the instant, or the aged rank, at which it chooses again, it is sent;
a start request counts once and the last one sets the instant; an aging report is passed to all. A stop instant reached stops
the running job outside a real-time window; a start instant starts its job, where the window in force allows it, at once or
after the running one stops, but not against what a window's stop time chose. A deferred command whose boundary has come
first among its job's, and whose command the event names, acts: a gear table within the cap is loaded, with grants withdrawn,
and one above it fails; a timetable is put in force or cleared if its re-check holds, deferrals whose boundary the old one
brought keeping it; a RESHARD of the next epoch takes its group's place; an end of job advances. With none due nothing
changes. Rows named: SWITCH_REQUEST, START_INSTANT_TIMEOUT, SWITCH_INSTANT, SWITCH_INSTANT_REACHED, DEFERRED_APPLY. (R62,
R63, R333, R335, R340, R376) -/
def Obligations.SwitchInstantsAndDeferrals : Prop :=
  ∀ (s : State) (j : Job),
    (∀ m : SwitchMsg, s.job? m.job = some j → s.leadNow j = some s.mod.id → j.admitted = true → m.aged = true →
      exec (.switchRequest m) s = .next (settle s ((jobModules s j).foldl (fun s d => s.send d (.switchInstant
        { src := s.mod.id, job := j.id, start := true, rank := max j.rank (min 4 m.rank), at_ := 0, aged := true })) s))) ∧
    (∀ m : SwitchMsg, s.job? m.job = some j → s.leadNow j = some s.mod.id → j.admitted = true → m.aged = false → m.start = true →
      let st := if j.inst.starters.contains m.src then j.inst.starters else j.inst.starters ++ [m.src]
      let u := (s.updJob j.id (fun j => if j.st = .parked then { j with rank := max j.rank m.rank } else j)).updInst j.id (fun x =>
        { x with starters := st, first := if x.starters.isEmpty then s.fabric else x.first })
      exec (.switchRequest m) s = .next (settle s (if (jobModules u j).all (fun d => st.contains d) && !recentInstant u j
        then u.sendInstant j true else u))) ∧
    (∀ m : SwitchMsg, s.job? m.job = some j → s.leadNow j = some s.mod.id → j.st = .running → m.start = false → m.aged = false →
      (recentInstant s j = false → exec (.switchRequest m) s = .next (settle s (s.sendInstant j false))) ∧
      (recentInstant s j = true → stopPending s j = true → exec (.switchRequest m) s = .next s) ∧
      (recentInstant s j = true → stopPending s j = false → exec (.switchRequest m) s = .next (settle s (s.updJob j.id (fun j =>
        { j with inst := { j.inst with due := true } }))))) ∧
    (∀ job, s.job? job = some j → j.inst.starters ≠ [] → j.inst.first + 1000000 ≤ s.fabric → recentInstant s j = false →
      exec (.startInstantTimeout job) s = .next (settle s (s.sendInstant j true))) ∧
    (∀ m : SwitchMsg, m.aged = true → exec (.switchInstant m) s = .next (settle s (s.updJob m.job (fun j =>
      if j.st = .parked then { j with rank := max j.rank m.rank } else j)).reexamine)) ∧
    (∀ m : SwitchMsg, m.start = false → m.aged = false → exec (.switchInstant m) s = .next (settle s (s.updJob m.job (fun j =>
      { j with inst := { j.inst with stopAt := some m.at_, askedStop := false } })))) ∧
    (∀ m : SwitchMsg, m.start = true → m.aged = false → exec (.switchInstant m) s = .next (settle s (s.updJob m.job (fun j =>
      { j with rank := if j.st = .parked then max j.rank m.rank else j.rank, inst := { j.inst with startAt := some m.at_ } })))) ∧
    (∀ job t, s.job? job = some j → j.inst.stopAt = some t → t ≤ s.fabric → s.running = some job → s.sched.stop = none → j.st = .running →
      s.headless j = false → rtNow s = false →
      exec (.switchInstantReached job) s = .next (settle s ((s.updInst job (fun x => { x with stopAt := none })).stopJob
        { job := job, at_ := t, window := none, hard := true, instant := true }))) ∧
    (∀ job t, s.job? job = some j → j.inst.stopAt = none → j.inst.startAt = some t → t ≤ s.fabric → j.st = .parked → s.sched.switch = none →
      s.headless j = false →
      (eligible s j = false → exec (.switchInstantReached job) s = .next s) ∧
      (eligible s j = true → s.runJob = none → exec (.switchInstantReached job) s = .next (settle s (s.beginSwitch none (some job)))) ∧
      (∀ r, eligible s j = true → s.runJob = some r → s.headless r = false →
        (∀ st, s.sched.stop = some st → st.chosen = true → exec (.switchInstantReached job) s = .next s) ∧
        (∀ st, s.sched.stop = some st → st.chosen = false → exec (.switchInstantReached job) s =
          .next (settle s { s with sched := { s.sched with stop := some { st with next := some job } } })) ∧
        (s.sched.stop = none → r.st ≠ .draining → rtNow s = false → exec (.switchInstantReached job) s = .next (settle s
          (s.stopJob { job := r.id, at_ := t, window := none, hard := true, instant := true, next := some job }))))) ∧
    (∀ jid d, s.job? jid = some j → j.deferrals.find? (fun d => deferralDue s j d) = some d →
      (d.kind = .gearTable → let u := s.dropDeferral jid .gearTable
        (gearOverCap d.data s.pwr.cap = true → exec (.deferredApply jid .gearTable) s = .next (settle s (u.secondRecord jid d eCap 0))) ∧
        (gearOverCap d.data s.pwr.cap = false → exec (.deferredApply jid .gearTable) s = .next (settle s
          (({ u with pwr := { u.pwr with table := d.data }
                     jobs := u.jobs.map (fun (k : Job) => { k with lock := { k.lock with
                       grant := 0, lead := 0, withdrawn := true, grants := [], budgets := [], powers := [] } }) } : State).secondRecord jid d 0 0)))) ∧
      (d.kind = .timetable → let u := s.keepDue.dropDeferral jid .timetable
        let put (t : Option Timetable) (w : Nat) : State :=
          { u with sched := { u.sched with table := t, window := w, charges := [], skipped := [], records := [], early := none } }
        let rt := u.jobs.filter (fun k => k.admitted && k.cls == 5)
        let t := timetableOf d.data
        let bad := t.windows.any (fun w => w.rt && u.jobs.any (fun k => k.admitted && k.id == w.job && k.cls != 5))
        exec (.deferredApply jid .timetable) s = .next (settle s (
          if ttClear d.record = true then
            (if rt = [] then (put none 0).secondRecord jid d 0 0 else u.secondRecord jid d eState 0)
          else if bad = true then u.secondRecord jid d eState 0
          else (put (some t) (t.inForce [] u.fabric)).secondRecord jid d 0 0))) ∧
      (∀ g, d.kind = .reshard g → exec (.deferredApply jid (.reshard g)) s = .next (settle s
        (((s.applyReshard jid g).1.dropDeferral jid (.reshard g)).secondRecord jid d (s.applyReshard jid g).2 0))) ∧
      (∀ g p old, d.kind = .reshard g → j.rpending? g = some p → j.rgroup? g = some old → p.epoch = (old.epoch + 1) % 2 ^ 16 →
        (s.applyReshard jid g).2 = 0 ∧ (s.applyReshard jid g).1 = s.updRing jid (fun x => { x with
          uses := x.uses.filter (fun u => u.2.2 != g), pending := x.pending.filter (fun y => y.num != g)
          groups := x.groups.map (fun y => if y.num == g then p else y) })) ∧
      (d.kind = .jobCancel → exec (.deferredApply jid .jobCancel) s = .next (settle s (s.endAdvance jid))) ∧
      (∀ k, d.kind ≠ k → exec (.deferredApply jid k) s = .next s)) ∧
    (∀ jid, (s.job? jid = none ∨ (s.job? jid = some j ∧ j.deferrals.find? (fun d => deferralDue s j d) = none)) →
      exec (.deferredApply jid .jobCancel) s = .next (settle s ((s.keys jid).foldl State.endAdvance s)) ∧
      ∀ k, k ≠ .jobCancel → exec (.deferredApply jid k) s = .next s) ∧
    (∀ jid, exec (.deferredApply jid .schedPolicy) s = .next s ∧ exec (.deferredApply jid .ckptInterval) s = .next s)

/-- With main power on. A tile that fails is marked failed and its commands poisoned: the first spare of its die takes its place,
its state zero, and the step is poisoned; without a spare the module fails. A failed bank is replaced by the tile's first or
second spare bank, with a ledger record; a failed working phase by a spare phase, or with none left the die's share falls,
and the module fails at the third. Wear readings join their sources' last 168, due monitors' tiles are flagged, due lanes and
phases give way at once; a fit's ledger record waits to be written, with its slope and, where the line reaches its limit, its
date. The active host port's failure brings the standby one into use, once since power-on, else the host is lost; transfers
to the host complete with E_LINK_DOWN. A port held in PERST has not failed (R417). Rows named: TILE_FAIL, SCRATCH_BANK_FAIL,
REGULATOR_PHASE_FAIL, WEAR_SAMPLE, WEAR_LEDGER_WRITE, HOST_PORT_FAILOVER. (R10, R343, R344, R345, R346, R347, R403) -/
def Obligations.SparesTakeOver : Prop :=
  ∀ s : State, s.mod.mainOn = true →
    (∀ l, l < s.parts.map.length →
      let u : State := { s.poisonTile l with parts := { (s.poisonTile l).parts with
        failed := (s.poisonTile l).parts.failed ++ [(s.poisonTile l).parts.map.getD l 0] } }
      (∀ p ps, u.spareTiles (l / 64) = p :: ps → exec (.tileFail l) s = .next (settle s ((u.mapTile l p 1).poisonStep))) ∧
      (u.spareTiles (l / 64) = [] → exec (.tileFail l) s = .next (settle s u.failModule))) ∧
    (∀ (v : State) (l p : Nat), l < v.parts.map.length → v.mem.wf = true →
      (v.mapTile l p 1).parts.map[l]? = some p ∧ (∀ k, k ≠ l → (v.mapTile l p 1).parts.map[k]? = v.parts.map[k]?) ∧
      (∀ a, State.scratchAddr l 0 ≤ a → a < State.scratchAddr l 0 + 0x400000 → (v.mapTile l p 1).mem.byte a = 0) ∧
      (∀ a, a < State.scratchBase → (v.mapTile l p 1).mem.byte a = v.mem.byte a)) ∧
    (∀ l b, l < s.parts.map.length → b < 32 → (s.parts.banks.filter (fun x => x.1 == l)).length < 2 →
      let n := (s.parts.banks.filter (fun x => x.1 == l)).length
      exec (.scratchBankFail l b false) s = .next (settle s { s with
        parts := { s.parts with banks := s.parts.banks ++ [(l, b, n)] }
        mss := { s.mss with ledgerQ := s.mss.ledgerQ ++ [(0x02, leBytes 8 (place 0 8 l + place 8 5 b + place 16 1 n))] } })) ∧
    (∀ l b unc, l < s.parts.map.length → b < 32 →
      let u := if unc = true then s.loseWord l b else s
      let n := (u.parts.banks.filter (fun x => x.1 == l)).length
      (2 ≤ n → exec (.scratchBankFail l b unc) s = .next (settle s (failTile l u))) ∧
      (n < 2 → exec (.scratchBankFail l b unc) s = .next (settle s { u with
        parts := { u.parts with banks := u.parts.banks ++ [(l, b, n)] }
        mss := { u.mss with ledgerQ := u.mss.ledgerQ ++ [(0x02, leBytes 8 (place 0 8 l + place 8 5 b + place 16 1 n))] } }))) ∧
    (∀ (d ph : Nat) (x : Die), s.dies[d]? = some x →
      ((∃ f ∈ x.phases, f.1 = ph) → exec (.regulatorPhaseFail d ph) s = .next (settle s s)) ∧
      (26 ≤ ph → exec (.regulatorPhaseFail d ph) s = .next (settle s s)) ∧
      (ph = 24 ∨ ph = 25 → (∀ f ∈ x.phases, f.1 ≠ ph ∧ f.2 ≠ some ph) →
        exec (.regulatorPhaseFail d ph) s = .next (settle s { s with dies := s.dies.set d { x with phases := x.phases ++ [(ph, none)] } }))) ∧
    (∀ (d ph : Nat) (x : Die), s.dies[d]? = some x → ph < 26 → (24 ≤ ph → ∃ f ∈ x.phases, f.2 = some ph) → (∀ f ∈ x.phases, f.1 ≠ ph) →
      (∀ p, spareFor x = some p → exec (.regulatorPhaseFail d ph) s = .next (settle s { s with
        dies := s.dies.set d { x with phases := x.phases ++ [(ph, some p)] }
        mss := { s.mss with ledgerQ := s.mss.ledgerQ ++ [(0x09, leBytes 8 (place 0 2 d + place 8 5 ph + place 16 5 p))] } })) ∧
      (spareFor x = none →
        let u := ({ s with dies := s.dies.set d { x with phases := x.phases ++ [(ph, none)], shareLost := x.shareLost + 1 } } : State).log 0x3041 7 d 0
        exec (.regulatorPhaseFail d ph) s = .next (settle s (if 2 ≤ x.shareLost then u.failModule else u)))) ∧
    (∀ slow ber share, ∃ u : State, u.mem = s.mem ∧ u.parts.map = s.parts.map ∧
      (∀ p, p ∈ u.parts.flagged ↔ p ∈ s.parts.flagged ∨ ∃ m ∈ wearDue u.parts.wear 0, p ∈ monitorTiles m) ∧
      exec (.wearSample slow ⟨ber, share⟩) s = .next (settle s ((wearDue u.parts.wear 2).foldl State.retirePhase
        ((wearDue u.parts.wear 1).foldl State.retireLane u.substituteFlagged))) ∧
      ∀ (m v : Nat), m < 128 → slow[m]? = some v → ∃ h, u.parts.wear.find? (fun w => w.1 == m) = some (m, h) ∧
        h = (v :: ((s.parts.wear.find? (fun w => w.1 == m)).map (·.2)).getD []).take 168) ∧
    (∀ kind idx slope date : Nat,
      ((∀ e ∈ s.parts.wear, e.1 ≠ kind * 65536 + idx) → exec (.wearLedgerWrite kind idx slope date) s = .next (settle s s)) ∧
      (∀ e, s.parts.wear.find? (fun e => e.1 == kind * 65536 + idx) = some e →
        ∃ sl dt : Nat, exec (.wearLedgerWrite kind idx slope date) s = .next (settle s { s with mss := { s.mss with
          ledgerQ := s.mss.ledgerQ ++ [(0x0B, leBytes 16 (place 0 8 kind + place 8 16 idx + place 32 32 sl + place 64 32 dt))] } }) ∧
        ((fitOf e.2).sxx ≠ 0 → sl = (fitOf e.2).slope kind ∧
          ∀ h, (fitOf e.2).hours (wearLimit kind).1 = some h → dt = (s.mss.date.at s.now + 3600 * h) / 86400))) ∧
    (s.mod.hostLost = false → s.perstOf s.mod.portB = true → ∀ trains : Bool, exec (.hostPortFailover trains) s = .next (settle s s)) ∧
    (s.mod.hostLost = false → s.perstOf s.mod.portB = false → ∀ trains : Bool,
      (s.dropHost.mod.hostSwitched = false → trains = true → exec (.hostPortFailover trains) s = .next (settle s { s.dropHost with
        mod := { s.dropHost.mod with portB := !s.dropHost.mod.portB, hostSwitched := true, hostUp := !(s.dropHost.perstOf (!s.dropHost.mod.portB)) }
        mss := { s.dropHost.mss with ledgerQ := s.dropHost.mss.ledgerQ ++ [(0x0A, leBytes 8 (boolNat (!s.dropHost.mod.portB)))] } })) ∧
      (s.dropHost.mod.hostSwitched = true ∨ trains = false → ∃ t, exec (.hostPortFailover trains) s = .next t ∧
        t.mod.hostLost = true ∧ t.mod.hostUp = false ∧ t.mem = s.mem))

/-- Where the Locket's die does not hold, from the lead or deputy of an admitted job: RECOVER lets pending NORM_CLOSEs expire,
opens the recovery and reports when the job is quiescent; ALIAS x to y is noted in place of an older one for x, up to 16, the
static ranges go out anew where x was the buddy, and it is acknowledged; a 17th is refused; REPOINT re-points all that names
an aliased module and is reported, or starts the TAKEOVER list at the spare; REPLAY releases halted queues and begins the
replay, or is answered as refused; DURABLE restores the checkpoint once the pipeline has stopped; RETIRE leaves its ledger
record, or in DRAIN its log entry, and ends the job. The spare that is named in an ALIAS starts its pulls. From any other
module none of them changes anything, and none is taken while the die holds. Rows named: RECOVER, ALIAS, REPOINT, REPLAY,
DURABLE, RETIRE. (R31, R364, R367, R368, R369, R389, R421) -/
def Obligations.RecoveryOrdersObeyed : Prop :=
  ∀ (s : State) (src jid : Nat),
    let ack (u : State) (o : OrderKind) (ok : Bool) : State := u.send src (.takeoverOffer (.ack u.mod.id jid o ok))
    (dieHeld s 2 = true → ∀ c ∈ [Instr.recover src jid, .repoint src jid], exec c s = .next s) ∧
    (dieHeld s 2 = true → ∀ x y step, ∀ c ∈ [Instr.aliasOrder src jid x y, .replayOrder src jid step, .durable src jid step, .retire src jid step],
      exec c s = .next s) ∧
    (dieHeld s 2 = false → ∀ j, orderOf s src jid = some j →
      exec (.recover src jid) s = .next (settle s (((((s.expireCloses jid).updRecov jid (fun r =>
        { r with active := true, quiesce := some src })).pedalStart 2 jid).reportQuiet jid))) ∧
      (∀ x y, s.mod.take = none → (j.aliases.length < 16 ∨ ∃ a ∈ j.aliases, a.1 = x) →
        let u := s.updJob jid (fun k => { k with aliases := j.aliases.filter (fun a => a.1 != x) ++ [(x, y)] })
        (j.locket.bound = false ∨ (lBuddy j.locket.desc ≠ x ∧ j.alias? (lBuddy j.locket.desc) ≠ x) →
          exec (.aliasOrder src jid x y) s = .next (settle s (ack u .alias_ true))) ∧
        (j.locket.bound = true → (lBuddy j.locket.desc = x ∨ j.alias? (lBuddy j.locket.desc) = x) →
          exec (.aliasOrder src jid x y) s = .next (settle s (ack (((u.job? jid).map (fun k => u.sendOffer k)).getD u) .alias_ true)))) ∧
      (∀ x y, s.mod.take = none → 16 ≤ j.aliases.length → (∀ a ∈ j.aliases, a.1 ≠ x) →
        exec (.aliasOrder src jid x y) s = .next (settle s (ack s .alias_ false))) ∧
      (s.mod.take = none → exec (.repoint src jid) s =
        .next (settle s (((s.repointAll jid).updRecov jid (fun r => { r with owing := some src })).reportRepoint jid))) ∧
      (∀ t, s.mod.take = some t → t.job = jid → t.stage = .admitted →
        let u := s.pushLocketList jid (s.num t.info.desc 128) 640
        exec (.repoint src jid) s = .next (settle s { u with mod := { u.mod with take := some { t with stage := .started } } })) ∧
      (∀ step k, let u := ((s.releaseHalted jid).endRecovery jid).newSeal jid
        u.job? jid = some k →
        (replayUnfit k step = false → (∃ v : State, u.ownReplay jid step = v.replayBegin jid ∧ v.mem = u.mem ∧ v.ctrs = u.ctrs) ∧
          exec (.replayOrder src jid step) s = .next (settle s ((u.ownReplay jid step).updRecov jid (fun r => { r with replaying := some src })))) ∧
        (replayUnfit k step = true → exec (.replayOrder src jid step) s = .next (settle s (ack (u.ownReplay jid step) .replay false)))) ∧
      (∀ d, s.mod.take = none →
        let u := s.updRecov jid (fun r => { r with restoring := some d, quiesce := none, owing := none })
        (j.strand.pipe.st = .idle ∨ j.strand.pipe.st = .stopping → exec (.durable src jid d) s = .next (settle s (ack (u.restoreDurable jid) .durable true))) ∧
        (j.strand.pipe.st ≠ .idle → j.strand.pipe.st ≠ .stopping →
          exec (.durable src jid d) s = .next (settle s (ack ((u.stopBegin jid).restoreDurable jid) .durable true)))) ∧
      (∀ step, let u := ack s .retire true
        (s.mod.st ≠ .drain → exec (.retire src jid step) s = .next (settle s
          ((({ u with mss := { u.mss with retired := true } } : State).ledger 0x0C (leBytes 8 (place 0 16 jid + place 32 32 step))).endJob jid))) ∧
        (s.mod.st = .drain → exec (.retire src jid step) s = .next (settle s ((u.log 0xA021 4 0 jid step).endJob jid))))) ∧
    (dieHeld s 2 = false → orderOf s src jid = none → ∀ t x, s.mod.take = some t → t.lead = src → t.job = jid → t.failed = x → t.buddy < 256 →
      exec (.aliasOrder src jid x s.mod.id) s = .next (settle s (ack (s.send t.buddy (.takeoverOffer (.pull s.mod.id jid))) .alias_ true))) ∧
    (orderOf s src jid = none → s.mod.take = none → ∀ x y step,
      exec (.recover src jid) s = .next s ∧ exec (.aliasOrder src jid x y) s = .next s ∧ exec (.repoint src jid) s = .next s ∧
      exec (.replayOrder src jid step) s = .next s ∧ exec (.durable src jid step) s = .next s ∧ exec (.retire src jid step) s = .next s)

/-- A module that declares itself failed sends its notices, enters FAULT with the causes STATE and FAULT, logs the change once
and changes no job; a second time changes nothing. At the module that hears of x, where the Locket's die does not hold: a
failure notice, a second module's SUSPECT, or a probe unanswered for 1 ms confirms the failure; a first SUSPECT is probed. A
straggler is logged, confirmed as failed and to be told to retire once its place is taken. A module confirmed already changes
nothing; another one confirmed leads to RECOVER, a takeover in progress beginning anew, or, if it is the spare asked, to the
next candidate. Rows named: MODULE_FAILED, FAILURE_NOTICE, SUSPECT, PROBE_TIMEOUT, STRAGGLER_REPORT. (R31, R69, R72, R350,
R351, R369, R370, R408) -/
def Obligations.FailureConfirmed : Prop :=
  ∀ s : State,
    (s.mod.st ≠ .fault → ∃ t, exec .moduleFailed s = .next t ∧ t.mod.st = .fault ∧ t.bar.irqStatus = s.bar.irqStatus ||| 0x90 ∧
      t.mss.logQ = s.mss.logQ ++ [⟨s.now, 0, 7, 0, 0, 1, s.mod.st.code + 16 * 7⟩] ∧ t.jobs = s.jobs ∧ t.mem = s.mem) ∧
    (s.mod.st = .fault → exec .moduleFailed s = .next s) ∧
    (dieHeld s 2 = true → ∀ src jid x, ∀ c ∈ [Instr.failureNotice src jid, .suspect src jid x, .probeTimeout jid x, .stragglerReport src jid x],
      exec c s = .next s) ∧
    (∀ (j : Job) (src jid x : Nat), s.job? jid = some j → jid = j.id →
      (dieHeld s 2 = false →
        (hears s j src = true → exec (.failureNotice src jid) s = .next (settle s (s.confirmFailed jid src))) ∧
        (hears s j src = false → exec (.failureNotice src jid) s = .next (settle s (s.sendSuspect jid src))) ∧
        (hears s j x = true → x ∉ j.recov.failed → (∀ p ∈ j.recov.suspects, p.1 ≠ x) → (∀ p ∈ j.recov.probes, p.1 ≠ x) →
          exec (.suspect src jid x) s = .next (settle s { s.updRecov jid (fun r =>
            { (if r.suspects.contains (x, src) then r else { r with suspects := r.suspects ++ [(x, src)] }) with
              probes := r.probes ++ [(x, s.now)] }) with out := s.out ++ [.probe x] })) ∧
        (∀ o, hears s j x = true → x ∉ j.recov.failed → o ≠ src → j.recov.suspects = [(x, o)] →
          exec (.suspect src jid x) s = .next (settle s ((s.updRecov jid (fun r =>
            if r.suspects.contains (x, src) then r else { r with suspects := r.suspects ++ [(x, src)] })).confirmFailed jid x))) ∧
        (∀ since, (x, since) ∈ j.recov.probes → since + 100000 ≤ s.now →
          exec (.probeTimeout jid x) s = .next (settle s (s.confirmFailed jid x))) ∧
        (∀ step, hears s j src = true → src ∈ survivors s j → exec (.stragglerReport src jid step) s =
          .next (settle s (((s.log 0xA021 4 0 jid step).updRecov jid (fun r => { r with retiring := r.retiring ++ [(src, step)] })).confirmFailed
            jid src)))) ∧
      (x ∈ j.recov.failed ∨ x = s.mod.id → s.confirmFailed jid x = s) ∧
      (let drop (r : Recov) : Recov :=
          { r with suspects := r.suspects.filter (fun p => p.1 != x), probes := r.probes.filter (fun p => p.1 != x) };
        x ∉ j.recov.failed → x ≠ s.mod.id →
        (State.isSpare j x = true → j.recov.spare = some x → s.confirmFailed jid x = (s.updRecov jid drop).nextCandidate jid) ∧
        (State.isSpare j x = true → j.recov.spare ≠ some x → s.confirmFailed jid x = s.updRecov jid drop) ∧
        (State.isSpare j x = false → s.confirmFailed jid x = (((s.updRecov jid drop).updJob jid (fun k => { k with
          aliases := k.aliases.filter (fun a => !j.recov.taking.any (fun t => t.1 == a.1))
          routes := k.routes.filter (fun r => j.recov.spare != some (r.key % 256)) })).updRecov jid (fun r =>
            { r with failed := r.failed ++ [x] })).sendRecover jid) ∧
        (j.recov.taking ≠ none → j.recov.spare = some x → State.isSpare j x = true) ∧ (j.recov.taking = none → State.isSpare j x = false)))

/-- Where the Locket's die does not hold, at the acting lead: a quiescent report is kept, and when it is the last one of the
survivors' the path is chosen; after 1 s the modules without one count as failed. A spare asked in RUN, without an admitted
job and not retired, accepts and keeps the offer, else declines it. At the lead, the refusal of the candidate asked, and an
answer that does not come within 1 ms, go on to the next candidate; its acceptance sends ALIAS x to spare to all, and patches
to those whose tables name x. The spare writes what it pulled, pulls the Tandem tensors, and admits the job, or reports that
it cannot; then the lead patches the spare's table. A REPOINT carried out leaves the list; a failed one leads to the durable
path. While the die holds nothing of this is taken. Rows named: QUIESCENT_REPORT, TAKEOVER_OFFER, QUIESCENT_TIMEOUT,
TAKEOVER_ACCEPT_TIMEOUT. (R31, R364, R365, R366, R367, R368) -/
def Obligations.TakeoverAtSpareAndLead : Prop :=
  ∀ (s : State) (j : Job),
    (dieHeld s 2 = true → (∀ m, exec (.quiescentReport m) s = .next s) ∧ (∀ m, exec (.takeoverOffer m) s = .next s) ∧
      ∀ jid, exec (.quiescentTimeout jid) s = .next s ∧ exec (.takeoverAcceptTimeout jid) s = .next s) ∧
    (dieHeld s 2 = false →
    (∀ (m : QuietMsg), s.job? m.job = some j → m.job = j.id → actsFor s j = true → m.src ∈ survivors s j → j.recov.halted = false →
      j.recov.phase = .reports → 
      let u := s.updRecov j.id (fun r => { r with
        reports := r.reports.filter (fun n => n.src != m.src) ++ [m], since := r.since.orElse (fun _ => some s.now)
        phase := if r.phase = .idle then .reports else r.phase })
      ((∃ x ∈ survivors s j, x ≠ m.src ∧ ∀ n ∈ j.recov.reports, n.src ≠ x) → exec (.quiescentReport m) s = .next (settle s u)) ∧
      ((∀ x ∈ survivors s j, x = m.src ∨ ∃ n ∈ j.recov.reports, n.src = x) →
        exec (.quiescentReport m) s = .next (settle s (u.decidePath j.id)))) ∧
    (∀ jid since, s.job? jid = some j → actsFor s j = true → j.recov.phase = .reports → j.recov.since = some since →
      since + 100000000 ≤ s.now → exec (.quiescentTimeout jid) s = .next (settle s
        (((survivors s j).filter (fun x => !j.recov.reports.any (fun n => n.src == x))).foldl (fun s x => s.confirmFailed jid x) s))) ∧
    (∀ lead job x buddy r info, s.mod.st = .run → (∀ k ∈ s.jobs, k.admitted = false) → s.mss.retired = false →
      exec (.takeoverOffer (.offer lead job x buddy r info)) s = .next (settle s
        (({ s with mod := { s.mod with take := some { lead := lead, job := job, failed := x, buddy := buddy, step := r, info := info } } } : State).send
          lead (.takeoverOffer (.answer s.mod.id job true))))) ∧
    (∀ lead job x buddy r info, (s.mod.st ≠ .run ∨ (∃ k ∈ s.jobs, k.admitted = true) ∨ s.mss.retired = true) →
      exec (.takeoverOffer (.offer lead job x buddy r info)) s =
        .next (settle s (s.send lead (.takeoverOffer (.answer s.mod.id job false))))) ∧
    (∀ src jid x r, s.job? jid = some j → j.recov.taking = some (x, r) → (lSpares j.locket.desc)[j.recov.cand]? = some src →
      j.recov.phase = .asking → exec (.takeoverOffer (.answer src jid false)) s = .next (settle s (s.nextCandidate jid)) ∧
      (16 ≤ (j.aliases.filter (fun a => a.1 != x)).length → exec (.takeoverOffer (.answer src jid true)) s = .next (settle s (s.haltAll jid))) ∧
      ((j.aliases.filter (fun a => a.1 != x)).length < 16 →
        let u := s.updRecov jid (fun r => { r with phase := .patching, spare := some src, askedAt := none, patches := [], patchBad := false })
        let v := (survivors u j ++ [src]).foldl (fun s m => s.send m (.aliasOrder s.mod.id jid x src)) u
        let rs := allReports j
        let named (m : Nat) : List Nat := if m = v.mod.id then (j.routes.filter (fun r => r.ports != 0)).map (·.key)
          else ((rs.find? (fun n => n.src == m)).map (·.named)).getD []
        exec (.takeoverOffer (.answer src jid true)) s = .next (settle s ((survivors u j).foldl (fun s m =>
          ((List.range 5).filter (fun k => (named m).contains (k * 256 + x))).foldl (fun s k =>
            s.sendPatch jid m (k * 256 + src) (portsTo (((rs.find? (fun n => n.src == m)).map (·.links)).getD []) rs src)) s) v)))) ∧
    (∀ src jid routes links, s.job? jid = some j →
      let keys := (routes.filter (fun (e : Nat × Nat × Bool) => e.2.1 != 0 && e.1 % 256 != src)).map (·.1)
      let patched (u : State) : State := keys.foldl (fun s k => s.sendPatch jid src k (portsTo links (allReports j) (j.alias? (k % 256)))) u
      (src ∉ j.recov.restarts → j.recov.spare = some src → j.recov.phase = .patching → j.recov.durable = none →
        exec (.takeoverOffer (.admitted src jid false routes links)) s = .next (settle s (s.durablePath jid)) ∧
        exec (.takeoverOffer (.admitted src jid true routes links)) s =
          .next (settle s (patched (s.updRecov jid (fun r => { r with phase := .routing }))))) ∧
      (src ∈ j.recov.restarts →
        let u := s.updRecov jid (fun r => { r with restarts := r.restarts.filter (· != src) })
        exec (.takeoverOffer (.admitted src jid false routes links)) s = .next (settle s (u.haltAll jid)) ∧
        exec (.takeoverOffer (.admitted src jid true routes links)) s = .next (settle s (patched u)))) ∧
    (∀ t ranges b, s.mod.take = some t → t.stage = .pulling →
      let refuse (u : State) : State := u.send t.lead (.takeoverOffer (.admitted u.mod.id t.job false [] []))
      let w := ranges.foldl (fun (s : State) (r : Nat × Bytes) => s.store r.1 r.2) s
      let es := if t.info.tandem then tandemsAt w t.info.desc else []
      let t' : TakeSt := { t with stage := .tensors, block := some b, due := List.range es.length }
      let u : State := { w with mod := { w.mod with take := some t' } }
      exec (.takeoverOffer (.restored t.job ranges b true)) s = .next (settle s (refuse s)) ∧
      (es = [] → admitRestored u t' b = none → exec (.takeoverOffer (.restored t.job ranges b false)) s = .next (settle s (refuse u))) ∧
      (∀ x table, es = [] → admitRestored u t' b = some (x, table) →
        let v : State := { x with mod := { x.mod with take := some { t' with stage := .admitted, block := none } } }
        exec (.takeoverOffer (.restored t.job ranges b false)) s =
          .next (settle s (v.send t.lead (.takeoverOffer (.admitted v.mod.id t.job true table (linkMap v)))))) ∧
      (es ≠ [] → exec (.takeoverOffer (.restored t.job ranges b false)) s = .next (settle s
        (((List.range es.length).zip es).foldl (fun s p =>
          s.send t.info.partner (.takeoverOffer (.pullTensor s.mod.id t.job p.1 (tStage p.2) (tSlot0 p.2) (tPitch p.2) (tLen p.2)))) u)))) ∧
    (∀ src jid, s.job? jid = some j → j.recov.phase = .repointing → src ∈ j.recov.repoint →
      exec (.takeoverOffer (.carried src jid false)) s = .next (settle s (s.durablePath jid)) ∧
      ((∃ m ∈ j.recov.repoint, m ≠ src) → exec (.takeoverOffer (.carried src jid true)) s = .next (settle s
        (s.updRecov jid (fun r => { r with repoint := r.repoint.filter (· != src) }))))) ∧
    (∀ jid at_, s.job? jid = some j → j.recov.phase = .asking → j.recov.askedAt = some at_ → at_ + 100000 ≤ s.now →
      exec (.takeoverAcceptTimeout jid) s = .next (settle s (s.nextCandidate jid))))

/-- While the MSS runs: a request outside BOOT with no update under way erases the other bank and begins the update; data of the
image, short of the commit record, is written there at its offset, and the bytes after those written are asked for; the
transfer's end with every byte written, a sound image, the commit record with the next sequence number, and the activation
each follow the stage before. An image that fails a check ends the update with a log entry for each check that fails. The
running bank and version stay until a reset. Rows named: REQUEST_UPDATE, FIRMWARE_DATA, TRANSFER_COMPLETE, VERIFY_COMPLETE,
APPLY_COMPLETE, ACTIVATE_FIRMWARE. (R399, R400, R401) -/
def Obligations.FirmwareUpdateProceeds : Prop :=
  ∀ s : State, s.mod.st ≠ .off →
    (s.mod.st ≠ .boot → s.mss.upd = .idle → ∃ t, exec .requestUpdate s = .next t ∧ t.mss.upd = .writing ∧ t.mod = s.mod ∧ t.mem = s.mem ∧
      (swf 0xFF s.mss.flash = true → ∀ a, t.flashByte a = (if bankBase s.otherBank ≤ a ∧ a < bankBase s.otherBank + bankSize then 0xFF
        else s.flashByte a)) ∧ t.mss.updLen = 0 ∧ t.out = s.out ++ [.pldm 3 [0], .pldm 5 [1, 0]]) ∧
    (∀ off bs, s.mss.upd = .writing → off + bs.length ≤ bankSize - 64 → off ≤ s.mss.updLen → ∃ t, exec (.firmwareData off bs) s = .next t ∧
      t.mss.upd = .writing ∧ t.mss.updLen = max s.mss.updLen (off + bs.length) ∧
      t.out = s.out ++ [.pldm 5 [1, (max s.mss.updLen (off + bs.length) : Nat)]] ∧ t.mod = s.mod ∧ t.mem = s.mem ∧
      (swf 0xFF s.mss.flash = true → (∀ i v, bs[i]? = some v → t.flashByte (bankBase s.otherBank + off + i) = v) ∧
        ∀ a, (a < bankBase s.otherBank + off ∨ bankBase s.otherBank + off + bs.length ≤ a) → t.flashByte a = s.flashByte a)) ∧
    (s.mss.upd = .writing → s.mss.updLen < s.imgLength (bankBase s.otherBank) + 96 → exec .transferComplete s = .next (settle s { s with
      mss := { s.mss with upd := .idle }, out := s.out ++ [.pldm 4 [2, 1]] })) ∧
    (s.mss.upd = .writing → s.imgLength (bankBase s.otherBank) + 96 ≤ s.mss.updLen → exec .transferComplete s = .next (settle s { s with
      mss := { s.mss with upd := .written }, out := s.out ++ [.pldm 4 [2, 0]] })) ∧
    (s.mss.upd = .written → s.failedChecks s.otherBank 2 5 = [] → exec .verifyComplete s = .next (settle s { s with
      mss := { s.mss with upd := .verified }, out := s.out ++ [.pldm 4 [3, 0]] })) ∧
    (∀ c cs, s.mss.upd = .written → s.failedChecks s.otherBank 2 5 = c :: cs → ∃ t, exec .verifyComplete s = .next t ∧ t.mss.upd = .idle ∧
      t.mss.logQ.length = s.mss.logQ.length + (c :: cs).length ∧ t.out = s.out ++ [.pldm 4 [3, 1]] ∧ t.mss.flash = s.mss.flash) ∧
    (s.mss.upd = .verified → ∃ t, exec .applyComplete s = .next t ∧ t.mss.upd = .applied ∧ t.mod = s.mod ∧
      (swf 0xFF s.mss.flash = true → t.flashRead (State.commitBase (bankBase s.otherBank)) 64 = commitBytes
        ((s.commitSeq (bankBase s.mod.bank) + 1) % 2 ^ 32) (s.imgLength (bankBase s.otherBank)))) ∧
    (s.mss.upd = .applied → ∃ t, exec .activateFirmware s = .next t ∧ t.mss.upd = .idle ∧ t.mod = s.mod ∧ t.mss.flash = s.mss.flash ∧
      t.out = s.out ++ [.pldm 3 [0]])

/-- While the MSS runs: the read of a listed sensor reports one value, the state's where it has one, and of an unlisted one an
error; neither changes another part of the state. A cap of 1,200 W to 2,400 W in steps of 10 W under which every gear keeps
1,200 W, standby enable 0 or 1, the pedal request, and a date of 32 bits are taken; any other value is refused, logged and
set in LAST_ERROR with engine 7, and changes no setting. Rows named: SENSOR_READ, EFFECTER_POWER_CAP,
EFFECTER_STANDBY_ENABLE, EFFECTER_PEDAL, EFFECTER_DATE, EFFECTER_EJECT. (R71, R374, R376, R384, R388, R409, R410, R412) -/
def Obligations.SensorsAndEffecters : Prop :=
  ∀ s : State, s.mod.st ≠ .off →
    (∀ id v, sensorValue s id = some (some v) → (id < 0x233 ∨ 0x235 < id) →
      exec (.sensorRead id) s = .next (settle s { s with out := s.out ++ [.pldm 2 [id, v]] })) ∧
    (∀ id, sensorValue s id = some none → ∃ v : Nat, ∃ t, exec (.sensorRead id) s = .next t ∧ t.out = s.out ++ [.pldm 2 [id, v]] ∧
      t.mem = s.mem ∧ t.jobs = s.jobs ∧ t.mod = s.mod ∧ t.pwr = s.pwr) ∧
    (∀ id, sensorValue s id = none → exec (.sensorRead id) s = .next (settle s { s with out := s.out ++ [.pldm 3 [0x80]] })) ∧
    (let bad (answer : Int) (code : Nat) : State := { s with
       out := s.out ++ [.pldm 3 [answer]]
       mss := { s.mss with logQ := s.mss.logQ ++ [⟨s.now, code, 7, 0, 0, 0, 0⟩] }
       bar := { s.bar with lastError := ⟨code, 7, 0, 0⟩ } }
     (∀ v, 1200 ≤ v → v ≤ 2400 → v % 10 = 0 → gearOverCap s.pwr.table v = false → exec (.effecterPowerCap v) s =
       .next (settle s { s with pwr := { s.pwr with cap := v }, out := s.out ++ [.pldm 3 [0]] })) ∧
     (∀ v, (v < 1200 ∨ 2400 < v ∨ v % 10 ≠ 0) → exec (.effecterPowerCap v) s = .next (settle s (bad 2 0x1001))) ∧
     (∀ v, 1200 ≤ v → v ≤ 2400 → v % 10 = 0 → gearOverCap s.pwr.table v = true →
       exec (.effecterPowerCap v) s = .next (settle s (bad 1 0x8001))) ∧
     (∀ v, v ≤ 1 → exec (.effecterStandbyEnable v) s =
       .next (settle s { s with pwr := { s.pwr with standbyEn := v == 1 }, out := s.out ++ [.pldm 3 [0]] })) ∧
     (s.pwr.pedalReq = false → s.mss.margin = none → exec (.effecterPedal 1) s = .next (settle s
       ((({ s with pwr := { s.pwr with pedalReq := true } } : State).pedalStart 1 (s.running.getD 0)).emit (.pldm 3 [0])))) ∧
     (s.mss.margin = none → exec (.effecterPedal 0) s = .next (settle s { s with
       pwr := { s.pwr with pedalReq := false, pedals := s.pwr.pedals.filter (fun p => p.bit != 1) }, out := s.out ++ [.pldm 3 [0]] })) ∧
     (∀ v, v < 2 ^ 32 → exec (.effecterDate v) s = .next (settle s { s with
       mss := { s.mss with date := { date := v, setAt := some s.fabric, since := s.now, held := true } }, out := s.out ++ [.pldm 3 [0]] })) ∧
     (∀ v, 1 < v → exec (.effecterStandbyEnable v) s = .next (settle s (bad 2 0x1001)) ∧
       exec (.effecterPedal v) s = .next (settle s (bad 2 0x1001)) ∧ exec (.effecterEject v) s = .next (settle s (bad 2 0x1001))) ∧
     (∀ v, 2 ^ 32 ≤ v → exec (.effecterDate v) s = .next (settle s (bad 2 0x1001))))

/-- While the MSS runs: a write of the effecter whose target and instance the map has, in a state that allows the target, starts
the run, which begins a pedal hold unless one is asked for, and asks the far ends for stress where the value says so, and of
a memory run destroys the contents of its channels; a value outside the map is refused with E_ILL_FIELD, one whose state rule
fails with E_STATE. A stress request is taken on a quiet port that is UP with that peer, else refused. A run without failures
ends with, of a memory run, its channels written with zeros, its log entry, the cache, the report as a vendor message, and no
run active. Rows named: MARGIN_MEMORY, MARGIN_DIE_LINKS, MARGIN_SPOKE, STRESS_REQUEST, MARGIN_RUN_COMPLETE. (R71, R188, R308,
R384, R424, R425, R426, R427, R431) -/
def Obligations.MarginRuns : Prop :=
  ∀ s : State, s.mod.st ≠ .off →
    (∀ (v : Word32) (c : Instr), c = .marginMemory v ∨ c = .marginDieLinks v ∨ c = .marginSpoke v →
      (marginBad v.toNat = false → marginFits s v.toNat = true → mgStress v.toNat = false → ∃ t, exec c s = .next t ∧
        t.mss.margin = some { target := mgTarget v.toNat, inst := mgInst v.toNat, stress := false } ∧
        t.out = s.out ++ [.pldm 3 [0]] ∧ t.jobs = s.jobs ∧ t.mod = s.mod ∧ (s.pwr.pedalReq = true → t.pwr = s.pwr) ∧
        (mgTarget v.toNat ≠ 0 → t.mem = s.mem ∧ t.marks = s.marks ∧ t.lp = s.lp) ∧
        (mgTarget v.toNat = 0 → ∀ c ∈ s.marginChannels (mgInst v.toNat), (c, s.free) ∈ t.lp.wiped)) ∧
      (marginBad v.toNat = true → exec c s = .next (settle s { s with
        out := s.out ++ [.pldm 3 [2]]
        mss := { s.mss with logQ := s.mss.logQ ++ [⟨s.now, 0x1001, 7, 0, 0, 0, 0⟩] }
        bar := { s.bar with lastError := ⟨0x1001, 7, 0, 0⟩ } })) ∧
      (marginBad v.toNat = false → marginFits s v.toNat = false → exec c s = .next (settle s { s with
        out := s.out ++ [.pldm 3 [1]]
        mss := { s.mss with logQ := s.mss.logQ ++ [⟨s.now, 0x2001, 7, 0, 0, 0, 0⟩] }
        bar := { s.bar with lastError := ⟨0x2001, 7, 0, 0⟩ } }))) ∧
    (∀ src n, n < 36 → ((s.port n).st = .up ∧ (s.port n).peerMod = src ∧ portQuiet s n = true →
        exec (.stressRequest src n) s = .next (settle s ((s.setPort n { s.port n with stress := true }).emit (.pldm 3 [0])))) ∧
      (¬ ((s.port n).st = .up ∧ (s.port n).peerMod = src ∧ portQuiet s n = true) →
        exec (.stressRequest src n) s = .next (settle s ((s.log 0x2001 7 n 0).emit (.pldm 3 [1]))))) ∧
    (∀ (recs : List MarginRec) (refused : List Nat) (g i : Nat), s.mss.margin = some ⟨g, i, false⟩ → s.jobs = [] →
      (∀ r ∈ recs, r.kind ∈ kindsOf g ∧ marginResult r = 0) → ∃ t, exec (.marginRunComplete recs refused) s = .next t ∧
        t.mss.margin = none ∧ (g = 0 → t.mem = (s.zeroChannels (if i = 0xFF then s.channelIds else [i])).mem) ∧ (g ≠ 0 → t.mem = s.mem) ∧
        t.mss.logQ = s.mss.logQ ++ [⟨s.now, 0, 7, 0, 0, 6, 0⟩] ∧ t.mss.cacheHalf = 1 - s.mss.cacheHalf % 2 ∧
        t.out = s.out ++ [.mctp (0x7E :: recs.flatMap (fun r => leBytes 16 (marginRecord r)))])

/-- While the MSS runs: a restart loses the log entries, messages, update and test run held in SRAM, keeps flash and the ledger
records, counts a boot and is logged, and checks the bank that runs again; a second within 24 hours fails the module. A write
to flash takes the oldest ledger record that waits once the ledger has been read, else the oldest log entry, and leaves the
others in order. The bus owner sets and reads the endpoint ID; PLDM firmware update is answered with the component and its
version; another control command, or message type, is unsupported. Rows named: MSS_RESTART, LOG_FLASH_WRITE,
MCTP_ENDPOINT_MESSAGE. (R391, R404, R407, R411) -/
def Obligations.ManagementKeepsItsRecords : Prop :=
  ∀ s : State, s.mod.st ≠ .off →
    (∃ u : State, (u.mss.logQ = [⟨s.now, 0, 7, 0, 0, 5, 0⟩] ∧ u.mss.ledgerQ = s.mss.ledgerQ ∧ u.mss.flash = s.mss.flash ∧
        u.mss.inbox = [] ∧ u.mss.upd = .idle ∧ u.mss.margin = none ∧ u.mss.eid = 0 ∧ u.bar.busy = false ∧ u.bar.outQueue = [] ∧ u.mss.bootCount = (s.mss.bootCount + 1) % 2 ^ 16 ∧
        u.mss.restart = some s.now ∧ u.jobs = s.jobs ∧ u.mem = s.mem ∧ u.mod = s.mod) ∧
      ((∀ t, s.mss.restart = some t → t + 8640000000000 ≤ s.now) → exec .mssRestart s = .next (settle s u.reloadFw) ∧
        (s.mod.mainOn = false ∨ s.failedChecks s.mod.bank 1 4 = [] → u.reloadFw = u) ∧
        ∀ c cs, s.mod.mainOn = true → s.failedChecks s.mod.bank 1 4 = c :: cs → u.reloadFw = (u.logChecks s.mod.bank (c :: cs)).failModule) ∧
      (∀ t, s.mss.restart = some t → s.now < t + 8640000000000 → exec .mssRestart s = .next (settle s u.failModule))) ∧
    (∀ kind body rest, s.mss.ledgerQ = (kind, body) :: rest → s.mss.ledPos ≠ 0 →
      exec .logFlashWrite s = .next (settle s (({ s with mss := { s.mss with ledgerQ := rest } } : State).append kind body))) ∧
    (∀ e es, s.mss.ledgerQ = [] ∨ s.mss.ledPos = 0 → s.mss.logQ = e :: es → ∃ t, exec .logFlashWrite s = .next t ∧ t.mss.logQ = es ∧
      t.mss.ledgerQ = s.mss.ledgerQ ∧ t.mem = s.mem ∧ t.jobs = s.jobs ∧ t.mod = s.mod) ∧
    (∀ v, bits v 0 8 = 1 → bits v 8 8 ≠ 0 → bits v 8 8 ≠ 0xFF → exec (.mctpEndpointMessage 0 v) s = .next (settle s { s with
      mss := { s.mss with eid := bits v 8 8 }, out := s.out ++ [.mctp [0, 1, 0, BitVec.ofNat 8 (bits v 8 8)]] })) ∧
    (∀ v, bits v 0 8 = 2 → exec (.mctpEndpointMessage 0 v) s = .next (settle s { s with
      out := s.out ++ [.mctp [0, 2, 0, BitVec.ofNat 8 s.mss.eid]] })) ∧
    (exec (.mctpEndpointMessage 1 5) s = .next (settle s { s with out := s.out ++ [.mctp ([1, 5, 0, 1, 0] ++
      (toString s.mod.version).toList.map (fun c => BitVec.ofNat 8 c.toNat))] })) ∧
    (∀ kind v, (kind = 0 ∧ bits v 0 8 ≠ 1 ∧ bits v 0 8 ≠ 2) ∨ (kind ≠ 0 ∧ kind ≠ 1 ∧ kind ≠ 0x7E) →
      exec (.mctpEndpointMessage kind v) s = .next (settle s { s with out := s.out ++ [.mctp [BitVec.ofNat 8 kind, BitVec.ofNat 8 v, 5]] }))

/-- An undervoltage takes a module in BOOT, READY, RUN or DRAIN to STANDBY without main power; loss of the input or an
overvoltage takes any module to OFF, where only flash, the boot count and the pins are left; the standby converter comes back
between its limits and starts the timers. In STANDBY a qualified input enters BOOT while PWR_EN is high. A reset that finds
no sensor hot after a trip leads to STANDBY with the core cleared. The power-on sequence runs its steps from BOOT. READY
enters RUN, its timetable loaded and the ID announced, when no test run is active and no EXTEST is loaded. Rows named:
UNDERVOLTAGE_SHUTDOWN, INPUT_LOSS, OVERVOLTAGE_OFF, STANDBY_CONVERTER_UP, PWR_EN_QUALIFIED, UNDERVOLTAGE_RECOVERY, RESET,
POWER_ON_SEQUENCE, ENTER_RUN. (R72, R392, R407, R412, R414, R415, R418, R431) -/
def Obligations.SupplyAndPowerOn : Prop :=
  (∀ (s : State) (mv : Nat),
    (mv < 36000 → (s.mod.st = .boot ∨ s.mod.st = .ready ∨ s.mod.st = .run ∨ s.mod.st = .drain) → ∃ t,
      exec (.undervoltageShutdown mv) s = .next t ∧ t.mod.st = .standby ∧ t.mod.mainOn = false ∧ t.jobs = [] ∧ t.mss.flash = s.mss.flash) ∧
    (mv < 30000 → ∃ t, exec (.inputLoss mv) s = .next t ∧ t.mod.st = .off ∧ t.mod.mainOn = false ∧ t.jobs = [] ∧ t.mss.logQ = [] ∧
      t.mss.flash = s.mss.flash ∧ t.mss.bootCount = s.mss.bootCount) ∧
    (63000 < mv → ∃ t, exec (.overvoltageOff mv) s = .next t ∧ t.mod.st = .off ∧ t.mod.overvolt = true ∧ t.mss.flash = s.mss.flash) ∧
    (s.mod.st = .off → s.mod.absent = false → 30000 ≤ mv → mv < 61000 → ∃ t, exec (.standbyConverterUp mv) s = .next t ∧
      t.mod.st = .standby ∧ t.now = 0 ∧ t.mss.bootCount = (s.mss.bootCount + 1) % 2 ^ 16 ∧ t.mss.flash = s.mss.flash) ∧
    (s.mod.st = .standby → 38000 ≤ mv → mv ≤ 60000 → ∀ c, c = .pwrEnQualified mv ∨ (c = .undervoltageRecovery mv ∧ s.mod.pwrEn = true) → ∃ t, exec c s = .next t ∧
      t.mod.st = .boot ∧ t.mod.inputMv = mv ∧ t.mod.pwrEn = true ∧ t.bar.irqStatus = s.bar.irqStatus ||| 0x10 ∧ t.mem = s.mem)) ∧
  (∀ (s : State), s.mod.st ≠ .off → (s.mss.tripped && s.mss.hot) = false → ∃ t, exec .resetPin s = .next t ∧ t.mod.st = .standby ∧ t.mod.mainOn = false ∧
    t.mod.pwrEn = false ∧ t.mss.tripped = false ∧ t.jobs = [] ∧ t.running = none ∧ t.ctrs = [] ∧ t.bar.irqMask = 0xFF ∧ t.mss.flash = s.mss.flash ∧
    (∀ a, a < State.hostBase → s.mem.wf = true → t.mem.byte a = 0)) ∧
  (∀ (s : State) (env : BootEnv),
    ((s.mod.st = .standby ∧ s.mod.pwrEn = true ∧ 38000 ≤ s.mod.inputMv ∧ s.mod.inputMv ≤ 60000) ∨ (s.mod.st = .boot ∧ s.mod.bootWait = none) → exec (.powerOnSequence env) s =
      .next (settle s (runSteps bootSteps env (({ s with mod := { s.mod with idPins := env.idPins } } : State).enter .boot)))) ∧
    (s.mod.st = .off → s.mod.overvolt = false → exec (.powerOnSequence env) s =
      .next (settle s (bootModule env (standbyUp (qualified { s with mod := { s.mod with absent := false, pwrEn := true } }))))) ∧
    (s.mod.st = .ready ∨ s.mod.st = .run ∨ s.mod.st = .drain ∨ s.mod.st = .ejectReady ∨ s.mod.st = .fault →
      exec (.powerOnSequence env) s = .next s)) ∧
  (∀ (s : State), s.mod.st = .ready →
    let h : State := { s with mod := { s.mod with holdN := true } }
    (s.mss.margin = none → s.mod.tapTest = false → exec .enterRun s = .next (settle s (announceAll ((imageTimetable h).enter .run))) ∧
      ((imageTimetable h).enter .run).mod.st = .run ∧ ((imageTimetable h).enter .run).mod.tap = .bypass ∧
      (∀ x, s.sec? (bankBase s.mod.bank) 7 = some x →
        ((imageTimetable h).enter .run).sched.table = some (timetableOf (s.secNum (bankBase s.mod.bank) 7)))) ∧
    (s.mss.margin ≠ none ∨ s.mod.tapTest = true → exec .enterRun s = .next (settle s h)))

/-- An eject request leads from STANDBY, BOOT and READY to EJECT_READY without main power, and from RUN to DRAIN with its jobs
reported; the effecter's 1 is such a request; a forced eject from RUN or DRAIN, and a drain whose jobs have been gone for 100
ms, lead to EJECT_READY. A withdrawn module is OFF and absent, and no record that is not in flash is written any more. PERST
of the active host port takes its link down, its end brings it back, or lets the boot that waits go on; the other port's line
is only kept. A shock above the threshold is logged at most once a second and its peaks kept. Rows named: EJECT_REQUEST,
EFFECTER_EJECT, FORCE_EJECT, DRAIN_COMPLETE, SURPRISE_REMOVAL, PERST, PERST_DEASSERT, SHOCK. (R408, R409, R417, R421, R422,
R428) -/
def Obligations.EjectRemovalAndLink : Prop :=
  (∀ s : State,
    (s.mod.st = .standby → exec .ejectRequest s = .next (settle s (s.enter .ejectReady))) ∧
    ((s.mod.st = .boot ∨ s.mod.st = .ready) → ∃ t, exec .ejectRequest s = .next t ∧ t.mod.st = .ejectReady ∧ t.mod.mainOn = false ∧
      t.jobs = [] ∧ t.mss.flash = s.mss.flash) ∧
    (s.mod.st = .run → leadsRecovery (s.enter .drain).dropTest = false →
      exec .ejectRequest s = .next (settle s (drainReports (s.enter .drain).dropTest)) ∧ (s.enter .drain).dropTest.mod.st = .drain ∧
      (s.enter .drain).dropTest.mss.margin = none) ∧
    (s.mod.st = .standby → exec (.effecterEject 1) s = .next (settle s ((s.emit (.pldm 3 [0])).enter .ejectReady))) ∧
    ((s.mod.st = .run ∨ s.mod.st = .drain) → ∃ t, exec .forceEject s = .next t ∧ t.mod.st = .ejectReady ∧ t.mod.mainOn = false ∧
      t.jobs = [] ∧ t.mss.flash = s.mss.flash) ∧
    (∀ f, s.mod.st = .drain → s.mod.drainWait = false → (∀ j ∈ s.jobs, j.admitted = false) → s.mod.drainFrom = some f →
      (f + 10000000 ≤ s.now → ∃ t, exec .drainComplete s = .next t ∧ t.mod.st = .ejectReady ∧ t.mod.mainOn = false ∧ t.jobs = []) ∧
      (s.now < f + 10000000 → exec .drainComplete s = .next s)) ∧
    (s.mod.st = .drain → (s.mod.drainWait = true ∨ ∃ j ∈ s.jobs, j.admitted = true) → exec .drainComplete s = .next s) ∧
    (∃ t, exec .surpriseRemoval s = .next t ∧ t.mod.st = .off ∧ t.mod.absent = true ∧ t.mss.logQ = [] ∧ t.mss.ledgerQ = [] ∧
      t.mss.flash = s.mss.flash)) ∧
  (∀ s : State, s.mod.portB = false → s.mod.hostUp = true → ∃ t, exec (.perst 0) s = .next t ∧ t.mod.hostUp = false ∧ t.mod.perstA = true ∧
    t.mem = s.mem) ∧
  (∀ s : State, s.mod.portB = false → s.mod.bootWait = none → s.mod.mainOn = true → s.mod.st ≠ .boot → s.mod.hostLost = false →
    exec (.perstDeassert 0) s = .next (settle s { s with mod := { s.mod with perstA := false, hostUp := true } })) ∧
  (∀ (s : State) env, s.mod.bootWait = some env → exec (.perstDeassert 0) s =
    .next (settle s (hostStep env { s with mod := { s.mod with perstA := false } }).2)) ∧
  (∀ s : State, s.mod.portB = false → exec (.perst 1) s = .next (settle s { s with mod := { s.mod with perstB := true } })) ∧
  (∀ (s : State) (x y z : Nat), s.mod.st ≠ .off → ∃ t, exec (.shock x y z) s = .next t ∧ t.mem = s.mem ∧ t.jobs = s.jobs ∧
    ((s.pwr.shockMg < x ∨ s.pwr.shockMg < y ∨ s.pwr.shockMg < z) → (∀ u, s.mss.lastShock = some u → u + 100000000 ≤ s.now) →
      t.mss.logQ = s.mss.logQ ++ [⟨s.now, 0, 7, 0, 0, 7, place 0 16 x + place 16 16 y + place 32 16 z⟩] ∧ t.mss.lastShock = some s.now) ∧
    ((x ≤ s.pwr.shockMg ∧ y ≤ s.pwr.shockMg ∧ z ≤ s.pwr.shockMg) → t.mss.logQ = s.mss.logQ))

/-- For each of the 35 kinds of command records besides LOCKET_BIND, on any queue that accepts the kind: when the record at the
head of a queue of the running job is of that kind, passes every check of R56, asks nothing of peers, and no wait, FENCE,
full ring, gate, busy resource or droop hold keeps it back, its command answers the state in which the record has started as
its kind starts, been taken off its list, and, if it acts at once and no earlier command of its tile is in flight, completed.
With the record read at its fetch and the flight it starts: STAGE_BIND appends the stage of its descriptor and sets as read
then, and adds its free version slots to the stage's counter; EDGE_BIND appends the edge and answers the notices held for it;
PIPE_START takes the pipeline's fields, opens every edge and adds the feed depths to their counters, or, with remote edges,
first asks their peers; FEED_POST lets its entries arrive, those with a mirror once their copies have left, or has no effect
on a replayed step; VERSION_PUBLISH makes the next slot CURRENT with the version given, or renumbers a single one;
EDGE_REPOINT names the new peer and asks it; REPLAY_STEP and PIPE_STOP begin their states and stay in flight. GROUP_BIND
appends the group of its descriptor; GROUP_REPOINT replaces the module at an index and clears its group's use counts; REDUCE
and GATHER open their bucket and stay in flight until it ends; NORM_CLOSE joins those that await their total; LOCKET_SEAL
sends its state block and waits, or completes at once after a HOLD or without a way to the buddy; TANDEM asks for the first
entry's fingerprint, or completes with none to check. Rows also named: NOP, WAIT, SIGNAL, PUSH_LIST, QUEUE_CONTROL, MM,
ACC_INIT, ACC_DRAIN, ATTN_STEP, ATTN_FINAL, VPROG_LOAD, VRUN, MOVE, FILL, WSTREAM, SCHED_POLICY_SET, RESHARD,
CKPT_INTERVAL_SET, GEAR_TABLE_LOAD, TIMETABLE_LOAD. (R47, R56, R210, R217, R240, R241, R245, R246, R256, R269, R278, R357) -/
def Obligations.EngineCommandStarts : Prop :=
  (∀ (ref : QRef) (s : State) (j : Job) (q : Queue) (l : ListRef) (r : Nat), ∀ p ∈ engineCommands ref, p.2.kind ≠ 0xA0 →
    StartsNow p.2 ref s j q l r →
      exec p.1 s = .next (settle s (launch (fetched s j q (p.2.whole s r)) j.id ref (startOf p.2 s j q r)))) ∧
  (∀ (ref : QRef) (s : State) (j : Job) (q : Queue) (l : ListRef) (r : Nat),
    let starts (i : Instr) (sp : CmdSpec) (g : State → Job → Nat → Flight → Started) : Prop := StartsNow sp ref s j q l r →
      let w := sp.whole s r
      exec i s = .next (settle s (launch (fetched s j q w) j.id ref
        (g (fetched s j q w) (j.setQueue (taken q w)) w (newFlight (taken q w) w))))
    let strand (s : State) (g : Strand → Strand) : State := s.updJob j.id (fun k => { k with strand := g k.strand })
    starts (.stageBind ref) stageSpec (fun s _ r f =>
      let t := stageOf r
      ⟨(strand s (fun x => { x with stages := x.stages ++ [t] })).addCtr t.verCtr (sVerSlots (bits r 512 512) - 1), f, true⟩) ∧
    starts (.edgeBind ref) edgeSpec (fun s _ r f =>
      let e : Edge := { slot := bits r 128 6, desc := bits r 512 512, peerMod := gPeer (bits r 512 512) }
      ⟨(strand s (fun x => { x with edges := x.edges ++ [e] })).answerHeld j.id e, f, true⟩) ∧
    starts (.pipeStart ref) pipeSpec (fun s k r f =>
      let awaited (step : Nat) : Bool := k.ring.closes.any (fun c => !c.sent && c.step == step)
      let p := { pipeOf r with poisoned := k.strand.pipe.poisoned.filter awaited }
      let u := s.updJob j.id (fun j => { j with
        strand := { j.strand with
          pipe := p, groups := (groupIds k).map (fun g => ({ id := g } : Group))
          stages := j.strand.stages.map (fun (t : Stage) => { t with fDone := 0, bDone := 0, wDone := 0, optNext := 0, optDone := 0 })
          edges := j.strand.edges.map (fun (e : Edge) => { openEdge p e with feedNext := 0, refeed := (0, 0) }) }
        ring := { j.ring with openStep := p.firstStep, accs := j.ring.accs.filter (fun a => awaited a.step), roots := j.ring.roots.filter (fun x => x.total.isNone) } })
      ⟨(k.strand.edges.foldl (fun s e => if gFeed e.desc = true then s.addCtr (gFeedCtr e.desc) (e.view false).depth else s) u).pedalStart
        pedalOnStart j.id, f, true⟩) ∧
    (Passes pipeSpec ref s j q l r → (∃ e ∈ j.strand.edges, gRemote e.desc = true) →
      let w := pipeSpec.whole s r
      let u := (fetched s j q w).updJob j.id (fun k =>
        ({ k with strand := { k.strand with edges := k.strand.edges.map (fun (e : Edge) => { e with answer := none }) } } : Job).setQueue
          { q with cur := some { record := w, begun := true } })
      exec (.pipeStart ref) s = .next (settle s ((j.strand.edges.filter (fun e => gRemote e.desc)).foldl (fun s e =>
        s.send (j.alias? e.peerMod) (.openingNotice (openMsg s (j.setQueue (taken q w)) e false))) u))) ∧
    starts (.feedPost ref) feedSpec (fun s k r f =>
      if feedNoop k r = true then ⟨s, f, true⟩
      else
        let u := feedMany j.id (bits r 128 6) (bits r 192 6) s
        let f := if u.2.2 = true then f else { f with res := { code := eLinkDown, poison := true } }
        if u.2.1 = [] then ⟨u.1, f, true⟩ else ⟨u.1, { f with op := .feed (bits r 128 6) u.2.1 (buddyOf k) }, false⟩) ∧
    (∀ (u : State) (k : Job) (e : Edge) (t : Stage) (slot : Nat), u.job? j.id = some k → k.edge? slot = some e →
      k.stageNamed (gDnStage e.desc) = some t → let n := k.strand.pipe.mb e.feedNext
      let b := u.feedBytes e.desc t n
      let at_ := State.replayAt k.strand.pipe e.desc (feedEntryBytes e.desc t.tileCount) e.feedNext
      let v := if gReplayDepth e.desc = 0 then u else u.store at_ b
      (gReplayDepth e.desc = 0 ∨ k.locket.bound = false ∨ bitAt k.locket.desc 17 = false →
        feedOne u j.id slot = some ((v.arriveFeed j.id e t n).updEdge j.id slot (fun e => { e with feedNext := e.feedNext + 1 }), [])) ∧
      (gReplayDepth e.desc ≠ 0 → k.locket.bound = true → bitAt k.locket.desc 17 = true →
        feedOne u j.id slot = (v.sendCopy k (State.normClass k (buddyOf k)) (buddyOf k) (fun _ => Config.mirrorWord)
          (.feedMirror v.mod.id j.id (at_ - gReplayAddr e.desc) b) b).map (fun x =>
            (x.updEdge j.id slot (fun e => { e with feedNext := e.feedNext + 1 }), [n])))) ∧
    starts (.versionPublish ref) publishSpec (fun s _ r f =>
      ⟨s.updStage j.id (bits r 128 4) (fun t =>
        if t.slots.length = 1 then t.setSlot 0 { t.slot 0 with num := bits r 144 16, bound := false, due := false }
        else (t.setSlot t.cur { t.slot t.cur with st := .held }).setSlot t.next
          { t.slot t.next with st := .current, num := bits r 144 16 }), f, true⟩) ∧
    (∀ e, j.edge? (bits (repointSpec.whole s r) 128 6) = some e → starts (.edgeRepoint ref) repointSpec (fun s k r f =>
      let peer := bits r 136 8
      ⟨(s.updEdge j.id (bits r 128 6) (fun e => { e with peerMod := peer, answer := none })).send (j.alias? peer)
          (.openingNotice (openMsg (s.updEdge j.id (bits r 128 6) (fun e => { e with peerMod := peer, answer := none })) k e false)),
        { f with op := .edgeOpen (bits r 128 6) }, false⟩)) ∧
    starts (.replayStep ref) replaySpec (fun s _ _ f =>
      ⟨((s.updPipe j.id (fun p => { p with st := .replaying, replay := true, restored := false })).pedalStart pedalOnRecovery j.id).replayAdvance
        j.id, { f with op := .replay }, false⟩) ∧
    starts (.pipeStop ref) stopSpec (fun s _ _ f =>
      ⟨(s.updPipe j.id (fun p => { p with st := .stopping, replay := false, restored := false, resets := [] })).stopAdvance j.id,
        { f with op := .pipeStop }, false⟩)) ∧
  (∀ (ref : QRef) (s : State) (j : Job) (q : Queue) (l : ListRef) (r : Nat),
    let starts (i : Instr) (sp : CmdSpec) (g : State → Job → Nat → Flight → Started) : Prop := StartsNow sp ref s j q l r →
      let w := sp.whole s r
      exec i s = .next (settle s (launch (fetched s j q w) j.id ref
        (g (fetched s j q w) (j.setQueue (taken q w)) w (newFlight (taken q w) w))))
    starts (.groupBind ref) groupSpec (fun s _ r f =>
      ⟨s.updRing j.id (fun x => { x with groups := x.groups ++ [rgroupOf r] }), f, true⟩) ∧
    starts (.groupRepoint ref) gpointSpec (fun s _ r f => let g := bits r 128 4
      ⟨s.updRing j.id (fun x => { x with
        uses := x.uses.filter (fun u => u.2.2 != g)
        groups := x.groups.map (fun (y : RGroup) =>
          if y.num == g then { y with members := y.members.set (bits r 132 8) (bits r 140 8) } else y) }), f, true⟩) ∧
    (∀ g, j.rgroup? (reduceArgs (reduceSpec.whole s r)).group = some g → StartsNow reduceSpec ref s j q l r →
      let w := reduceSpec.whole s r
      let x := reduceArgs w
      let u := fetched s j q w
      let k := j.setQueue (taken q w)
      ∃ (b : Bucket) (own : State → Bucket → State × Bucket), b.tag = x.tag ∧ b.gather = false ∧ b.record = w ∧ b.queue = q.ref ∧
        b.group = x.group ∧ b.epoch = x.epoch ∧ b.dst = x.dst ∧ b.k = (if x.wire = 3 then scaleOf u x.ksrc x.slot (sbits w 352 8) else 0) ∧
        b.partDue = partialsDue b g ∧ b.closeDue = (if x.ksrc = true then closesDue g else 0) ∧
        b.resDue = (if x.ar = true ∧ ¬ (g.tree = true ∧ g.self = 0) then (resultSeq b g).length else 0) ∧
        (g.tree = true → g.kids g.self = [] → own = fun v b =>
          (packetsOf b g 0).foldl (fun acc pl => acc.1.sendPartial k g acc.2 g.parent pl []) (v, b)) ∧
        (g.tree = true → g.kids g.self ≠ [] → own = fun v b => (v, b)) ∧
        (g.tree = false → own = fun v b =>
          (packetsOf b g g.prev).foldl (fun acc pl => acc.1.sendPartial k g acc.2 g.next pl []) (v, b)) ∧
        exec (.reduce ref) s = .next (settle s (launch u j.id ref
          ⟨u.openBucket k b g own, { newFlight (taken q w) w with op := .bucket x.tag }, false⟩))) ∧
    (∀ g, j.rgroup? (gatherArgs (gatherSpec.whole s r)).group = some g → StartsNow gatherSpec ref s j q l r →
      let w := gatherSpec.whole s r
      let x := gatherArgs w
      let u := fetched s j q w
      ∃ (b : Bucket) (own : State → Bucket → State × Bucket), b.tag = x.tag ∧ b.gather = true ∧ b.record = w ∧ b.queue = q.ref ∧
        b.group = x.group ∧ b.epoch = x.epoch ∧
        b.dst = x.dst + x.pitch * (if x.verSel = true then ((j.stage? x.local_).map (·.next)).getD 0 else 0) ∧
        b.partDue = (if g.tree = true then ((g.kids g.self).map (fun c => (childSeq b g c).length)).sum else 0) ∧
        b.resDue = (if g.tree = true ∧ g.self = 0 then 0 else (resultSeq b g).length) ∧
        exec (.gather ref) s = .next (settle s (launch u j.id ref
          ⟨u.openBucket (j.setQueue (taken q w)) b g own, { newFlight (taken q w) w with op := .bucket x.tag }, false⟩))) ∧
    starts (.normClose ref) closeSpec (fun s k r f => let x := closeArgs r
      ⟨s.updRing j.id (fun y => { y with closes := y.closes ++ [{
          queue := q.ref, step := x.step, root := j.alias? x.root, timeout := timeoutMs x.timeout
          list := if isRoot s k x.root = true then contributors s k x else [] }] }), { f with op := .norm }, false⟩) ∧
    starts (.locketSeal ref) sealSpec (fun s k r f =>
      let buddy := j.alias? (lBuddy j.locket.desc)
      let skip := decide (j.numerics.gate = .skip)
      let b := { blockOf s k (bits r 128 32) with copied := if skip = true then 0 else j.locket.ranges.length }
      let u := s.updLocket j.id (fun l => { l with ranges := [], gatherBad := false })
      if j.numerics.gate = .hold then ⟨u, { f with res := { code := ePoison, poison := true } }, true⟩
      else if s.canReach buddy = false then ⟨u, { f with res := { code := eLinkDown, poison := true } }, true⟩
      else ⟨(u.updLocket j.id (fun l => { l with
          sealing := some { queue := q.ref, step := bits r 128 32, skip := skip, block := b,
                            ranges := if skip = true then j.locket.lastRanges else j.locket.ranges } })).send buddy
          (.stateBlock (.block s.mod.id j.id skip b)), { f with op := .seal }, false⟩) ∧
    starts (.tandem ref) tandemSpec (fun s k _ f =>
      if j.locket.tandems = [] then ⟨s, f, true⟩
      else if s.canReach (j.alias? (lPartner j.locket.desc)) = false then ⟨s, { f with res := { code := eLinkDown } }, true⟩
      else ⟨askFingerprint (s.updLocket j.id (fun l => { l with tandem := some { queue := q.ref, entry := 0 } })) k 0,
        { f with op := .tandem }, false⟩))

/-- Where such a command of a tile or a Mover (MM, ACC_INIT, ACC_DRAIN, ATTN_STEP, ATTN_FINAL, VPROG_LOAD, VRUN, MOVE_DATA, FILL,
WSTREAM) starts and does not complete at once, its flight joins the end of its queue's flights, the queue's list loses the
record, and every byte of memory and every sync counter is as before; VPROG_LOAD alone of them changes an instruction store,
and no accumulator, scratch byte, register or mask changes. (R47, R55, R100, R129, R144, R170, R194) -/
def Obligations.TileAndMoverStartsWriteNothing : Prop :=
  ∀ (ref : QRef) (s : State) (j : Job) (q : Queue) (l : ListRef) (r : Nat),
    ∀ p ∈ [(Instr.mm ref, mmSpec), (.accInit ref, initSpec), (.accDrain ref, drainSpec), (.attnStep ref, attnSpec),
           (.attnFinal ref, finalSpec), (.vprogLoad ref, vpSpec), (.vrun ref, vrSpec), (.moveData ref, moveSpec),
           (.fill ref, fillSpec), (.wstream ref, wsSpec)],
    StartsNow p.2 ref s j q l r → (startOf p.2 s j q r).instant = false →
      ∃ t k p', exec p.1 s = .next t ∧ t.runJob = some k ∧ k.queue? ref = some p' ∧
        p'.flight = q.flight ++ [(startOf p.2 s j q r).flight] ∧
        p'.lists = (if hLast r then q.lists.tail else q.lists) ∧ p'.pos = (if hLast r then 0 else q.pos + 1) ∧ p'.cur = none ∧
        t.mem = s.mem ∧ t.ctrs = s.ctrs ∧ t.tiles.vregs = s.tiles.vregs ∧ t.tiles.masks = s.tiles.masks ∧
        (p.2.kind ≠ 0x20 → t.tiles.istore = s.tiles.istore)

/-- A VPROG_LOAD that starts puts COUNT words of 8 bytes, read little-endian from the tile's scratch at SRC as it sees it beside
Movers' writes in flight, into the tile's instruction store from word START on, and no other word of any store changes. A
VRUN that starts is in flight at its first iteration and its first word, with no flags and nothing stored yet. While a
VPROG_LOAD of the list that heads a queue is in flight on that queue, VRUN takes nothing from the queue and changes nothing,
whatever record stands there. Rows named: VPROG_LOAD, VRUN. (R128, R129, R130, R131, R144) -/
def Obligations.ProgramsLoadAndRun : Prop :=
  (∀ (ref : QRef) (s : State) (j : Job) (q : Queue) (l : ListRef) (r : Nat),
    (StartsNow vpSpec ref s j q l r → swf 0 s.tiles.istore = true → ∃ t, exec (.vprogLoad ref) s = .next t ∧ t.mem = s.mem ∧
      (∀ i < bits r 136 9, sget 0 t.tiles.istore (ref.inst * 256 + bits r 128 8 + i) =
        BitVec.ofNat 64 ((s.seen (racing j ref)).num (State.scratchAddr ref.inst (bits r 160 22 + 8 * i)) 8)) ∧
      (∀ a, (a < ref.inst * 256 + bits r 128 8 ∨ ref.inst * 256 + bits r 128 8 + bits r 136 9 ≤ a) →
        sget 0 t.tiles.istore a = sget 0 s.tiles.istore a)) ∧
    (StartsNow vrSpec ref s j q l r → ∃ t k p' f v, exec (.vrun ref) s = .next t ∧ t.mem = s.mem ∧ t.runJob = some k ∧
      k.queue? ref = some p' ∧ p'.flight = q.flight ++ [f] ∧ f.record = r ∧ f.op = .vrun v ∧ v.tile = ref.inst ∧ v.iter = 0 ∧
      v.pc = 0 ∧ v.stores = [])) ∧
  (∀ (ref : QRef) (s : State) (j : Job) (q : Queue) (l : ListRef) (r : Nat), AtHead ref s j q l r →
    (∃ f ∈ q.flight, hKind f.record = 0x20 ∧ f.listId = l.id) → exec (.vrun ref) s = .next s)

/-- SCHED_POLICY_SET, CKPT_INTERVAL_SET, GEAR_TABLE_LOAD, TIMETABLE_LOAD and RESHARD that start join the end of the job's
deferred commands with their record, their queue and the fabric time, and complete at once with DEFERRED; no deferred command
of the job is lost. Gears, timetable and policy in force stay as they are. (R62, R63, R244, R335, R361, R376) -/
def Obligations.DeferredCommandsJoin : Prop :=
  ∀ (ref : QRef) (s : State) (j : Job) (q : Queue) (l : ListRef) (r : Nat),
    ∀ p ∈ [(Instr.schedPolicySet ref, policySpec), (.ckptIntervalSet ref, ckptSpec), (.gearTableLoad ref, gearSpec),
           (.timetableLoad ref, ttSpec), (.reshard ref, reshardSpec)],
    StartsNow p.2 ref s j q l r → ∃ t k d, exec p.1 s = .next t ∧ t.runJob = some k ∧ k.deferrals = j.deferrals ++ [d] ∧
      d.record = p.2.whole s r ∧ d.queue = ref ∧ d.since = s.fabric ∧ (startOf p.2 s j q r).flight.res.deferred = true ∧
      t.pwr.table = s.pwr.table ∧ t.sched = s.sched ∧ k.strand.pipe = j.strand.pipe

/-- On a queue with nothing in flight, for a record with CREC 0 and IRQ 0: NOP, WAIT and SIGNAL write no memory, leave
IRQ_STATUS, and change no sync counter but the one that their SIG_OP names, by its rule; PUSH_LIST that starts appends one
reference with its address and count to the end of the target queue's lists (another queue than its own), and QUEUE_CONTROL
releases the halted queue it names (another than its own): RESUME_SKIP goes on with the next record, RESUME_RETRY with the
same, DISCARD_LIST with the next list. Rows named: PUSH_LIST, QUEUE_CONTROL. (R46, R48, R49, R50, R52, R57) -/
def Obligations.HeaderCommandsAct : Prop :=
  ∀ (ref : QRef) (s : State) (j : Job) (q : Queue) (l : ListRef) (r : Nat), q.flight = [] → hCrec r = false → hIrq r = false →
    (∀ p ∈ [(Instr.nop ref, plainSpec 0), (.wait ref, plainSpec 1), (.signal ref, plainSpec 2)], StartsNow p.2 ref s j q l r →
      ∃ t k p', exec p.1 s = .next t ∧ t.mem = s.mem ∧ t.bar.irqStatus = s.bar.irqStatus ∧ t.bar.counts = s.bar.counts ∧
        t.ctrs = (s.signal (hSigOp r) (hSigCtr r) (hSigVal r)).ctrs ∧ t.runJob = some k ∧ k.queue? ref = some p' ∧
        p' = State.advance q (hLast r)) ∧
    (StartsNow pushSpec ref s j q l r → targetOf r ≠ ref → ∀ g, j.queue? (targetOf r) = some g →
      ∃ t k g', exec (.pushList ref) s = .next t ∧ t.mem = s.mem ∧ t.runJob = some k ∧ k.queue? (targetOf r) = some g' ∧
        g' = { g with lists := g.lists ++ [⟨listAddr r, listCount r, j.listSeq, none⟩] }) ∧
    (StartsNow ctlSpec ref s j q l r → targetOf r ≠ ref → ∀ g, j.queue? (targetOf r) = some g → g.halted = true ∧
      (g.haltLast = false → ∃ t k g', exec (.queueControl ref) s = .next t ∧ t.mem = s.mem ∧ t.runJob = some k ∧
        k.queue? (targetOf r) = some g' ∧ g'.halted = false ∧ g'.cur = none ∧
        (bits r 208 2 = 0 → g'.lists = g.lists ∧ g'.pos = g.pos + 1) ∧ (bits r 208 2 = 1 → g'.lists = g.lists ∧ g'.pos = g.pos) ∧
        (bits r 208 2 = 2 → g'.lists = g.lists.tail ∧ g'.pos = 0)))

/-- A record at the head of a queue that fails one of checks 1 to 3, of a kind that the queue does not accept (by whichever
command it is met) or of the command's own kind (at a tile, once its earlier commands have completed: the model's choice, log
110): the command answers a state in which the queue is halted, with every list as it was, ERR is set, LAST_ERROR names code,
engine, instance and job, no sync counter has changed, and no byte of memory outside the next entry of the queue's completion
ring. A record of a kind that the queue accepts and that is not the command's own leaves everything as it is. Rows named:
NOP, WAIT, SIGNAL, PUSH_LIST, QUEUE_CONTROL, MM, ACC_INIT, ACC_DRAIN, ATTN_STEP, ATTN_FINAL, VPROG_LOAD, VRUN, MOVE, FILL,
WSTREAM, STAGE_BIND, EDGE_BIND, PIPE_START, FEED_POST, VERSION_PUBLISH, SCHED_POLICY_SET, EDGE_REPOINT, REPLAY_STEP,
PIPE_STOP, GROUP_BIND, REDUCE, GATHER, NORM_CLOSE, RESHARD, GROUP_REPOINT, LOCKET_BIND, LOCKET_SEAL, CKPT_INTERVAL_SET,
TANDEM, GEAR_TABLE_LOAD, TIMETABLE_LOAD. (R54, R56, R57, R59, R69, R71) -/
def Obligations.EngineCommandRejected : Prop :=
  ∀ (ref : QRef) (s : State) (j : Job) (q : Queue) (l : ListRef) (r : Nat), ∀ p ∈ engineCommands ref, AtHead ref s j q l r →
    (hKind r = p.2.kind ∧ accepts ref.eng (hKind r) = true ∧ p.2.fetch s j q r = true ∨
      accepts ref.eng (hKind r) = false ∧ p.2.fetch s j q r = true →
      (ref.eng = engTile → q.flight = []) → ∀ f, firstChecks p.2 ref s j q l r = some f → ∃ t k p', exec p.1 s = .next t ∧ t.runJob = some k ∧ k.queue? ref = some p' ∧
        p'.halted = true ∧ p'.lists = q.lists ∧ p'.pos = q.pos ∧ p'.flight = q.flight ∧ t.bar.irqStatus.getLsbD 2 = true ∧
        t.bar.lastError = ⟨f.code, ref.eng, ref.inst, hJob r⟩ ∧ t.ctrs = s.ctrs ∧
        (s.mem.wf = true → ∀ a, (a < q.ringAddr + 32 * (q.wcount % 2 ^ (q.ringLog2 + 4)) ∨
          q.ringAddr + 32 * (q.wcount % 2 ^ (q.ringLog2 + 4)) + 32 ≤ a) → t.mem.byte a = s.mem.byte a)) ∧
    (accepts ref.eng (hKind r) = true → hKind r ≠ p.2.kind → exec p.1 s = .next s)

/-- A fetched record of any kind that waits with WAIT_OP = 1: while (counter − WAIT_VAL) mod 2^32 is not below 2^31,
COMMAND_WAIT_SATISFIED leaves everything as it is, after however many ticks; once it is below, the record starts, if it
passes checks 4 and 5, nothing else holds it back and no other queue of its engine goes first. Rows named:
COMMAND_WAIT_SATISFIED. (R53) -/
def Obligations.WaitComparesSerially : Prop :=
  ∀ (ref : QRef) (s : State) (j : Job) (q : Queue) (r : Nat) (sp : CmdSpec), s.runJob = some j → j.queue? ref = some q →
    q.cur = some { record := r } → hWaitOp r = 1 → specOf (hKind r) = some sp →
    let d := ((s.ctr (hWaitCtr r)).toNat + 2 ^ 32 - hWaitVal r) % 2 ^ 32
    (2 ^ 31 ≤ d → ∀ n : Nat, exec (.commandWaitSatisfied ref) { s with now := s.now + n } = .next { s with now := s.now + n }) ∧
    (d < 2 ^ 31 → myTurn s j ref (couldGo s j) = true → holding s j = false → dieHeld s (engDie ref) = false →
      (Sys2Proof.Machine.alone q.ref r = true → q.flight = []) → q.held = [] →
      let u := s.takeTurn ref
      sp.ready s j q r = true → sp.ready u j q r = true → gateOf j r = none → firstFail (sp.late u j q r) 7 2 = none →
      sp.exchange u j q { record := r } = none → exec (.commandWaitSatisfied ref) s =
        .next (settle s (launch u j.id ref (begin sp u j q r))))

/-- A plain command in flight that COMMAND_COMPLETE completes: its results, read anew where an unordered access changed its
operands, are written; if a record is due and the ring is full, the record is kept back and the signal with it; otherwise the
record, if one is due, is written over the results at entry W of the ring, and with it the signal is applied.
COMPLETION_RING_RETRY keeps a record while the ring is full or the engine's die holds, and otherwise writes it and applies
its signal. A record rejected by checks 1 to 3 changes no counter. Rows named: COMMAND_COMPLETE, COMPLETION_RING_RETRY, NOP,
WAIT, SIGNAL, PUSH_LIST, QUEUE_CONTROL, MM, ACC_INIT, ACC_DRAIN, ATTN_STEP, ATTN_FINAL, VPROG_LOAD, VRUN, MOVE, FILL,
WSTREAM, STAGE_BIND, EDGE_BIND, PIPE_START, FEED_POST, VERSION_PUBLISH, SCHED_POLICY_SET, EDGE_REPOINT, REPLAY_STEP,
PIPE_STOP, GROUP_BIND, REDUCE, GATHER, NORM_CLOSE, RESHARD, GROUP_REPOINT, LOCKET_BIND, LOCKET_SEAL, CKPT_INTERVAL_SET,
TANDEM, GEAR_TABLE_LOAD, TIMETABLE_LOAD. (R55) -/
def Obligations.ResultsThenRecordThenSignal : Prop :=
  ∀ (ref : QRef) (s : State) (j : Job) (q : Queue), s.runJob = some j → j.queue? ref = some q →
    (∀ (i : Nat) (f : Flight), dieHeld s (engDie ref) = false → q.flight[i]? = some f → (ref.eng = engTile → i = 0) → f.op = .plain →
      channelWait s ref f = false → q.held = [] →
      let x := reread s j q f
      let u := (x.1.land j.id x.2).1
      let g := (x.1.land j.id x.2).2
      let at_ := q.ringAddr + 32 * (q.wcount % 2 ^ (q.ringLog2 + 4))
      let need := needRecordOf g
      u.mem = s.mem.writes x.2.writes ∧ (tornBy j ref f = [] → x = (s, f)) ∧ g.record = f.record ∧
        (need = true → u.ringRoom q = false → ∃ t k p' h, exec (.commandComplete ref i) s = .next t ∧ t.mem = u.mem ∧ t.ctrs = s.ctrs ∧
          t.runJob = some k ∧ k.queue? ref = some p' ∧ p'.flight = q.flight.eraseIdx i ∧ p'.full = true ∧ p'.held = [h] ∧
          h.sigOp = hSigOp f.record ∧ h.sigCtr = hSigCtr f.record ∧ h.sigVal = hSigVal f.record ∧ h.need = true) ∧
        (need = true → u.ringRoom q = true → ∃ t rec, exec (.commandComplete ref i) s = .next t ∧
          t.mem = u.mem.write at_ (leBytes 32 rec) ∧ rec % 2 ^ 16 = State.statusOf g.res % 2 ^ 16 ∧
          t.ctrs = (s.signal (hSigOp f.record) (hSigCtr f.record) (hSigVal f.record)).ctrs) ∧
        (need = false → ∃ t, exec (.commandComplete ref i) s = .next t ∧ t.mem = u.mem ∧
          t.ctrs = (s.signal (hSigOp f.record) (hSigCtr f.record) (hSigVal f.record)).ctrs)) ∧
    (dieHeld s (engDie ref) = true → exec (.completionRingRetry ref) s = .next s) ∧
    (∀ h : Held, dieHeld s (engDie ref) = false → q.held = [h] → s.jobs.filter (fun x => decide (s.running = some x.id ∨ x.st = .draining)) = [j] →
      (h.need = true → s.ringRoom q = false → exec (.completionRingRetry ref) s = .next s) ∧
      (h.need = false ∨ s.ringRoom q = true → ∃ t k p', exec (.completionRingRetry ref) s = .next t ∧ t.runJob = some k ∧
        k.queue? ref = some p' ∧ p'.held = [] ∧ p'.full = false ∧ p'.flight = q.flight ∧
        t.ctrs = (s.signal h.sigOp h.sigCtr h.sigVal).ctrs ∧
        t.mem = (if h.need then s.mem.write (q.ringAddr + 32 * (q.wcount % 2 ^ (q.ringLog2 + 4)))
          (leBytes 32 (h.crec + (if (q.wcount / 2 ^ (q.ringLog2 + 4)) % 2 = 0 then 2 ^ 63 else 0))) else s.mem))) ∧
    (∀ (l : ListRef) (r : Nat) (f : Fail), ∀ p ∈ engineCommands ref, AtHead ref s j q l r → hKind r = p.2.kind →
      p.2.fetch s j q r = true → firstChecks p.2 ref s j q l r = some f → ∃ t, exec p.1 s = .next t ∧ t.ctrs = s.ctrs)

/-- COMMAND_COMPLETE of flight i of a queue of the running job (of a tile: its first): a VRUN completes once its last iteration
is issued, a WSTREAM once its chunks are all signalled or its source is gone, after it has given up its hold, FEED_POST once
its mirror's copies have left, EDGE_REPOINT once its edge is open or closed, PIPE_STOP once the pipeline has stopped, with
the bindings gone, and REPLAY_STEP once the replay is over; a command whose work goes on is left as it is, and so is one that
ends by another event (a copy with a peer or one held at a channel, NORM_CLOSE, PIPE_START, LOCKET_SEAL, TANDEM). Rows named:
COMMAND_COMPLETE. (R47, R55, R144, R197, R246, R249) -/
def Obligations.CommandsEndWhenTheirWorkEnds : Prop :=
  ∀ (ref : QRef) (s : State) (j : Job) (q : Queue) (i : Nat) (f : Flight), s.runJob = some j → j.queue? ref = some q →
    dieHeld s (engDie ref) = false → q.flight[i]? = some f → (ref.eng = engTile → i = 0) →
    (∀ v, f.op = .vrun v →
      (bits f.record 146 16 ≤ v.iter → exec (.commandComplete ref i) s = .next (settle s (s.completeAt j.id q i f))) ∧
      (v.iter < bits f.record 146 16 → exec (.commandComplete ref i) s = .next s)) ∧
    (∀ w, f.op = .stream w →
      (streamOver w = true → (w.down = true → tilesHeld s w.desc = false) → exec (.commandComplete ref i) s =
        .next (settle s (((streamEnd s j.id w).completeAt j.id q i { f with res := streamRes j w }).noteWaits j.id ref))) ∧
      (streamOver w = false ∨ (w.down = true ∧ tilesHeld s w.desc = true) → exec (.commandComplete ref i) s = .next s)) ∧
    (∀ slot mbs buddy, f.op = .feed slot mbs buddy →
      (mirrorOnWay s j buddy = false → exec (.commandComplete ref i) s = .next (settle s ((feedArrive s j.id slot mbs).completeAt j.id q i f))) ∧
      (mirrorOnWay s j buddy = true → exec (.commandComplete ref i) s = .next s)) ∧
    (∀ n e, f.op = .edgeOpen n → j.edge? n = some e →
      ((e.st = .opened ∨ e.st = .closed) → exec (.commandComplete ref i) s = .next (settle s (s.completeAt j.id q i f))) ∧
      (e.st ≠ .opened → e.st ≠ .closed → exec (.commandComplete ref i) s = .next s)) ∧
    (f.op = .pipeStop →
      (stopOver j = true → exec (.commandComplete ref i) s = .next (settle s ((s.unbindAll j.id).completeAt j.id q i f))) ∧
      (stopOver j = false → exec (.commandComplete ref i) s = .next s)) ∧
    (f.op = .replay →
      (j.strand.pipe.st ≠ .replaying → exec (.commandComplete ref i) s = .next (settle s (s.completeAt j.id q i f))) ∧
      (j.strand.pipe.st = .replaying → exec (.commandComplete ref i) s = .next s)) ∧
    ((∃ m, f.op = .move m) ∨ (∃ a n k, f.op = .held a n k) ∨ f.op = .norm ∨ f.op = .pipeStart ∨ f.op = .seal ∨ f.op = .tandem →
      exec (.commandComplete ref i) s = .next s)

/-- Each of the 34 vector instructions, where it is the next word of a tile's VRUN: the command answers a state in which the run
stands at the next word, or after the last word at the first word of the next iteration. No register lane changes but those
of VD (none for VNOP, the stores, VCMP and MLOGIC), no mask but VD's for VCMP and MLOGIC, no byte of memory but, for VST,
VSTH and VSTA, those of the spans that the run then lists as stored; and no sync counter or instruction word. A command whose
opcode is not the next word's changes nothing. Rows named: VNOP, VLD, VLDH, VST, VSTH, VLDA, VSTA, VADD, VSUB, VMUL, VFMA,
VMIN, VMAX, VABS, VNEG, VMOVI, VSEL, VCVTI, VSCL, VADDW, VMULW, VFMAW, VADDH, VMULH, VFMAH, VCMP, MLOGIC, VEXP, VLOG, VRCP,
VRSQRT, VTANH, VRSUM, VRMAX. (R124, R125, R128, R131, R135, R142, R144) -/
def Obligations.VectorInstructionsAct : Prop :=
  ∀ (tile : Nat) (s : State) (j : Job) (q : Queue) (i : Nat) (f : Flight) (v : VRun) (w : Nat), Issues s tile j q i f v w →
    swf 0 s.tiles.vregs = true → swf 0 s.tiles.masks = true → s.mem.wf = true → ∀ p ∈ vectorCommands tile,
      (wOp w ≠ p.1 → exec p.2 s = .next s) ∧
      (wOp w = p.1 → ∃ t k p' f' v' new, exec p.2 s = .next t ∧ t.runJob = some k ∧ k.queue? ⟨0, tile, 0⟩ = some p' ∧
        p'.flight = q.flight.set i f' ∧ f'.record = f.record ∧ f'.op = .vrun v' ∧
        (v.pc + 1 < bits f.record 136 9 → v'.pc = v.pc + 1 ∧ v'.iter = v.iter) ∧
        (bits f.record 136 9 ≤ v.pc + 1 → v'.pc = 0 ∧ v'.iter = v.iter + 1) ∧ v'.stores = v.stores ++ new ∧
        (∀ a, (a / 64 ≠ tile * 32 + wVd w ∨ p.1 ∈ [0x00, 0x03, 0x04, 0x06, 0x28, 0x29]) →
          sget 0 t.tiles.vregs a = sget 0 s.tiles.vregs a) ∧
        (∀ m, (m ≠ tile * 8 + wVd w % 8 ∨ (p.1 ≠ 0x28 ∧ p.1 ≠ 0x29)) → sget 0 t.tiles.masks m = sget 0 s.tiles.masks m) ∧
        (p.1 ≠ 0x03 → p.1 ≠ 0x04 → p.1 ≠ 0x06 → t.mem = s.mem ∧ new = []) ∧
        (∀ a, (∀ x ∈ new, a < x.1 ∨ x.1 + x.2 ≤ a) → t.mem.byte a = s.mem.byte a) ∧
        t.ctrs = s.ctrs ∧ t.tiles.istore = s.tiles.istore)

/-- Where the instruction is the next word of a tile's VRUN, each active lane of VD takes, and every other lane keeps its value:
for the lane-wise arithmetic, the exact result of the operands' full lane values rounded once, to FP32 in bits [39:8] or to
W40; for VMOVI the word X, for VSEL the lane of A or of B by the mask it names, for VABS and VNEG the lane of A with the sign
cleared or inverted, a NaN canonical, for VLDA the word of the accumulator row. A load reads memory as it sees it beside
Movers' writes in flight (R101; which bytes is a free value). VRSUM gives every active lane the exact sum of the active lanes
of A, rounded once to FP32. Likewise VLD gives the 64 elements of its stream at the iteration's index, in memory as it sees
it, decoded with its scale and rounded to W40; VLDH, VADDH, VMULH and VFMAH give each active half of VD the 16 raw bits, or
the exact result rounded once to BF16 or FP16. VST leaves the lanes converted to its format, a block format in whole blocks;
VSTH and VSTA leave the raw halves, or bits [39:8] of the lanes, in memory. MLOGIC gives VD's mask the operation X names;
VRMAX the largest active lane; VNOP changes no register and no memory. Rows named: VNOP, VST, VSTH, VSTA, MLOGIC, VADD, VSUB,
VMUL, VFMA, VMIN, VMAX, VADDW, VMULW, VFMAW, VEXP, VLOG, VRCP, VRSQRT, VTANH. (R124, R125, R134, R135, R136, R137, R139,
R140, R142) -/
def Obligations.VectorLaneResults : Prop :=
  (∀ (tile : Nat) (s : State) (j : Job) (q : Queue) (i : Nat) (f : Flight) (v : VRun) (w : Nat), Issues s tile j q i f v w →
    swf 0 s.tiles.vregs = true → s.mem.wf = true →
    let gives (c : Instr) (g : Nat → Nat) : Prop := ∃ t, exec c s = .next t ∧ ∀ n < 64, lane t tile (wVd w) n =
      (if active s tile w n then g n % 2 ^ 40 else lane s tile (wVd w) n)
    (∀ p ∈ laneArithmetic tile, wOp w = p.1 → gives p.2.1 (fun n =>
      (laneRound p.2.2.1 (p.2.2.2 (laneVal s tile (wVa w) n) (laneVal s tile (wVb w) n) (laneVal s tile (wVc w) n))).1)) ∧
    (wOp w = 0x16 → gives (.vabs tile) (fun n => let x := lane s tile (wVa w) n
      if (laneVal s tile (wVa w) n).isNan then w40.nanCode else x % 2 ^ 39)) ∧
    (wOp w = 0x17 → gives (.vneg tile) (fun n => let x := lane s tile (wVa w) n
      if (laneVal s tile (wVa w) n).isNan then w40.nanCode else x ^^^ 2 ^ 39)) ∧
    (wOp w = 0x18 → gives (.vmovi tile) (fun _ => bits w 32 32 * 256)) ∧
    (wOp w = 0x19 → gives (.vsel tile) (fun n =>
      if (maskReg s tile (bits w 32 3)).getLsbD n then lane s tile (wVa w) n else lane s tile (wVb w) n)) ∧
    (wOp w = 0x1A → gives (.vcvti tile) (fun n => (toFp fp32 0 0 (Val.ofInt (sbits (lane s tile (wVa w) n) 8 32))).code * 256)) ∧
    (wOp w = 0x1B → gives (.vscl tile) (fun n =>
      (toFp fp32 0 0 ((laneVal s tile (wVa w) n).scale (sbits w 32 8))).code * 256)) ∧
    (wOp w = 0x05 → gives (.vlda tile) (fun n =>
      (s.seen (racing j q.ref)).num (State.accAddr tile (rowAt f.record w v.iter).toNat n) 4 * 256)) ∧
    (wOp w = 0x38 → gives (.vrsum tile) (fun _ =>
      (laneRound false (sumVals ((activeLanes s tile w 64).map (laneVal s tile (wVa w))))).1))) ∧
  (∀ (tile : Nat) (s : State) (j : Job) (q : Queue) (i : Nat) (f : Flight) (v : VRun) (w : Nat), Issues s tile j q i f v w →
    swf 0 s.tiles.vregs = true → swf 0 s.tiles.masks = true → s.mem.wf = true →
    let e := (elemAt f.record w v.iter).toNat
    let base := State.scratchAddr tile (sBase f.record (wStream w))
    let fp := if bitAt w 32 = true then fp16 else bf16
    let half (x n : Nat) : Nat := packedLane (vreg s tile x) n
    let gives (c : Instr) (g : Nat → Nat) : Prop := ∃ t, exec c s = .next t ∧ ∀ n < 64, lane t tile (wVd w) n =
      (if active s tile w n then g n % 2 ^ 40 else lane s tile (wVd w) n)
    let givesHalves (c : Instr) (g : Nat → Nat) : Prop := ∃ t, exec c s = .next t ∧ t.mem = s.mem ∧ ∀ n < 128,
      packedLane (vreg t tile (wVd w)) n = (if active s tile w n then g n else half (wVd w) n)
    (wOp w = 0x00 → ∃ t, exec (.vnop tile) s = .next t ∧ t.tiles = s.tiles ∧ t.mem = s.mem) ∧
    (wOp w = 0x01 → gives (.vld tile) (fun n =>
      (toFp w40 0 0 ((readElems (s.seen (racing j q.ref)).mem base (wFmt w) e 64 (memK w v)).getD n Val.zero)).code)) ∧
    (wOp w = 0x02 → givesHalves (.vldh tile) (fun n =>
      bits ((s.seen (racing j q.ref)).num (State.scratchAddr tile (sBase f.record (wStream w) + 2 * e)) 256) (16 * n) 16)) ∧
    (∀ p ∈ [(0x20, Instr.vaddh tile, fun a b (_ : Val) => addVal a b), (0x21, .vmulh tile, fun a b _ => mulVal a b),
            (0x22, .vfmah tile, fmaVal)], wOp w = p.1 → givesHalves p.2.1 (fun n => (toFp fp 0 0 (p.2.2 (decodeFp fp (half (wVa w) n))
              (decodeFp fp (half (wVb w) n)) (decodeFp fp (half (wVc w) n))).1).code)) ∧
    (wOp w = 0x03 → let o : OutSpec := ⟨wFmt w, wMode w, bits f.record 208 32, memK w v⟩
      let out := if fmtBlock (wFmt w) = true then convBlocks base o e 3 ((List.range 64).map (fun n => (vCoord v n, laneVal s tile (wVa w) n)))
        else convScalars s.mem base o ((activeLanes s tile w 64).map (fun n => (e + n, e + n, vCoord v n, laneVal s tile (wVa w) n)))
      ∃ t, exec (.vst tile) s = .next t ∧ t.mem = (s.writes out.1).mem ∧ t.tiles = s.tiles) ∧
    (wOp w = 0x04 → ∃ t, exec (.vsth tile) s = .next t ∧ t.tiles = s.tiles ∧ ∀ n < 128, ∀ b < 2, t.mem.byte (base + 2 * (e + n) + b) =
      (if active s tile w n then (leBytes 2 (half (wVa w) n)).getD b 0 else s.mem.byte (base + 2 * (e + n) + b))) ∧
    (wOp w = 0x06 → ∃ t, exec (.vsta tile) s = .next t ∧ t.tiles = s.tiles ∧ ∀ n < 64, ∀ b < 4,
      let a := State.accAddr tile (rowAt f.record w v.iter).toNat n + b
      t.mem.byte a = (if active s tile w n then (leBytes 4 (bits (lane s tile (wVa w) n) 8 32)).getD b 0 else s.mem.byte a)) ∧
    (wOp w = 0x29 → ∃ t, exec (.mlogic tile) s = .next t ∧ t.mem = s.mem ∧
      let a := maskReg s tile (wVa w % 8)
      let b := maskReg s tile (wVb w % 8)
      maskReg t tile (wVd w % 8) = (if bits w 32 2 = 0 then a &&& b else if bits w 32 2 = 1 then a ||| b
        else if bits w 32 2 = 2 then a ^^^ b else a &&& ~~~b)) ∧
    (wOp w = 0x39 → gives (.vrmax tile) (fun _ =>
      let vs := (activeLanes s tile w 64).map (laneVal s tile (wVa w))
      (toFp w40 0 0 (vs.foldl maxVal (vs.headD Val.zero))).code)))

/-- Mask registers are 128 bits and numbered 0 to 7 in each tile. With MEN set, lane i of 64, or packed lane j of 128, takes part
exactly when its bit of the mask named is 1: VMOVI writes the active lanes of VD and no other, VADDH the active packed halves
and no other. VCMP makes bit i < 64 of VD's mask, for an active lane, the truth of its comparison, keeps that of an inactive
one, and clears bits 64 to 127. Rows named: VMOVI, VADDH, VCMP. (R125) -/
def Obligations.MaskRegistersGovern : Prop :=
  ∀ (tile : Nat) (s : State) (j : Job) (q : Queue) (i : Nat) (f : Flight) (v : VRun) (w : Nat), Issues s tile j q i f v w →
    swf 0 s.tiles.vregs = true → swf 0 s.tiles.masks = true →
    let on (n : Nat) : Bool := !wMen w || (sget 0 s.tiles.masks (tile * 8 + wMsk w) : BitVec 128).getLsbD n
    wMsk w < 8 ∧
    (wOp w = 0x18 → ∃ t, exec (.vmovi tile) s = .next t ∧ ∀ n < 64, lane t tile (wVd w) n =
      (if on n then bits w 32 32 * 256 else lane s tile (wVd w) n)) ∧
    (wOp w = 0x20 → ∃ t, exec (.vaddh tile) s = .next t ∧ ∀ n < 128, on n = false →
      packedLane (vreg t tile (wVd w)) n = packedLane (vreg s tile (wVd w)) n) ∧
    (wOp w = 0x28 → ∃ t, exec (.vcmp tile) s = .next t ∧ ∀ n < 128, (maskReg t tile (wVd w % 8)).getLsbD n =
      (decide (n < 64) && (if on n then
          vcmpHolds (bits w 32 3) (cmpVal (laneVal s tile (wVa w) n) (laneVal s tile (wVb w) n))
        else (maskReg s tile (wVd w % 8)).getLsbD n)))

/-- Flight i of a queue of the running job, a stream. CHUNK_ISSUE goes on when the job does not stop at a boundary, the run is
not down and has chunks left, none of its reads is held, earlier streams of the queue have issued all their reads, and the
Mover has room for the reads; otherwise nothing changes. It notes the wait while FREE_CTR has not come to the count that the
slot needs; it leaves all as it is where the source's die holds, joins the hold queue where a channel retrains, and else, for
a clean source in module memory, reads the next chunk for each tile and stores nothing; for a peer it asks for each tile's
piece. CHUNK_COMMIT of a chunk whose reads have come, with no tile's die holding, writes exactly the chunk's bytes, adds 1 to
FILL_CTR, and counts the chunk LATE when every tile had released it already. Neither changes any other counter. Rows named:
CHUNK_ISSUE, CHUNK_COMMIT. (R191, R193, R194, R195, R197, R205) -/
def Obligations.ChunksStreamInOrder : Prop :=
  ∀ (ref : QRef) (s : State) (j : Job) (q : Queue) (i : Nat) (f : Flight) (x : Stream), streamAt s ref i = some (j, q, f, x) →
    let d := x.desc
    let pieces := (List.range (dCount d)).map (fun t => dPiece d x.ver t (x.issued % dChunks d))
    let put (u : State) (w : Stream) : State := u.putFlight j.id ref i { f with op := .stream w }
    let goes : Prop := stopsHard s j = false ∧ x.down = false ∧ x.issued < x.total ∧ x.held = none ∧ earlierIssued q i = true ∧
      moverStalls s ref.inst = false ∧ (dPeer d = true → outstanding s ref.inst + dCount d ≤ 512)
    let free : Prop := ctrGe (s.ctr (dFree d)) (releasedWant d (chunkNo x x.issued)) = true
    let begun : Stream := { x with waits := x.waits + (if x.waited then 1 else 0), waited := false }
    (¬ goes → exec (.chunkIssue ref i) s = .next s) ∧
    (goes → ¬ free → exec (.chunkIssue ref i) s = .next (settle s (put s { x with waited := true }))) ∧
    (goes → free → dPeer d = false → (∃ a ∈ pieces, s.stalledRange a (dBytes d) = true) → exec (.chunkIssue ref i) s = .next s) ∧
    (goes → free → dPeer d = false → (∀ a ∈ pieces, s.stalledRange a (dBytes d) = false) →
      (∃ a ∈ pieces, s.inRetrain a (dBytes d) = true) →
      let u := s.noteRequests ref.inst (pieces.map (fun a => (a, dBytes d)))
      exec (.chunkIssue ref i) s = .next (settle s (put ({ u.2 with lp := { u.2.lp with ages := u.2.lp.ages + 1 } })
        { x with held := some (u.2.lp.ages, u.1) }))) ∧
    (goes → free → dPeer d = false →
      (∀ a ∈ pieces, s.heldRange a (dBytes d) = false ∧ s.markedUnits a (dBytes d) = [] ∧ State.inHost a (dBytes d) = false) →
      exec (.chunkIssue ref i) s = .next (settle s ((put s { begun with
        issued := x.issued + 1, badCh := if x.bad = 0 then 0 else x.badCh
        chunks := x.chunks ++ [⟨x.issued, (List.range (dCount d)).map (fun t =>
          (dSlot d t (chunkNo x x.issued), s.read (dPiece d x.ver t (x.issued % dChunks d)) (dBytes d)))⟩] }).noteWaits j.id ref))) ∧
    (goes → free → dPeer d = true →
      (∀ u rs, askChunk s j begun x.issued = some (u, rs) → exec (.chunkIssue ref i) s = .next (settle s ((put u { begun with
        issued := x.issued + 1, reads := x.reads ++ rs, chunks := x.chunks ++ [⟨x.issued, []⟩] }).noteWaits j.id ref))) ∧
      (askChunk s j begun x.issued = none → exec (.chunkIssue ref i) s =
        .next (settle s ((put s { begun with down := true }).noteWaits j.id ref)))) ∧
    (∀ c rest, x.chunks = c :: rest →
      ((∃ r ∈ x.reads, r.2.1 = c.g) ∨ tilesHeld s d = true → exec (.chunkCommit ref i) s = .next s) ∧
      ((∀ r ∈ x.reads, r.2.1 ≠ c.g) → tilesHeld s d = false → ∃ t k p' y, exec (.chunkCommit ref i) s = .next t ∧
        t.mem = s.mem.writes c.writes ∧ t.ctrs = (s.addCtr (dFill d) 1).ctrs ∧ t.runJob = some k ∧ k.queue? ref = some p' ∧
        p'.flight[i]? = some { f with op := .stream y } ∧ (ref.eng = engMover → p'.flight = q.flight.set i { f with op := .stream y }) ∧
        y = { x with chunks := rest, signalled := x.signalled + 1,
                     late := x.late + (if ctrGe (s.ctr (dFree d)) (BitVec.ofNat 32 (dCount d * chunkNo x c.g)) then 1 else 0) })) ∧
    (x.chunks = [] → exec (.chunkCommit ref i) s = .next s)

/-- On the job that the Strand engine serves. ITEM_CHOOSE where the group has nothing outstanding and the pipeline lets items be
chosen: the item of R227, if there is one, becomes outstanding with its dispatch set, and for F or B the group's place in its
sequence moves on; where none is ready, where one is outstanding, or where nothing may be chosen, nothing changes. ITEM_PUSH:
the next list goes to the end of its queue's lists with the item's tag, the first one dispatching the item, or, its queue
full, waits. ITEM_COMPLETE: only when every list is pushed and complete the group is free, and the stage counts the item.
Rows named: ITEM_CHOOSE, ITEM_PUSH, ITEM_COMPLETE. (R208, R211, R213, R214, R215, R221, R226, R227, R228, R235) -/
def Obligations.ItemsRunThroughTheirGroup : Prop :=
  ∀ (gid : Nat) (s : State) (j : Job) (g : Group), strandJob s = some j → j.strand.groups.find? (fun x => x.id == gid) = some g →
    holding s j = false →
    let p := j.strand.pipe
    (g.out ≠ none → exec (.itemChoose gid) s = .next s) ∧
    (g.out = none → (p.st = .idle ∨ p.st = .stopping ∨ p.st = .running ∧ mayChoose j = false) →
      exec (.itemChoose gid) s = .next s) ∧
    (g.out = none → p.st = .running → mayChoose j = true → choose s j g = none → exec (.itemChoose gid) s = .next s) ∧
    (∀ x, g.out = none → p.st = .running → mayChoose j = true → choose s j g = some x → ∃ t k h o, exec (.itemChoose gid) s = .next t ∧
      t.mem = s.mem ∧ t.ctrs = s.ctrs ∧ t.runJob = some k ∧ k.queues = j.queues ∧ k.strand.edges = j.strand.edges ∧
      k.strand.groups.find? (fun y => y.id == gid) = some h ∧ h.out = some o ∧ o.tag.stage = x.stage.idx ∧ o.tag.kind = x.kind ∧
      o.tag.n = (if x.kind = .f ∨ x.kind = .b then p.mb x.a else x.a) ∧ o.started = false ∧ o.openLists = [] ∧
      o.toPush = x.stage.sets.getD (setIndex x.stage x.kind o.tag.n) [] ∧
      h.fwd = g.fwd + (if x.kind = .f then 1 else 0) ∧ h.bwd = g.bwd + (if x.kind = .b then 1 else 0) ∧
      h.deferred = (if x.kind = .w then g.deferred.tail else g.deferred)) ∧
    (∀ o e rest q, g.out = some o → o.started = true → o.toPush = e :: rest → j.queue? e.target = some q →
      (State.queueRoom q = false → exec (.itemPush gid) s = .next s) ∧
      (State.queueRoom q = true → ∃ t k q' h, exec (.itemPush gid) s = .next t ∧ t.mem = s.mem ∧ t.ctrs = s.ctrs ∧ t.runJob = some k ∧
        k.queue? e.target = some q' ∧ q' = { q with lists := q.lists ++ [⟨e.addr, e.count, j.listSeq, some o.tag⟩] } ∧
        k.strand.groups.find? (fun y => y.id == gid) = some h ∧
        h = { g with out := some { o with toPush := rest, openLists := o.openLists ++ [j.listSeq] } })) ∧
    (∀ o e rest q u, g.out = some o → o.started = false → o.toPush = e :: rest → j.queue? e.target = some q → State.queueRoom q = true →
      j.stage? o.tag.stage = some u → ∃ t k q' h o', exec (.itemPush gid) s = .next t ∧ t.mem = s.mem ∧ t.runJob = some k ∧
        k.queue? e.target = some q' ∧ q' = { q with lists := q.lists ++ [⟨e.addr, e.count, j.listSeq, some o'.tag⟩] } ∧
        k.strand.groups.find? (fun y => y.id == gid) = some h ∧ h = { g with out := some o' } ∧ o'.started = true ∧ o'.toPush = rest ∧
        o'.openLists = o.openLists ++ [j.listSeq] ∧ o'.tag.kind = o.tag.kind ∧ o'.tag.n = o.tag.n ∧ o'.tag.stage = o.tag.stage) ∧
    (∀ o, g.out = some o → (o.started = false ∨ o.toPush ≠ [] ∨ o.openLists ≠ []) → exec (.itemComplete gid) s = .next s) ∧
    (∀ o u, g.out = some o → o.started = true → o.toPush = [] → o.openLists = [] → p.st = .running → j.stage? o.tag.stage = some u →
      ∃ t k h u', exec (.itemComplete gid) s = .next t ∧ t.runJob = some k ∧
        k.strand.groups.find? (fun y => y.id == gid) = some h ∧ h.out = none ∧
        h.deferred = g.deferred ++ (if o.tag.kind = .b then [(u.idx, o.tag.n)] else []) ∧
        k.stage? o.tag.stage = some u' ∧ u'.fDone = u.fDone + (if o.tag.kind = .f then 1 else 0) ∧ u'.bDone = u.bDone + (if o.tag.kind = .b then 1 else 0) ∧
        u'.wDone = u.wDone + (if o.tag.kind = .w then 1 else 0) ∧ u'.optDone = u.optDone + (if o.tag.kind = .opt then 1 else 0))

/-- On an open edge of the job that the Strand engine serves, whose sending stage is here, with no die in a droop hold:
UNIT_FORWARD copies the next ready unit of the oldest entry from the sending tiles to every place of the receiving tiles
here, or sends up to four as one DATA flit on VC1 or VC2, and marks them sent; where the flit finds no credit or path,
nothing changes. CLOSING_NOTICE of an entry whose units are all handed on (of one without units, whose item is done) drops
the entry and tells the receiving end its number, version, size and POISON. An edge that is not open changes nothing. Rows
named: UNIT_FORWARD, CLOSING_NOTICE. (R218, R219, R220, R289) -/
def Obligations.EntriesAreForwarded : Prop :=
  ∀ (slot : Nat) (bwd : Bool) (s : State) (j : Job) (e : Edge) (t : Stage), strandJob s = some j → j.edge? slot = some e →
    j.stageNamed (e.view bwd).snd = some t →
    let v := e.view bwd
    let bytesOf (n : Nat) (us : List Nat) : Bytes := us.flatMap (fun u => s.read (sendAddr v t n u) 64)
    let mark (u : State) (n : Nat) (us : List Nat) : State := u.updEdge j.id slot (fun e => e.setDir bwd { e.dir bwd with
      send := (e.dir bwd).send.map (fun y => if y.n == n then { y with sent := y.sent ++ us } else y) })
    let drop (u : State) (n : Nat) : State := u.updEdge j.id slot (fun e => e.setDir bwd { e.dir bwd with
      send := (e.dir bwd).send.filter (fun y => y.n != n) })
    (e.st ≠ .opened → exec (.unitForward slot bwd) s = .next s ∧ exec (.closingNotice slot bwd) s = .next s) ∧
    (∀ x us, anyHeld s = false → v.sndHere = true → e.st = .opened → nextUnits v (!v.rcvHere) t (e.dir bwd).send = some (x, us) →
      (∀ r, v.rcvHere = true → j.stageNamed v.rcv = some r → ∃ u, exec (.unitForward slot bwd) s = .next u ∧ u.ctrs = s.ctrs ∧
        u.mem = s.mem.writes (us.flatMap (fun w => (unitPlaces v r x.n w).map (fun a => (a, s.read (sendAddr v t x.n w) 64))))) ∧
      (v.rcvHere = false →
        let word := place 2 16 (gId e.desc) + place 18 5 x.n + place 23 24 (us.headD 0) + place 47 16 x.version
        (∀ u, s.sendJob j 0 (j.alias? e.peerMod) (if bwd then 2 else 1) word (ofLe (bytesOf x.n us)) = some u →
          exec (.unitForward slot bwd) s = .next (settle s (mark u x.n us))) ∧
        (s.sendJob j 0 (j.alias? e.peerMod) (if bwd then 2 else 1) word (ofLe (bytesOf x.n us)) = none →
          exec (.unitForward slot bwd) s = .next s))) ∧
    (∀ x, v.sndHere = true → e.st = .opened →
      (e.dir bwd).send.find? (fun y => decide (v.sendUnits t.tileCount ≤ y.sent.length) &&
        (y.itemDone || decide (0 < v.sendUnits t.tileCount))) = some x →
      (v.rcvHere = true → exec (.closingNotice slot bwd) s = .next (settle s (entryPoison
        (noticeAt (drop s x.n) j.id slot bwd x.n x.version (64 * v.sendUnits t.tileCount) x.poison) j.id slot bwd x.n))) ∧
      (v.rcvHere = false →
        let sent := s.sendJob j 0 (j.alias? e.peerMod) (if bwd then 2 else 1)
          (1 + place 2 16 (gId e.desc) + place 18 1 (if x.poison then 1 else 0) + place 32 32 x.n)
          (place 0 16 x.version + place 64 64 (64 * v.sendUnits t.tileCount))
        (∀ u, sent = some u → exec (.closingNotice slot bwd) s = .next (settle s (drop u x.n))) ∧
        (sent = none → exec (.closingNotice slot bwd) s = .next s)))

/-- While die 1 does not hold, the oldest flit of VC1 or VC2 of a port leaves its slot when it is of the kind asked for. Of the
peer of an open edge of the running job: DATA writes its units, while no die holds, at their places in the receiving tiles
and no other byte; NOTICE records number, version, size and POISON of the entry, and CREDIT gives the sending end one credit
more, up to the depth. On a CLOSED edge, or none, or from a module outside the edge, the flit is discarded, logged with
E_STATE_EDGE or E_STATE_JOB; what the peer sends on a DOWN edge is lost, and on a BOUND one waits (log 155: the model's
choice). Rows named: DATA, NOTICE, CREDIT. (R218, R220, R221, R248, R289, R309) -/
def Obligations.StageFlitsLand : Prop :=
  ∀ (port vc k : Nat) (s u : State) (f : SpokeFlit), (vc = 1 ∨ vc = 2) → s.takeRx port vc (fun f => fKind f == k) = some (f, u) → dieHeld s 1 = false →
    let bwd := vc == 2
    let row : Option Instr := if k = 0 then some (.dataFlit port vc) else if k = 1 then some (.notice port vc)
      else if k = 2 then some (.credit port vc) else none
    ∀ c, row = some c →
      (∀ j e, u.runJob = some j → flitEdge u f = some (j, e) → e.st = .opened → gRemote e.desc = true → fSrc f = j.alias? e.peerMod →
        j.edge? e.slot = some e →
        let v := e.view bwd
        (∀ r, k = 0 → anyHeld s = false → v.rcvHere = true → j.stageNamed v.rcv = some r → ∃ t, exec c s = .next t ∧ t.ctrs = s.ctrs ∧
          let n := mbOfLo j.strand.pipe (e.dir bwd).released (bits (fCls f) 18 5)
          let us := unitGroup v (bits (fCls f) 23 24)
          t.mem = s.mem.writes (((List.range us.length).zip us).flatMap (fun p =>
            (unitPlaces v r n p.2).map (fun a => (a, ((leBytes 256 (fPay f)).drop (64 * p.1)).take 64))))) ∧
        (k = 1 → v.rcvHere = true → ∃ t l e' x, exec c s = .next t ∧ t.mem = s.mem ∧ t.runJob = some l ∧ l.edge? e.slot = some e' ∧
          (e'.dir bwd).recv.find? (fun y => y.n == bits (fCls f) 32 32) = some x ∧ x.noticed = true ∧
          x.version = bits (fPay f) 0 16 ∧ x.bytes = bits (fPay f) 64 64 ∧ x.poison = bitAt (fCls f) 18 ∧
          (e'.dir (!bwd)).credits = (e.dir (!bwd)).credits ∧ (e'.dir (!bwd)).recv = (e.dir (!bwd)).recv) ∧
        (k = 2 → v.sndHere = true → ∃ t l e', exec c s = .next t ∧ t.mem = s.mem ∧ t.runJob = some l ∧ l.edge? e.slot = some e' ∧
          e' = e.setDir bwd { e.dir bwd with credits := min ((e.dir bwd).credits + 1) v.depth })) ∧
      (∀ j e, flitEdge u f = some (j, e) →
        ((e.st = .closed ∨ gRemote e.desc = false ∨ fSrc f ≠ j.alias? e.peerMod) → exec c s = .next (settle s (u.log eEdge 2 0 j.id e.slot))) ∧
        (gRemote e.desc = true → fSrc f = j.alias? e.peerMod →
          (e.st = .bound → exec c s = .next s) ∧ (e.st = .down → exec c s = .next (settle s u)))) ∧
      (flitEdge u f = none → otherJobEdge u f = none → exec c s = .next (settle s (u.log eEdge 2 0 (s.running.getD 0)))) ∧
      (∀ j, flitEdge u f = none → otherJobEdge u f = some j → exec c s = .next (settle s (u.log eJob 2 0 j.id)))

/-- While die 1 does not hold: OPENING_NOTICE for an edge bound here is answered with this end's notice, or held until it is
bound, also before its job is admitted; an answer of the edge's peer is kept for PIPE_START, and opens a DOWN edge when it
matches. EDGE_CLOSING from the edge's peer closes the local end and is acknowledged; CLOSING_ACK from it marks a closed edge
acknowledged. EDGE_DOWN of an open remote edge whose peer no route of its class reaches makes it DOWN, drops what it was
sending and logs E_ENV_LINK_DOWN; any other edge stays. No queue, counter or byte of memory changes in any of them. Rows
named: OPENING_NOTICE, EDGE_CLOSING, CLOSING_ACK, EDGE_DOWN. (R239, R245, R246, R408) -/
def Obligations.EdgeEndsAgreeAndClose : Prop :=
  ∀ (s : State) (j : Job) (e : Edge), dieHeld s 1 = false →
    (∀ m : OpenMsg, s.job? m.job = none →
      (m.answer = true → exec (.openingNotice m) s = .next s) ∧
      (m.answer = false → exec (.openingNotice m) s = .next (settle s { s with notices := s.notices ++ [m] }))) ∧
    (∀ m : OpenMsg, s.job? m.job = some j →
      (j.strand.edges.find? (fun x => gId x.desc == m.edgeId) = none →
        (m.answer = true → exec (.openingNotice m) s = .next s) ∧
        (m.answer = false → exec (.openingNotice m) s = .next (settle s (s.updJob j.id (fun k =>
          { k with strand := { k.strand with notices := k.strand.notices ++ [m] } }))))) ∧
      (j.strand.edges.find? (fun x => gId x.desc == m.edgeId) = some e →
        (m.answer = false → exec (.openingNotice m) s = .next (settle s (s.send m.src (.openingNotice (openMsg s j e true))))) ∧
        (m.answer = true → j.alias? e.peerMod ≠ m.src → exec (.openingNotice m) s = .next s) ∧
        (m.answer = true → j.alias? e.peerMod = m.src → e.st ≠ .down →
          exec (.openingNotice m) s = .next (settle s (s.updEdge j.id e.slot (fun x => { x with answer := some m })))) ∧
        (m.answer = true → j.alias? e.peerMod = m.src → e.st = .down → answerOk s j e m = true →
          exec (.openingNotice m) s = .next (settle s (s.updEdge j.id e.slot (openEdge j.strand.pipe)))))) ∧
    (∀ src, s.job? j.id = some j → s.keys j.id = [j.id] → e ∈ j.strand.edges → j.alias? e.peerMod = src →
      (∃ t k, exec (.edgeClosing src j.id (gId e.desc)) s = .next t ∧ t.mem = s.mem ∧ t.ctrs = s.ctrs ∧ t.job? j.id = some k ∧
        { e with st := .closed, acked := true } ∈ k.strand.edges ∧ k.queues = j.queues ∧
        (s.near src = true → Out.msg src (.closingAck s.mod.id j.id (gId e.desc)) ∈ t.out)) ∧
      (e.st = .closed → ∃ t k, exec (.closingAck src j.id (gId e.desc)) s = .next t ∧ t.mem = s.mem ∧ t.ctrs = s.ctrs ∧
        t.job? j.id = some k ∧ { e with acked := true } ∈ k.strand.edges ∧ k.queues = j.queues)) ∧
    (s.runJob = some j → j.edge? e.slot = some e →
      (e.st = .opened → gRemote e.desc = true → s.reachable j 0 (j.alias? e.peerMod) = false → ∃ t k e',
        exec (.edgeDown e.slot) s = .next t ∧ t.mem = s.mem ∧ t.ctrs = s.ctrs ∧ t.runJob = some k ∧ k.edge? e.slot = some e' ∧
        e' = { e with st := .down, fwd := { e.fwd with send := [] }, bwd := { e.bwd with send := [] } } ∧
        t.mss.logQ = s.mss.logQ ++ [⟨s.now, eLinkDown, 2, 0, j.id, 0, e.slot⟩]) ∧
      ((e.st ≠ .opened ∨ gRemote e.desc = false ∨ s.reachable j 0 (j.alias? e.peerMod) = true) →
        exec (.edgeDown e.slot) s = .next s))

/-- STEP_BOUNDARY of the job that the Strand engine serves: while the pipeline is not RUNNING, an item of the step is not
complete, the gate is at HOLD, or UNDECIDED where the boundary waits for it, or STEP_CTR has not reached the next step,
nothing changes. When they all hold, the step count advances by one, the gate is UNDECIDED again, the replay mark is gone,
the steps marked poisoned stay so until their contributions go, the groups' counts of the sequence begin again unless
STEP_OVERLAP is set, and no optimizer item of the new step is chosen or done. Rows named: STEP_BOUNDARY. (R155, R230, R231,
R249, R250) -/
def Obligations.StepBoundaryClosesTheStep : Prop :=
  ∀ (s : State) (j : Job), strandJob s = some j →
    let p := j.strand.pipe
    let all (t : Stage) : Prop := if p.fwdOnly = true then p.steps * p.mbPerStep + p.mbPerStep ≤ t.fDone
      else p.steps * p.mbPerStep + p.mbPerStep ≤ t.wDone ∧ t.optDone = t.optGroups
    let gateOk := j.numerics.gate = .opened ∨ j.numerics.gate = .skip ∨ (j.numerics.gate = .undecided ∧ p.normWait = false)
    let holds := p.st = .running ∧ (∀ t ∈ j.strand.stages, all t) ∧ gateOk ∧ ctrGe (s.ctr p.stepCtr) (BitVec.ofNat 32 (p.steps + 1)) = true
    (¬ holds → exec .stepBoundary s = .next s) ∧
    (holds → ∃ t k, exec .stepBoundary s = .next t ∧ t.runJob = some k ∧ k.strand.pipe.steps = p.steps + 1 ∧
      k.strand.pipe.st = .running ∧ k.strand.pipe.poisoned = p.poisoned ∧ k.strand.pipe.replay = false ∧ k.numerics.gate = .undecided ∧
      k.queues.length = j.queues.length ∧ (∀ u ∈ k.strand.stages, u.optNext = 0 ∧ u.optDone = 0) ∧
      (p.overlap = false → ∀ g ∈ k.strand.groups, g.fwd = 0 ∧ g.bwd = 0))

/-- The oldest packet of a channel of a port, of the type asked for (PARTIAL and CLOSE on VC3, RESULT on VC3 and VC4), where its
engine's die does not hold: with no job running it is discarded and logged E_STATE_JOB; by tag, source, epoch and use count
it is discarded silently, discarded and logged, kept in the early buffer, or left in its slot while the buffer is full, or it
goes to its bucket, where it waits while the addition's source lies at a channel that holds its requests. A packet that its
bucket awaits is counted by its type and starts the timer again; a CLOSE merges its magnitude, a good RESULT adds the values
or bytes that it carries, at their place, to what the bucket will write. SHARD_TIMEOUT poisons what is still due once the
group's timeout has run, and not before. No packet writes memory or a counter. Rows named: PARTIAL, RESULT, CLOSE,
SHARD_TIMEOUT. (R259, R261, R267, R273, R275, R276, R279, R328) -/
def Obligations.RingPacketsMeetTheirBucket : Prop :=
  ∀ (port : Nat) (s : State),
    (∀ (vc ty : Nat) (p : RPkt) (u : State), ringPacket port vc ty false s = some (p, u) → dieHeld s (p.tag % 4) = false →
      ∀ c, ((c = .partialPkt port ∧ vc = 3 ∧ ty = 0) ∨ (c = .resultPkt port vc ∧ (vc = 3 ∨ vc = 4) ∧ ty = 1) ∨
          (c = .closePkt port ∧ vc = 3 ∧ ty = 2)) →
        (u.runJob = none → exec c s = .next (settle s (u.log eJob 3 0 0))) ∧
        (∀ j, u.runJob = some j →
          (ringFate j p = .discard 0 → exec c s = .next (settle s u)) ∧
          (∀ code, code ≠ 0 → ringFate j p = .discard code →
            (parkedOwner u j p = none → exec c s = .next (settle s (u.log code 3 (p.tag % 4) j.id))) ∧
            (∀ k, parkedOwner u j p = some k → exec c s = .next (settle s (u.log eJob 3 (p.tag % 4) k.id)))) ∧
          (ringFate j p = .early → earlyUsed u j (p.tag % 4) < earlyRoom →
            exec c s = .next (settle s (u.updRing j.id (fun x => { x with early := x.early ++ [p] })))) ∧
          (ringFate j p = .early → earlyRoom ≤ earlyUsed u j (p.tag % 4) → exec c s = .next s) ∧
          (∀ b g, ringFate j p = .deliver → j.ring.buckets.find? (fun b => b.tag == p.tag) = some b → State.ringGroup j b = some g →
            let ready := ∀ r ∈ readsFor j g b p, s.heldRange r.1 r.2 = false
            (∃ t, exec c s = .next t ∧ t.mem = s.mem ∧ t.ctrs = s.ctrs ∧ t.tiles = s.tiles) ∧ (¬ ready → exec c s = .next s) ∧
            (ready → State.awaits j g b ty p.src = true → (b.gather = false ∨ g.tree = false) → (ty = 1 → (resultSeq b g)[b.resGot]? ≠ none) →
              ∃ t k b', exec c s = .next t ∧ t.runJob = some k ∧ k.ring.buckets.find? (fun b => b.tag == p.tag) = some b' ∧
                b'.since = s.now ∧ b'.partGot = b.partGot + (if ty = 0 then 1 else 0) ∧
                b'.resGot = b.resGot + (if ty = 1 then 1 else 0) ∧ b'.closeGot = b.closeGot + (if ty = 2 then 1 else 0) ∧
                (ty = 2 → b'.writes = b.writes ∧ b'.amax = (if p.bad none = none then max b.amax (bits p.payload.toNat 0 32) else b.amax))) ∧
            (∀ pl, ready → ty = 1 → b.gather = false → State.awaits j g b 1 p.src = true → p.bad (some b.k) = none →
              (resultSeq b g)[b.resGot]? = some pl →
              ∃ t k b', exec c s = .next t ∧ t.runJob = some k ∧ k.ring.buckets.find? (fun b => b.tag == p.tag) = some b' ∧
                b'.writes = b.writes ++ [(b.dst + 4 * pl.2.1, ((wireVals (reduceArgs b.record).wire p pl.2.2).map
                  (fun v => (toFp32 v.1).code)).flatMap (leBytes 4))]) ∧
            (∀ pl, ready → ty = 1 → b.gather = true → g.tree = false → p.bad none = none → p.cause = 0 → p.type = 1 →
              p.src = g.at_ j g.prev → b.resGot < b.resDue → (resultSeq b g)[b.resGot]? = some pl →
              ∃ t k b', exec c s = .next t ∧ t.runJob = some k ∧ k.ring.buckets.find? (fun b => b.tag == p.tag) = some b' ∧
                b'.resGot = b.resGot + 1 ∧ b'.since = s.now ∧
                b'.writes = b.writes ++ [(b.dst + pl.2.1, leBytes pl.2.2 p.payload.toNat)])))) ∧
    (∀ (tag : Nat) (j : Job) (b : Bucket) (g : RGroup), s.runJob = some j → j.ring.buckets.find? (fun b => b.tag == tag) = some b →
      State.ringGroup j b = some g →
      ((s.now < b.since + g.timeout * 100000 ∨ State.bucketOver b = true ∨ dieHeld s (tag % 4) = true) → exec (.shardTimeout tag) s = .next s) ∧
      (b.since + g.timeout * 100000 ≤ s.now → State.bucketOver b = false → dieHeld s (tag % 4) = false → ∃ t, exec (.shardTimeout tag) s = .next t ∧
        t = settle s (s.poisonDue j b 2 (State.upstream j g)) ∧ t.mem = s.mem ∧ t.ctrs = s.ctrs))

/-- While the die of the engine that takes norm packets does not hold. The oldest NORM_CLOSE that has not sent: while a REDUCE of
its step with NORM is open, or the seal of the step before is not acknowledged where a Locket is bound, nothing changes; else
its contribution goes to the root, its accumulator ends and the next step opens. A contribution opens or joins its collection
at the root, or is answered with the total sent, if the NORM_CLOSE of that total names its module. NORM_WINDOW_CLOSE before
the window's end, and a timeout before twice the timeout, change nothing. The total decides the gate: HOLD if poisoned or
missing, OPEN if finite, else SKIP. A source counted twice is reported once; the counts clear after 1,000 good decisions.
Rows named: NORM_CONTRIBUTION_SEND, NORM_CONTRIBUTION, NORM_WINDOW_CLOSE, NORM_TOTAL, NORM_TOTAL_TIMEOUT,
POISON_SOURCE_REPORT, POISON_COUNTS_CLEAR. (R153, R269, R270, R277, R358) -/
def Obligations.NormExchangeDecidesTheGate : Prop :=
  ∀ (s : State), dieHeld s normInst = false →
    (∀ j c, s.runJob = some j → j.ring.closes.find? (fun c => !c.sent) = some c →
      let busy := ∃ b ∈ j.ring.buckets, b.gather = false ∧ (reduceArgs b.record).norm = true ∧ (reduceArgs b.record).step = c.step
      ((busy ∨ sealedBefore j c.step = false) → exec .normContributionSend s = .next s) ∧
      (¬ busy → sealedBefore j c.step = true → c.root ≠ s.mod.id → ∃ t k, exec .normContributionSend s = .next t ∧ t.mem = s.mem ∧
        t.ctrs = s.ctrs ∧ t.runJob = some k ∧ k.ring.openStep = (c.step + 1) % 2 ^ 32 ∧
        (∀ a ∈ k.ring.accs, a.step ≠ c.step) ∧ { c with sent := true, since := s.now } ∈ k.ring.closes ∧
        t.spoke = (s.sendNorm j c.root (contributionOf s j c.step).poison (contributionPay (contributionOf s j c.step) c.step)).spoke)) ∧
    (∀ port p u j, ringPacket port 3 3 true s = some (p, u) → u.runJob = some j → normOther u j p.src = none →
      isTotal u j p = false → mayContribute u j p = true →
      (beforeClose u j (pktStep p) = true → earlyUsed u j normInst < earlyRoom) →
      let x : Contribution :=
        { src := p.src, value := bits p.payload.toNat 0 512, nan := bitAt p.payload.toNat 512
          inf := bitAt p.payload.toNat 513, poison := pktPoison p }
      (j.ring.roots.find? (fun r => r.step == pktStep p) = none → exec (.normContribution port) s = .next (settle s
        ((u.updRing j.id (fun y => { y with roots := y.roots ++ [{ step := pktStep p, got := [x], since := s.now }] })).tryTotal
          j.id (pktStep p)))) ∧
      (∀ r, j.ring.roots.find? (fun r => r.step == pktStep p) = some r → r.total = none → (∀ y ∈ r.got, y.src ≠ p.src) →
        exec (.normContribution port) s = .next (settle s ((u.updRoot j.id { r with got := r.got ++ [x] }).tryTotal j.id (pktStep p)))) ∧
      (∀ r t, j.ring.roots.find? (fun r => r.step == pktStep p) = some r → r.total = some t →
        (p.src ∉ r.list → exec (.normContribution port) s = .next (settle s (u.log eProtect 3 0 j.id))) ∧
        (p.src ∈ r.list → exec (.normContribution port) s = .next (settle s (u.sendNorm j p.src
          (if bitAt t.1.toNat 48 then some (bits t.1.toNat 49 8) else none) t.2.toNat))))) ∧
    (∀ step j r c, s.runJob = some j → j.ring.roots.find? (fun r => r.step == step) = some r →
      j.ring.closes.find? (fun c => c.step == step && c.root == s.mod.id) = some c →
      ((r.total ≠ none ∨ s.now < r.since + c.timeout * 100000) → exec (.normWindowClose step) s = .next s) ∧
      (r.total = none → r.since + c.timeout * 100000 ≤ s.now → exec (.normWindowClose step) s =
        .next (settle s ((s.updRoot j.id { r with closed := true }).tryTotal j.id step)))) ∧
    (∀ port p u j, ringPacket port 3 3 true s = some (p, u) → u.runJob = some j → normOther u j p.src = none →
      (isTotal u j p = false → mayContribute u j p = true → exec (.normTotal port) s = .next s) ∧
      (isTotal u j p = false → mayContribute u j p = false → exec (.normTotal port) s = .next (settle s u)) ∧
      (isTotal u j p = true → ∃ t k, exec (.normTotal port) s = .next t ∧ t.runJob = some k ∧ k.numerics.gate =
        (if bitAt p.cls.toNat 48 then .hold
         else if (decodeFp fp32 (bits p.payload.toNat 0 32)).isFin then .opened else .skip))) ∧
    (∀ j, s.runJob = some j →
      ((∀ c ∈ j.ring.closes, c.sent = true → c.root ≠ s.mod.id → s.now < c.since + 2 * c.timeout * 100000) → exec .normTotalTimeout s = .next s) ∧
      ((∃ c ∈ j.ring.closes, c.sent = true ∧ c.root ≠ s.mod.id ∧ c.since + 2 * c.timeout * 100000 ≤ s.now) → ∃ t k, exec .normTotalTimeout s = .next t ∧
        t.runJob = some k ∧ k.numerics.gate = .hold)) ∧
    (∀ job src j, s.job? job = some j →
      let n := ((j.ring.poisons.find? (fun p => p.1 == src)).map (·.2)).getD 0
      ((n < 2 ∨ src ∈ j.ring.reported) → exec (.poisonSourceReport job src) s = .next s) ∧
      (2 ≤ n → src ∉ j.ring.reported → ∃ t k, exec (.poisonSourceReport job src) s = .next t ∧ t.mem = s.mem ∧ t.job? job = some k ∧
        k.ring.reported = j.ring.reported ++ [src] ∧ t.mss.logQ = s.mss.logQ ++ [⟨s.now, ePoison, 3, 0, job, 0, src⟩] ∧
        (s.near (s.reportTo j src) = true → Out.msg (s.reportTo j src) (.suspect s.mod.id job src) ∈ t.out)) ∧
      (j.ring.goodRun < 1000 → exec (.poisonCountsClear job) s = .next s) ∧
      (1000 ≤ j.ring.goodRun → exec (.poisonCountsClear job) s =
        .next (settle s (s.updRing job (fun r => { r with poisons := [], reported := [], goodRun := 0 })))))

/-- While the Locket's die does not hold, and no channel holds back what it reads or writes (else all waits): LOCKET_BIND that
passes its checks keeps the descriptor and its lists, offers the copy to the buddy and waits; the buddy's ACK, from the buddy
only, is its answer. An offer for a source not hosted here is held. For a running job whose source is hosted here: a copy is
written behind the ranges of the open half, or, where it does not fit, marks the half short and is logged; a mirrored feed
entry is written at its offset; a state block marks the half sealed and is acknowledged, unless the half is short or ranges
of the seal are still to come, for which it waits. For a job that is not running a copy or a mirrored entry is logged and
stores nothing. A fingerprint request is answered with the fingerprint of the CURRENT version; a reply that matches asks for
the next entry, and the one for the last entry, or one that does not match, ends the check. Rows named: LOCKET_BIND,
BUDDY_OFFER, LOCKET_COPY, FEED_MIRROR, STATE_BLOCK, TANDEM_FINGERPRINT_REQUEST. (R328, R352, R355, R356, R357, R359, R362,
R363) -/
def Obligations.LocketKeepsTheCopy : Prop :=
  ∀ (s : State) (j : Job), dieHeld s 2 = false →
    (∀ ref q l r, Passes locketSpec ref s j q l r →
      let w := locketSpec.whole s r
      locketWaits s (staticRanges w) = false → ∃ t k, exec (.locketBind ref) s = .next t ∧ (s.offers = [] → t.mem = s.mem) ∧ t.ctrs = s.ctrs ∧
      t.runJob = some k ∧ k.queue? ref = some { q with cur := some { record := w, begun := true } } ∧
      k.locket.desc = s.num (bits r 128 48) 128 ∧ k.locket.statics = staticRanges w ∧ k.locket.tandems = tandemsIn w ∧
      k.locket.binding = some ref ∧ k.locket.answer = none ∧ k.locket.bound = false) ∧
    (∀ m : OfferMsg, s.offers = [] → s.job? (State.offerJob m) = some j → State.hosts j (State.offerSrc m) = false →
      (∀ src job ok, m ≠ .ack src job ok) → exec (.buddyOffer m) s = .next (settle s { s with offers := [m] })) ∧
    (∀ src job ok ref, s.job? job = some j → j.locket.binding = some ref → j.locket.answer = none →
      (src ≠ j.alias? (lBuddy j.locket.desc) → exec (.buddyOffer (.ack src job ok)) s = .next s) ∧
      (src = j.alias? (lBuddy j.locket.desc) → ∃ t k, exec (.buddyOffer (.ack src job ok)) s = .next t ∧ t.job? job = some k ∧
        k.locket.answer = some ok)) ∧
    (∀ src job a bs,
      (locketWaits s (hostedRegion s job) = true →
        exec (.locketCopy src job a bs) s = .next s ∧ exec (.feedMirror src job a bs) s = .next s) ∧
      (locketWaits s (hostedRegion s job) = false →
        (s.running ≠ some job →
          exec (.locketCopy src job a bs) s = .next (settle s (s.log eJob 4 0 job)) ∧
          exec (.feedMirror src job a bs) s = .next (settle s (s.log eJob 4 0 job))) ∧
        (s.running = some job → s.job? job = some j → State.hosts j src = false →
          exec (.locketCopy src job a bs) s = .next s ∧ exec (.feedMirror src job a bs) s = .next s) ∧
        (s.running = some job → s.job? job = some j → State.hosts j src = true →
          let i := openHalf j
          let h := (j.locket.half i).fresh
          let off := ((j.locket.srcStatics ++ h.ranges).map (·.len)).sum
          (∀ m b, j.locket.awaited = some (m, b) →
            exec (.locketCopy src job a bs) s = .next (settle s ((s.storeRange job i a bs).sealHalf m job false b))) ∧
          (j.locket.awaited = none → off + bs.length ≤ lHalf j.locket.desc → ∃ t k, exec (.locketCopy src job a bs) s = .next t ∧
            t.job? job = some k ∧ t.mem = s.mem.write (State.halfAddr j.locket i + off) bs ∧
            (k.locket.half i).ranges = h.ranges ++ [⟨a, bs.length, off⟩]) ∧
          (j.locket.awaited = none → lHalf j.locket.desc < off + bs.length → ∃ t k, exec (.locketCopy src job a bs) s = .next t ∧
            t.job? job = some k ∧ t.mem = s.mem ∧ (k.locket.half i).short = true ∧
            t.mss.logQ = s.mss.logQ ++ [⟨s.now, eMemory, 4, 0, job, 0, a⟩]) ∧
          (a + bs.length ≤ lFeed j.locket.desc → ∃ t, exec (.feedMirror src job a bs) s = .next t ∧ t.jobs = s.jobs ∧
            t.mem = s.mem.write (lHostAddr j.locket.desc + 2 * lHalf j.locket.desc + a) bs) ∧
          (lFeed j.locket.desc < a + bs.length → exec (.feedMirror src job a bs) s = .next s)))) ∧
    (∀ src job b skip, s.job? job = some j → locketWaits s (hostedRegion s job) = false →
      (State.hosts j src = false → exec (.stateBlock (.block src job skip b)) s = .next s) ∧
      (State.hosts j src = true →
        let i := b.step % 2
        let u := if skip = true then s.copyHalf job i else (s.settleHalf job i).updLocket job (fun l => l.setHalf i (l.half i).fresh)
        ∃ k, u.job? job = some k ∧
        ((k.locket.half i).short = true → exec (.stateBlock (.block src job skip b)) s = .next (settle s u)) ∧
        ((k.locket.half i).short = false → skip = false → (k.locket.half i).ranges.length < b.copied →
          exec (.stateBlock (.block src job skip b)) s =
            .next (settle s (u.updLocket job (fun l => { l with awaited := some (src, b) })))) ∧
        ((k.locket.half i).short = false → skip = true ∨ b.copied ≤ (k.locket.half i).ranges.length →
          ∃ t l, exec (.stateBlock (.block src job skip b)) s = .next t ∧ t.mem = u.mem ∧ t.job? job = some l ∧
            (l.locket.half i).sealed = some b ∧ l.locket.awaited = none ∧
            (s.near src = true → Out.msg src (.stateBlock (.ack s.mod.id job b.step)) ∈ t.out)))) ∧
    (∀ src job step w, s.job? job = some j → j.locket.sealing = some w →
      locketWaits s (sealRanges s (.ack src job step)) = false →
      (src ≠ j.alias? (lBuddy j.locket.desc) ∨ w.step ≠ step → exec (.stateBlock (.ack src job step)) s = .next s) ∧
      (src = j.alias? (lBuddy j.locket.desc) → w.step = step → ∃ t k, exec (.stateBlock (.ack src job step)) s = .next t ∧
        t.job? job = some k ∧ k.locket.sealing = none ∧ k.locket.lastSeal = some step)) ∧
    (∀ m : FpMsg, s.job? m.job = some j →
      let answer := s.send m.src (.tandemFingerprintRequest { m with
        src := s.mod.id, reply := true
        fp := (j.stage? m.stage).bind (fun t => s.fpOf (m.slot0 + t.cur * m.pitch + m.off * 64) m.len) })
      (m.reply = false → fpRange j m = none → exec (.tandemFingerprintRequest m) s = .next (settle s answer)) ∧
      (∀ r, m.reply = false → fpRange j m = some r → locketWaits s [r] = false → exec (.tandemFingerprintRequest m) s =
        .next (settle s (if s.mapped r.1 r.2 = true then answer.meet m.job r.1 r.2 else answer))) ∧
      (∀ w e, m.reply = true → j.locket.tandem = some w → j.locket.tandems[m.entry]? = some e → w.entry = m.entry →
        j.alias? (lPartner j.locket.desc) = m.src → locketWaits s [(tShard e, tShardLen e)] = false →
        let own := s.fpOf (tShard e) (tShardLen e)
        (own = none ∨ m.fp ≠ own ∨ j.locket.tandems.length ≤ m.entry + 1 →
          ∃ t k, exec (.tandemFingerprintRequest m) s = .next t ∧ t.job? m.job = some k ∧ k.locket.tandem = none) ∧
        (own ≠ none → m.fp = own → m.entry + 1 < j.locket.tandems.length →
          ∃ t k, exec (.tandemFingerprintRequest m) s = .next t ∧ t.job? m.job = some k ∧
            k.locket.tandem = some { w with entry := m.entry + 1 })))
end

