-- ==== Sys2Proof/Laws/Sparse.lean ====
section
/-! SUPPORT. Sparse maps and byte memory: what a read gives after a write, and that every operation keeps the canonical form. -/
namespace Sys2Proof.Machine

variable {α : Type} [DecidableEq α] {d : α}

/-! ## Canonical form -/

theorem swfFrom_mono {l : List (Nat × α)} {lo hi : Nat} (h : swfFrom d hi l = true) (le : lo ≤ hi) : swfFrom d lo l = true := by
  cases l with
  | nil => rfl
  | cons c t =>
    obtain ⟨k, v⟩ := c
    simp only [swfFrom, Bool.and_eq_true, decide_eq_true_eq] at h ⊢
    exact ⟨⟨by omega, h.1.2⟩, h.2⟩

theorem swfFrom_sput {l : List (Nat × α)} {lo x : Nat} {v : α} (h : swfFrom d lo l = true) (le : lo ≤ x) :
    swfFrom d lo (sput d l x v) = true := by
  induction l generalizing lo with
  | nil =>
    unfold sput
    split
    · rfl
    · simp_all [swfFrom]
  | cons c t ih =>
    obtain ⟨k, w⟩ := c
    simp only [swfFrom, Bool.and_eq_true, decide_eq_true_eq] at h
    unfold sput
    split
    · split
      · simp [swfFrom, h]
      · simp only [swfFrom, Bool.and_eq_true, decide_eq_true_eq]
        exact ⟨⟨le, by assumption⟩, ⟨⟨by omega, h.1.2⟩, h.2⟩⟩
    · split
      · subst x
        split
        · exact swfFrom_mono h.2 (by omega)
        · simp only [swfFrom, Bool.and_eq_true, decide_eq_true_eq]
          exact ⟨⟨le, by assumption⟩, h.2⟩
      · simp only [swfFrom, Bool.and_eq_true, decide_eq_true_eq]
        exact ⟨⟨h.1.1, h.1.2⟩, ih h.2 (by omega)⟩

theorem swf_sput {l : List (Nat × α)} (x : Nat) (v : α) (h : swf d l = true) : swf d (sput d l x v) = true :=
  swfFrom_sput h (Nat.zero_le x)

/-! ## Reading what was written -/

theorem sget_below {l : List (Nat × α)} {lo x : Nat} (h : swfFrom d lo l = true) (lt : x < lo) : sget d l x = d := by
  induction l generalizing lo with
  | nil => rfl
  | cons c t ih =>
    obtain ⟨k, v⟩ := c
    simp only [swfFrom, Bool.and_eq_true, decide_eq_true_eq] at h
    unfold sget
    rw [if_neg (by omega)]
    exact ih h.2 (by omega)

theorem sget_sput_other {l : List (Nat × α)} {x y : Nat} {v : α} (ne : y ≠ x) : sget d (sput d l x v) y = sget d l y := by
  induction l with
  | nil =>
    unfold sput
    split
    · rfl
    · simp [sget, Ne.symm ne]
  | cons c t ih =>
    obtain ⟨k, w⟩ := c
    unfold sput
    split
    · split
      · rfl
      · rw [sget, if_neg (Ne.symm ne)]
    · split
      · subst x
        split <;> simp [sget, Ne.symm ne]
      · simp [sget, ih]

theorem sget_sput_same {l : List (Nat × α)} {x : Nat} {v : α} (h : swf d l = true) : sget d (sput d l x v) x = v := by
  unfold swf at h
  generalize 0 = lo at h
  induction l generalizing lo with
  | nil =>
    unfold sput
    split
    · simp_all [sget]
    · simp [sget]
  | cons c t ih =>
    obtain ⟨k, w⟩ := c
    have h' := h
    simp only [swfFrom, Bool.and_eq_true, decide_eq_true_eq] at h
    unfold sput
    split
    · split
      · rename_i lt hv
        rw [hv]
        exact sget_below (lo := k) (by simp [swfFrom, h]) lt
      · simp [sget]
    · split
      · subst x
        split
        · rename_i hv
          rw [hv]
          exact sget_below h.2 (by omega)
        · simp [sget]
      · rename_i ne
        rw [sget, if_neg (Ne.symm ne)]
        exact ih _ h.2

/-! ## Byte memory -/

theorem swfFrom_takeWhile {m : List (Nat × α)} {lo a : Nat} (h : swfFrom d lo m = true) :
    swfFrom d lo (m.takeWhile (fun c => decide (c.1 < a))) = true := by
  induction m generalizing lo with
  | nil => rfl
  | cons c t ih =>
    obtain ⟨k, v⟩ := c
    simp only [swfFrom, Bool.and_eq_true, decide_eq_true_eq] at h
    simp only [List.takeWhile_cons]
    split
    · simp only [swfFrom, Bool.and_eq_true, decide_eq_true_eq]
      exact ⟨h.1, ih h.2⟩
    · rfl

theorem swfFrom_dropWhile {m : List (Nat × α)} {lo a : Nat} (h : swfFrom d lo m = true) :
    swfFrom d a (m.dropWhile (fun c => decide (c.1 < a))) = true := by
  induction m generalizing lo with
  | nil => rfl
  | cons c t ih =>
    obtain ⟨k, v⟩ := c
    simp only [swfFrom, Bool.and_eq_true, decide_eq_true_eq] at h
    simp only [List.dropWhile_cons]
    split
    · exact ih h.2
    · rename_i ge
      simp only [decide_eq_true_eq, not_lt] at ge
      simp only [swfFrom, Bool.and_eq_true, decide_eq_true_eq]
      exact ⟨⟨ge, h.1.2⟩, h.2⟩

/-- Two canonical lists, all of the first below `a` and none of the second, make a canonical list. -/
theorem swfFrom_append {m n : List (Nat × α)} {lo a : Nat} (hm : swfFrom d lo m = true) (hn : swfFrom d a n = true) (le : lo ≤ a)
    (lt : ∀ c ∈ m, c.1 < a) : swfFrom d lo (m ++ n) = true := by
  induction m generalizing lo with
  | nil => exact swfFrom_mono hn le
  | cons c t ih =>
    obtain ⟨k, v⟩ := c
    simp only [swfFrom, Bool.and_eq_true, decide_eq_true_eq] at hm
    simp only [List.cons_append, swfFrom, Bool.and_eq_true, decide_eq_true_eq]
    have hk := lt (k, v) (List.mem_cons_self ..)
    exact ⟨hm.1, ih hm.2 (by simpa using hk) (fun c hc => lt c (List.mem_cons_of_mem _ hc))⟩

omit [DecidableEq α] in
theorem takeWhile_lt {m : List (Nat × α)} {a : Nat} : ∀ c ∈ m.takeWhile (fun c => decide (c.1 < a)), c.1 < a := by
  intro c hc
  simpa using List.mem_takeWhile_imp hc

theorem swfFrom_cells (bs : Bytes) (a : Nat) : swfFrom Memory.blank a (Memory.cells a bs) = true := by
  induction bs generalizing a with
  | nil => rfl
  | cons b t ih =>
    unfold Memory.cells
    split
    · exact swfFrom_mono (ih (a + 1)) (by omega)
    · rename_i hb
      simp only [swfFrom, Bool.and_eq_true, decide_eq_true_eq]
      exact ⟨⟨le_refl a, hb⟩, ih (a + 1)⟩

theorem cells_lt (bs : Bytes) (a : Nat) : ∀ c ∈ Memory.cells a bs, c.1 < a + bs.length := by
  induction bs generalizing a with
  | nil => intro c hc; simp [Memory.cells] at hc
  | cons b t ih =>
    intro c hc
    unfold Memory.cells at hc
    split at hc
    · have := ih (a + 1) c hc
      simp only [List.length_cons]; omega
    · rcases List.mem_cons.1 hc with h | h
      · subst h; simp only [List.length_cons]; omega
      · have := ih (a + 1) c h
        simp only [List.length_cons]; omega

/-- A write keeps the memory's canonical form. -/
theorem Memory.wf_write {m : Memory} (a : Nat) (bs : Bytes) (h : m.wf = true) : (m.write a bs).wf = true := by
  unfold Memory.wf swf at *
  unfold Memory.write
  apply swfFrom_append (a := a + bs.length) _ (swfFrom_dropWhile h) (by omega)
  · intro c hc
    rcases List.mem_append.1 hc with h' | h'
    · have := takeWhile_lt c h'; omega
    · exact cells_lt bs a c h'
  · exact swfFrom_append (a := a) (swfFrom_takeWhile h) (swfFrom_cells bs a) (by omega) takeWhile_lt

/-- A range cleared keeps the memory's canonical form. -/
theorem Memory.wf_clear {m : Memory} (a n : Nat) (h : m.wf = true) : (m.clear a n).wf = true := by
  unfold Memory.wf swf at *
  unfold Memory.clear
  exact swfFrom_append (a := a + n) (swfFrom_takeWhile h) (swfFrom_dropWhile h) (by omega)
    (fun c hc => by have := takeWhile_lt c hc; omega)

/-- Writes keep the memory's canonical form. -/
theorem Memory.wf_writes {m : Memory} (ws : List (Nat × Bytes)) (h : m.wf = true) : (m.writes ws).wf = true := by
  unfold Memory.writes
  induction ws generalizing m with
  | nil => exact h
  | cons w t ih => exact ih (Memory.wf_write w.1 w.2 h)

omit [DecidableEq α] in
theorem sget_append {m n : List (Nat × α)} {x : Nat} (h : ∀ c ∈ m, c.1 ≠ x) : sget d (m ++ n) x = sget d n x := by
  induction m with
  | nil => rfl
  | cons c t ih =>
    obtain ⟨k, v⟩ := c
    have := h (k, v) (List.mem_cons_self ..)
    simp only [List.cons_append, sget]
    rw [if_neg this]
    exact ih (fun c hc => h c (List.mem_cons_of_mem _ hc))

omit [DecidableEq α] in
theorem sget_append_left {m n : List (Nat × α)} {x : Nat} (h : ∀ c ∈ n, c.1 ≠ x) : sget d (m ++ n) x = sget d m x := by
  induction m with
  | nil =>
    have := sget_append (d := d) (m := n) (n := []) h
    simpa [sget] using this
  | cons c t ih =>
    obtain ⟨k, v⟩ := c
    simp only [List.cons_append, sget, ih]

theorem ge_of_swfFrom {m : List (Nat × α)} {lo : Nat} (h : swfFrom d lo m = true) : ∀ c ∈ m, lo ≤ c.1 := by
  induction m generalizing lo with
  | nil => simp
  | cons c t ih =>
    obtain ⟨k, v⟩ := c
    simp only [swfFrom, Bool.and_eq_true, decide_eq_true_eq] at h
    intro c hc
    rcases List.mem_cons.1 hc with h' | h'
    · subst h'; exact h.1.1
    · have := ih h.2 c h'; omega

omit [DecidableEq α] in
theorem sget_takeWhile {m : List (Nat × α)} {a x : Nat} (lt : x < a) (h : ∀ c ∈ m.dropWhile (fun c => decide (c.1 < a)), a ≤ c.1) :
    sget d (m.takeWhile (fun c => decide (c.1 < a))) x = sget d m x := by
  conv_rhs => rw [← List.takeWhile_append_dropWhile (p := fun c => decide (c.1 < a)) (l := m)]
  exact (sget_append_left (fun c hc => by have := h c hc; omega)).symm

omit [DecidableEq α] in
theorem sget_dropWhile {m : List (Nat × α)} {a x : Nat} (le : a ≤ x) :
    sget d (m.dropWhile (fun c => decide (c.1 < a))) x = sget d m x := by
  conv_rhs => rw [← List.takeWhile_append_dropWhile (p := fun c => decide (c.1 < a)) (l := m)]
  have tl : ∀ c ∈ m.takeWhile (fun c => decide (c.1 < a)), c.1 < a := fun c hc => by simpa using List.mem_takeWhile_imp hc
  exact (sget_append (fun c hc => by have := tl c hc; omega)).symm

/-- A byte outside a write is as it was. -/
theorem Memory.byte_write_out {m : Memory} {a x : Nat} {bs : Bytes} (h : m.wf = true) (out : x < a ∨ a + bs.length ≤ x) :
    (m.write a bs).byte x = m.byte x := by
  unfold Memory.wf swf at h
  have hd : ∀ b, ∀ c ∈ m.dropWhile (fun c => decide (c.1 < b)), b ≤ c.1 := fun b => ge_of_swfFrom (swfFrom_dropWhile (a := b) h)
  unfold Memory.byte Memory.write
  rcases out with lt | ge
  · rw [List.append_assoc, sget_append_left, sget_takeWhile lt (hd a)]
    intro c hc
    rcases List.mem_append.1 hc with h' | h'
    · have := ge_of_swfFrom (swfFrom_cells bs a) c h'; omega
    · have := hd _ c h'; omega
  · rw [sget_append, sget_dropWhile ge]
    intro c hc
    rcases List.mem_append.1 hc with h' | h'
    · have := takeWhile_lt c h'; omega
    · have := cells_lt bs a c h'; omega

theorem sget_cells (bs : Bytes) (a i : Nat) (h : i < bs.length) :
    sget Memory.blank (Memory.cells a bs) (a + i) = bs[i] := by
  induction bs generalizing a i with
  | nil => simp at h
  | cons b t ih =>
    unfold Memory.cells
    cases i with
    | zero =>
      split
      · rename_i hb
        simpa [hb] using sget_below (d := Memory.blank) (swfFrom_cells t (a + 1)) (by omega : a + 0 < a + 1)
      · simp [sget]
    | succ i =>
      have hi : i < t.length := by simpa using h
      have e : a + (i + 1) = (a + 1) + i := by omega
      split
      · rw [e, ih (a + 1) i hi]; rfl
      · rw [sget, if_neg (by omega), e, ih (a + 1) i hi]; rfl

/-- A byte of a write is the byte written. -/
theorem Memory.byte_write_in {m : Memory} {a i : Nat} {bs : Bytes} (h : m.wf = true) (lt : i < bs.length) :
    (m.write a bs).byte (a + i) = bs[i] := by
  unfold Memory.wf swf at h
  unfold Memory.byte Memory.write
  rw [sget_append_left, sget_append, sget_cells bs a i lt]
  · intro c hc
    have := takeWhile_lt c hc; omega
  · intro c hc
    have := ge_of_swfFrom (swfFrom_dropWhile (a := a + bs.length) h) c hc; omega

theorem Memory.readFrom_length (n a : Nat) (m : Memory) : (Memory.readFrom n a m).length = n := by
  induction n generalizing a m with
  | zero => rfl
  | succ n ih =>
    cases m with
    | nil => simp [Memory.readFrom, ih]
    | cons c t =>
      obtain ⟨k, v⟩ := c
      unfold Memory.readFrom
      split <;> simp [ih]

@[simp] theorem Memory.read_length (m : Memory) (a n : Nat) : (m.read a n).length = n := Memory.readFrom_length ..

theorem Memory.readFrom_eq (n a : Nat) (m : Memory) (h : swfFrom Memory.blank a m = true) :
    Memory.readFrom n a m = (List.range n).map (fun i => sget Memory.blank m (a + i)) := by
  induction n generalizing a m with
  | zero => rfl
  | succ n ih =>
    rw [List.range_succ_eq_map, List.map_cons, List.map_map]
    cases m with
    | nil => rw [Memory.readFrom, ih (a + 1) [] rfl]; simp [sget, Function.comp_def]
    | cons c t =>
      obtain ⟨k, v⟩ := c
      have h' := h
      simp only [swfFrom, Bool.and_eq_true, decide_eq_true_eq] at h
      unfold Memory.readFrom
      split
      · rename_i e
        subst e
        rw [ih (k + 1) t h.2]
        congr 1
        · simp [sget]
        · apply List.map_congr_left
          intro i _
          simp only [Function.comp, Nat.succ_eq_add_one]
          rw [show k + (i + 1) = k + 1 + i by omega, sget.eq_2, if_neg (by omega)]
      · rename_i ne
        have hk : a + 1 ≤ k := by omega
        rw [ih (a + 1) ((k, v) :: t) (by simp [swfFrom, h, hk])]
        congr 1
        · rw [Nat.add_zero, sget_below (lo := k) (by simp [swfFrom, h]) (by omega)]
        · apply List.map_congr_left
          intro i _
          simp only [Function.comp, Nat.succ_eq_add_one]
          rw [show a + (i + 1) = a + 1 + i by omega]

/-- Bytes read, one by one. -/
theorem Memory.read_eq {m : Memory} (a n : Nat) (h : m.wf = true) : m.read a n = (List.range n).map (fun i => m.byte (a + i)) := by
  unfold Memory.wf swf at h
  unfold Memory.read Memory.byte
  rw [Memory.readFrom_eq _ _ _ (swfFrom_dropWhile h)]
  apply List.map_congr_left
  intro i _
  exact sget_dropWhile (by omega)

/-- What was written reads back. -/
theorem Memory.read_write_same {m : Memory} {a : Nat} {bs : Bytes} (h : m.wf = true) : (m.write a bs).read a bs.length = bs := by
  rw [Memory.read_eq _ _ (Memory.wf_write a bs h)]
  apply List.ext_getElem
  · simp
  · intro i h1 h2
    simp only [List.getElem_map, List.getElem_range]
    exact Memory.byte_write_in h h2

end Sys2Proof.Machine
end

