-- ==== Sys2Proof/Laws/State.lean ====
section
/-! SUPPORT. What each named update of the state leaves as it was: one lemma per field and update. -/
namespace Sys2Proof.Machine

@[simp] theorem State.irq_pending (s : State) (n : Nat) : (s.irq n).pending = s.pending := rfl
@[simp] theorem State.irq_now (s : State) (n : Nat) : (s.irq n).now = s.now := rfl
@[simp] theorem State.irq_fabric (s : State) (n : Nat) : (s.irq n).fabric = s.fabric := rfl
@[simp] theorem State.irq_free (s : State) (n : Nat) : (s.irq n).free = s.free := rfl
@[simp] theorem State.irq_out (s : State) (n : Nat) : (s.irq n).out = s.out := rfl
@[simp] theorem State.irq_mod (s : State) (n : Nat) : (s.irq n).mod = s.mod := rfl
@[simp] theorem State.irq_wring (s : State) (n : Nat) : (s.irq n).wring = s.wring := rfl
@[simp] theorem State.irq_mem (s : State) (n : Nat) : (s.irq n).mem = s.mem := rfl
@[simp] theorem State.irq_marks (s : State) (n : Nat) : (s.irq n).marks = s.marks := rfl
@[simp] theorem State.irq_ctrs (s : State) (n : Nat) : (s.irq n).ctrs = s.ctrs := rfl
@[simp] theorem State.irq_slots (s : State) (n : Nat) : (s.irq n).slots = s.slots := rfl
@[simp] theorem State.irq_tiles (s : State) (n : Nat) : (s.irq n).tiles = s.tiles := rfl
@[simp] theorem State.irq_parts (s : State) (n : Nat) : (s.irq n).parts = s.parts := rfl
@[simp] theorem State.irq_jobs (s : State) (n : Nat) : (s.irq n).jobs = s.jobs := rfl
@[simp] theorem State.irq_running (s : State) (n : Nat) : (s.irq n).running = s.running := rfl
@[simp] theorem State.irq_sched (s : State) (n : Nat) : (s.irq n).sched = s.sched := rfl
@[simp] theorem State.irq_turns (s : State) (n : Nat) : (s.irq n).turns = s.turns := rfl
@[simp] theorem State.irq_offers (s : State) (n : Nat) : (s.irq n).offers = s.offers := rfl
@[simp] theorem State.irq_lp (s : State) (n : Nat) : (s.irq n).lp = s.lp := rfl
@[simp] theorem State.irq_ports (s : State) (n : Nat) : (s.irq n).ports = s.ports := rfl
@[simp] theorem State.irq_spoke (s : State) (n : Nat) : (s.irq n).spoke = s.spoke := rfl
@[simp] theorem State.irq_dies (s : State) (n : Nat) : (s.irq n).dies = s.dies := rfl
@[simp] theorem State.irq_links (s : State) (n : Nat) : (s.irq n).links = s.links := rfl
@[simp] theorem State.irq_pwr (s : State) (n : Nat) : (s.irq n).pwr = s.pwr := rfl
@[simp] theorem State.irq_mss (s : State) (n : Nat) : (s.irq n).mss = s.mss := rfl

@[simp] theorem State.lastError_pending (s : State) (c e i j : Nat) : (s.lastError c e i j).pending = s.pending := rfl
@[simp] theorem State.lastError_now (s : State) (c e i j : Nat) : (s.lastError c e i j).now = s.now := rfl
@[simp] theorem State.lastError_fabric (s : State) (c e i j : Nat) : (s.lastError c e i j).fabric = s.fabric := rfl
@[simp] theorem State.lastError_free (s : State) (c e i j : Nat) : (s.lastError c e i j).free = s.free := rfl
@[simp] theorem State.lastError_out (s : State) (c e i j : Nat) : (s.lastError c e i j).out = s.out := rfl
@[simp] theorem State.lastError_mod (s : State) (c e i j : Nat) : (s.lastError c e i j).mod = s.mod := rfl
@[simp] theorem State.lastError_wring (s : State) (c e i j : Nat) : (s.lastError c e i j).wring = s.wring := rfl
@[simp] theorem State.lastError_mem (s : State) (c e i j : Nat) : (s.lastError c e i j).mem = s.mem := rfl
@[simp] theorem State.lastError_marks (s : State) (c e i j : Nat) : (s.lastError c e i j).marks = s.marks := rfl
@[simp] theorem State.lastError_ctrs (s : State) (c e i j : Nat) : (s.lastError c e i j).ctrs = s.ctrs := rfl
@[simp] theorem State.lastError_slots (s : State) (c e i j : Nat) : (s.lastError c e i j).slots = s.slots := rfl
@[simp] theorem State.lastError_tiles (s : State) (c e i j : Nat) : (s.lastError c e i j).tiles = s.tiles := rfl
@[simp] theorem State.lastError_parts (s : State) (c e i j : Nat) : (s.lastError c e i j).parts = s.parts := rfl
@[simp] theorem State.lastError_jobs (s : State) (c e i j : Nat) : (s.lastError c e i j).jobs = s.jobs := rfl
@[simp] theorem State.lastError_running (s : State) (c e i j : Nat) : (s.lastError c e i j).running = s.running := rfl
@[simp] theorem State.lastError_sched (s : State) (c e i j : Nat) : (s.lastError c e i j).sched = s.sched := rfl
@[simp] theorem State.lastError_turns (s : State) (c e i j : Nat) : (s.lastError c e i j).turns = s.turns := rfl
@[simp] theorem State.lastError_offers (s : State) (c e i j : Nat) : (s.lastError c e i j).offers = s.offers := rfl
@[simp] theorem State.lastError_lp (s : State) (c e i j : Nat) : (s.lastError c e i j).lp = s.lp := rfl
@[simp] theorem State.lastError_ports (s : State) (c e i j : Nat) : (s.lastError c e i j).ports = s.ports := rfl
@[simp] theorem State.lastError_spoke (s : State) (c e i j : Nat) : (s.lastError c e i j).spoke = s.spoke := rfl
@[simp] theorem State.lastError_dies (s : State) (c e i j : Nat) : (s.lastError c e i j).dies = s.dies := rfl
@[simp] theorem State.lastError_links (s : State) (c e i j : Nat) : (s.lastError c e i j).links = s.links := rfl
@[simp] theorem State.lastError_pwr (s : State) (c e i j : Nat) : (s.lastError c e i j).pwr = s.pwr := rfl
@[simp] theorem State.lastError_mss (s : State) (c e i j : Nat) : (s.lastError c e i j).mss = s.mss := rfl

@[simp] theorem State.logAt_pending (s : State) (c e i j v d : Nat) : (s.logAt c e i j v d).pending = s.pending := rfl
@[simp] theorem State.logAt_now (s : State) (c e i j v d : Nat) : (s.logAt c e i j v d).now = s.now := rfl
@[simp] theorem State.logAt_fabric (s : State) (c e i j v d : Nat) : (s.logAt c e i j v d).fabric = s.fabric := rfl
@[simp] theorem State.logAt_free (s : State) (c e i j v d : Nat) : (s.logAt c e i j v d).free = s.free := rfl
@[simp] theorem State.logAt_out (s : State) (c e i j v d : Nat) : (s.logAt c e i j v d).out = s.out := rfl
@[simp] theorem State.logAt_mod (s : State) (c e i j v d : Nat) : (s.logAt c e i j v d).mod = s.mod := rfl
@[simp] theorem State.logAt_bar (s : State) (c e i j v d : Nat) : (s.logAt c e i j v d).bar = s.bar := rfl
@[simp] theorem State.logAt_wring (s : State) (c e i j v d : Nat) : (s.logAt c e i j v d).wring = s.wring := rfl
@[simp] theorem State.logAt_mem (s : State) (c e i j v d : Nat) : (s.logAt c e i j v d).mem = s.mem := rfl
@[simp] theorem State.logAt_marks (s : State) (c e i j v d : Nat) : (s.logAt c e i j v d).marks = s.marks := rfl
@[simp] theorem State.logAt_ctrs (s : State) (c e i j v d : Nat) : (s.logAt c e i j v d).ctrs = s.ctrs := rfl
@[simp] theorem State.logAt_slots (s : State) (c e i j v d : Nat) : (s.logAt c e i j v d).slots = s.slots := rfl
@[simp] theorem State.logAt_tiles (s : State) (c e i j v d : Nat) : (s.logAt c e i j v d).tiles = s.tiles := rfl
@[simp] theorem State.logAt_parts (s : State) (c e i j v d : Nat) : (s.logAt c e i j v d).parts = s.parts := rfl
@[simp] theorem State.logAt_jobs (s : State) (c e i j v d : Nat) : (s.logAt c e i j v d).jobs = s.jobs := rfl
@[simp] theorem State.logAt_running (s : State) (c e i j v d : Nat) : (s.logAt c e i j v d).running = s.running := rfl
@[simp] theorem State.logAt_sched (s : State) (c e i j v d : Nat) : (s.logAt c e i j v d).sched = s.sched := rfl
@[simp] theorem State.logAt_turns (s : State) (c e i j v d : Nat) : (s.logAt c e i j v d).turns = s.turns := rfl
@[simp] theorem State.logAt_offers (s : State) (c e i j v d : Nat) : (s.logAt c e i j v d).offers = s.offers := rfl
@[simp] theorem State.logAt_lp (s : State) (c e i j v d : Nat) : (s.logAt c e i j v d).lp = s.lp := rfl
@[simp] theorem State.logAt_ports (s : State) (c e i j v d : Nat) : (s.logAt c e i j v d).ports = s.ports := rfl
@[simp] theorem State.logAt_spoke (s : State) (c e i j v d : Nat) : (s.logAt c e i j v d).spoke = s.spoke := rfl
@[simp] theorem State.logAt_dies (s : State) (c e i j v d : Nat) : (s.logAt c e i j v d).dies = s.dies := rfl
@[simp] theorem State.logAt_links (s : State) (c e i j v d : Nat) : (s.logAt c e i j v d).links = s.links := rfl
@[simp] theorem State.logAt_pwr (s : State) (c e i j v d : Nat) : (s.logAt c e i j v d).pwr = s.pwr := rfl

@[simp] theorem State.log_pending (s : State) (c e i j d : Nat) : (s.log c e i j d).pending = s.pending := rfl
@[simp] theorem State.log_now (s : State) (c e i j d : Nat) : (s.log c e i j d).now = s.now := rfl
@[simp] theorem State.log_fabric (s : State) (c e i j d : Nat) : (s.log c e i j d).fabric = s.fabric := rfl
@[simp] theorem State.log_free (s : State) (c e i j d : Nat) : (s.log c e i j d).free = s.free := rfl
@[simp] theorem State.log_out (s : State) (c e i j d : Nat) : (s.log c e i j d).out = s.out := rfl
@[simp] theorem State.log_mod (s : State) (c e i j d : Nat) : (s.log c e i j d).mod = s.mod := rfl
@[simp] theorem State.log_bar (s : State) (c e i j d : Nat) : (s.log c e i j d).bar = s.bar := rfl
@[simp] theorem State.log_wring (s : State) (c e i j d : Nat) : (s.log c e i j d).wring = s.wring := rfl
@[simp] theorem State.log_mem (s : State) (c e i j d : Nat) : (s.log c e i j d).mem = s.mem := rfl
@[simp] theorem State.log_marks (s : State) (c e i j d : Nat) : (s.log c e i j d).marks = s.marks := rfl
@[simp] theorem State.log_ctrs (s : State) (c e i j d : Nat) : (s.log c e i j d).ctrs = s.ctrs := rfl
@[simp] theorem State.log_slots (s : State) (c e i j d : Nat) : (s.log c e i j d).slots = s.slots := rfl
@[simp] theorem State.log_tiles (s : State) (c e i j d : Nat) : (s.log c e i j d).tiles = s.tiles := rfl
@[simp] theorem State.log_parts (s : State) (c e i j d : Nat) : (s.log c e i j d).parts = s.parts := rfl
@[simp] theorem State.log_jobs (s : State) (c e i j d : Nat) : (s.log c e i j d).jobs = s.jobs := rfl
@[simp] theorem State.log_running (s : State) (c e i j d : Nat) : (s.log c e i j d).running = s.running := rfl
@[simp] theorem State.log_sched (s : State) (c e i j d : Nat) : (s.log c e i j d).sched = s.sched := rfl
@[simp] theorem State.log_turns (s : State) (c e i j d : Nat) : (s.log c e i j d).turns = s.turns := rfl
@[simp] theorem State.log_offers (s : State) (c e i j d : Nat) : (s.log c e i j d).offers = s.offers := rfl
@[simp] theorem State.log_lp (s : State) (c e i j d : Nat) : (s.log c e i j d).lp = s.lp := rfl
@[simp] theorem State.log_ports (s : State) (c e i j d : Nat) : (s.log c e i j d).ports = s.ports := rfl
@[simp] theorem State.log_spoke (s : State) (c e i j d : Nat) : (s.log c e i j d).spoke = s.spoke := rfl
@[simp] theorem State.log_dies (s : State) (c e i j d : Nat) : (s.log c e i j d).dies = s.dies := rfl
@[simp] theorem State.log_links (s : State) (c e i j d : Nat) : (s.log c e i j d).links = s.links := rfl
@[simp] theorem State.log_pwr (s : State) (c e i j d : Nat) : (s.log c e i j d).pwr = s.pwr := rfl

@[simp] theorem State.ledger_pending (s : State) (k : Nat) (b : Bytes) : (s.ledger k b).pending = s.pending := rfl
@[simp] theorem State.ledger_now (s : State) (k : Nat) (b : Bytes) : (s.ledger k b).now = s.now := rfl
@[simp] theorem State.ledger_fabric (s : State) (k : Nat) (b : Bytes) : (s.ledger k b).fabric = s.fabric := rfl
@[simp] theorem State.ledger_free (s : State) (k : Nat) (b : Bytes) : (s.ledger k b).free = s.free := rfl
@[simp] theorem State.ledger_out (s : State) (k : Nat) (b : Bytes) : (s.ledger k b).out = s.out := rfl
@[simp] theorem State.ledger_mod (s : State) (k : Nat) (b : Bytes) : (s.ledger k b).mod = s.mod := rfl
@[simp] theorem State.ledger_bar (s : State) (k : Nat) (b : Bytes) : (s.ledger k b).bar = s.bar := rfl
@[simp] theorem State.ledger_wring (s : State) (k : Nat) (b : Bytes) : (s.ledger k b).wring = s.wring := rfl
@[simp] theorem State.ledger_mem (s : State) (k : Nat) (b : Bytes) : (s.ledger k b).mem = s.mem := rfl
@[simp] theorem State.ledger_marks (s : State) (k : Nat) (b : Bytes) : (s.ledger k b).marks = s.marks := rfl
@[simp] theorem State.ledger_ctrs (s : State) (k : Nat) (b : Bytes) : (s.ledger k b).ctrs = s.ctrs := rfl
@[simp] theorem State.ledger_slots (s : State) (k : Nat) (b : Bytes) : (s.ledger k b).slots = s.slots := rfl
@[simp] theorem State.ledger_tiles (s : State) (k : Nat) (b : Bytes) : (s.ledger k b).tiles = s.tiles := rfl
@[simp] theorem State.ledger_parts (s : State) (k : Nat) (b : Bytes) : (s.ledger k b).parts = s.parts := rfl
@[simp] theorem State.ledger_jobs (s : State) (k : Nat) (b : Bytes) : (s.ledger k b).jobs = s.jobs := rfl
@[simp] theorem State.ledger_running (s : State) (k : Nat) (b : Bytes) : (s.ledger k b).running = s.running := rfl
@[simp] theorem State.ledger_sched (s : State) (k : Nat) (b : Bytes) : (s.ledger k b).sched = s.sched := rfl
@[simp] theorem State.ledger_turns (s : State) (k : Nat) (b : Bytes) : (s.ledger k b).turns = s.turns := rfl
@[simp] theorem State.ledger_offers (s : State) (k : Nat) (b : Bytes) : (s.ledger k b).offers = s.offers := rfl
@[simp] theorem State.ledger_lp (s : State) (k : Nat) (b : Bytes) : (s.ledger k b).lp = s.lp := rfl
@[simp] theorem State.ledger_ports (s : State) (k : Nat) (b : Bytes) : (s.ledger k b).ports = s.ports := rfl
@[simp] theorem State.ledger_spoke (s : State) (k : Nat) (b : Bytes) : (s.ledger k b).spoke = s.spoke := rfl
@[simp] theorem State.ledger_dies (s : State) (k : Nat) (b : Bytes) : (s.ledger k b).dies = s.dies := rfl
@[simp] theorem State.ledger_links (s : State) (k : Nat) (b : Bytes) : (s.ledger k b).links = s.links := rfl
@[simp] theorem State.ledger_pwr (s : State) (k : Nat) (b : Bytes) : (s.ledger k b).pwr = s.pwr := rfl

@[simp] theorem State.emit_pending (s : State) (o : Out) : (s.emit o).pending = s.pending := rfl
@[simp] theorem State.emit_now (s : State) (o : Out) : (s.emit o).now = s.now := rfl
@[simp] theorem State.emit_fabric (s : State) (o : Out) : (s.emit o).fabric = s.fabric := rfl
@[simp] theorem State.emit_free (s : State) (o : Out) : (s.emit o).free = s.free := rfl
@[simp] theorem State.emit_mod (s : State) (o : Out) : (s.emit o).mod = s.mod := rfl
@[simp] theorem State.emit_bar (s : State) (o : Out) : (s.emit o).bar = s.bar := rfl
@[simp] theorem State.emit_wring (s : State) (o : Out) : (s.emit o).wring = s.wring := rfl
@[simp] theorem State.emit_mem (s : State) (o : Out) : (s.emit o).mem = s.mem := rfl
@[simp] theorem State.emit_marks (s : State) (o : Out) : (s.emit o).marks = s.marks := rfl
@[simp] theorem State.emit_ctrs (s : State) (o : Out) : (s.emit o).ctrs = s.ctrs := rfl
@[simp] theorem State.emit_slots (s : State) (o : Out) : (s.emit o).slots = s.slots := rfl
@[simp] theorem State.emit_tiles (s : State) (o : Out) : (s.emit o).tiles = s.tiles := rfl
@[simp] theorem State.emit_parts (s : State) (o : Out) : (s.emit o).parts = s.parts := rfl
@[simp] theorem State.emit_jobs (s : State) (o : Out) : (s.emit o).jobs = s.jobs := rfl
@[simp] theorem State.emit_running (s : State) (o : Out) : (s.emit o).running = s.running := rfl
@[simp] theorem State.emit_sched (s : State) (o : Out) : (s.emit o).sched = s.sched := rfl
@[simp] theorem State.emit_turns (s : State) (o : Out) : (s.emit o).turns = s.turns := rfl
@[simp] theorem State.emit_offers (s : State) (o : Out) : (s.emit o).offers = s.offers := rfl
@[simp] theorem State.emit_lp (s : State) (o : Out) : (s.emit o).lp = s.lp := rfl
@[simp] theorem State.emit_ports (s : State) (o : Out) : (s.emit o).ports = s.ports := rfl
@[simp] theorem State.emit_spoke (s : State) (o : Out) : (s.emit o).spoke = s.spoke := rfl
@[simp] theorem State.emit_dies (s : State) (o : Out) : (s.emit o).dies = s.dies := rfl
@[simp] theorem State.emit_links (s : State) (o : Out) : (s.emit o).links = s.links := rfl
@[simp] theorem State.emit_pwr (s : State) (o : Out) : (s.emit o).pwr = s.pwr := rfl
@[simp] theorem State.emit_mss (s : State) (o : Out) : (s.emit o).mss = s.mss := rfl

@[simp] theorem State.setCtr_pending (s : State) (n : Nat) (v : Word32) : (s.setCtr n v).pending = s.pending := rfl
@[simp] theorem State.setCtr_now (s : State) (n : Nat) (v : Word32) : (s.setCtr n v).now = s.now := rfl
@[simp] theorem State.setCtr_fabric (s : State) (n : Nat) (v : Word32) : (s.setCtr n v).fabric = s.fabric := rfl
@[simp] theorem State.setCtr_free (s : State) (n : Nat) (v : Word32) : (s.setCtr n v).free = s.free := rfl
@[simp] theorem State.setCtr_out (s : State) (n : Nat) (v : Word32) : (s.setCtr n v).out = s.out := rfl
@[simp] theorem State.setCtr_mod (s : State) (n : Nat) (v : Word32) : (s.setCtr n v).mod = s.mod := rfl
@[simp] theorem State.setCtr_bar (s : State) (n : Nat) (v : Word32) : (s.setCtr n v).bar = s.bar := rfl
@[simp] theorem State.setCtr_wring (s : State) (n : Nat) (v : Word32) : (s.setCtr n v).wring = s.wring := rfl
@[simp] theorem State.setCtr_mem (s : State) (n : Nat) (v : Word32) : (s.setCtr n v).mem = s.mem := rfl
@[simp] theorem State.setCtr_marks (s : State) (n : Nat) (v : Word32) : (s.setCtr n v).marks = s.marks := rfl
@[simp] theorem State.setCtr_slots (s : State) (n : Nat) (v : Word32) : (s.setCtr n v).slots = s.slots := rfl
@[simp] theorem State.setCtr_tiles (s : State) (n : Nat) (v : Word32) : (s.setCtr n v).tiles = s.tiles := rfl
@[simp] theorem State.setCtr_parts (s : State) (n : Nat) (v : Word32) : (s.setCtr n v).parts = s.parts := rfl
@[simp] theorem State.setCtr_jobs (s : State) (n : Nat) (v : Word32) : (s.setCtr n v).jobs = s.jobs := rfl
@[simp] theorem State.setCtr_running (s : State) (n : Nat) (v : Word32) : (s.setCtr n v).running = s.running := rfl
@[simp] theorem State.setCtr_sched (s : State) (n : Nat) (v : Word32) : (s.setCtr n v).sched = s.sched := rfl
@[simp] theorem State.setCtr_turns (s : State) (n : Nat) (v : Word32) : (s.setCtr n v).turns = s.turns := rfl
@[simp] theorem State.setCtr_offers (s : State) (n : Nat) (v : Word32) : (s.setCtr n v).offers = s.offers := rfl
@[simp] theorem State.setCtr_lp (s : State) (n : Nat) (v : Word32) : (s.setCtr n v).lp = s.lp := rfl
@[simp] theorem State.setCtr_ports (s : State) (n : Nat) (v : Word32) : (s.setCtr n v).ports = s.ports := rfl
@[simp] theorem State.setCtr_spoke (s : State) (n : Nat) (v : Word32) : (s.setCtr n v).spoke = s.spoke := rfl
@[simp] theorem State.setCtr_dies (s : State) (n : Nat) (v : Word32) : (s.setCtr n v).dies = s.dies := rfl
@[simp] theorem State.setCtr_links (s : State) (n : Nat) (v : Word32) : (s.setCtr n v).links = s.links := rfl
@[simp] theorem State.setCtr_pwr (s : State) (n : Nat) (v : Word32) : (s.setCtr n v).pwr = s.pwr := rfl
@[simp] theorem State.setCtr_mss (s : State) (n : Nat) (v : Word32) : (s.setCtr n v).mss = s.mss := rfl

@[simp] theorem State.addCtr_pending (s : State) (n k : Nat) : (s.addCtr n k).pending = s.pending := rfl
@[simp] theorem State.addCtr_now (s : State) (n k : Nat) : (s.addCtr n k).now = s.now := rfl
@[simp] theorem State.addCtr_fabric (s : State) (n k : Nat) : (s.addCtr n k).fabric = s.fabric := rfl
@[simp] theorem State.addCtr_free (s : State) (n k : Nat) : (s.addCtr n k).free = s.free := rfl
@[simp] theorem State.addCtr_out (s : State) (n k : Nat) : (s.addCtr n k).out = s.out := rfl
@[simp] theorem State.addCtr_mod (s : State) (n k : Nat) : (s.addCtr n k).mod = s.mod := rfl
@[simp] theorem State.addCtr_bar (s : State) (n k : Nat) : (s.addCtr n k).bar = s.bar := rfl
@[simp] theorem State.addCtr_wring (s : State) (n k : Nat) : (s.addCtr n k).wring = s.wring := rfl
@[simp] theorem State.addCtr_mem (s : State) (n k : Nat) : (s.addCtr n k).mem = s.mem := rfl
@[simp] theorem State.addCtr_marks (s : State) (n k : Nat) : (s.addCtr n k).marks = s.marks := rfl
@[simp] theorem State.addCtr_slots (s : State) (n k : Nat) : (s.addCtr n k).slots = s.slots := rfl
@[simp] theorem State.addCtr_tiles (s : State) (n k : Nat) : (s.addCtr n k).tiles = s.tiles := rfl
@[simp] theorem State.addCtr_parts (s : State) (n k : Nat) : (s.addCtr n k).parts = s.parts := rfl
@[simp] theorem State.addCtr_jobs (s : State) (n k : Nat) : (s.addCtr n k).jobs = s.jobs := rfl
@[simp] theorem State.addCtr_running (s : State) (n k : Nat) : (s.addCtr n k).running = s.running := rfl
@[simp] theorem State.addCtr_sched (s : State) (n k : Nat) : (s.addCtr n k).sched = s.sched := rfl
@[simp] theorem State.addCtr_turns (s : State) (n k : Nat) : (s.addCtr n k).turns = s.turns := rfl
@[simp] theorem State.addCtr_offers (s : State) (n k : Nat) : (s.addCtr n k).offers = s.offers := rfl
@[simp] theorem State.addCtr_lp (s : State) (n k : Nat) : (s.addCtr n k).lp = s.lp := rfl
@[simp] theorem State.addCtr_ports (s : State) (n k : Nat) : (s.addCtr n k).ports = s.ports := rfl
@[simp] theorem State.addCtr_spoke (s : State) (n k : Nat) : (s.addCtr n k).spoke = s.spoke := rfl
@[simp] theorem State.addCtr_dies (s : State) (n k : Nat) : (s.addCtr n k).dies = s.dies := rfl
@[simp] theorem State.addCtr_links (s : State) (n k : Nat) : (s.addCtr n k).links = s.links := rfl
@[simp] theorem State.addCtr_pwr (s : State) (n k : Nat) : (s.addCtr n k).pwr = s.pwr := rfl
@[simp] theorem State.addCtr_mss (s : State) (n k : Nat) : (s.addCtr n k).mss = s.mss := rfl

@[simp] theorem State.setSlot_pending (s : State) (n : Nat) (v : Slot) : (s.setSlot n v).pending = s.pending := rfl
@[simp] theorem State.setSlot_now (s : State) (n : Nat) (v : Slot) : (s.setSlot n v).now = s.now := rfl
@[simp] theorem State.setSlot_fabric (s : State) (n : Nat) (v : Slot) : (s.setSlot n v).fabric = s.fabric := rfl
@[simp] theorem State.setSlot_free (s : State) (n : Nat) (v : Slot) : (s.setSlot n v).free = s.free := rfl
@[simp] theorem State.setSlot_out (s : State) (n : Nat) (v : Slot) : (s.setSlot n v).out = s.out := rfl
@[simp] theorem State.setSlot_mod (s : State) (n : Nat) (v : Slot) : (s.setSlot n v).mod = s.mod := rfl
@[simp] theorem State.setSlot_bar (s : State) (n : Nat) (v : Slot) : (s.setSlot n v).bar = s.bar := rfl
@[simp] theorem State.setSlot_wring (s : State) (n : Nat) (v : Slot) : (s.setSlot n v).wring = s.wring := rfl
@[simp] theorem State.setSlot_mem (s : State) (n : Nat) (v : Slot) : (s.setSlot n v).mem = s.mem := rfl
@[simp] theorem State.setSlot_marks (s : State) (n : Nat) (v : Slot) : (s.setSlot n v).marks = s.marks := rfl
@[simp] theorem State.setSlot_ctrs (s : State) (n : Nat) (v : Slot) : (s.setSlot n v).ctrs = s.ctrs := rfl
@[simp] theorem State.setSlot_tiles (s : State) (n : Nat) (v : Slot) : (s.setSlot n v).tiles = s.tiles := rfl
@[simp] theorem State.setSlot_parts (s : State) (n : Nat) (v : Slot) : (s.setSlot n v).parts = s.parts := rfl
@[simp] theorem State.setSlot_jobs (s : State) (n : Nat) (v : Slot) : (s.setSlot n v).jobs = s.jobs := rfl
@[simp] theorem State.setSlot_running (s : State) (n : Nat) (v : Slot) : (s.setSlot n v).running = s.running := rfl
@[simp] theorem State.setSlot_sched (s : State) (n : Nat) (v : Slot) : (s.setSlot n v).sched = s.sched := rfl
@[simp] theorem State.setSlot_turns (s : State) (n : Nat) (v : Slot) : (s.setSlot n v).turns = s.turns := rfl
@[simp] theorem State.setSlot_offers (s : State) (n : Nat) (v : Slot) : (s.setSlot n v).offers = s.offers := rfl
@[simp] theorem State.setSlot_lp (s : State) (n : Nat) (v : Slot) : (s.setSlot n v).lp = s.lp := rfl
@[simp] theorem State.setSlot_ports (s : State) (n : Nat) (v : Slot) : (s.setSlot n v).ports = s.ports := rfl
@[simp] theorem State.setSlot_spoke (s : State) (n : Nat) (v : Slot) : (s.setSlot n v).spoke = s.spoke := rfl
@[simp] theorem State.setSlot_dies (s : State) (n : Nat) (v : Slot) : (s.setSlot n v).dies = s.dies := rfl
@[simp] theorem State.setSlot_links (s : State) (n : Nat) (v : Slot) : (s.setSlot n v).links = s.links := rfl
@[simp] theorem State.setSlot_pwr (s : State) (n : Nat) (v : Slot) : (s.setSlot n v).pwr = s.pwr := rfl
@[simp] theorem State.setSlot_mss (s : State) (n : Nat) (v : Slot) : (s.setSlot n v).mss = s.mss := rfl

@[simp] theorem State.mergeAmax_pending (s : State) (n c : Nat) : (s.mergeAmax n c).pending = s.pending := rfl
@[simp] theorem State.mergeAmax_now (s : State) (n c : Nat) : (s.mergeAmax n c).now = s.now := rfl
@[simp] theorem State.mergeAmax_fabric (s : State) (n c : Nat) : (s.mergeAmax n c).fabric = s.fabric := rfl
@[simp] theorem State.mergeAmax_free (s : State) (n c : Nat) : (s.mergeAmax n c).free = s.free := rfl
@[simp] theorem State.mergeAmax_out (s : State) (n c : Nat) : (s.mergeAmax n c).out = s.out := rfl
@[simp] theorem State.mergeAmax_mod (s : State) (n c : Nat) : (s.mergeAmax n c).mod = s.mod := rfl
@[simp] theorem State.mergeAmax_bar (s : State) (n c : Nat) : (s.mergeAmax n c).bar = s.bar := rfl
@[simp] theorem State.mergeAmax_wring (s : State) (n c : Nat) : (s.mergeAmax n c).wring = s.wring := rfl
@[simp] theorem State.mergeAmax_mem (s : State) (n c : Nat) : (s.mergeAmax n c).mem = s.mem := rfl
@[simp] theorem State.mergeAmax_marks (s : State) (n c : Nat) : (s.mergeAmax n c).marks = s.marks := rfl
@[simp] theorem State.mergeAmax_ctrs (s : State) (n c : Nat) : (s.mergeAmax n c).ctrs = s.ctrs := rfl
@[simp] theorem State.mergeAmax_tiles (s : State) (n c : Nat) : (s.mergeAmax n c).tiles = s.tiles := rfl
@[simp] theorem State.mergeAmax_parts (s : State) (n c : Nat) : (s.mergeAmax n c).parts = s.parts := rfl
@[simp] theorem State.mergeAmax_jobs (s : State) (n c : Nat) : (s.mergeAmax n c).jobs = s.jobs := rfl
@[simp] theorem State.mergeAmax_running (s : State) (n c : Nat) : (s.mergeAmax n c).running = s.running := rfl
@[simp] theorem State.mergeAmax_sched (s : State) (n c : Nat) : (s.mergeAmax n c).sched = s.sched := rfl
@[simp] theorem State.mergeAmax_turns (s : State) (n c : Nat) : (s.mergeAmax n c).turns = s.turns := rfl
@[simp] theorem State.mergeAmax_offers (s : State) (n c : Nat) : (s.mergeAmax n c).offers = s.offers := rfl
@[simp] theorem State.mergeAmax_lp (s : State) (n c : Nat) : (s.mergeAmax n c).lp = s.lp := rfl
@[simp] theorem State.mergeAmax_ports (s : State) (n c : Nat) : (s.mergeAmax n c).ports = s.ports := rfl
@[simp] theorem State.mergeAmax_spoke (s : State) (n c : Nat) : (s.mergeAmax n c).spoke = s.spoke := rfl
@[simp] theorem State.mergeAmax_dies (s : State) (n c : Nat) : (s.mergeAmax n c).dies = s.dies := rfl
@[simp] theorem State.mergeAmax_links (s : State) (n c : Nat) : (s.mergeAmax n c).links = s.links := rfl
@[simp] theorem State.mergeAmax_pwr (s : State) (n c : Nat) : (s.mergeAmax n c).pwr = s.pwr := rfl
@[simp] theorem State.mergeAmax_mss (s : State) (n c : Nat) : (s.mergeAmax n c).mss = s.mss := rfl

@[simp] theorem State.updJob_pending (s : State) (i : Nat) (f : Job → Job) : (s.updJob i f).pending = s.pending := rfl
@[simp] theorem State.updJob_now (s : State) (i : Nat) (f : Job → Job) : (s.updJob i f).now = s.now := rfl
@[simp] theorem State.updJob_fabric (s : State) (i : Nat) (f : Job → Job) : (s.updJob i f).fabric = s.fabric := rfl
@[simp] theorem State.updJob_free (s : State) (i : Nat) (f : Job → Job) : (s.updJob i f).free = s.free := rfl
@[simp] theorem State.updJob_out (s : State) (i : Nat) (f : Job → Job) : (s.updJob i f).out = s.out := rfl
@[simp] theorem State.updJob_mod (s : State) (i : Nat) (f : Job → Job) : (s.updJob i f).mod = s.mod := rfl
@[simp] theorem State.updJob_bar (s : State) (i : Nat) (f : Job → Job) : (s.updJob i f).bar = s.bar := rfl
@[simp] theorem State.updJob_wring (s : State) (i : Nat) (f : Job → Job) : (s.updJob i f).wring = s.wring := rfl
@[simp] theorem State.updJob_mem (s : State) (i : Nat) (f : Job → Job) : (s.updJob i f).mem = s.mem := rfl
@[simp] theorem State.updJob_marks (s : State) (i : Nat) (f : Job → Job) : (s.updJob i f).marks = s.marks := rfl
@[simp] theorem State.updJob_ctrs (s : State) (i : Nat) (f : Job → Job) : (s.updJob i f).ctrs = s.ctrs := rfl
@[simp] theorem State.updJob_slots (s : State) (i : Nat) (f : Job → Job) : (s.updJob i f).slots = s.slots := rfl
@[simp] theorem State.updJob_tiles (s : State) (i : Nat) (f : Job → Job) : (s.updJob i f).tiles = s.tiles := rfl
@[simp] theorem State.updJob_parts (s : State) (i : Nat) (f : Job → Job) : (s.updJob i f).parts = s.parts := rfl
@[simp] theorem State.updJob_running (s : State) (i : Nat) (f : Job → Job) : (s.updJob i f).running = s.running := rfl
@[simp] theorem State.updJob_sched (s : State) (i : Nat) (f : Job → Job) : (s.updJob i f).sched = s.sched := rfl
@[simp] theorem State.updJob_turns (s : State) (i : Nat) (f : Job → Job) : (s.updJob i f).turns = s.turns := rfl
@[simp] theorem State.updJob_offers (s : State) (i : Nat) (f : Job → Job) : (s.updJob i f).offers = s.offers := rfl
@[simp] theorem State.updJob_lp (s : State) (i : Nat) (f : Job → Job) : (s.updJob i f).lp = s.lp := rfl
@[simp] theorem State.updJob_ports (s : State) (i : Nat) (f : Job → Job) : (s.updJob i f).ports = s.ports := rfl
@[simp] theorem State.updJob_spoke (s : State) (i : Nat) (f : Job → Job) : (s.updJob i f).spoke = s.spoke := rfl
@[simp] theorem State.updJob_dies (s : State) (i : Nat) (f : Job → Job) : (s.updJob i f).dies = s.dies := rfl
@[simp] theorem State.updJob_links (s : State) (i : Nat) (f : Job → Job) : (s.updJob i f).links = s.links := rfl
@[simp] theorem State.updJob_pwr (s : State) (i : Nat) (f : Job → Job) : (s.updJob i f).pwr = s.pwr := rfl
@[simp] theorem State.updJob_mss (s : State) (i : Nat) (f : Job → Job) : (s.updJob i f).mss = s.mss := rfl

@[simp] theorem State.updChan_pending (s : State) (c : Nat) (f : Channel → Channel) : (s.updChan c f).pending = s.pending := rfl
@[simp] theorem State.updChan_now (s : State) (c : Nat) (f : Channel → Channel) : (s.updChan c f).now = s.now := rfl
@[simp] theorem State.updChan_fabric (s : State) (c : Nat) (f : Channel → Channel) : (s.updChan c f).fabric = s.fabric := rfl
@[simp] theorem State.updChan_free (s : State) (c : Nat) (f : Channel → Channel) : (s.updChan c f).free = s.free := rfl
@[simp] theorem State.updChan_out (s : State) (c : Nat) (f : Channel → Channel) : (s.updChan c f).out = s.out := rfl
@[simp] theorem State.updChan_mod (s : State) (c : Nat) (f : Channel → Channel) : (s.updChan c f).mod = s.mod := rfl
@[simp] theorem State.updChan_bar (s : State) (c : Nat) (f : Channel → Channel) : (s.updChan c f).bar = s.bar := rfl
@[simp] theorem State.updChan_wring (s : State) (c : Nat) (f : Channel → Channel) : (s.updChan c f).wring = s.wring := rfl
@[simp] theorem State.updChan_mem (s : State) (c : Nat) (f : Channel → Channel) : (s.updChan c f).mem = s.mem := rfl
@[simp] theorem State.updChan_marks (s : State) (c : Nat) (f : Channel → Channel) : (s.updChan c f).marks = s.marks := rfl
@[simp] theorem State.updChan_ctrs (s : State) (c : Nat) (f : Channel → Channel) : (s.updChan c f).ctrs = s.ctrs := rfl
@[simp] theorem State.updChan_slots (s : State) (c : Nat) (f : Channel → Channel) : (s.updChan c f).slots = s.slots := rfl
@[simp] theorem State.updChan_tiles (s : State) (c : Nat) (f : Channel → Channel) : (s.updChan c f).tiles = s.tiles := rfl
@[simp] theorem State.updChan_parts (s : State) (c : Nat) (f : Channel → Channel) : (s.updChan c f).parts = s.parts := rfl
@[simp] theorem State.updChan_jobs (s : State) (c : Nat) (f : Channel → Channel) : (s.updChan c f).jobs = s.jobs := rfl
@[simp] theorem State.updChan_running (s : State) (c : Nat) (f : Channel → Channel) : (s.updChan c f).running = s.running := rfl
@[simp] theorem State.updChan_sched (s : State) (c : Nat) (f : Channel → Channel) : (s.updChan c f).sched = s.sched := rfl
@[simp] theorem State.updChan_turns (s : State) (c : Nat) (f : Channel → Channel) : (s.updChan c f).turns = s.turns := rfl
@[simp] theorem State.updChan_offers (s : State) (c : Nat) (f : Channel → Channel) : (s.updChan c f).offers = s.offers := rfl
@[simp] theorem State.updChan_ports (s : State) (c : Nat) (f : Channel → Channel) : (s.updChan c f).ports = s.ports := rfl
@[simp] theorem State.updChan_spoke (s : State) (c : Nat) (f : Channel → Channel) : (s.updChan c f).spoke = s.spoke := rfl
@[simp] theorem State.updChan_dies (s : State) (c : Nat) (f : Channel → Channel) : (s.updChan c f).dies = s.dies := rfl
@[simp] theorem State.updChan_links (s : State) (c : Nat) (f : Channel → Channel) : (s.updChan c f).links = s.links := rfl
@[simp] theorem State.updChan_pwr (s : State) (c : Nat) (f : Channel → Channel) : (s.updChan c f).pwr = s.pwr := rfl
@[simp] theorem State.updChan_mss (s : State) (c : Nat) (f : Channel → Channel) : (s.updChan c f).mss = s.mss := rfl

@[simp] theorem State.updDie_pending (s : State) (d : Nat) (f : Die → Die) : (s.updDie d f).pending = s.pending := rfl
@[simp] theorem State.updDie_now (s : State) (d : Nat) (f : Die → Die) : (s.updDie d f).now = s.now := rfl
@[simp] theorem State.updDie_fabric (s : State) (d : Nat) (f : Die → Die) : (s.updDie d f).fabric = s.fabric := rfl
@[simp] theorem State.updDie_free (s : State) (d : Nat) (f : Die → Die) : (s.updDie d f).free = s.free := rfl
@[simp] theorem State.updDie_out (s : State) (d : Nat) (f : Die → Die) : (s.updDie d f).out = s.out := rfl
@[simp] theorem State.updDie_mod (s : State) (d : Nat) (f : Die → Die) : (s.updDie d f).mod = s.mod := rfl
@[simp] theorem State.updDie_bar (s : State) (d : Nat) (f : Die → Die) : (s.updDie d f).bar = s.bar := rfl
@[simp] theorem State.updDie_wring (s : State) (d : Nat) (f : Die → Die) : (s.updDie d f).wring = s.wring := rfl
@[simp] theorem State.updDie_mem (s : State) (d : Nat) (f : Die → Die) : (s.updDie d f).mem = s.mem := rfl
@[simp] theorem State.updDie_marks (s : State) (d : Nat) (f : Die → Die) : (s.updDie d f).marks = s.marks := rfl
@[simp] theorem State.updDie_ctrs (s : State) (d : Nat) (f : Die → Die) : (s.updDie d f).ctrs = s.ctrs := rfl
@[simp] theorem State.updDie_slots (s : State) (d : Nat) (f : Die → Die) : (s.updDie d f).slots = s.slots := rfl
@[simp] theorem State.updDie_tiles (s : State) (d : Nat) (f : Die → Die) : (s.updDie d f).tiles = s.tiles := rfl
@[simp] theorem State.updDie_parts (s : State) (d : Nat) (f : Die → Die) : (s.updDie d f).parts = s.parts := rfl
@[simp] theorem State.updDie_jobs (s : State) (d : Nat) (f : Die → Die) : (s.updDie d f).jobs = s.jobs := rfl
@[simp] theorem State.updDie_running (s : State) (d : Nat) (f : Die → Die) : (s.updDie d f).running = s.running := rfl
@[simp] theorem State.updDie_sched (s : State) (d : Nat) (f : Die → Die) : (s.updDie d f).sched = s.sched := rfl
@[simp] theorem State.updDie_turns (s : State) (d : Nat) (f : Die → Die) : (s.updDie d f).turns = s.turns := rfl
@[simp] theorem State.updDie_offers (s : State) (d : Nat) (f : Die → Die) : (s.updDie d f).offers = s.offers := rfl
@[simp] theorem State.updDie_lp (s : State) (d : Nat) (f : Die → Die) : (s.updDie d f).lp = s.lp := rfl
@[simp] theorem State.updDie_ports (s : State) (d : Nat) (f : Die → Die) : (s.updDie d f).ports = s.ports := rfl
@[simp] theorem State.updDie_spoke (s : State) (d : Nat) (f : Die → Die) : (s.updDie d f).spoke = s.spoke := rfl
@[simp] theorem State.updDie_links (s : State) (d : Nat) (f : Die → Die) : (s.updDie d f).links = s.links := rfl
@[simp] theorem State.updDie_pwr (s : State) (d : Nat) (f : Die → Die) : (s.updDie d f).pwr = s.pwr := rfl
@[simp] theorem State.updDie_mss (s : State) (d : Nat) (f : Die → Die) : (s.updDie d f).mss = s.mss := rfl

@[simp] theorem State.setPort_pending (s : State) (n : Nat) (p : Port) : (s.setPort n p).pending = s.pending := rfl
@[simp] theorem State.setPort_now (s : State) (n : Nat) (p : Port) : (s.setPort n p).now = s.now := rfl
@[simp] theorem State.setPort_fabric (s : State) (n : Nat) (p : Port) : (s.setPort n p).fabric = s.fabric := rfl
@[simp] theorem State.setPort_free (s : State) (n : Nat) (p : Port) : (s.setPort n p).free = s.free := rfl
@[simp] theorem State.setPort_out (s : State) (n : Nat) (p : Port) : (s.setPort n p).out = s.out := rfl
@[simp] theorem State.setPort_mod (s : State) (n : Nat) (p : Port) : (s.setPort n p).mod = s.mod := rfl
@[simp] theorem State.setPort_bar (s : State) (n : Nat) (p : Port) : (s.setPort n p).bar = s.bar := rfl
@[simp] theorem State.setPort_wring (s : State) (n : Nat) (p : Port) : (s.setPort n p).wring = s.wring := rfl
@[simp] theorem State.setPort_mem (s : State) (n : Nat) (p : Port) : (s.setPort n p).mem = s.mem := rfl
@[simp] theorem State.setPort_marks (s : State) (n : Nat) (p : Port) : (s.setPort n p).marks = s.marks := rfl
@[simp] theorem State.setPort_ctrs (s : State) (n : Nat) (p : Port) : (s.setPort n p).ctrs = s.ctrs := rfl
@[simp] theorem State.setPort_slots (s : State) (n : Nat) (p : Port) : (s.setPort n p).slots = s.slots := rfl
@[simp] theorem State.setPort_tiles (s : State) (n : Nat) (p : Port) : (s.setPort n p).tiles = s.tiles := rfl
@[simp] theorem State.setPort_parts (s : State) (n : Nat) (p : Port) : (s.setPort n p).parts = s.parts := rfl
@[simp] theorem State.setPort_jobs (s : State) (n : Nat) (p : Port) : (s.setPort n p).jobs = s.jobs := rfl
@[simp] theorem State.setPort_running (s : State) (n : Nat) (p : Port) : (s.setPort n p).running = s.running := rfl
@[simp] theorem State.setPort_sched (s : State) (n : Nat) (p : Port) : (s.setPort n p).sched = s.sched := rfl
@[simp] theorem State.setPort_turns (s : State) (n : Nat) (p : Port) : (s.setPort n p).turns = s.turns := rfl
@[simp] theorem State.setPort_offers (s : State) (n : Nat) (p : Port) : (s.setPort n p).offers = s.offers := rfl
@[simp] theorem State.setPort_lp (s : State) (n : Nat) (p : Port) : (s.setPort n p).lp = s.lp := rfl
@[simp] theorem State.setPort_spoke (s : State) (n : Nat) (p : Port) : (s.setPort n p).spoke = s.spoke := rfl
@[simp] theorem State.setPort_dies (s : State) (n : Nat) (p : Port) : (s.setPort n p).dies = s.dies := rfl
@[simp] theorem State.setPort_links (s : State) (n : Nat) (p : Port) : (s.setPort n p).links = s.links := rfl
@[simp] theorem State.setPort_pwr (s : State) (n : Nat) (p : Port) : (s.setPort n p).pwr = s.pwr := rfl
@[simp] theorem State.setPort_mss (s : State) (n : Nat) (p : Port) : (s.setPort n p).mss = s.mss := rfl

@[simp] theorem State.updPort_pending (s : State) (n : Nat) (f : Port → Port) : (s.updPort n f).pending = s.pending := rfl
@[simp] theorem State.updPort_now (s : State) (n : Nat) (f : Port → Port) : (s.updPort n f).now = s.now := rfl
@[simp] theorem State.updPort_fabric (s : State) (n : Nat) (f : Port → Port) : (s.updPort n f).fabric = s.fabric := rfl
@[simp] theorem State.updPort_free (s : State) (n : Nat) (f : Port → Port) : (s.updPort n f).free = s.free := rfl
@[simp] theorem State.updPort_out (s : State) (n : Nat) (f : Port → Port) : (s.updPort n f).out = s.out := rfl
@[simp] theorem State.updPort_mod (s : State) (n : Nat) (f : Port → Port) : (s.updPort n f).mod = s.mod := rfl
@[simp] theorem State.updPort_bar (s : State) (n : Nat) (f : Port → Port) : (s.updPort n f).bar = s.bar := rfl
@[simp] theorem State.updPort_wring (s : State) (n : Nat) (f : Port → Port) : (s.updPort n f).wring = s.wring := rfl
@[simp] theorem State.updPort_mem (s : State) (n : Nat) (f : Port → Port) : (s.updPort n f).mem = s.mem := rfl
@[simp] theorem State.updPort_marks (s : State) (n : Nat) (f : Port → Port) : (s.updPort n f).marks = s.marks := rfl
@[simp] theorem State.updPort_ctrs (s : State) (n : Nat) (f : Port → Port) : (s.updPort n f).ctrs = s.ctrs := rfl
@[simp] theorem State.updPort_slots (s : State) (n : Nat) (f : Port → Port) : (s.updPort n f).slots = s.slots := rfl
@[simp] theorem State.updPort_tiles (s : State) (n : Nat) (f : Port → Port) : (s.updPort n f).tiles = s.tiles := rfl
@[simp] theorem State.updPort_parts (s : State) (n : Nat) (f : Port → Port) : (s.updPort n f).parts = s.parts := rfl
@[simp] theorem State.updPort_jobs (s : State) (n : Nat) (f : Port → Port) : (s.updPort n f).jobs = s.jobs := rfl
@[simp] theorem State.updPort_running (s : State) (n : Nat) (f : Port → Port) : (s.updPort n f).running = s.running := rfl
@[simp] theorem State.updPort_sched (s : State) (n : Nat) (f : Port → Port) : (s.updPort n f).sched = s.sched := rfl
@[simp] theorem State.updPort_turns (s : State) (n : Nat) (f : Port → Port) : (s.updPort n f).turns = s.turns := rfl
@[simp] theorem State.updPort_offers (s : State) (n : Nat) (f : Port → Port) : (s.updPort n f).offers = s.offers := rfl
@[simp] theorem State.updPort_lp (s : State) (n : Nat) (f : Port → Port) : (s.updPort n f).lp = s.lp := rfl
@[simp] theorem State.updPort_spoke (s : State) (n : Nat) (f : Port → Port) : (s.updPort n f).spoke = s.spoke := rfl
@[simp] theorem State.updPort_dies (s : State) (n : Nat) (f : Port → Port) : (s.updPort n f).dies = s.dies := rfl
@[simp] theorem State.updPort_links (s : State) (n : Nat) (f : Port → Port) : (s.updPort n f).links = s.links := rfl
@[simp] theorem State.updPort_pwr (s : State) (n : Nat) (f : Port → Port) : (s.updPort n f).pwr = s.pwr := rfl
@[simp] theorem State.updPort_mss (s : State) (n : Nat) (f : Port → Port) : (s.updPort n f).mss = s.mss := rfl

@[simp] theorem State.setMark_pending (s : State) (u : Nat) (m : Mark) : (s.setMark u m).pending = s.pending := rfl
@[simp] theorem State.setMark_now (s : State) (u : Nat) (m : Mark) : (s.setMark u m).now = s.now := rfl
@[simp] theorem State.setMark_fabric (s : State) (u : Nat) (m : Mark) : (s.setMark u m).fabric = s.fabric := rfl
@[simp] theorem State.setMark_free (s : State) (u : Nat) (m : Mark) : (s.setMark u m).free = s.free := rfl
@[simp] theorem State.setMark_out (s : State) (u : Nat) (m : Mark) : (s.setMark u m).out = s.out := rfl
@[simp] theorem State.setMark_mod (s : State) (u : Nat) (m : Mark) : (s.setMark u m).mod = s.mod := rfl
@[simp] theorem State.setMark_bar (s : State) (u : Nat) (m : Mark) : (s.setMark u m).bar = s.bar := rfl
@[simp] theorem State.setMark_wring (s : State) (u : Nat) (m : Mark) : (s.setMark u m).wring = s.wring := rfl
@[simp] theorem State.setMark_mem (s : State) (u : Nat) (m : Mark) : (s.setMark u m).mem = s.mem := rfl
@[simp] theorem State.setMark_ctrs (s : State) (u : Nat) (m : Mark) : (s.setMark u m).ctrs = s.ctrs := rfl
@[simp] theorem State.setMark_slots (s : State) (u : Nat) (m : Mark) : (s.setMark u m).slots = s.slots := rfl
@[simp] theorem State.setMark_tiles (s : State) (u : Nat) (m : Mark) : (s.setMark u m).tiles = s.tiles := rfl
@[simp] theorem State.setMark_parts (s : State) (u : Nat) (m : Mark) : (s.setMark u m).parts = s.parts := rfl
@[simp] theorem State.setMark_jobs (s : State) (u : Nat) (m : Mark) : (s.setMark u m).jobs = s.jobs := rfl
@[simp] theorem State.setMark_running (s : State) (u : Nat) (m : Mark) : (s.setMark u m).running = s.running := rfl
@[simp] theorem State.setMark_sched (s : State) (u : Nat) (m : Mark) : (s.setMark u m).sched = s.sched := rfl
@[simp] theorem State.setMark_turns (s : State) (u : Nat) (m : Mark) : (s.setMark u m).turns = s.turns := rfl
@[simp] theorem State.setMark_offers (s : State) (u : Nat) (m : Mark) : (s.setMark u m).offers = s.offers := rfl
@[simp] theorem State.setMark_lp (s : State) (u : Nat) (m : Mark) : (s.setMark u m).lp = s.lp := rfl
@[simp] theorem State.setMark_ports (s : State) (u : Nat) (m : Mark) : (s.setMark u m).ports = s.ports := rfl
@[simp] theorem State.setMark_spoke (s : State) (u : Nat) (m : Mark) : (s.setMark u m).spoke = s.spoke := rfl
@[simp] theorem State.setMark_dies (s : State) (u : Nat) (m : Mark) : (s.setMark u m).dies = s.dies := rfl
@[simp] theorem State.setMark_links (s : State) (u : Nat) (m : Mark) : (s.setMark u m).links = s.links := rfl
@[simp] theorem State.setMark_pwr (s : State) (u : Nat) (m : Mark) : (s.setMark u m).pwr = s.pwr := rfl
@[simp] theorem State.setMark_mss (s : State) (u : Nat) (m : Mark) : (s.setMark u m).mss = s.mss := rfl

@[simp] theorem State.takeTurn_pending (s : State) (r : QRef) : (s.takeTurn r).pending = s.pending := by unfold State.takeTurn; split <;> rfl
@[simp] theorem State.takeTurn_now (s : State) (r : QRef) : (s.takeTurn r).now = s.now := by unfold State.takeTurn; split <;> rfl
@[simp] theorem State.takeTurn_fabric (s : State) (r : QRef) : (s.takeTurn r).fabric = s.fabric := by unfold State.takeTurn; split <;> rfl
@[simp] theorem State.takeTurn_free (s : State) (r : QRef) : (s.takeTurn r).free = s.free := by unfold State.takeTurn; split <;> rfl
@[simp] theorem State.takeTurn_out (s : State) (r : QRef) : (s.takeTurn r).out = s.out := by unfold State.takeTurn; split <;> rfl
@[simp] theorem State.takeTurn_mod (s : State) (r : QRef) : (s.takeTurn r).mod = s.mod := by unfold State.takeTurn; split <;> rfl
@[simp] theorem State.takeTurn_bar (s : State) (r : QRef) : (s.takeTurn r).bar = s.bar := by unfold State.takeTurn; split <;> rfl
@[simp] theorem State.takeTurn_wring (s : State) (r : QRef) : (s.takeTurn r).wring = s.wring := by unfold State.takeTurn; split <;> rfl
@[simp] theorem State.takeTurn_mem (s : State) (r : QRef) : (s.takeTurn r).mem = s.mem := by unfold State.takeTurn; split <;> rfl
@[simp] theorem State.takeTurn_marks (s : State) (r : QRef) : (s.takeTurn r).marks = s.marks := by unfold State.takeTurn; split <;> rfl
@[simp] theorem State.takeTurn_ctrs (s : State) (r : QRef) : (s.takeTurn r).ctrs = s.ctrs := by unfold State.takeTurn; split <;> rfl
@[simp] theorem State.takeTurn_slots (s : State) (r : QRef) : (s.takeTurn r).slots = s.slots := by unfold State.takeTurn; split <;> rfl
@[simp] theorem State.takeTurn_tiles (s : State) (r : QRef) : (s.takeTurn r).tiles = s.tiles := by unfold State.takeTurn; split <;> rfl
@[simp] theorem State.takeTurn_parts (s : State) (r : QRef) : (s.takeTurn r).parts = s.parts := by unfold State.takeTurn; split <;> rfl
@[simp] theorem State.takeTurn_jobs (s : State) (r : QRef) : (s.takeTurn r).jobs = s.jobs := by unfold State.takeTurn; split <;> rfl
@[simp] theorem State.takeTurn_running (s : State) (r : QRef) : (s.takeTurn r).running = s.running := by unfold State.takeTurn; split <;> rfl
@[simp] theorem State.takeTurn_sched (s : State) (r : QRef) : (s.takeTurn r).sched = s.sched := by unfold State.takeTurn; split <;> rfl
@[simp] theorem State.takeTurn_offers (s : State) (r : QRef) : (s.takeTurn r).offers = s.offers := by unfold State.takeTurn; split <;> rfl
@[simp] theorem State.takeTurn_lp (s : State) (r : QRef) : (s.takeTurn r).lp = s.lp := by unfold State.takeTurn; split <;> rfl
@[simp] theorem State.takeTurn_ports (s : State) (r : QRef) : (s.takeTurn r).ports = s.ports := by unfold State.takeTurn; split <;> rfl
@[simp] theorem State.takeTurn_spoke (s : State) (r : QRef) : (s.takeTurn r).spoke = s.spoke := by unfold State.takeTurn; split <;> rfl
@[simp] theorem State.takeTurn_dies (s : State) (r : QRef) : (s.takeTurn r).dies = s.dies := by unfold State.takeTurn; split <;> rfl
@[simp] theorem State.takeTurn_links (s : State) (r : QRef) : (s.takeTurn r).links = s.links := by unfold State.takeTurn; split <;> rfl
@[simp] theorem State.takeTurn_pwr (s : State) (r : QRef) : (s.takeTurn r).pwr = s.pwr := by unfold State.takeTurn; split <;> rfl
@[simp] theorem State.takeTurn_mss (s : State) (r : QRef) : (s.takeTurn r).mss = s.mss := by unfold State.takeTurn; split <;> rfl

@[simp] theorem State.draw_pending (s : State) : s.draw.2.pending = s.pending := rfl
@[simp] theorem State.drawBytes_pending (s : State) (n : Nat) : (s.drawBytes n).2.pending = s.pending := rfl
@[simp] theorem State.draw_now (s : State) : s.draw.2.now = s.now := rfl
@[simp] theorem State.drawBytes_now (s : State) (n : Nat) : (s.drawBytes n).2.now = s.now := rfl
@[simp] theorem State.draw_fabric (s : State) : s.draw.2.fabric = s.fabric := rfl
@[simp] theorem State.drawBytes_fabric (s : State) (n : Nat) : (s.drawBytes n).2.fabric = s.fabric := rfl
@[simp] theorem State.draw_out (s : State) : s.draw.2.out = s.out := rfl
@[simp] theorem State.drawBytes_out (s : State) (n : Nat) : (s.drawBytes n).2.out = s.out := rfl
@[simp] theorem State.draw_mod (s : State) : s.draw.2.mod = s.mod := rfl
@[simp] theorem State.drawBytes_mod (s : State) (n : Nat) : (s.drawBytes n).2.mod = s.mod := rfl
@[simp] theorem State.draw_bar (s : State) : s.draw.2.bar = s.bar := rfl
@[simp] theorem State.drawBytes_bar (s : State) (n : Nat) : (s.drawBytes n).2.bar = s.bar := rfl
@[simp] theorem State.draw_wring (s : State) : s.draw.2.wring = s.wring := rfl
@[simp] theorem State.drawBytes_wring (s : State) (n : Nat) : (s.drawBytes n).2.wring = s.wring := rfl
@[simp] theorem State.draw_mem (s : State) : s.draw.2.mem = s.mem := rfl
@[simp] theorem State.drawBytes_mem (s : State) (n : Nat) : (s.drawBytes n).2.mem = s.mem := rfl
@[simp] theorem State.draw_marks (s : State) : s.draw.2.marks = s.marks := rfl
@[simp] theorem State.drawBytes_marks (s : State) (n : Nat) : (s.drawBytes n).2.marks = s.marks := rfl
@[simp] theorem State.draw_ctrs (s : State) : s.draw.2.ctrs = s.ctrs := rfl
@[simp] theorem State.drawBytes_ctrs (s : State) (n : Nat) : (s.drawBytes n).2.ctrs = s.ctrs := rfl
@[simp] theorem State.draw_slots (s : State) : s.draw.2.slots = s.slots := rfl
@[simp] theorem State.drawBytes_slots (s : State) (n : Nat) : (s.drawBytes n).2.slots = s.slots := rfl
@[simp] theorem State.draw_tiles (s : State) : s.draw.2.tiles = s.tiles := rfl
@[simp] theorem State.drawBytes_tiles (s : State) (n : Nat) : (s.drawBytes n).2.tiles = s.tiles := rfl
@[simp] theorem State.draw_parts (s : State) : s.draw.2.parts = s.parts := rfl
@[simp] theorem State.drawBytes_parts (s : State) (n : Nat) : (s.drawBytes n).2.parts = s.parts := rfl
@[simp] theorem State.draw_jobs (s : State) : s.draw.2.jobs = s.jobs := rfl
@[simp] theorem State.drawBytes_jobs (s : State) (n : Nat) : (s.drawBytes n).2.jobs = s.jobs := rfl
@[simp] theorem State.draw_running (s : State) : s.draw.2.running = s.running := rfl
@[simp] theorem State.drawBytes_running (s : State) (n : Nat) : (s.drawBytes n).2.running = s.running := rfl
@[simp] theorem State.draw_sched (s : State) : s.draw.2.sched = s.sched := rfl
@[simp] theorem State.drawBytes_sched (s : State) (n : Nat) : (s.drawBytes n).2.sched = s.sched := rfl
@[simp] theorem State.draw_turns (s : State) : s.draw.2.turns = s.turns := rfl
@[simp] theorem State.drawBytes_turns (s : State) (n : Nat) : (s.drawBytes n).2.turns = s.turns := rfl
@[simp] theorem State.draw_offers (s : State) : s.draw.2.offers = s.offers := rfl
@[simp] theorem State.drawBytes_offers (s : State) (n : Nat) : (s.drawBytes n).2.offers = s.offers := rfl
@[simp] theorem State.draw_lp (s : State) : s.draw.2.lp = s.lp := rfl
@[simp] theorem State.drawBytes_lp (s : State) (n : Nat) : (s.drawBytes n).2.lp = s.lp := rfl
@[simp] theorem State.draw_ports (s : State) : s.draw.2.ports = s.ports := rfl
@[simp] theorem State.drawBytes_ports (s : State) (n : Nat) : (s.drawBytes n).2.ports = s.ports := rfl
@[simp] theorem State.draw_spoke (s : State) : s.draw.2.spoke = s.spoke := rfl
@[simp] theorem State.drawBytes_spoke (s : State) (n : Nat) : (s.drawBytes n).2.spoke = s.spoke := rfl
@[simp] theorem State.draw_dies (s : State) : s.draw.2.dies = s.dies := rfl
@[simp] theorem State.drawBytes_dies (s : State) (n : Nat) : (s.drawBytes n).2.dies = s.dies := rfl
@[simp] theorem State.draw_links (s : State) : s.draw.2.links = s.links := rfl
@[simp] theorem State.drawBytes_links (s : State) (n : Nat) : (s.drawBytes n).2.links = s.links := rfl
@[simp] theorem State.draw_pwr (s : State) : s.draw.2.pwr = s.pwr := rfl
@[simp] theorem State.drawBytes_pwr (s : State) (n : Nat) : (s.drawBytes n).2.pwr = s.pwr := rfl
@[simp] theorem State.draw_mss (s : State) : s.draw.2.mss = s.mss := rfl
@[simp] theorem State.drawBytes_mss (s : State) (n : Nat) : (s.drawBytes n).2.mss = s.mss := rfl
@[simp] theorem settle_now (a b : State) : (settle a b).now = b.now := rfl
@[simp] theorem settle_fabric (a b : State) : (settle a b).fabric = b.fabric := rfl
@[simp] theorem settle_free (a b : State) : (settle a b).free = b.free := rfl
@[simp] theorem settle_mod (a b : State) : (settle a b).mod = b.mod := rfl
@[simp] theorem settle_bar (a b : State) : (settle a b).bar = b.bar := rfl
@[simp] theorem settle_wring (a b : State) : (settle a b).wring = b.wring := rfl
@[simp] theorem settle_mem (a b : State) : (settle a b).mem = b.mem := rfl
@[simp] theorem settle_marks (a b : State) : (settle a b).marks = b.marks := rfl
@[simp] theorem settle_ctrs (a b : State) : (settle a b).ctrs = b.ctrs := rfl
@[simp] theorem settle_slots (a b : State) : (settle a b).slots = b.slots := rfl
@[simp] theorem settle_tiles (a b : State) : (settle a b).tiles = b.tiles := rfl
@[simp] theorem settle_parts (a b : State) : (settle a b).parts = b.parts := rfl
@[simp] theorem settle_jobs (a b : State) : (settle a b).jobs = b.jobs := rfl
@[simp] theorem settle_running (a b : State) : (settle a b).running = b.running := rfl
@[simp] theorem settle_sched (a b : State) : (settle a b).sched = b.sched := rfl
@[simp] theorem settle_turns (a b : State) : (settle a b).turns = b.turns := rfl
@[simp] theorem settle_offers (a b : State) : (settle a b).offers = b.offers := rfl
@[simp] theorem settle_lp (a b : State) : (settle a b).lp = b.lp := rfl
@[simp] theorem settle_ports (a b : State) : (settle a b).ports = b.ports := rfl
@[simp] theorem settle_spoke (a b : State) : (settle a b).spoke = b.spoke := rfl
@[simp] theorem settle_dies (a b : State) : (settle a b).dies = b.dies := rfl
@[simp] theorem settle_links (a b : State) : (settle a b).links = b.links := rfl
@[simp] theorem settle_pwr (a b : State) : (settle a b).pwr = b.pwr := rfl
@[simp] theorem settle_mss (a b : State) : (settle a b).mss = b.mss := rfl
@[simp] theorem settle_pending (a b : State) : (settle a b).pending = a.pending := rfl

/-! Updates whose own field is named. -/
@[simp] theorem State.logAt_logQ (s : State) (c e i j v d : Nat) :
    (s.logAt c e i j v d).mss.logQ = s.mss.logQ ++ [⟨s.now, c, e, i, j, v, d⟩] := rfl
@[simp] theorem State.log_logQ (s : State) (c e i j d : Nat) :
    (s.log c e i j d).mss.logQ = s.mss.logQ ++ [⟨s.now, c, e, i, j, 0, d⟩] := rfl
@[simp] theorem State.setCtr_ctrs (s : State) (n : Nat) (v : Word32) : (s.setCtr n v).ctrs = sput 0 s.ctrs n v := rfl
@[simp] theorem State.irq_irqStatus (s : State) (n : Nat) : (s.irq n).bar.irqStatus = s.bar.irqStatus ||| (1#8 <<< n) := rfl
@[simp] theorem State.updPort_ports (s : State) (n : Nat) (f : Port → Port) :
    (s.updPort n f).ports = s.ports.set n (f (s.port n)) := rfl
@[simp] theorem State.updDie_dies (s : State) (d : Nat) (f : Die → Die) :
    (s.updDie d f).dies = s.dies.mapIdx (fun i x => if i = d then f x else x) := rfl
@[simp] theorem State.emit_out (s : State) (o : Out) : (s.emit o).out = s.out ++ [o] := rfl
@[simp] theorem State.updJob_jobs (s : State) (i : Nat) (f : Job → Job) :
    (s.updJob i f).jobs = s.jobs.map (fun j => if j.id == i then f j else j) := rfl

end Sys2Proof.Machine
end

