-- ==== Sys2Proof/Laws/Ops.lean ====
section
/-! SUPPORT. What the shared operations can do, said once for each: memory and marks, interrupts and counts, signals, jobs and their
queues, reports, rejections and completions. -/
namespace Sys2Proof.Machine

/-! ## The end of a command -/

@[simp] theorem msixRaised_self (a m : BitVec 8) : msixRaised a m a m = [] := by simp [msixRaised]

/-- A command that changes nothing answers the state as it is. -/
@[simp] theorem settle_self (s : State) : settle s s = s := by simp [settle]

@[simp] theorem done_self (s : State) : done s s = .next s := by simp [done]

theorem done_eq (a b : State) : done a b = .next (settle a b) := rfl

/-! ## Marks and memory -/

theorem State.setMark_eq (s : State) (u : Nat) (m : Mark) : ∃ ms, s.setMark u m = { s with marks := ms } := ⟨_, rfl⟩

theorem State.unwipe_eq (s : State) (a n : Nat) : ∃ ms, s.unwipe a n = { s with marks := ms } := by
  unfold State.unwipe
  split
  · exact ⟨s.marks, rfl⟩
  · suffices h : ∀ (l : List Nat) (t : State), (∃ ms, t = { s with marks := ms }) →
        ∃ ms, l.foldl (fun s u => if inside (u * 64) 64 a n && (s.wipedBy u).isSome then s.setMark u .clean else s) t =
          { s with marks := ms } from h _ s ⟨s.marks, rfl⟩
    intro l
    induction l with
    | nil => intro t ht; exact ht
    | cons u l ih =>
      rintro t ⟨ms, rfl⟩
      apply ih
      beta_reduce
      split
      · exact ⟨_, rfl⟩
      · exact ⟨_, rfl⟩

theorem State.marksAfter_eq (s : State) (a n : Nat) : ∃ ms, s.marksAfter a n = { s with marks := ms } := by
  unfold State.marksAfter
  suffices h : ∀ (g : Nat × Mark → Mark) (l : List (Nat × Mark)) (t : State), (∃ ms, t = { s with marks := ms }) →
      ∃ ms, (l.foldl (fun s m => s.setMark m.1 (g m)) t).unwipe a n = { s with marks := ms } from h _ _ s ⟨s.marks, rfl⟩
  intro g
  intro l
  induction l with
  | nil =>
    rintro t ⟨ms, rfl⟩
    obtain ⟨ms', e⟩ := State.unwipe_eq { s with marks := ms } a n
    exact ⟨ms', e⟩
  | cons m l ih =>
    rintro t ⟨ms, rfl⟩
    exact ih _ ⟨_, rfl⟩

theorem State.write_eq (s : State) (a : Nat) (bs : Bytes) : ∃ ms, s.write a bs = { s with mem := s.mem.write a bs, marks := ms } := by
  obtain ⟨ms, h⟩ := s.marksAfter_eq a bs.length
  exact ⟨ms, by unfold State.write; rw [h]⟩

@[simp] theorem State.write_mem (s : State) (a : Nat) (bs : Bytes) : (s.write a bs).mem = s.mem.write a bs := rfl

/-- A record or copy stored: memory and its marks, and the write queues of its channels. -/
theorem State.store_eq (s : State) (a : Nat) (bs : Bytes) : ∃ ms cs, s.store a bs =
    { s with mem := s.mem.write a bs, marks := ms, lp := { s.lp with channels := cs } } := by
  obtain ⟨ms, h⟩ := s.write_eq a bs
  exact ⟨ms, _, by unfold State.store; rw [h]; rfl⟩

theorem State.writes_eq (s : State) (ws : List (Nat × Bytes)) :
    ∃ ms, s.writes ws = { s with mem := s.mem.writes ws, marks := ms } := by
  unfold State.writes Memory.writes
  suffices h : ∀ (l : List (Nat × Bytes)) (t : State) (m : Memory), (∃ ms, t = { s with mem := m, marks := ms }) →
      ∃ ms, l.foldl (fun s w => s.write w.1 w.2) t = { s with mem := l.foldl (fun m w => m.write w.1 w.2) m, marks := ms } from
    h ws s s.mem ⟨s.marks, rfl⟩
  intro l
  induction l with
  | nil => intro t m ht; exact ht
  | cons w l ih =>
    rintro t m ⟨ms, rfl⟩
    obtain ⟨ms', h'⟩ := State.write_eq { s with mem := m, marks := ms } w.1 w.2
    exact ih _ _ ⟨ms', h'⟩

theorem State.poisonUnits_eq (s : State) (us : List Nat) : ∃ ms, s.poisonUnits us = { s with marks := ms } := by
  unfold State.poisonUnits
  suffices h : ∀ (l : List Nat) (t : State), (∃ ms, t = { s with marks := ms }) →
      ∃ ms, l.foldl (fun s u => s.setMark u .poison) t = { s with marks := ms } from h us s ⟨s.marks, rfl⟩
  intro l
  induction l with
  | nil => intro t ht; exact ht
  | cons u l ih => rintro t ⟨ms, rfl⟩; exact ih _ ⟨_, rfl⟩

theorem State.rowDue_eq (s : State) (a : Nat) : ∃ fs, s.rowDue a = { s with lp := { s.lp with failing := fs } } := by
  unfold State.rowDue
  split
  · split
    · exact ⟨s.lp.failing, rfl⟩
    · exact ⟨_, rfl⟩
  · exact ⟨s.lp.failing, rfl⟩

/-- Reading bad units only marks, logs, and makes their rows' remaps due. -/
theorem State.meetBad_eq (s : State) (job : Nat) (us : List (Nat × Mark)) :
    ∃ ms lq fs, s.meetBad job us =
      { s with marks := ms, mss := { s.mss with logQ := lq }, lp := { s.lp with failing := fs } } := by
  unfold State.meetBad
  suffices h : ∀ (l : List (Nat × Mark)) (t : State),
      (∃ ms lq fs, t = { s with marks := ms, mss := { s.mss with logQ := lq }, lp := { s.lp with failing := fs } }) →
      ∃ ms lq fs, l.foldl (fun s u => if u.2 = Mark.uncorr then
        (((s.log eUncorr 7 (s.faultChannel (u.1 * 64)) job (s.memDetail (u.1 * 64)))).poisonUnits [u.1]).rowDue (u.1 * 64) else s) t =
        { s with marks := ms, mss := { s.mss with logQ := lq }, lp := { s.lp with failing := fs } } from
    h us s ⟨s.marks, s.mss.logQ, s.lp.failing, rfl⟩
  intro l
  induction l with
  | nil => intro t ht; exact ht
  | cons u l ih =>
    rintro t ⟨ms, lq, fs, rfl⟩
    apply ih
    beta_reduce
    split
    · obtain ⟨g, e⟩ := State.rowDue_eq _ (u.1 * 64)
      exact ⟨_, _, g, e.trans rfl⟩
    · exact ⟨_, _, _, rfl⟩

/-- Bytes committed: memory written, marks moved, nothing else. -/
theorem State.commit_eq (s : State) (ws : List (Nat × Bytes)) :
    ∃ ms, (s.commit ws).1 = { s with mem := s.mem.writes ws, marks := ms } := by
  unfold State.commit
  obtain ⟨ms, e⟩ := s.writes_eq ws
  rw [e]
  simp only
  generalize (List.filter _ _ : List (Nat × Mark)) = l
  suffices h : ∀ t : State, (∃ ms, t = { s with mem := s.mem.writes ws, marks := ms }) →
      ∃ ms, l.foldl (fun s m => s.setMark m.1 .clean) t = { s with mem := s.mem.writes ws, marks := ms } from h _ ⟨ms, rfl⟩
  induction l with
  | nil => intro t ht; exact ht
  | cons m l ih => rintro t ⟨ms', rfl⟩; exact ih _ ⟨_, rfl⟩

/-- Every write of the state keeps its memory canonical. -/
theorem State.wf_write (s : State) (a : Nat) (bs : Bytes) (h : s.mem.wf = true) : (s.write a bs).mem.wf = true :=
  Memory.wf_write a bs h

theorem State.wf_writes (s : State) (ws : List (Nat × Bytes)) (h : s.mem.wf = true) : (s.writes ws).mem.wf = true := by
  obtain ⟨ms, e⟩ := s.writes_eq ws
  rw [e]
  exact Memory.wf_writes ws h

theorem State.wf_commit (s : State) (ws : List (Nat × Bytes)) (h : s.mem.wf = true) : (s.commit ws).1.mem.wf = true := by
  obtain ⟨ms, e⟩ := s.commit_eq ws
  rw [e]
  exact Memory.wf_writes ws h

/-- A byte outside a write reads as before. -/
theorem State.byte_write_out (s : State) {a x : Nat} {bs : Bytes} (h : s.mem.wf = true) (out : x < a ∨ a + bs.length ≤ x) :
    (s.write a bs).mem.byte x = s.mem.byte x := Memory.byte_write_out h out

@[simp] theorem State.read_length (s : State) (a n : Nat) : (s.read a n).length = n := by
  unfold State.read
  split
  · exact Memory.read_length ..
  · simp

/-! ## Counts, causes, signals -/

theorem State.countClass_eq (s : State) (c : Nat) : ∃ l, s.countClass c = { s with bar := { s.bar with counts := l } } := by
  unfold State.countClass
  simp only
  split
  · exact ⟨s.bar.counts, rfl⟩
  · exact ⟨_, rfl⟩

theorem State.signal_eq (s : State) (op c v : Nat) : ∃ l, s.signal op c v = { s with ctrs := l } := by
  unfold State.signal
  split
  · exact ⟨_, rfl⟩
  · exact ⟨_, rfl⟩
  · exact ⟨s.ctrs, rfl⟩

@[simp] theorem State.signal_none (s : State) (c v : Nat) : s.signal 0 c v = s := rfl

/-- A counter set reads as set; every other counter as before. -/
theorem State.ctr_setCtr_same (s : State) (n : Nat) (v : Word32) (h : swf 0 s.ctrs = true) : (s.setCtr n v).ctr n = v :=
  sget_sput_same h

theorem State.ctr_setCtr_other (s : State) {n m : Nat} (v : Word32) (ne : m ≠ n) : (s.setCtr n v).ctr m = s.ctr m :=
  sget_sput_other ne

/-- The module enters a state: its log, its causes, its state and its TAP, nothing else. -/
theorem State.enter_eq (s : State) (m : MState) : ∃ q st t i, s.enter m =
    { s with mss := { s.mss with logQ := q }, bar := { s.bar with irqStatus := st }, mod := { s.mod with st := t, tap := i } } := by
  unfold State.enter
  split
  · exact ⟨s.mss.logQ, s.bar.irqStatus, s.mod.st, s.mod.tap, rfl⟩
  · simp only
    split
    · exact ⟨_, _, _, _, rfl⟩
    · exact ⟨_, _, _, _, rfl⟩

/-! ## Jobs and queues -/

theorem State.job?_updJob (s : State) (i : Nat) (f : Job → Job) (hf : ∀ j, (f j).id = j.id) :
    (s.updJob i f).job? i = (s.job? i).map f := by
  unfold State.job? State.updJob
  simp only
  generalize s.jobs = l
  induction l with
  | nil => rfl
  | cons j t ih =>
    rw [List.map_cons, List.find?_cons, List.find?_cons]
    cases h : (j.id == i)
    · rw [if_neg (by simp), h]; exact ih
    · rw [if_pos rfl, hf, h]; rfl

theorem State.job?_updJob_other (s : State) {i k : Nat} (f : Job → Job) (hf : ∀ j, (f j).id = j.id) (ne : k ≠ i) :
    (s.updJob i f).job? k = s.job? k := by
  unfold State.job? State.updJob
  simp only
  generalize s.jobs = l
  induction l with
  | nil => rfl
  | cons j t ih =>
    rw [List.map_cons, List.find?_cons, List.find?_cons]
    cases h : (j.id == i)
    · rw [if_neg (by simp)]
      cases j.id == k
      · exact ih
      · rfl
    · rw [if_pos rfl, hf]
      have e : j.id = i := by simpa using h
      rw [show (j.id == k) = false by rw [e]; simp [Ne.symm ne]]
      exact ih

@[simp] theorem Job.setQueue_id (j : Job) (q : Queue) : (j.setQueue q).id = j.id := rfl

theorem Job.queue?_setQueue (j : Job) (q : Queue) (h : (j.queue? q.ref).isSome = true) : (j.setQueue q).queue? q.ref = some q := by
  unfold Job.queue? Job.setQueue at *
  simp only at *
  generalize j.queues = l at *
  induction l with
  | nil => simp at h
  | cons p t ih =>
    rw [List.find?_cons] at h
    rw [List.map_cons, List.find?_cons]
    cases e : (p.ref == q.ref)
    · rw [e] at h
      rw [if_neg (by simp), e]; exact ih h
    · rw [if_pos rfl, beq_self_eq_true]

theorem Job.queue?_setQueue_other (j : Job) (q : Queue) {r : QRef} (ne : r ≠ q.ref) : (j.setQueue q).queue? r = j.queue? r := by
  unfold Job.queue? Job.setQueue
  simp only
  generalize j.queues = l
  induction l with
  | nil => rfl
  | cons p t ih =>
    rw [List.map_cons, List.find?_cons, List.find?_cons]
    cases e : (p.ref == q.ref)
    · rw [if_neg (by simp)]
      cases p.ref == r
      · exact ih
      · rfl
    · have e' : p.ref = q.ref := by simpa using e
      rw [if_pos rfl, e', show (q.ref == r) = false by simp [Ne.symm ne]]
      exact ih

theorem Job.queue?_ref {j : Job} {r : QRef} {q : Queue} (h : j.queue? r = some q) : q.ref = r := by
  have := List.find?_some h
  simpa using this

/-! ## Records, reports, rejections and completions -/

/-- A record written: memory, its marks and channels' write queues, the class count, and the queue's count of records. -/
theorem State.putRecord_eq (s : State) (jid : Nat) (q : Queue) (c : Nat) : ∃ m ms cs l js, s.putRecord jid q c =
    { s with mem := m, marks := ms, lp := { s.lp with channels := cs }, bar := { s.bar with counts := l }, jobs := js } := by
  unfold State.putRecord
  simp only
  obtain ⟨ms, cs, h⟩ := s.store_eq (q.ringAddr + 32 * (q.wcount % 2 ^ (q.ringLog2 + 4)))
    (leBytes 32 (c + (if (q.wcount / 2 ^ (q.ringLog2 + 4)) % 2 = 0 then 1 else 0) * 2 ^ 63))
  rw [h]
  obtain ⟨l, h'⟩ := State.countClass_eq { s with mem := _, marks := ms, lp := { s.lp with channels := cs } } (c % 2 ^ 16)
  rw [h']
  exact ⟨_, _, _, _, _, rfl⟩

/-- A report touches memory, marks and channels, BAR0, the counters, and the jobs. -/
theorem State.report_eq (s : State) (jid : Nat) (ref : QRef) (need : Bool) (h : Held) : ∃ m ms cs b c js,
    s.report jid ref need h =
      { s with mem := m, marks := ms, lp := { s.lp with channels := cs }, bar := b, ctrs := c, jobs := js } := by
  unfold State.report
  split
  · exact ⟨_, _, _, _, _, _, rfl⟩
  · rename_i q _
    split
    · exact ⟨s.mem, s.marks, _, s.bar, s.ctrs, _, rfl⟩
    · have key : ∃ m ms cs b js, (if need = true then s.putRecord jid q h.crec else s) =
          { s with mem := m, marks := ms, lp := { s.lp with channels := cs }, bar := b, jobs := js } := by
        split
        · obtain ⟨m, ms, cs, l, js, e⟩ := s.putRecord_eq jid q h.crec
          exact ⟨m, ms, cs, _, js, e⟩
        · exact ⟨_, _, _, _, _, rfl⟩
      obtain ⟨m, ms, cs, b, js, e⟩ := key
      simp only [e]
      obtain ⟨c, e'⟩ := State.signal_eq { s with mem := m, marks := ms, lp := { s.lp with channels := cs }, bar := b, jobs := js }
        h.sigOp h.sigCtr h.sigVal
      rw [e']
      split
      · exact ⟨_, _, _, _, _, _, rfl⟩
      · exact ⟨_, _, _, _, _, _, rfl⟩

/-- A rejection touches memory, marks and channels, BAR0, the jobs, the counters of a record kept back, and one free value. -/
theorem State.reject_eq (s : State) (jid : Nat) (ref : QRef) (r : Nat) (last : Bool) (f : Fail) : ∃ m ms cs b c js n,
    s.reject jid ref r last f =
      { s with mem := m, marks := ms, lp := { s.lp with channels := cs }, bar := b, ctrs := c, jobs := js, free := n } := by
  have key : ∀ (u : State) (h : Held), (∃ js n, u = { s with jobs := js, free := n }) → ∃ m ms cs b c js n,
      ((u.report jid ref true h).irq 2).lastError f.code ref.eng ref.inst (hJob r) =
        { s with mem := m, marks := ms, lp := { s.lp with channels := cs }, bar := b, ctrs := c, jobs := js, free := n } := by
    rintro u h ⟨js, n, rfl⟩
    obtain ⟨m, ms, cs, b, c, js', e⟩ := State.report_eq { s with jobs := js, free := n } jid ref true h
    rw [e]
    exact ⟨_, _, _, _, _, _, _, rfl⟩
  exact key _ _ ⟨_, _, rfl⟩

end Sys2Proof.Machine
end

