-- ==== Sys2Proof/WellFormed.lean ====
section
/-! DEFINITION. When a command is well formed: every operand names something the module has, or lies in the range that what carries it
can hold. -/
namespace Sys2Proof

/-- An engine queue that the module has (R49, R50). -/
def QRef.wf (q : QRef) : Bool :=
  decide (q.eng ≤ 5) && decide (q.inst < Machine.engInsts q.eng) && decide (q.q < Machine.engQueues q.eng)

/-- Bounds of identifiers: module (R295), job (R324), Spoke port (R284), die (R8), die link (R403), channel (R14), tile (R9). -/
def moduleWf (m : Nat) : Bool := decide (m < 256)
def jobWf (j : Nat) : Bool := decide (0 < j) && decide (j < 65536)
def portWf (p : Nat) : Bool := decide (p < 36)
def dieWf (d : Nat) : Bool := decide (d < 4)
def linkWf (l : Nat) : Bool := decide (l < 6)
def chanWf (c : Nat) : Bool := decide (c < 128)
def tileWf (t : Nat) : Bool := decide (t < 256)
/-- Channels VC0-VC6 (R289). -/
def vcWf (v : Nat) : Bool := decide (v < 7)
/-- A step number (R231). -/
def stepWf (n : Nat) : Bool := decide (n < 2 ^ 32)

def OpenMsg.wf (m : OpenMsg) : Bool :=
  moduleWf m.src && jobWf m.job && decide (m.fwdLog2 < 16) && decide (m.bwdLog2 < 16) && decide (1 ≤ m.tiles) && decide (m.tiles ≤ 256)
def FpMsg.wf (m : FpMsg) : Bool := moduleWf m.src && jobWf m.job && decide (m.off < 2 ^ 32) && decide (m.len % 64 = 0)
def OfferMsg.wf : OfferMsg → Bool
  | .offer src job _ i => moduleWf src && jobWf job && moduleWf i.partner
  | .static src job _ _ _ => moduleWf src && jobWf job
  | .ack src job _ => moduleWf src && jobWf job
def StateBlockMsg.wf (b : StateBlockMsg) : Bool :=
  stepWf b.step && b.slots.all (fun s => decide (s.slot < 4096) && decide (s.hist.length ≤ 16))
def SealMsg.wf : SealMsg → Bool
  | .block src job _ b => moduleWf src && jobWf job && b.wf
  | .ack src job step => moduleWf src && jobWf job && stepWf step
def LockMsg.wf (m : LockMsg) : Bool :=
  moduleWf m.src && jobWf m.job && m.gears.all (fun g => decide (g.1 < 8)) && decide (m.estimate.length ≤ 10)
def LockOut.wf (m : LockOut) : Bool := moduleWf m.src && jobWf m.job && decide (m.locks.length = 8) && decide (m.grant ≤ 10)
def SwitchMsg.wf (m : SwitchMsg) : Bool := moduleWf m.src && jobWf m.job && decide (m.rank ≤ 5)
def TimeMsg.wf (m : TimeMsg) : Bool := moduleWf m.src && portWf m.port && moduleWf m.source
def QuietMsg.wf (m : QuietMsg) : Bool :=
  moduleWf m.src && jobWf m.job && stepWf m.step && m.links.all (fun l => portWf l.1 && moduleWf l.2)
def TakeoverMsg.wf : TakeoverMsg → Bool
  | .offer l j x b r _ => moduleWf l && jobWf j && moduleWf x && decide (b ≤ 256) && stepWf r
  | .answer s j _ => moduleWf s && jobWf j
  | .restored j _ b _ => jobWf j && b.wf
  | .admitted s j _ rs ls => moduleWf s && jobWf j && rs.all (fun r => decide (r.1 < 1280)) && ls.all (fun l => portWf l.1)
  | .carried s j _ => moduleWf s && jobWf j
  | .pull s j => moduleWf s && jobWf j
  | .pullTensor s j _ st _ _ _ => moduleWf s && jobWf j && decide (st < 16)
  | .tensor j _ _ _ => jobWf j
  | .ack s j _ _ => moduleWf s && jobWf j
  | .halt s j => moduleWf s && jobWf j
def MarginRec.wf (r : MarginRec) : Bool := decide (r.kind ≤ 3) && decide (r.unit < 128) && decide (r.item < 1088)
/-- A physical tile (R9). -/
def partWf (p : Nat) : Bool := decide (p < 288)
def BootEnv.wf (e : BootEnv) : Bool :=
  moduleWf e.idPins && e.bistTiles.all partWf && e.bistBanks.all (fun b => tileWf b.1 && decide (b.2 < 34)) &&
  e.repairable.all (fun r => chanWf r.1 && decide (r.2.1 < 16) && decide (r.2.2 < 2 ^ 20)) && e.badChannels.all chanWf &&
  e.goodPorts.all portWf && e.miswired.all portWf && e.goodLanes.all portWf

/-- A command's operands are in range. -/
def Instr.wf (i : Instr) : Bool :=
  match i with
  | .nop q => q.wf
  | .wait q => q.wf
  | .signal q => q.wf
  | .pushList q => q.wf
  | .queueControl q => q.wf
  | .commandWaitSatisfied q => q.wf
  | .commandComplete q i => q.wf && decide (i < 65536)
  | .completionRingRetry q => q.wf
  | .deferredApply job _ => jobWf job
  | .mm q => q.wf && q.eng == 0
  | .accInit q => q.wf && q.eng == 0
  | .accDrain q => q.wf && q.eng == 0
  | .attnStep q => q.wf && q.eng == 0
  | .attnFinal q => q.wf && q.eng == 0
  | .vprogLoad q => q.wf && q.eng == 0
  | .vrun q => q.wf && q.eng == 0
  | .vnop t => tileWf t
  | .vld t => tileWf t
  | .vldh t => tileWf t
  | .vst t => tileWf t
  | .vsth t => tileWf t
  | .vlda t => tileWf t
  | .vsta t => tileWf t
  | .vadd t => tileWf t
  | .vsub t => tileWf t
  | .vmul t => tileWf t
  | .vfma t => tileWf t
  | .vmin t => tileWf t
  | .vmax t => tileWf t
  | .vabs t => tileWf t
  | .vneg t => tileWf t
  | .vmovi t => tileWf t
  | .vsel t => tileWf t
  | .vcvti t => tileWf t
  | .vscl t => tileWf t
  | .vaddw t => tileWf t
  | .vmulw t => tileWf t
  | .vfmaw t => tileWf t
  | .vaddh t => tileWf t
  | .vmulh t => tileWf t
  | .vfmah t => tileWf t
  | .vcmp t => tileWf t
  | .mlogic t => tileWf t
  | .vexp t => tileWf t
  | .vrcp t => tileWf t
  | .vrsqrt t => tileWf t
  | .vlog t => tileWf t
  | .vtanh t => tileWf t
  | .vrsum t => tileWf t
  | .vrmax t => tileWf t
  | .moveData q => q.wf && q.eng == 1
  | .fill q => q.wf && q.eng == 1
  | .wstream q => q.wf && q.eng == 1
  | .chunkIssue q i => q.wf && q.eng == 1 && decide (i < 65536)
  | .chunkCommit q i => q.wf && q.eng == 1 && decide (i < 65536)
  | .stageBind q => q.wf && q.eng == 2
  | .edgeBind q => q.wf && q.eng == 2
  | .pipeStart q => q.wf && q.eng == 2
  | .feedPost q => q.wf && q.eng == 2
  | .versionPublish q => q.wf && q.eng == 2
  | .schedPolicySet q => q.wf && q.eng == 2
  | .edgeRepoint q => q.wf && q.eng == 2
  | .replayStep q => q.wf && q.eng == 2
  | .pipeStop q => q.wf && q.eng == 2
  | .itemChoose g => decide (g < 16)
  | .itemPush g => decide (g < 16)
  | .itemComplete g => decide (g < 16)
  | .unitForward e _ => decide (e < 64)
  | .closingNotice e _ => decide (e < 64)
  | .dataFlit p v => portWf p && vcWf v
  | .notice p v => portWf p && vcWf v
  | .credit p v => portWf p && vcWf v
  | .openingNotice m => m.wf
  | .closingAck s j _ => moduleWf s && jobWf j
  | .edgeDown e => decide (e < 64)
  | .stepBoundary => true
  | .yieldPoint => true
  | .groupBind q => q.wf && q.eng == 3
  | .reduce q => q.wf && q.eng == 3
  | .gather q => q.wf && q.eng == 3
  | .normClose q => q.wf && q.eng == 3
  | .reshard q => q.wf && q.eng == 3
  | .groupRepoint q => q.wf && q.eng == 3
  | .partialPkt p => portWf p
  | .resultPkt p v => portWf p && vcWf v
  | .closePkt p => portWf p
  | .shardTimeout t => decide (t < 2 ^ 20)
  | .normContributionSend => true
  | .normContribution p => portWf p
  | .normWindowClose n => stepWf n
  | .normTotal p => portWf p
  | .normTotalTimeout => true
  | .poisonSourceReport j s => jobWf j && moduleWf s
  | .poisonCountsClear j => jobWf j
  | .locketBind q => q.wf && q.eng == 4
  | .locketSeal q => q.wf && q.eng == 4
  | .ckptIntervalSet q => q.wf && q.eng == 4
  | .tandem q => q.wf && q.eng == 4
  | .tandemFingerprintRequest m => m.wf
  | .buddyOffer m => m.wf
  | .locketCopy s j _ _ => moduleWf s && jobWf j
  | .stateBlock m => m.wf
  | .feedMirror s j _ _ => moduleWf s && jobWf j
  | .gearTableLoad q => q.wf && q.eng == 5
  | .timetableLoad q => q.wf && q.eng == 5
  | .submit _ => true
  | .jobCancel _ => true
  | .controlList _ => true
  | .doorbell _ => true
  | .doorbellMessage p => portWf p
  | .irqStatusClear _ => true
  | .irqMaskWrite _ => true
  | .mboxGo _ => true
  | .mboxOutReadyClear _ => true
  | .mboxErrClear _ => true
  | .mboxOutPost m => decide (m.bytes.length ≤ 1024)
  | .bar0Write off n _ => decide (off + n ≤ 65536) && (n == 1 || n == 2 || n == 4 || n == 8)
  | .telemetryPublish => true
  | .cadenceGate m n => decide (m.length = 128) && decide (n.length = 4)
  | .occupancyMismatch d => dieWf d
  | .governorGate _ _ => true
  | .capFastLimit _ => true
  | .throttleEngage n _ => decide (1 ≤ n) && decide (n ≤ 288)
  | .throttleStep _ => true
  | .throttleRelease _ => true
  | .thermalTrip n _ => decide (1 ≤ n) && decide (n ≤ 288)
  | .coolantEvent _ _ => true
  | .lockReportSend _ e => decide (e.length ≤ 10)
  | .lockReport m => m.wf
  | .lockBroadcast j => jobWf j
  | .lockReceive m => m.wf
  | .pedalHoldExpire => true
  | .droopHoldStart d _ => dieWf d
  | .droopHoldEnd d _ => dieWf d
  | .droopHoldTimeout d => dieWf d
  | .channelRetrainStart c => chanWf c
  | .channelRetrainEnd c _ => chanWf c
  | .holdQueueRetry c m => chanWf c && decide (m < 16)
  | .patrolRead u => chanWf u.ch
  | .writeRunDrain c => chanWf c
  | .refreshRateCheck t => decide (t.length ≤ 32)
  | .rowRemap c b r _ => chanWf c && decide (b < 16) && decide (r < 2 ^ 20)
  | .channelFail c => chanWf c
  | .readReq p => portWf p
  | .writeReq p => portWf p
  | .writeData p => portWf p
  | .readData p => portWf p
  | .doneMsg p => portWf p
  | .ownQuery p => portWf p
  | .ownAnswer p => portWf p
  | .portTrainingAttempt p => portWf p
  | .portTrainingComplete p _ m n e => portWf p && moduleWf m && portWf n && portWf e
  | .flitReceive p _ => portWf p
  | .controlFlit p _ => portWf p
  | .ackSend p => portWf p
  | .portRetrain p => portWf p
  | .portDown p => portWf p
  | .laneSubstitution p n => portWf p && decide (n < 5)
  | .laneBerWindow p n _ => portWf p && decide (n < 5)
  | .portStandby p => portWf p
  | .portWake p => portWf p
  | .transitForward p v => portWf p && vcWf v
  | .routePatch p => portWf p
  | .patchAck p => portWf p
  | .unreachable p => portWf p
  | .mctpPacket p => portWf p
  | .timeMessageSend => true
  | .timeMessage m => m.wf
  | .dieFlitReceive l _ _ => linkWf l
  | .dieControlFlit l _ _ => linkWf l
  | .propose l _ => linkWf l
  | .accept l _ => linkWf l
  | .commit l _ _ => linkWf l
  | .widthChangeTimeout l => linkWf l
  | .dieLinkRetrain l h => linkWf l && h.bad.all (fun x => decide (x.1 < 32) && decide (x.2 < 34))
  | .wireSubstitution l _ n w => linkWf l && decide (n < 32) && decide (w < 34)
  | .dieLinkDown l _ => linkWf l
  | .barrierArrive d => dieWf d
  | .beaconFail d => dieWf d
  | .windowStopTime w => decide (w < 32)
  | .agingPeriod => true
  | .commandBoundary => true
  | .switchComplete => true
  | .switchRequest m => m.wf
  | .switchInstant m => m.wf
  | .switchInstantReached j => jobWf j
  | .startInstantTimeout j => jobWf j
  | .tileFail t => tileWf t
  | .scratchBankFail t b _ => tileWf t && decide (b < 32)
  | .regulatorPhaseFail d p => dieWf d && decide (p < 26)
  | .wearSample l r => decide (l.length = 128) && r.ber.all (fun x => decide (x.1 < 288)) && r.share.all (fun x => decide (x.1 < 128))
  | .wearLedgerWrite k i s d => decide (k < 3) && decide (i < 65536) && decide (s < 2 ^ 32) && decide (d < 2 ^ 32)
  | .hostPortFailover _ => true
  | .moduleFailed => true
  | .failureNotice s j => moduleWf s && jobWf j
  | .suspect s j x => moduleWf s && jobWf j && moduleWf x
  | .probeTimeout j x => jobWf j && moduleWf x
  | .recover s j => moduleWf s && jobWf j
  | .aliasOrder s j x y => moduleWf s && jobWf j && moduleWf x && moduleWf y
  | .repoint s j => moduleWf s && jobWf j
  | .replayOrder s j n => moduleWf s && jobWf j && stepWf n
  | .durable s j n => moduleWf s && jobWf j && stepWf n
  | .quiescentReport m => m.wf
  | .quiescentTimeout j => jobWf j
  | .takeoverOffer m => m.wf
  | .takeoverAcceptTimeout j => jobWf j
  | .stragglerReport s j n => moduleWf s && jobWf j && stepWf n
  | .retire s j n => moduleWf s && jobWf j && stepWf n
  | .mssRestart => true
  | .requestUpdate => true
  | .firmwareData off b => decide (off + b.length ≤ 0x2000000)
  | .transferComplete => true
  | .verifyComplete => true
  | .applyComplete => true
  | .activateFirmware => true
  | .sensorRead i => decide (i < 65536)
  | .effecterPowerCap v => decide (v < 2 ^ 32)
  | .effecterStandbyEnable v => decide (v < 2 ^ 32)
  | .effecterPedal v => decide (v < 2 ^ 32)
  | .marginMemory _ => true
  | .marginDieLinks _ => true
  | .marginSpoke _ => true
  | .marginRunComplete r p => r.all MarginRec.wf && p.all portWf
  | .stressRequest s p => moduleWf s && portWf p
  | .effecterEject v => decide (v < 2 ^ 32)
  | .effecterDate v => decide (v < 2 ^ 64)
  | .powerOnSequence e => e.wf
  | .undervoltageShutdown mv => decide (mv < 2 ^ 17)
  | .undervoltageRecovery mv => decide (mv < 2 ^ 17)
  | .overvoltageOff mv => decide (mv < 2 ^ 17)
  | .inputLoss mv => decide (mv < 2 ^ 17)
  | .perst h => decide (h < 2)
  | .shock x y z => decide (x < 65536) && decide (y < 65536) && decide (z < 65536)
  | .tapUnlock _ _ => true
  | .standbyConverterUp mv => decide (mv < 2 ^ 17)
  | .pwrEnQualified mv => decide (mv < 2 ^ 17)
  | .perstDeassert h => decide (h < 2)
  | .dieControlFlitSend l _ => linkWf l
  | .mctpEndpointMessage k v => decide (k < 128) && decide (v < 65536)
  | .edgeClosing s j _ => moduleWf s && jobWf j
  | .idcode => true
  | .bypass => true
  | .samplePreload => true
  | .extest => true
  | .extestPulse => true
  | .extestTrain => true
  | .testLogicReset => true
  | .logFlashWrite => true
  | .enterRun => true
  | .resetPin => true
  | .ejectRequest => true
  | .forceEject => true
  | .drainComplete => true
  | .surpriseRemoval => true

end Sys2Proof
end

