-- ==== Sys2Proof/Tests/Slice0.lean ====
section
/-! SUPPORT. Tests: the well-formedness checks, worked examples of the spec, and for each statement a state that meets its
hypotheses. -/
namespace Sys2Proof.Tests
open Sys2Proof Sys2Proof.Machine

-- One theorem at a time: each thread of the elaborator reserves a large stack.
set_option Elab.async false

/-! ## Helpers: a module that runs one job -/

/-- An item written field by field: lowest bit, width, value. -/
def item (fs : List (Nat × Nat × Nat)) : Nat := (fs.map (fun f => place f.1 f.2.1 f.2.2)).sum

/-- A command record of job 1 with LAST set: kind and body. -/
def cmd (kind : Nat) (body : List (Nat × Nat × Nat)) : Nat := item ([(0, 8, kind), (15, 1, 1), (96, 16, 1)] ++ body)

def H : Nat := State.hostBase

/-- A queue whose only list is one record at the start of the host window. -/
def queueAt (ref : QRef) : Queue :=
  { ref := ref, ringLog2 := 0, ringAddr := H + 0x1000, headAddr := H + 0x2000, lists := [⟨H, 1, 7, none⟩] }

/-- Job 1: led by module 1, with modules 1 and 2, 64 counters, 16 slots, 64 MiB. -/
def job1 (qs : List Queue) : Job :=
  { id := 1, cls := 1, rank := 1, admin := true, lead := 1, deputy := 2, ctrBase := 0, ctrCount := 64, parkAddr := 0x100000
    slowBytes := 0, st := .running, extents := [(0, 32)], routes := [⟨1, 1, false, 0⟩, ⟨2, 1, false, 0⟩], queues := qs
    numerics := { slotBase := 0, slotCount := 16 } }

/-- Module 2 in RUN with that job; user memory of 1 GiB. -/
def running (j : Job) (items : List (Nat × Nat × Nat)) : State :=
  { mod := { st := .run, id := 2, mainOn := true, hostUp := true }, jobs := [j], running := some 1, now := 5000000, fabric := 5000000
    lp := { pools := [⟨none, 1⟩] }
    mem := items.foldl (fun m i => m.write i.1 (leBytes i.2.1 i.2.2)) [] }

/-- Record r heads queue `ref` of the job that f makes; `more` are further items in memory: address, bytes, value. -/
def atHead (ref : QRef) (r : Nat) (f : Job → Job) (more : List (Nat × Nat × Nat)) : State :=
  running (f (job1 [queueAt ref])) ((H, 64, r) :: more)

/-- Whether the record at the head of a queue passes every check and waits for nothing (`Passes`), and `more` holds of the job, the queue
and the record that its engine then holds. -/
def meets (sp : CmdSpec) (ref : QRef) (s : State) (more : Job → Queue → Nat → Bool) : Bool :=
  match s.runJob with
  | none => false
  | some j =>
    match j.queue? ref with
    | none => false
    | some q =>
      match q.lists.head? with
      | none => false
      | some l =>
        let r := s.num (l.addr + 64 * q.pos) 64
        let w := sp.whole s r
        decide (holding s j = false ∧ dieHeld s (engDie ref) = false ∧ canFetch q = true ∧ myTurn s j ref (couldGo s j) = true ∧
          hKind r = sp.kind ∧ accepts ref.eng (hKind r) = true ∧ sp.fetch s j q r = true ∧ firstChecks sp ref s j q l r = none ∧
          sp.asks (s.takeTurn ref) j q w = (s.takeTurn ref, []) ∧ waitOver s r = true ∧
          (Sys2Proof.Machine.alone q.ref r = true → q.flight = []) ∧
          sp.ready (fetched s j q w) (j.setQueue (taken q w)) (taken q w) w = true ∧ gateOf j r = none ∧
          firstFail (sp.late (fetched s j q w) (j.setQueue (taken q w)) (taken q w) w) 7 2 = none) && more j q w

theorem meets_sound {sp : CmdSpec} {ref : QRef} {s : State} {more : Job → Queue → Nat → Bool} (h : meets sp ref s more = true) :
    ∃ j q l r, Passes sp ref s j q l r ∧ more j q (sp.whole s r) = true := by
  unfold meets at h
  split at h; · cases h
  rename_i j hj
  split at h; · cases h
  rename_i q hq
  split at h; · cases h
  rename_i l hl
  rw [Bool.and_eq_true, decide_eq_true_eq] at h
  obtain ⟨⟨h1, h2, h3, h3b, h4, h5, h6, h7, h8, h9, h10, h11, h12, h13⟩, h14⟩ := h
  exact ⟨j, q, l, _, ⟨⟨hj, hq, hl, rfl, h1, h2, h3, h3b⟩, h4, h5, h6, h7, h8, h9, h10, h11, h12, h13⟩, h14⟩

/-- Whether the record at the head of a queue starts at once (`StartsNow`). -/
def starts (sp : CmdSpec) (ref : QRef) (s : State) : Bool :=
  meets sp ref s (fun j q w => (sp.exchange (fetched s j q w) (j.setQueue (taken q w)) (taken q w) { record := w }).isNone)

theorem starts_sound {sp : CmdSpec} {ref : QRef} {s : State} (h : starts sp ref s = true) :
    ∃ j q l r, StartsNow sp ref s j q l r := by
  obtain ⟨j, q, l, r, hp, hm⟩ := meets_sound h
  exact ⟨j, q, l, r, hp, Option.isNone_iff_eq_none.mp hm⟩

/-! ## Records written from their tables, each of which starts -/

def qT : QRef := ⟨0, 3, 0⟩
def qM : QRef := ⟨1, 0, 0⟩
def qS : QRef := ⟨2, 0, 0⟩
def qR : QRef := ⟨3, 1, 0⟩
def qL : QRef := ⟨4, 0, 0⟩
def qJ : QRef := ⟨5, 0, 0⟩

/-- MM of 1 × 1 × 1, FP32 (R110). -/
def mmRec : Nat := cmd 0x10 [(208, 16, 1), (224, 16, 1), (272, 11, 1), (288, 11, 1), (304, 16, 1)]

/-- Each of these heads its queue and starts. -/
def allStart (l : List (CmdSpec × QRef × State)) : Bool := l.all (fun p => starts p.1 p.2.1 p.2.2)

/-- Common kinds (R48, R49): WAIT on a counter at its value, SIGNAL by 1, PUSH_LIST to Mover 0, QUEUE_CONTROL of its halted queue. -/
def commonCases : List (CmdSpec × QRef × State) :=
  [(plainSpec 0x00, qJ, atHead qJ (cmd 0x00 []) id []),
   (plainSpec 0x01, qJ, atHead qJ (cmd 0x01 [(16, 12, 5), (28, 2, 1)]) id []),
   (plainSpec 0x02, qJ, atHead qJ (cmd 0x02 [(30, 2, 1), (64, 12, 9), (80, 16, 1)]) id []),
   (pushSpec, qJ, atHead qJ (cmd 0x03 [(128, 4, 1), (144, 48, H), (192, 16, 1)])
     (fun j => { j with queues := j.queues ++ [queueAt qM] }) []),
   (ctlSpec, qJ, atHead qJ (cmd 0x04 [(128, 4, 1), (208, 2, 2)])
     (fun j => { j with queues := j.queues ++ [{ queueAt qM with halted := true }] }) [])]

theorem starts_common : allStart commonCases = true := by decide +kernel

/-- ATTN_STEP of 1 query, 1 key, depth 1, all BF16 (R117): rows 0, 1 and 2 to 3. -/
def attnRec : Nat := cmd 0x13 [(128, 5, 2), (133, 5, 2), (138, 5, 2), (143, 5, 2), (148, 1, 1), (174, 22, 64), (196, 22, 128),
  (218, 22, 192), (240, 16, 1), (256, 16, 1), (272, 16, 1), (288, 9, 1), (304, 11, 1), (320, 9, 1), (352, 10, 1), (368, 10, 2)]

/-- VPROG_LOAD of one word at 64; VRUN of one VNOP at entry 0, one iteration (R128, R131). -/
def vpRec : Nat := cmd 0x20 [(136, 9, 1), (160, 22, 64)]
def vrRec : Nat := cmd 0x21 [(136, 9, 1), (146, 16, 1)]

/-- Tile kinds (R98, R113, R114, R121). -/
def tileCases : List (CmdSpec × QRef × State) :=
  [(mmSpec, qT, atHead qT mmRec id []),
   (initSpec, qT, atHead qT (cmd 0x11 [(192, 11, 1), (208, 11, 1)]) id []),
   (drainSpec, qT, atHead qT (cmd 0x12 [(176, 16, 1), (192, 11, 1), (208, 11, 1)]) id []),
   (attnSpec, qT, atHead qT attnRec id []),
   (finalSpec, qT, atHead qT (cmd 0x14 [(128, 9, 1), (144, 9, 1), (176, 10, 1)]) id []),
   (vpSpec, qT, atHead qT vpRec id []),
   (vrSpec, qT, atHead qT vrRec id [])]

theorem starts_tile : allStart tileCases = true := by decide +kernel

/-- A stream of one tile, one chunk of 64 bytes, counters 3 and 4 (R191), and its WSTREAM (R192). -/
def streamDesc : Nat := item [(0, 48, 0x4000), (256, 16, 1), (272, 16, 1), (320, 8, 3), (328, 7, 1), (336, 12, 3), (352, 12, 4)]
def wsRec : Nat := cmd 0x48 [(128, 48, H + 0x100), (208, 16, 1)]

/-- Mover kinds: MOVE of 4 bytes, FILL of 8 bytes (R170, R172). -/
def moverCases : List (CmdSpec × QRef × State) :=
  [(moveSpec, qM, atHead qM (cmd 0x40 [(160, 48, 0x1000), (208, 48, 0x2000), (256, 32, 4)]) id []),
   (fillSpec, qM, atHead qM (cmd 0x41 [(152, 48, 0x3000), (200, 32, 8), (256, 64, 5)]) id []),
   (wsSpec, qM, atHead qM wsRec id [(H + 0x100, 64, streamDesc)])]

theorem starts_mover : allStart moverCases = true := by decide +kernel

/-- A stage of tiles 3 and 4 with two version slots and no optimizer group (R209); its list table of 4 empty sets (MB_SLOTS 1, EXIT). -/
def stageDesc : Nat := item [(0, 12, 5), (23, 1, 1), (32, 5, 1), (43, 3, 1), (48, 12, 2), (64, 48, H + 0x200), (128, 16, 9),
  (176, 8, 3), (184, 9, 2), (256, 48, H + 0x300)]

/-- The stage as bound; OPT_CTR plays no part. -/
def stage1 : Stage :=
  { idx := 0, stageId := 5, group := 0, chunk := 0, exit := true, warmup := 0, wLimit := 1, idle := 0, mbSlots := 1, verCtr := 2
    optGroups := 0, optCtr := 0, tileFirst := 3, tileCount := 2, statusAddr := H + 0x300, sets := List.replicate 4 []
    slots := [{ st := .current, num := 9 }, {}] }

/-- A feed edge into it: one entry deep, one unit for each tile, released by F (R216). -/
def feedDesc : Nat := item [(0, 16, 7), (16, 1, 1), (18, 1, 1), (48, 12, 5), (80, 16, 1), (272, 12, 6)]

/-- A remote edge from this stage to stage 6 on module 1. -/
def outDesc : Nat := item [(0, 16, 8), (17, 1, 1), (24, 8, 1), (32, 12, 5), (48, 12, 6), (80, 16, 1), (96, 16, 1), (112, 16, 1),
  (128, 16, 1), (72, 2, 1)]

def strand1 (st : PipeState) : Strand :=
  { stages := [stage1], edges := [{ slot := 1, desc := feedDesc, peerMod := 0, st := .opened }]
    groups := [{ id := 0 }]
    pipe := { st := st, firstMb := 0, firstStep := 4, mbPerStep := 2, stepCtr := 8 } }

/-- Strand kinds (R244, R245). -/
def strandCases : List (CmdSpec × QRef × State) :=
  [(stageSpec, qS, atHead qS (cmd 0x60 [(144, 48, H + 0x100)]) id [(H + 0x100, 64, stageDesc)]),
   (edgeSpec, qS, atHead qS (cmd 0x61 [(128, 6, 1), (144, 48, H + 0x100)])
     (fun j => { j with strand := { stages := [stage1] } }) [(H + 0x100, 64, feedDesc)]),
   (pipeSpec, qS, atHead qS (cmd 0x62 [(160, 32, 4), (192, 16, 2), (224, 12, 8)])
     (fun j => { j with strand := { stages := [stage1], edges := [{ slot := 1, desc := feedDesc, peerMod := 0 }] } }) []),
   (feedSpec, qS, atHead qS (cmd 0x63 [(128, 6, 1), (192, 6, 1)]) (fun j => { j with strand := strand1 .running }) []),
   (publishSpec, qS, atHead qS (cmd 0x64 [(144, 16, 10)]) (fun j => { j with strand := strand1 .running }) []),
   (policySpec, qS, atHead qS (cmd 0x65 []) (fun j => { j with strand := strand1 .running }) []),
   (repointSpec, qS, atHead qS (cmd 0x66 [(128, 6, 2), (136, 8, 1)]) (fun j => { j with strand := { strand1 .running with
     edges := [{ slot := 2, desc := outDesc, peerMod := 2, st := .down }] } }) []),
   (replaySpec, qS, atHead qS (cmd 0x67 [(128, 32, 4)]) (fun j => { j with strand := { strand1 .running with edges := [] } }) []),
   (stopSpec, qS, atHead qS (cmd 0x68 []) (fun j => { j with strand := strand1 .running }) [])]

/-- A group of modules 2 and 1, RING, epoch 3 (R253). -/
def groupDesc (epoch : Nat) : Nat := item [(8, 9, 2), (32, 16, epoch), (64, 48, H + 0x200)]
def group1 : RGroup := { num := 0, tree := false, axis := 0, self := 0, epoch := 3, timeout := 20, members := [2, 1] }
def withGroup (j : Job) : Job := { j with ring := { groups := [group1] } }

/-- REDUCE of 2 FP32 elements with tag 1, and GATHER of 64 bytes with tag 5, on Ring engine 1 (R252, R256, R272). -/
def reduceRec : Nat := cmd 0x81 [(128, 20, 1), (152, 16, 3), (213, 5, 2), (224, 48, 0x1000), (272, 48, 0x2000), (320, 32, 2)]
def gatherRec : Nat := cmd 0x82 [(128, 20, 5), (152, 16, 3), (184, 48, 0x1000), (232, 48, 0x2000), (280, 40, 64)]

/-- Ring kinds (R255). -/
def ringCases : List (CmdSpec × QRef × State) :=
  [(groupSpec, qR, atHead qR (cmd 0x80 [(148, 48, H + 0x100)]) id [(H + 0x100, 64, groupDesc 3), (H + 0x200, 2, 0x0102)]),
   (reduceSpec, qR, atHead qR reduceRec withGroup []),
   (gatherSpec, qR, atHead qR gatherRec withGroup []),
   (closeSpec, qR, atHead qR (cmd 0x83 [(160, 8, 1), (168, 9, 2)]) withGroup []),
   (reshardSpec, qR, atHead qR (cmd 0x84 [(132, 16, 4), (148, 48, H + 0x100)]) withGroup
     [(H + 0x100, 64, groupDesc 4), (H + 0x200, 2, 0x0102)]),
   (gpointSpec, qR, atHead qR (cmd 0x85 [(132, 8, 1), (140, 8, 2)]) withGroup [])]

/-- Locket and job-control kinds, besides LOCKET_BIND (R353, R376, R335); the Locket is bound and the gate OPEN. -/
def controlCases : List (CmdSpec × QRef × State) :=
  let bound (j : Job) : Job := { j with locket := { bound := true, desc := item [(0, 8, 1)] }, numerics := { j.numerics with gate := .opened } }
  [(sealSpec, qL, atHead qL (cmd 0xA1 [(128, 32, 4)]) bound []),
   (ckptSpec, qL, atHead qL (cmd 0xA2 [(128, 16, 8)]) bound []),
   (tandemSpec, qL, atHead qL (cmd 0xA3 []) bound []),
   (gearSpec, qJ, atHead qJ (cmd 0xF0 [(176, 1, 1)]) id []),
   (ttSpec, qJ, atHead qJ (cmd 0xF1 [(128, 48, H + 0x100)]) id
     [(H + 0x100, 64, item [(0, 32, 20000), (32, 6, 1)])])]

theorem starts_strand : allStart strandCases = true := by decide +kernel
theorem starts_ring : allStart ringCases = true := by decide +kernel
theorem starts_control : allStart controlCases = true := by decide +kernel

theorem all_sound {l : List (CmdSpec × QRef × State)} (h : allStart l = true) :
    ∀ p ∈ l, ∃ j q k r, StartsNow p.1 p.2.1 p.2.2 j q k r := by
  intro p hp
  exact starts_sound (List.all_eq_true.mp h p hp)

/-- Witness of EngineCommandStarts, and of the statements about a kind that starts (TileAndMoverStartsWriteNothing, ProgramsLoadAndRun,
DeferredCommandsJoin, HeaderCommandsAct): a record of each of the 35 kinds starts somewhere. -/
theorem witness_EngineCommandStarts :
    (∀ p ∈ commonCases ++ tileCases ++ moverCases ++ strandCases ++ ringCases ++ controlCases,
      ∃ j q l r, StartsNow p.1 p.2.1 p.2.2 j q l r) ∧
    (commonCases ++ tileCases ++ moverCases ++ strandCases ++ ringCases ++ controlCases).map (fun p => p.1.kind) =
      ((engineCommands qT).map (fun p => p.2.kind)).filter (· != 0xA0) := by
  refine ⟨?_, by decide⟩
  intro p hp
  simp only [List.mem_append] at hp
  rcases hp with ((((h | h) | h) | h) | h) | h
  · exact all_sound starts_common p h
  · exact all_sound starts_tile p h
  · exact all_sound starts_mover p h
  · exact all_sound starts_strand p h
  · exact all_sound starts_ring p h
  · exact all_sound starts_control p h

/-- Whether what a record gives at its start acts at once. -/
def actsAtOnce (sp : CmdSpec) (ref : QRef) (s : State) : Bool :=
  (((s.runJob.bind (fun j => (j.queue? ref).map (fun q => (startOf sp s j q (s.num H 64)).instant))))).getD false

/-- The tile and Mover kinds do not act at once; the deferred ones complete with DEFERRED. -/
theorem witness_TileAndMoverStartsWriteNothing :
    (tileCases ++ moverCases).all (fun p => !actsAtOnce p.1 p.2.1 p.2.2) = true := by decide +kernel

/-- Witness of the second part of ProgramsLoadAndRun: a VPROG_LOAD of the list in flight. -/
theorem witness_ProgramsLoadAndRun :
    (let s := atHead qT vrRec (fun j => { j with queues := [{ queueAt qT with flight := [{ record := vpRec, listId := 7, last := false }] }] }) []
     (s.runJob.any (fun j => !holding s j && (j.queue? qT).any (fun q => canFetch q && q.flight.any (fun f =>
       hKind f.record == 0x20 && f.listId == 7)))) && !dieHeld s 0) = true := by decide +kernel

/-- Witness of HeaderCommandsAct: its records carry no CREC and no IRQ, its queues have nothing in flight; the target queue differs. -/
theorem witness_HeaderCommandsAct :
    commonCases.all (fun p => let r := p.2.2.num H 64
      !hCrec r && !hIrq r && p.2.2.jobs.all (fun j => j.queues.all (fun q => q.flight.isEmpty))) = true ∧
    targetOf (cmd 0x03 [(128, 4, 1)]) ≠ qJ := by decide +kernel

/-- A record that fails check 2 (WAIT_OP = 3), one of no kind that the queue accepts, and one of another kind of the queue: the three
clauses of EngineCommandRejected. -/
theorem witness_EngineCommandRejected :
    let s (r : Nat) : State := atHead qT r id []
    let fails (sp : CmdSpec) (s : State) : Option Fail := s.runJob.bind (fun j => (j.queue? qT).bind (fun q =>
      (q.lists.head?).bind (fun l => firstChecks sp qT s j q l (s.num H 64))))
    fails mmSpec (s (cmd 0x10 [(28, 2, 3)])) = some ⟨0x1001, 28 + 2 * 512, 0xFFFF⟩ ∧
    fails mmSpec (s (cmd 0x15 [])) = some ⟨0x1001, 8 * 512, 0xFFFF⟩ ∧ accepts 0 0x15 = false ∧
    accepts 0 0x11 = true ∧ (s (cmd 0x10 [])).mem.wf = true := by decide +kernel

/-! ## Witnesses of the statements about BAR0, the work ring and the interface -/

def live : State := running (job1 [queueAt qT]) []
def inState (m : MState) (s : State) : State := { s with mod := { s.mod with st := m } }

theorem witness_StepTakesFront : ({ State.reset with pending := [Instr.telemetryPublish] } : State).pending = [.telemetryPublish] := rfl

theorem witness_IdleStepIsOneTick :
    State.reset.pending = [] ∧ State.reset.mod.st ≠ .off ∧ (inState .off State.reset).mod.st = .off := by decide

theorem witness_MemoryStaysCanonical : live.mem.wf = true ∧ ∃ t, step live = .next t := ⟨by decide, _, rfl⟩

theorem witness_Bar0RegistersWrite :
    barUp live = true ∧ barUp State.reset = false ∧ swf 0 live.bar.mboxIn = true ∧ 0x100 % 4 = 0 ∧ (0x4FF - 3) % 4 = 0 ∧
    dieHeld live (hostDie live) = false ∧
    dieHeld { live with dies := live.dies.map (fun (d : Die) => { d with hold := some 0 }) } (hostDie live) = true ∧
    (0x10000#64).getLsbD 16 = true ∧ (0x40000#64).getLsbD 16 = false ∧ (0x40000#64).getLsbD 18 = true ∧ (0x80000#64).getLsbD 19 = true := by
  decide

theorem witness_MailboxBothWays :
    (let v (n : Nat) : Word32 := BitVec.ofNat 32 (2 ^ 17 + n)
     ∀ n ∈ [0, 1, 1024, 1025], (v n).getLsbD 18 = false ∧ (v n).getLsbD 19 = false ∧ (v n).toNat % 2048 = n) ∧
    live.bar.busy = false ∧ live.bar.outReady = false ∧ live.bar.outQueue = [] ∧ dieHeld live (hostDie live) = false ∧
    ({ live with bar := { live.bar with busy := true, outReady := true } } : State).bar.busy = true ∧
    live.bar.outQueue ++ (if 1 ≤ [7].length ∧ [7].length ≤ 1024 then [([7] : Bytes)] else []) = [[7]] := by decide

theorem witness_DoorbellHoldsNewestTail :
    barUp live = true ∧ live.wring.peer = false ∧
    (∀ n ∈ [16, 17], (n % 65536 + 65536 - live.wring.head.toNat) % 65536 = n) ∧ 2 ^ live.wring.log2 = 16 ∧
    ({ live with wring := { live.wring with peer := true } } : State).wring.peer = true := by decide

theorem witness_TapAnswersWhereEnabled : tapEnabled State.reset = true ∧ State.reset.mod.st = .standby ∧ live.mod.st = .run := by decide

/-- A work-ring packet of a type with tag 9 at HEAD of a ring of the host (R64). -/
def ringWith (m : MState) (type : Nat) (fs : List (Nat × Nat × Nat)) (jobs : List Job) (more : List (Nat × Nat × Nat)) : State :=
  let s := inState m (running (job1 [queueAt qJ]) ((H + 0x4000, 64, item ([(0, 8, type), (96, 32, 9)] ++ fs)) :: more))
  { s with wring := { s.wring with base := H + 0x4000, tail := 1 }, jobs := jobs, running := if jobs.isEmpty then none else some 1 }

/-- A job descriptor of job 1 with one queue, one extent, no slots and an empty route table (R145, R324-R326). -/
def jobItems : List (Nat × Nat × Nat) :=
  [(H + 0x5000, 128, item [(0, 16, 1), (16, 3, 1), (24, 8, 2), (32, 8, 1), (64, 13, 64), (128, 48, H + 0x5100), (192, 48, H + 0x8000),
     (256, 48, H + 0x5200), (304, 8, 1), (320, 48, H + 0x5300), (368, 16, 1)]),
   (H + 0x5100, 64, item [(128, 48, H + 0x5400)]),
   (H + 0x5200, 64, item [(0, 4, 5), (64, 48, H + 0x6000), (128, 48, H + 0x7000)]),
   (H + 0x5300, 16, item [(64, 32, 4)])]

/-- Each clause of WorkRingAnswersPackets: a SUBMIT that nothing stops, a JOB_CANCEL, a CONTROL_LIST, a packet in DRAIN, one with a
reserved bit, a state in which the ring is not served. -/
theorem witness_WorkRingAnswersPackets :
    (let s := ringWith .run 1 [(16, 16, 1), (32, 48, H + 0x5000)] [] jobItems
     ((headPacket 0 s).any (fun p => firstFail (pkChecks p) 0 7 == none && pkType p == 1 && pkAddr p % 64 == 0 &&
       s.inStore (pkAddr p) 128 && admitFail s (pkJob p) (readItems s (pkAddr p)) == none)) = true) ∧
    (let s := ringWith .run 2 [(16, 16, 1)] [job1 [queueAt qJ]] []
     ((headPacket 0 s).any (fun p => firstFail (pkChecks p) 0 7 == none && pkType p == 2 &&
       (s.job? (pkJob p)).any (fun j => decide (j.st = .running) && !cancelPending j))) = true) ∧
    (let s := ringWith .run 3 [(16, 16, 1), (32, 48, H), (80, 16, 1)] [job1 [queueAt qJ]] []
     ((headPacket 0 s).any (fun p => firstFail (pkChecks p) 0 7 == none && pkType p == 3 && !pkImmediate p &&
       firstFail (listChecks s p) 0 7 == none &&
       (s.job? (pkJob p)).any (fun j => j.admitted && (j.queue? ⟨5, 0, 0⟩).any (fun q => decide (q.lists.length < 64))))) = true) ∧
    (let s := ringWith .drain 1 [(16, 16, 1)] [] []
     ((headPacket 0 s).any (fun p => firstFail (pkChecks p) 0 7 == none && pkType p == 1)) = true) ∧
    (let s := ringWith .run 1 [(9, 7, 1)] [] []
     ((headPacket 0 s).any (fun p => (firstFail (pkChecks p) 0 7).isSome && pkType p == 1)) = true) ∧
    (inState .ready live).mod.st = .ready ∧ live.mem.wf = true ∧ live.wring.peer = false := by decide +kernel

/-- Its clauses on IMMEDIATE lists, failing admission, and JOB_CANCELs of a parked, an unknown and a canceled job. -/
theorem witness_WorkRingAnswersPackets_rest :
    (let g : Queue := { queueAt qM with halted := true }
     let s := ringWith .run 3 [(8, 1, 1), (16, 16, 1), (32, 48, H), (80, 16, 1)] [job1 [queueAt qJ, g]]
       [(H, 64, cmd 0x04 [(128, 4, 1), (208, 2, 2)])]
     let r := s.num H 64
     ((headPacket 0 s).any (fun p => firstFail (pkChecks p) 0 7 == none && pkType p == 3 && pkImmediate p && pkAddr p == H &&
       firstFail (listChecks s p) 0 7 == none && pkCount p == 1 &&
       (s.job? (pkJob p)).any (fun j => j.admitted && hKind r == 4 && hWaitOp r == 0 && hSigOp r == 0 &&
         firstFail (hdrChecks j 5 r true) 0 7 == none && firstFail (ctlChecks s j (queueAt qJ) r) 0 7 == none &&
         (j.queue? (targetOf r)).any (·.halted)))) = true) ∧
    (let s := ringWith .run 1 [(16, 16, 2), (32, 48, H + 0x5000)] [] jobItems
     ((headPacket 0 s).any (fun p => pkAddr p % 64 == 0 && s.inStore (pkAddr p) 128 &&
       (admitFail s (pkJob p) (readItems s (pkAddr p))).isSome)) = true) ∧
    (let s (st : JobState) (ds : List Deferral) : State := ringWith .run 2 [(16, 16, 1)] [{ job1 [queueAt qJ] with st := st, deferrals := ds }] []
     let met (s : State) (ok : Job → Bool) : Bool := (headPacket 0 s).any (fun p => firstFail (pkChecks p) 0 7 == none && pkType p == 2 &&
       (s.job? (pkJob p)).any ok)
     met (s .parked []) (fun j => decide (j.st = .parked) && !cancelPending j) = true ∧ (s .parked []).sched.switch = none ∧
     met (s .running [{ kind := .jobCancel, record := 0, queue := qJ }]) (fun j => j.admitted && cancelPending j) = true ∧
     ((headPacket 0 (ringWith .run 2 [(16, 16, 1)] [] [])).any (fun p => pkType p == 2 &&
       ((ringWith .run 2 [(16, 16, 1)] [] []).job? (pkJob p)).isNone)) = true) := by decide +kernel

/-! ## Witnesses of the statements about the Spoke ports -/

/-- Port 0 is UP to module 1 and holds flits; ports 8 and 16, global ones, are UP to modules 17 and 33. -/
def portsWith (fs : List SpokeFlit) : List Port :=
  ((List.replicate 36 ({} : Port)).set 0 { st := .up, peerMod := 1, peerPort := 3, rx := fs }).set 8 { st := .up, peerMod := 17 }

def withFlits (fs : List SpokeFlit) (j : Job) : State := { running j [] with ports := portsWith fs }

/-- A flit from module 1 to module 2. -/
def toMe (lvc cls pay : Nat) : SpokeFlit := mkFlit lvc 2 1 cls pay

theorem witness_Vc0FlitsAct :
    (let s := withFlits [toMe 0 (item [(0, 8, 2), (24, 16, 16)]) 0] (job1 [])
     ((({ s with wring := { s.wring with peer := true, owner := 1 } } : State).takeRx 0 0 (fun f => bits (fCls f) 0 8 == 2)).any
       (fun x => x.2.wring.peer && fSrc x.1 == x.2.wring.owner &&
         decide ((bits (fCls x.1) 24 16 + 65536 - x.2.wring.head.toNat) % 65536 ≤ 2 ^ x.2.wring.log2))) = true) ∧
    ((withFlits [toMe 0 (item [(0, 8, 2), (24, 16, 16)]) 0] (job1 [])).takeRx 0 0 (fun f => bits (fCls f) 0 8 == 2)).any
      (fun x => !x.2.wring.peer) = true ∧
    ((withFlits [toMe 0 1 0x55] (job1 [])).takeRx 0 0 (fun f => bits (fCls f) 0 8 == 1)).isSome = true ∧
    ((withFlits [toMe 0 (5 + 2 ^ 24) 0] (job1 [])).takeRx 0 0 (fun f => bits (fCls f) 0 8 == 5)).isSome = true ∧
    0 < (withFlits [] (job1 [])).ports.length := by decide +kernel

theorem witness_RoutesPatchAndForward :
    (let s := withFlits [toMe 0 (item [(0, 8, 3), (8, 16, 1)]) (item [(1, 3, 3), (8, 8, 1), (16, 16, 1), (32, 36, 1)])] (job1 [])
     ((s.takeRx 0 0 (fun f => bits (fCls f) 0 8 == 3)).any (fun x => (x.2.job? 1).any (fun j => j.admitted && fSrc x.1 == j.alias? j.lead &&
       decide (bits (fPay x.1) 1 3 ≤ 4) && !entryBad x.2 (bits (fPay x.1) 8 8) (BitVec.ofNat 36 (bits (fPay x.1) 32 36)) false &&
       !classesMeet (putRoute j.routes (3 * 256 + 1) 1 false) && patchNewer j.routeEpoch (bits (fPay x.1) 16 16)) &&
       bitAt (fPay x.1) 0 == false && bits (fPay x.1) 164 1884 == 0)) = false) ∧
    (let s := withFlits [toMe 0 (item [(0, 8, 3), (8, 16, 1)]) (item [(0, 1, 1), (8, 8, 1), (16, 16, 1), (32, 36, 1), (128, 36, 1)])] (job1 [])
     ((s.takeRx 0 0 (fun f => bits (fCls f) 0 8 == 3)).any (fun x => x.2.jobs.all (fun j => j.admitted && fSrc x.1 == j.alias? j.lead) &&
       bitAt (fPay x.1) 0 && bits (fPay x.1) 1 3 == 0 && bits (fPay x.1) 4 4 == 0 && bits (fPay x.1) 68 60 == 0 &&
       bits (fPay x.1) 164 1884 == 0 && !entryBad x.2 1 1 false && patchNewer x.2.spoke.epoch 1 && !patchNewer (some 1) 1)) = true) ∧
    (let s := withFlits [toMe 0 (item [(0, 8, 3), (8, 16, 1)]) (item [(1, 3, 4), (8, 8, 1), (16, 16, 1), (32, 36, 1)])] (job1 [])
     ((s.takeRx 0 0 (fun f => bits (fCls f) 0 8 == 3)).any (fun x => (x.2.job? 1).any (fun j => j.admitted && fSrc x.1 == j.alias? j.lead &&
       decide (bits (fPay x.1) 1 3 ≤ 4) && !entryBad x.2 (bits (fPay x.1) 8 8) (BitVec.ofNat 36 (bits (fPay x.1) 32 36)) false &&
       !classesMeet (putRoute j.routes (4 * 256 + 1) 1 false) && patchNewer j.routeEpoch (bits (fPay x.1) 16 16)) &&
       bitAt (fPay x.1) 0 == false && bits (fPay x.1) 4 4 == 0 && bits (fPay x.1) 69 59 == 0 && bits (fPay x.1) 128 36 == 0 &&
       bits (fPay x.1) 164 1884 == 0)) = true) ∧
    ((withFlits [toMe 0 (item [(0, 8, 4), (8, 16, 1)]) 0] (job1 [])).takeRx 0 0 (fun f => bits (fCls f) 0 8 == 4)).isSome = true ∧
    (let f : SpokeFlit := mkFlit 1 17 1 0 0
     let s := withFlits [f] (job1 [])
     s.rxIdx 0 1 false = some 0 ∧ (s.port 0).rx[0]? = some f ∧ s.usable (s.forwardMask 17) = [] ∧
     (let t : State := { s with spoke := { s.spoke with forward := [(17, { primary := 0x100 })] } }
      (t.usable (t.forwardMask 17)).filter (fun p => State.inService (t.port p)) = [8] ∧ globalPort 0 = false ∧ flitClass f s.mod.id = 0 ∧ globalPort 8 = true)) := by
  decide +kernel

set_option maxRecDepth 100000 in
theorem witness_SpokeFlitSequence :
    (let s := withFlits [] (job1 [])
     let f := sealFlit (mkFlit 1 17 1 0 0) 0
     (s.port 0).st = .up ∧ fLvc f ≠ 15 ∧ flitGood f = true ∧ fSeq f = (s.port 0).rxSeq.toNat ∧ fDst f ≠ s.mod.id ∧
     flitGood (f + 1) = false ∧ (s.port 0).nakSent = false ∧ (let p : Port := { st := .up, nakSent := true, unacked := 31 }; p.nakSent = true ∧ 32 ≤ p.unacked + 1)) ∧
    (let g := toMe 0 6 0
     fDst g = live.mod.id ∧ lvcOrigin (fLvc g) = 0 ∧ ¬ (bits (fCls g) 0 8 ≤ 5)) ∧
    (let c := sealFlit (mkFlit 15 2 1 2 (item [(256, 8, 1), (264, 8, 4)])) 4095
     fLvc c = 15 ∧ flitGood c = true ∧ bitAt (fCls c) 1 = true ∧ bits (fPay c) 256 8 = 1 ∧ bits (fPay c) 264 8 = 4) ∧
    (let c := sealFlit (mkFlit 15 2 1 4 (item [(280, 8, 2)])) 4095
     flitGood c = true ∧ bitAt (fCls c) 2 = true ∧ bits (fPay c) 280 8 = 2) ∧
    (let s := withFlits [] (job1 [])
     let c := sealFlit (mkFlit 15 2 1 0 0) 4095
     fLvc c = 15 ∧ bitAt (fCls c) 2 = false ∧ flitGood c = true ∧ (s.port 0).replay.length = 0 ∧
     fSeq c = ((s.port 0).txSeq.toNat + 2 * 4096 - 0 + 0 - 1) % 4096 ∧ flitGood (c + 1) = false) := by decide +kernel

theorem witness_PortTrainsRestsAndWakes :
    (let s := withFlits [] (job1 [])
     (s.port 1).st = .down ∧ s.mod.mainOn = true ∧ 35 < s.ports.length ∧ (s.port 0).st = .up) ∧
    (let p : Port := { st := .training, peerMod := 1, peerPort := 3 }
     let s : State := { live with ports := live.ports.set 35 p }
     (s.port 35).st = .training ∧ (s.port 35).retrain = false ∧ ({ p with retrain := true } : Port).retrain = true) ∧
    (let s : State := { withFlits [] { job1 [] with routes := [] } with pwr := { standbyEn := true }, now := 10000000 }
     s.pwr.standbyEn = true ∧ (s.port 8).st = .up ∧ (∀ j ∈ s.jobs, ∀ r ∈ j.routes, r.ports.getLsbD 8 = false) ∧
     (s.port 8).lastFlit + 10000000 ≤ s.now ∧ (s.port 8).txq = [] ∧ (s.port 8).replay = [] ∧ (s.port 8).rx = [] ∧ globalPort 8 = true) ∧
    ({ live with ports := live.ports.set 0 { st := .standby } } : State).ports[0]?.map (·.st) = some .standby := by decide +kernel

theorem witness_LanesAndPortsFail :
    (let s := withFlits [] (job1 [])
     State.inService (s.port 0) = true ∧ (s.port 0).failed = none ∧ (s.port 0).spare = 4 ∧ 0 ≠ (s.port 0).spare ∧
     (∀ i < 36, i ≠ 0 → State.inService (s.port i) = true → (s.port i).peerMod ≠ (s.port 0).peerMod)) ∧
    (let s := withFlits [] (job1 [])
     (({ s with ports := s.ports.set 0 { s.port 0 with failed := some 1 } } : State).port 0).failed = some 1) := by decide +kernel

/-- A VC5 flit from module 1 (R289). -/
def vc5 (cls pay : Nat) : SpokeFlit := toMe 5 cls pay

/-- READ_REQ and WRITE_REQ of 512 bytes of job 1, WRITE_DATA of its first piece, OWN_QUERY, READ_DATA, DONE, OWN_ANSWER. -/
theorem witness_RemoteRequestsServed :
    let s (op : Nat) : State := withFlits [vc5 (vc5Word op false 1 3 0) (rangePay 0x1000 512)] (job1 [])
    ((s 0).takeRx 0 5 (fun f => xOp f == 0)).any (fun x => xJob x.1 == 1 && x.2.inUser (xAddr x.1) (xLen x.1) &&
      (x.2.job? 1).any (fun j => j.owns (xAddr x.1) (xLen x.1))) = true ∧ waitsHere 0 (s 0) = false ∧
    ((s 1).takeRx 0 5 (fun f => xOp f == 1)).isSome = true ∧
    ((s 5).takeRx 0 5 (fun f => xOp f == 5)).any (fun x => x.2.peerOwns 1 (xAddr x.1) (xLen x.1)) = true ∧
    (({ s 5 with jobs := [] } : State).takeRx 0 5 (fun f => xOp f == 5)).any (fun x => !x.2.peerOwns 1 (xAddr x.1) (xLen x.1)) = true := by
  decide +kernel

theorem witness_RemoteTransactionsLand :
    (let x : Txn := { xid := 3, peer := 1, job := 1, addr := 0x1000, len := 512, write := true }
     let s : State := { withFlits [vc5 (vc5Word 2 false 1 3 0) 0x77] (job1 []) with spoke := { serving := [x] } }
     s.mem.wf = true ∧ waitsHere 0 s = false ∧
     (s.takeRx 0 5 (fun f => xOp f == 2)).any (fun y => !xPoison y.1 &&
       decide (y.2.spoke.serving.find? (fun t => t.xid == xXid y.1 && t.peer == fSrc y.1) = some x)) = true ∧
     x.got + min 256 (x.len - 0 * 256) < x.len) ∧
    (∀ op ∈ [3, 4, 6], ((withFlits [vc5 (vc5Word op false 1 3 0) 0] (job1 [queueAt qM])).takeRx 0 5 (fun f => xOp f == op)).isSome = true) ∧
    (let f := vc5 (vc5Word 3 false 1 3 0) 0
     ({ rd := some 3 } : PeerMove).rd = some (xXid f) ∧ ({ rd := some 4 } : PeerMove).rd ≠ some (xXid f)) := by decide +kernel

/-- The three clauses meet at an error of 10,000 and of 10,001 (100 µs and more). -/
theorem witness_TimeMessages :
    let s : State := { withFlits [] (job1 []) with mss := { time := { peer := some 1, taken := true } } }
    directPeers s ≠ [] ∧ (s.port 0).st = .up ∧ (s.port 0).peerMod = 1 ∧ s.mss.time.taken = true ∧ s.mss.time.peer = some 1 ∧
    0 < s.mod.id ∧ State.reset.mss.time.taken = false ∧
    (((s.fabric + 10000 : Nat) : Int) - (s.fabric : Int)) ≤ 10000 ∧ 10000 < (((s.fabric + 10001 : Nat) : Int) - (s.fabric : Int)) := by
  decide +kernel

/-! ## Witnesses: memory and die links -/

def chans (x : Channel) (s : State) : State := { s with lp := { s.lp with channels := [(0, x)] } }

theorem witness_ChannelUpkeepAndRetrain :
    (let x : Channel := { temp := 100, trainTemp := some 0 }
     let s := chans x live
     s.chan? 0 = some x ∧ retrainDue s x = true ∧ retrainDue s { x with trainTemp := none } = false ∧ s.mod.mainOn = true ∧
     s.lp.lastStart = none ∧ heldAges s = []) ∧
    (let y : Channel := { held := true, nonConv := 2, hold := 512, refused := [(3, 9)] }
     (chans y live).chan? 0 = some y ∧ (chans y live).lp.channels = [(0, y)]) ∧
    (let y : Channel := { refused := [(3, 9)] }
     (chans y live).chan? 0 = some y ∧ y.held = false ∧ y.failed = false) := by decide +kernel

/-- A unit the patrol reads that is known to be bad; write runs of 64 and of 63 writes, of 99 and 100 ticks, with a read queued. -/
theorem witness_ChannelUpkeep :
    (let s := chans {} live
     (patrolPlace s 0 0).2.2.any (fun a => decide (s.markOf a = .clean)) = true ∧ readQueued s 0 = false ∧
     (s.rowUnits 0 0 0).isEmpty = false) ∧
    (let f : Flight := { record := 0, listId := 7, last := false, reads := [(0, 64)] }
     let s := chans { writes := 63, oldest := 4999901 } (running (job1 [{ queueAt qM with flight := [f] }]) [])
     readQueued s 0 = true ∧ s.now < 4999901 + 100 ∧ 4999900 + 100 ≤ s.now) := by decide +kernel

theorem witness_RowsAndChannelsFail :
    let s := chans {} live
    s.chan? 0 = some ({} : Channel) ∧ s.mod.mainOn = true ∧ s.freeSpare 0 = some 0 ∧ s.lp.moved.length < (if s.mod.tVar then 1 else 3) ∧
    (s.rowAddr 0 0 0).isSome = true ∧ (if s.mod.tVar then 1 else 3) ≤ ({ s.lp with moved := [1, 2, 3] } : Lpddr).moved.length ∧
    (∀ r ∈ ({} : Channel).badRows, r.2 + 100000000 < s.now) := by
  decide +kernel

/-- Link 0 (dies 0 and 1) at full width, epoch 1. -/
def linked (near far : LinkEnd) : State := { live with links := live.links.set 0 { near := near, far := far } }
def fullEnd : LinkEnd := { mask := 0xFFFFFFFF, width := some (1, 0xFFFFFFFF), quarter := false, rxMask := 0xFFFFFFFF, txMask := 0xFFFFFFFF }

/-- A data flit from tile 0 of die 0 to tile 1 of die 1, and control flits. -/
def dataDie : DieFlit := sealDie (place 44 12 1025) 0

set_option maxRecDepth 100000 in
theorem witness_DieFlitsAndControlFlits :
    let s := linked fullEnd fullEnd
    (s.link 0).out = false ∧ s.mod.mainOn = true ∧ dieHeld s (endDie 0 true) = false ∧ (s.linkEnd 0 true).rx = [] ∧
    dieFlitGood dataDie = true ∧ dCtrl dataDie = false ∧ dSeq dataDie = (s.linkEnd 0 true).rxSeq.toNat ∧
    endpointListed (dFrom dataDie) = true ∧ endpointListed (dTo dataDie) = true ∧ dTo dataDie / 1024 = endDie 0 true ∧
    dieFlitGood (dataDie + 1) = false ∧ (s.linkEnd 0 true).nakSent = false ∧ 16 ≤ ({ unacked := 15 } : LinkEnd).unacked + 1 ∧
    dTo (sealDie (place 44 12 2049) 0) / 1024 ≠ endDie 0 true ∧ endpointListed (dTo (sealDie (place 44 12 2049) 0)) = true ∧
    endpointListed 1023 = false ∧
    (let c := controlOf fullEnd false 0 1 none
     dieFlitGood c = true ∧ dCtrl c = true ∧ kWstate c = 0 ∧ kEpoch c = 1 ∧ kMask c = 0xFFFFFFFF ∧ kQuarter c = false) ∧
    (let c := controlOf { fullEnd with quarter := true } false 0 1 none
     dieFlitGood c = true ∧ kQuarter c = true) := by decide +kernel

set_option maxRecDepth 100000 in
theorem witness_DieLinkWidthChange :
    (∀ w ∈ [1, 2, 3], let c := controlOf { fullEnd with quarter := true, wstate := .proposed, newEpoch := 2, offered := 0xFFFFFFFF } false w 2 none
      dieFlitGood c = true ∧ dCtrl c = true ∧ kWstate c = w ∧ kEpoch c = 2 ∧ kMask c = 0xFFFFFFFF) ∧
    (let e : LinkEnd := { fullEnd with quarter := true, newEpoch := 2, began := 0, offered := 0xFF, replay := [dataDie], ackAt := 4999800 }
     let s := linked { e with wstate := .proposed } { e with wstate := .accepted }
     (s.linkEnd 0 false).wstate = .proposed ∧ (s.linkEnd 0 true).wstate = .accepted ∧ linkFrozen s 0 = false ∧
     quarterLanes 0 ≤ lanesIn ((s.linkEnd 0 false).offered &&& 0xFFFFFFFF) ∧ (s.linkEnd 0 false).began + 200 < s.now ∧
     (s.linkEnd 0 false).replays < 8 ∧ (s.linkEnd 0 false).replay ≠ [] ∧ (s.linkEnd 0 false).ackAt + 200 ≤ s.now ∧
     ¬ (e.ackAt + 1 + 200 ≤ s.now) ∧
     (linked { e with wstate := .committed } e).linkEnd 0 false = { e with wstate := .committed }) := by decide +kernel

/-- A lane with a spare wire left, one with none, and a link that is to leave service with seven lanes in common. -/
theorem witness_WireSubstitutionAndLoss :
    (linked fullEnd fullEnd).mod.mainOn = true ∧ State.spareLeft 0 fullEnd 31 = true ∧ 31 < linkLanes 0 ∧
    State.spareLeft 0 { fullEnd with wires := [(0, 1, 32), (0, 2, 33)] } 0 = false ∧
    lanesIn (0x7F &&& 0xFFFFFFFF) < quarterLanes 0 ∧ ¬ (lanesIn (0xFF &&& 0xFFFFFFFF) < quarterLanes 0) := by decide +kernel

theorem witness_BarrierAndBeacon :
    (live.dies[0]? = some ({} : Die) ∧ live.dies[1]? = some ({} : Die) ∧ ({} : Die).arrived = false ∧ live.mod.mainOn = true) ∧
    (let s : State := { live with dies := ({} : Die) :: List.replicate 3 { arrived := true } }
     ∀ i < 4, i ≠ 0 → ∀ y, s.dies[i]? = some y → y.arrived = true) ∧ ({ beaconFail := true } : Die).beaconFail = true := by
  refine ⟨by decide +kernel, ?_, rfl⟩
  intro s i hi h0 y hy
  have : i = 1 ∨ i = 2 ∨ i = 3 := by omega
  rcases this with rfl | rfl | rfl <;> (cases hy; rfl)

/-! ## Witnesses: power -/

theorem witness_GatesMeterAndGovern :
    live.mod.mainOn = true ∧ live.mss.tripped = false ∧ live.dies[3]? = some ({} : Die) ∧ 105 * live.pwr.cap < 100 * 2101 ∧
    ¬ 105 * live.pwr.cap < 100 * 2100 ∧ live.pwr.capDuty = false ∧
    (({ live with dies := [{ departed := 100 }] } : State).dies[0]?).any (fun x => decide (100 ≤ x.departed) && !x.replaced) = true := by
  decide +kernel

theorem witness_HeatAndDroop :
    live.mod.mainOn = true ∧ live.pwr.throttled = false ∧ live.mss.tripped = false ∧ live.dies[2]? = some ({} : Die) ∧
    (let s : State := { live with dies := [{ hold := some 0 }], now := 100001, pwr := { live.pwr with throttled := true } }
     s.dies[0]? = some { hold := some 0 } ∧ 0 + 100000 < s.now ∧ s.pwr.throttled = true) := by decide +kernel

/-- Module 2 leads its job here. -/
def ledHere (j : Job) : State := running { j with lead := 2 } []

theorem witness_CadenceLockExchange :
    (let s := ledHere (job1 [])
     s.runJob.any (fun j => s.leadNow j == some s.mod.id && !j.recov.active && !j.lock.withdrawn && !j.lock.ask) = true ∧
     s.job? 1 = s.runJob ∧ s.pwr.throttled = false ∧ s.pwr.limited = false ∧ s.job? 2 = none) ∧
    (let j : Job := { job1 [] with lock := { withdrawn := true } }
     (ledHere j).job? 1 = some { j with lead := 2 } ∧ j.recov.active = false ∧ j.lock.withdrawn = true) := by decide +kernel

/-! ## Witnesses: jobs, recovery, management, supply -/

/-- The running job stopped at its yield point; at its boundary with a parked job 2 that may start; a switch to job 1; a timetable
whose window 0 begins. -/
theorem witness_JobsSwitchAtTheirBoundaries :
    (let s : State := { running { job1 [] with strand := { strand1 .running with pipe := { st := .running, stopped := true } } } [] with
       sched := { stop := some { job := 1, at_ := 0, window := none, hard := false } } }
     s.runJob.any (fun j => j.quiet && !cancelPending j && decide (j.st = .running) && j.strand.pipe.stopped &&
       decide (j.strand.pipe.st ≠ .idle)) = true ∧ s.sched.stop.isSome = true) ∧
    (let s : State := { running (job1 []) [] with
       sched := { stop := some { job := 1, at_ := 0, window := none, hard := true } }
       jobs := [job1 [], { job1 [] with id := 2, rank := 3, st := .parked, routes := [] }] }
     s.runJob.any (fun j => atBoundary j && !cancelPending j && s.sched.stop.any (fun st =>
       let u := (s.overrun j.id st).parkJob j
       (choiceOf u).any (fun c => c.id == 2 && u.mayStart c && decide (c.st = .parked) && decide (u.job? c.id = some c)))) = true ∧ s.sched.switch = none ∧
     ((({ s with jobs := [job1 []] } : State)).runJob.any (fun j => s.sched.stop.any (fun st =>
       (choiceOf ((({ s with jobs := [job1 []] } : State).overrun j.id st).parkJob j)).isNone || true))) = true) ∧
    (let s : State := { running (job1 []) [] with sched := { switch := some { outgoing := none, incoming := some 1 } }, running := none }
     (∀ d ∈ s.dies, d.hold = none) ∧ s.job? 1 = some (job1 []) ∧ s.mod.st ≠ .drain ∧ (job1 []).hasRun = false ∧ (job1 []).parkAddr ≠ 0 ∧ s.stageUnacked = false) ∧
    (let t : Timetable := ⟨40000, 0, [⟨0, 0, false, 0⟩, ⟨20000, 5, true, 100⟩]⟩
     let s : State := { running (job1 []) [] with fabric := 1100000, sched := { table := some t } }
     t.inForce [] 1100000 = 1 ∧ t.boundary 1 = true ∧ s.sched.window ≠ 1 ∧ s.sched.stop = none ∧ s.sched.switch = none ∧ s.headless (job1 []) = false ∧
     eligible { s with sched := { s.sched with window := 1 } } (job1 []) = false) ∧
    agingDue { live with fabric := 10000000 } = true ∧ agingDue { live with fabric := 9999999 } = false := by decide +kernel

theorem witness_SwitchInstantsAndDeferrals :
    (let s := ledHere (job1 [])
     s.runJob.any (fun j => s.leadNow j == some s.mod.id && decide (j.st = .running) && !recentInstant s j) = true) ∧
    (let j : Job := { job1 [] with inst := { starters := [1], first := 4000000, stopAt := some 5000000 } }
     j.inst.starters ≠ [] ∧ j.inst.first + 1000000 ≤ (running j []).fabric ∧ recentInstant (running j []) j = false ∧
     (running j []).sched.stop = none) ∧
    (∀ k ∈ [DeferKind.gearTable, .timetable, .reshard 0, .jobCancel],
      let d : Deferral := { kind := k, record := 0, queue := qJ, data := defaultGears }
      let j : Job := { job1 [] with deferrals := [d], st := if k = .jobCancel then .draining else .running }
      j.deferrals.find? (fun d => deferralDue (running j []) j d) = some d ∧ gearOverCap d.data (running j []).pwr.cap = false) := by
  decide +kernel

/-- A remote edge of the stage, open and with an answer that matches it or none (R338 phase 7). -/
def openOut (a : Bool) : Job :=
  let e : Edge := { slot := 2, desc := outDesc + 2 ^ 80, peerMod := 1, st := .opened }
  let j : Job := { job1 [] with strand := { strand1 .running with edges := [e] } }
  { j with strand := { j.strand with edges := [{ e with answer := if a then some { openMsg (running j []) j e true with src := 1, tiles := 1 } else none }] } }

theorem witness_JobsSwitchAtTheirBoundaries_rest :
    (let s (asked a : Bool) : State := { withFlits [] (openOut a) with running := none, sched := { switch := some { outgoing := none, incoming := some 1, raised := true, asked := asked } } }
     (s false false).reopening (openOut false) ≠ [] ∧ (s true false).job? 1 = some (openOut false) ∧
     (∃ e ∈ (s true false).reopening (openOut false), e.answer = none) ∧
     ((s true true).reopening (openOut true)).all (fun e => e.answer.any (answerOk (s true true) (openOut true) e)) = true) ∧
    (let j : Job := { job1 [] with id := 2, rank := 3, st := .parked, routes := [] }
     let s : State := { running (job1 []) [] with
       sched := { stop := some { job := 1, at_ := 0, window := some 0, hard := true, next := some 2, chosen := true } }
       jobs := [job1 [], j] }
     s.sched.stop.any (fun st => decide (st.next = some 2) && decide (((s.overrun 1 st).parkJob (job1 [])).job? 2 = some j) &&
       ((s.overrun 1 st).parkJob (job1 [])).mayStart j) = true) ∧
    (let s : State := { running (job1 []) [] with running := none, jobs := [{ job1 [] with st := .parked }] }
     s.job? 1 = some { job1 [] with st := .parked } ∧ s.mod.st ≠ .drain) := by decide +kernel

/-- Requests with and without an instant in the last 10 ms; a stop instant and a start instant reached. -/
theorem witness_SwitchInstantsAndDeferrals_rest :
    (let j (x : Instants) : Job := { job1 [] with lead := 2, inst := x }
     let s (x : Instants) : State := running (j x) []
     recentInstant (s { last := some 4500000 }) (j { last := some 4500000 }) = true ∧
     stopPending (s { last := some 4500000 }) (j { last := some 4500000 }) = false ∧
     stopPending (s { last := some 4900000, stopAt := some 5000001 }) (j { last := some 4900000, stopAt := some 5000001 }) = true ∧
     (s {}).leadNow (j {}) = some 2 ∧ (s { stopAt := some 5000000 }).headless (j { stopAt := some 5000000 }) = false ∧
     rtNow (s {}) = false ∧ (s {}).sched.stop = none ∧ (s {}).sched.switch = none) ∧
    (let k : Job := { job1 [] with id := 2, st := .parked, inst := { startAt := some 5000000 } }
     let s : State := { running (job1 []) [] with jobs := [job1 [], k] }
     s.job? 2 = some k ∧ s.headless k = false ∧ s.runJob = some (job1 []) ∧ s.headless (job1 []) = false) ∧
    (let p : RGroup := { group1 with epoch := 4 }
     let j : Job := { job1 [] with ring := { groups := [group1], pending := [p] } }
     j.rpending? 0 = some p ∧ j.rgroup? 0 = some group1 ∧ p.epoch = (group1.epoch + 1) % 2 ^ 16) := by decide +kernel

theorem witness_SparesTakeOver :
    let s : State := { live with parts := { map := (List.range 256).map (fun l => l / 64 * 72 + l % 64) } }
    s.mod.mainOn = true ∧ s.parts.map.length = 256 ∧ (s.spareTiles 3).length = 8 ∧ s.mem.wf = true ∧ s.dies[3]? = some ({} : Die) ∧
    spareFor {} = some 24 ∧ spareFor { phases := [(0, some 24), (1, some 25)] } = none ∧ s.mod.hostLost = false ∧
    s.dropHost.mod.hostSwitched = false ∧
    ({ s with parts := { s.parts with failed := (List.range 8).map (fun i => 216 + 64 + i) } } : State).spareTiles 3 = [] := by decide +kernel

/-- An order of the lead, at the limit of 16 aliases, and one of a module that leads nothing. -/
theorem witness_RecoveryOrdersObeyed :
    (orderOf live 1 1).isSome = true ∧ (orderOf live 9 1) = none ∧ live.mod.take = none ∧ live.mod.st ≠ .drain ∧
    (job1 []).strand.pipe.st = .idle ∧ (job1 []).aliases.length < 16 ∧ (job1 []).locket.bound = false ∧
    (let j : Job := { job1 [] with aliases := (List.range 16).map (fun i => (i + 32, 3)) }
     16 ≤ j.aliases.length ∧ ∀ a ∈ j.aliases, a.1 ≠ 48) ∧
    (let s := running { job1 [] with strand := { strand1 .running with edges := [] } } []
     (((s.releaseHalted 1).updJob 1 (fun j => { j with
          recov := { j.recov with active := false, quiesce := none, owing := none, restoring := none }, lock := { j.lock with excuse := 1 } })).job? 1).any
       (fun k => !replayUnfit k 4) = true) := by decide +kernel

theorem witness_FailureConfirmed :
    live.mod.st ≠ .fault ∧ (inState .fault live).mod.st = .fault ∧
    (let s := ledHere (job1 [])
     s.runJob.any (fun j => hears s j 1 && !hears live { job1 [] with deputy := 3 } 9 && !j.recov.failed.contains 1 && (survivors s j).contains 1 &&
       actsFor s j) = true) ∧
    (let j : Job := { job1 [] with lead := 2, recov := { suspects := [(1, 7)], probes := [(1, 4900000)], failed := [3] } }
     (1, 4900000) ∈ j.recov.probes ∧ 4900000 + 100000 ≤ (running j []).now ∧ j.recov.suspects = [(1, 7)] ∧ 3 ∈ j.recov.failed) ∧
    (let j : Job := { job1 [] with lead := 2, recov := { phase := .routing, taking := some (1, 4), spare := some 9, failed := [1] } }
     (running j []).job? 1 = some j ∧ 9 ∉ j.recov.failed ∧ 9 ≠ (running j []).mod.id ∧ j.recov.taking ≠ none ∧ j.recov.spare = some 9 ∧
     (job1 []).recov.taking = none ∧ 9 ∉ (job1 []).recov.failed) := by
  decide +kernel

/-- The spare 9 fails in the middle of its takeover: the next candidate, 10, is asked, and no RECOVER goes out (R370). -/
theorem test_spare_fails :
    (let j : Job := { job1 [] with lead := 2, locket := { desc := item [(26, 4, 2), (576, 8, 9), (584, 8, 10)] }
                                   recov := { phase := .routing, taking := some (1, 4), spare := some 9, failed := [1] } }
     (((running j []).confirmFailed 1 9).job? 1).map (fun k => (k.recov.phase, k.recov.cand, k.recov.failed, k.recov.taking))) =
      some (.asking, 1, [1], some (1, 4)) := by decide +kernel

/-- A hold keeps the power at its floor of 1,200 W, a budget of 1,000 W keeps it there (R384, R389). -/
theorem test_pedal_floor :
    (let s : State := { live with pwr := { live.pwr with pedals := [{ bit := 0, job := 1, gear := 0, floor := 1200, since := 0 }] } }
     (pedalled s 2000 700, pedalled s 2000 1500, pedalled s 1000 700)) = (1200, 1500, 1000) := by decide +kernel

theorem witness_TakeoverAtSpareAndLead :
    (let j : Job := { job1 [] with lead := 2, recov := { phase := .reports, since := some 0 } }
     let s : State := { running j [] with now := 100000000 }
     actsFor s j = true ∧ 1 ∈ survivors s j ∧ 2 ∈ survivors s j ∧ j.recov.halted = false ∧ 0 + 100000000 ≤ s.now ∧
     (∃ x ∈ survivors s j, x ≠ 1)) ∧
    (let s : State := { live with jobs := [], running := none }
     s.mod.st = .run ∧ (∀ k ∈ s.jobs, k.admitted = false) ∧ s.mss.retired = false ∧ (∃ k ∈ live.jobs, k.admitted = true)) ∧
    (let j : Job := { job1 [] with lead := 2, locket := { desc := item [(26, 4, 1), (576, 8, 9)] }
                                   recov := { phase := .asking, taking := some (1, 4), askedAt := some 0 } }
     (lSpares j.locket.desc)[j.recov.cand]? = some 9 ∧ 0 + 100000 ≤ (running j []).now) := by decide +kernel

/-- The clauses on a spare that accepts, that admits, that has pulled, and on REPOINTs carried out. -/
theorem witness_TakeoverAtSpareAndLead_rest :
    (let j (r : Recov) : Job := { job1 [] with lead := 2, locket := { desc := item [(26, 4, 1), (576, 8, 9)] }, recov := r }
     let r : Recov := { phase := .asking, taking := some (1, 4), askedAt := some 0 }
     (running (j r) []).job? 1 = some (j r) ∧ (j r).aliases.length < 16 ∧ (lSpares (j r).locket.desc)[(j r).recov.cand]? = some 9 ∧
     (let r : Recov := { phase := .patching, spare := some 9 }; (running (j r) []).job? 1 = some (j r) ∧ r.durable = none) ∧
     (let r : Recov := { phase := .repointing, repoint := [2, 3] }; (running (j r) []).job? 1 = some (j r) ∧ ∃ m ∈ r.repoint, m ≠ 2)) ∧
    (let t : TakeSt := { lead := 1, job := 1, failed := 3, buddy := 2, step := 4, info := ⟨H, 3, false, false, 0, 0, []⟩ }
     t.stage = .pulling ∧ (({ live with mod := { live.mod with take := some t } } : State).mod.take = some t)) := by decide +kernel

/-- All but an image that passes every check, which rests on a signature and so on the free function of it. -/
theorem witness_FirmwareUpdateProceeds :
    live.mod.st ≠ .off ∧ live.mod.st ≠ .boot ∧ live.mss.upd = .idle ∧ swf 0xFF live.mss.flash = true ∧
    0x10000 + 4 ≤ bankSize - 64 ∧ live.failedChecks live.otherBank 2 5 ≠ [] := by decide +kernel

theorem witness_SensorsAndEffecters :
    live.mod.st ≠ .off ∧ sensorValue live 0x209 = some (some 0) ∧ sensorValue live 1 = some none ∧ sensorValue live 0 = none ∧
    (∀ v ∈ [1200, 2400], 1200 ≤ v ∧ v ≤ 2400 ∧ v % 10 = 0 ∧ gearOverCap live.pwr.table v = false) ∧
    gearOverCap (setBits live.pwr.table 160 7 50) 1200 = true ∧ live.pwr.pedalReq = false ∧ live.mss.margin = none := by decide +kernel

theorem witness_MarginRuns :
    (let s : State := { inState .ready live with jobs := [], running := none }
     s.mod.st ≠ .off ∧ marginBad 0xFF00 = false ∧ marginFits s 0xFF00 = true ∧ mgStress 0xFF00 = false ∧ marginBad 0x03 = true ∧
     marginFits live 0xFF00 = false) ∧
    (let s := withFlits [] { job1 [] with routes := [] }
     (s.port 0).st = .up ∧ (s.port 0).peerMod = 1 ∧ portQuiet s 0 = true ∧ portQuiet (withFlits [] (job1 [])) 0 = false) ∧
    marginResult ⟨0, 0, 0, 64, 1000, -3000⟩ = 0 := by decide +kernel

theorem witness_ManagementKeepsItsRecords :
    live.mod.st ≠ .off ∧ live.mss.restart = none ∧
    (let m : Mss := { restart := some 0, ledgerQ := [(0x0C, leBytes 8 1)], ledPos := 1, logQ := [⟨0, 0, 7, 0, 0, 1, 0⟩] }
     live.now < 0 + 8640000000000 ∧ m.ledgerQ = [(0x0C, leBytes 8 1)] ∧ m.ledPos ≠ 0) ∧
    bits 0x0801 0 8 = 1 ∧ bits 0x0801 8 8 ≠ 0 ∧ bits 0x0801 8 8 ≠ 0xFF ∧ bits 2 0 8 = 2 := by decide +kernel

theorem witness_SupplyAndPowerOn :
    live.mod.st = .run ∧ 35999 < 36000 ∧ State.reset.mod.st = .standby ∧ State.reset.mod.bootWait = none ∧
    (inState .off State.reset).mod.absent = false ∧ live.mss.tripped = false ∧ live.mod.st ≠ .off ∧
    (inState .ready live).mss.margin = none ∧ extestLoaded live = false ∧ live.mem.wf = true := by decide +kernel

theorem witness_EjectRemovalAndLink :
    State.reset.mod.st = .standby ∧ leadsRecovery (live.enter .drain).dropTest = false ∧
    (let s (f : Nat) : State := let d := { inState .drain live with jobs := [] }; { d with now := 20000000, mod := { d.mod with drainFrom := some f } }
     (s 0).mod.drainWait = false ∧ (∀ j ∈ (s 0).jobs, j.admitted = false) ∧ 0 + 10000000 ≤ (s 0).now ∧
     (s (s 0).now).now < (s 0).now + 10000000) ∧ (∃ j ∈ live.jobs, j.admitted = true) ∧
    live.mod.portB = false ∧ live.mod.hostUp = true ∧ live.mod.bootWait = none ∧ live.mod.mainOn = true ∧ live.mod.hostLost = false ∧
    live.pwr.shockMg < 2001 ∧ live.mss.lastShock = none := by decide +kernel

/-- Two hourly samples of monitor 5, 200 then 210 in 0.01 %: the slope is 2.4 % a day, FP32 0x4019999A, and 600 is reached in 39 h (R403). -/
theorem test_wear_record :
    (let s : State := { live with parts := { live.parts with wear := [(5, [210, 200])] } }
     ((ledgerFit 0 5 7 8 s).mss.ledgerQ.map (fun r => (r.1, bits (ofLe r.2) 0 64, bits (ofLe r.2) 64 32)))) =
      live.mss.ledgerQ.map (fun r => (r.1, bits (ofLe r.2) 0 64, bits (ofLe r.2) 64 32)) ++
        [(0x0B, 5 * 256 + 2 ^ 32 * 0x4019999A, (live.mss.date.at live.now + 3600 * 39) / 86400)] := by decide +kernel
/-! ## Witnesses: commands in flight -/

/-- A record that waits with WAIT_OP = 1 on counter 5 at 0: with the counter at 0 the wait is over (d = 0), at 2^31 it is not (d = 2^31). -/
theorem witness_WaitComparesSerially :
    let r := cmd 0x01 [(16, 12, 5), (28, 2, 1)]
    let s := atHead qJ r (fun j => { j with queues := [{ queueAt qJ with cur := some { record := r } }] }) []
    hWaitOp r = 1 ∧ (specOf (hKind r)).any (fun sp => s.runJob.any (fun j => (j.queue? qJ).any (fun q =>
      decide (q.cur = some { record := r }) && myTurn s j qJ (couldGo s j) && !holding s j && !dieHeld s (engDie qJ) && q.held.isEmpty && q.flight.isEmpty && sp.ready s j q r &&
      decide (gateOf j r = none) && decide (firstFail (sp.late s j q r) 7 2 = none) && (sp.exchange s j q { record := r }).isNone))) = true ∧
    ((s.ctr 5).toNat + 2 ^ 32 - hWaitVal r) % 2 ^ 32 < 2 ^ 31 ∧
    2 ^ 31 ≤ (((s.setCtr 5 0x80000000).ctr 5).toNat + 2 ^ 32 - hWaitVal r) % 2 ^ 32 := by decide +kernel

/-- Serial comparison of R53: a counter of 3 is past 0xFFFFFFFE, one of 0xFFFFFFF0 is not past 5. -/
theorem test_wait_wraps : ctrGe 3 0xFFFFFFFE = true ∧ ctrGe 0xFFFFFFF0 5 = false := by decide

/-- PIPE_START with a remote edge (R245); FEED_POST's entry with no replay buffer and no Locket (R240). -/
theorem witness_EngineCommandsAct :
    meets pipeSpec qS (atHead qS (cmd 0x62 [(160, 32, 4), (192, 16, 2), (224, 12, 8)]) (fun j => { j with strand :=
      { stages := [{ stage1 with exit := false }], edges := [{ slot := 2, desc := outDesc, peerMod := 1 }] } }) [])
      (fun j _ _ => j.strand.edges.any (fun e => gRemote e.desc)) = true ∧
    (let j : Job := { job1 [] with strand := strand1 .running }
     (running j []).job? 1 = some j ∧ (j.edge? 1).any (fun e => gReplayDepth e.desc == 0 && !j.locket.bound &&
       (j.stageNamed (gDnStage e.desc)).isSome) = true) := by decide +kernel

/-- A plain flight of a Mover queue; with CREC and a full ring, with CREC and room, without a record; a kept record. -/
theorem witness_ResultsThenRecordThenSignal :
    let f (r : Nat) : Flight := { record := r, listId := 7, last := true, writes := [(0x1000, leBytes 4 5)] }
    let j (w : Nat) (fs : List Flight) (hs : List Held) : Job := job1 [{ queueAt qM with flight := fs, wcount := w, held := hs }]
    let r := cmd 0x41 [(12, 1, 1)]
    let s : State := running (j 16 [f r] []) []
    (s.commit (f r).writes).2 = [] ∧ needRecordOf (f r) = true ∧ needRecordOf (f (cmd 0x41 [])) = false ∧
    ((s.commit (f r).writes).1).ringRoom { queueAt qM with wcount := 16 } = false ∧
    ((s.commit (f r).writes).1).ringRoom { queueAt qM with wcount := 15 } = true ∧
    s.runJob.any (fun k => decide (k.queue? qM = some { queueAt qM with flight := [f r], wcount := 16 })) = true ∧
    dieHeld s (engDie qM) = false ∧ channelWait s qM (f r) = false ∧
    (s.jobs.filter (fun x => decide (s.running = some x.id ∨ x.st = .draining))).length = 1 ∧
    (let h : Held := ⟨0, 1, 5, 1, false, true⟩
     let s : State := running (j 16 [] [h]) []
     s.ringRoom { queueAt qM with wcount := 16 } = false ∧ s.ringRoom { queueAt qM with wcount := 15 } = true) := by decide +kernel

theorem witness_CommandsEndWhenTheirWorkEnds :
    (let v : VRun := { tile := 3, iter := 1 }
     bits vrRec 146 16 = 1 ∧ bits vrRec 146 16 ≤ v.iter ∧ ({ v with iter := 0 } : VRun).iter < bits vrRec 146 16) ∧
    (let w : Stream := { desc := 0, start := 0, total := 2, ver := 0, holds := none, signalled := 2 }
     w.total ≤ w.signalled ∧ ({ w with signalled := 1 } : Stream).signalled < w.total ∧ w.down = false) ∧
    (strand1 .running).edges.map (·.st) = [.opened] ∧
    stopOver { job1 [] with strand := { strand1 .stopping with edges := [] } } = true ∧
    stopOver { job1 [] with strand := strand1 .running } = false ∧ (strand1 .replaying).pipe.st = .replaying ∧
    (let s := running (job1 [{ queueAt qT with flight := [{ record := vrRec, listId := 7, last := true }] }]) []
     s.runJob.any (fun j => (j.queue? qT).any (fun q => q.flight[0]?.isSome)) = true ∧ dieHeld s (engDie qT) = false) := by decide +kernel

/-- A VRUN of tile 3 whose next word is w. -/
def issuing (w : Nat) : State :=
  let r := cmd 0x21 [(136, 9, 1), (146, 16, 1)]
  let s := running (job1 [{ queueAt qT with flight := [{ record := r, listId := 7, last := true, op := .vrun { tile := 3 } }] }]) []
  { s with tiles := { s.tiles with istore := sput 0 [] (3 * 256) (BitVec.ofNat 64 w) } }

/-- Each of the 34 opcodes is the next word of a run somewhere, with masks disabled; one with the mask enabled (MEN, bit 29). -/
theorem witness_VectorInstructionsAct :
    (vectorCommands 3).all (fun p => (vrunOf (issuing p.1) 3).any (fun x =>
      decide ((sget 0 (issuing p.1).tiles.istore (3 * 256 + bits x.2.2.2.1.record 128 8 + x.2.2.2.2.pc)).toNat = p.1) && wOp p.1 == p.1) &&
      swf 0 (issuing p.1).tiles.vregs && swf 0 (issuing p.1).tiles.masks && (issuing p.1).mem.wf) = true ∧
    ((vectorCommands 3).map (·.1)).length = 34 ∧ wOp 0x18 ≠ 0x20 := by decide +kernel

/-- Witness of VectorLaneResults, of its clauses with one operation each. -/
theorem witness_VectorLaneResults :
    (List.map Prod.fst (laneArithmetic 3) ++ [0x16, 0x17, 0x18, 0x19, 0x1A, 0x1B, 0x05, 0x38]).all (fun o => (vrunOf (issuing o) 3).isSome && wOp o == o) = true ∧
    swf 0 (issuing 0x10).tiles.vregs = true ∧ (issuing 0x10).mem.wf = true := by decide +kernel

/-- Witness of VectorMemoryAndPacked: each of its opcodes is the next word of a run. -/
theorem witness_VectorMemoryAndPacked :
    [0x00, 0x01, 0x02, 0x20, 0x21, 0x22, 0x03, 0x04, 0x06, 0x29, 0x39].all (fun o => (vrunOf (issuing o) 3).isSome && wOp o == o) = true ∧
    swf 0 (issuing 0x10).tiles.vregs = true ∧ swf 0 (issuing 0x10).tiles.masks = true ∧ (issuing 0x10).mem.wf = true := by decide +kernel

theorem witness_MaskRegistersGovern :
    [0x18, 0x20, 0x28].all (fun o => (vrunOf (issuing o) 3).isSome && wOp o == o) = true ∧
    swf 0 (issuing 0x18).tiles.masks = true := by decide +kernel

/-- A stream of one chunk of a source on this module: its slot not released, released, with the chunk issued. -/
theorem witness_ChunksStreamInOrder :
    let x : Stream := { desc := streamDesc, start := 0, total := 3, ver := 0, holds := none }
    let s (x : Stream) : State := running (job1 [{ queueAt qM with flight := [{ record := wsRec, listId := 7, last := true, op := .stream x }] }]) []
    (streamAt (s x) qM 0).any (fun p => decide (p.2.2.2 = x) && earlierIssued p.2.1 0 && !holding (s x) p.1) = true ∧ moverStalls (s x) 0 = false ∧
    x.down = false ∧ x.issued < x.total ∧ dPeer streamDesc = false ∧ (s x).hostDown = false ∧ dSlots streamDesc = 2 ∧
    ctrGe ((s x).ctr (dFree streamDesc)) (releasedWant streamDesc (chunkNo x 0)) = true ∧
    ctrGe ((s x).ctr (dFree streamDesc)) (releasedWant streamDesc (chunkNo x 2)) = false ∧
    (∀ a ∈ (List.range (dCount streamDesc)).map (fun t => dPiece streamDesc 0 t 0),
      (s x).heldRange a (dBytes streamDesc) = false ∧ (s x).badUnits a (dBytes streamDesc) = [] ∧
        State.inHost a (dBytes streamDesc) = false) ∧
    (let y : Stream := { x with issued := 1, chunks := [⟨0, [(State.scratchAddr 3 0, leBytes 64 0)]⟩] }
     (streamAt (s y) qM 0).isSome = true ∧ ∀ r ∈ y.reads, r.2.1 ≠ 0) := by decide +kernel

/-! ## Witnesses: Strand, Ring, Locket -/

/-- The pipeline of one EXIT stage fed by the feed edge, with entry 0 arrived or not. -/
def pipeJob (recv : List RecvEntry) (g : Group) : Job :=
  { job1 [queueAt qS, { queueAt qT with lists := [] }] with strand := { strand1 .running with
      edges := [{ slot := 1, desc := feedDesc, peerMod := 0, st := .opened, fwd := { recv := recv } }], groups := [g] } }

theorem witness_ItemsRunThroughTheirGroup :
    (let s := running (pipeJob [] { id := 0 }) []
     (strandJob s).any (fun j => mayChoose j && (choose s j { id := 0 }).isNone && !holding s j) = true) ∧
    (let s := running (pipeJob [{ n := 0, units := [0], noticed := true }] { id := 0 }) []
     (strandJob s).any (fun j => mayChoose j && (choose s j { id := 0 }).any (fun x => decide (x.kind = .f) && x.a == 0)) = true) ∧
    (let o : Outstanding := { tag := ⟨0, .w, 0, 0⟩, started := true, toPush := [⟨qT, H, 1⟩] }
     o.toPush ≠ [] ∧ ((pipeJob [] { id := 0, out := some o }).queue? qT).any State.queueRoom = true ∧
     State.queueRoom { queueAt qT with lists := List.replicate 16 ⟨H, 1, 7, none⟩ } = false ∧
     ((pipeJob [] { id := 0, out := some { o with toPush := [] } }).stage? 0).isSome = true) := by decide +kernel

/-- A local edge from stage 5 to itself stands for both ends here; a remote one to module 1; an entry with its unit written. -/
def localDesc : Nat := item [(0, 16, 9), (17, 1, 1), (18, 1, 1), (32, 12, 5), (48, 12, 5), (80, 16, 1), (96, 16, 1), (112, 16, 1),
  (128, 16, 1), (72, 2, 1), (74, 1, 1), (144, 22, 0x1000), (208, 22, 0x2000)]

def sendJob (desc : Nat) (x : SendEntry) : Job :=
  { job1 [queueAt qS] with strand := { strand1 .running with
      edges := [{ slot := 2, desc := desc, peerMod := 1, st := .opened, fwd := { send := [x] } }] } }

theorem witness_EntriesAreForwarded :
    let written (v : DirView) : SendEntry := { n := 0, version := 9, written := [(sendAddr v stage1 0 0, 64), (sendAddr v stage1 0 1, 64)] }
    (let e : Edge := { slot := 2, desc := localDesc, peerMod := 1, st := .opened }
     let v := e.view false
     v.sndHere = true ∧ v.rcvHere = true ∧ (nextUnits v false stage1 [written v]).isSome = true ∧
     (strandJob (running (sendJob localDesc (written v)) [])).any (fun j => (j.stageNamed v.snd).isSome && (j.edge? 2).isSome) = true) ∧
    (let e : Edge := { slot := 2, desc := outDesc, peerMod := 1, st := .opened }
     let v := e.view false
     v.sndHere = true ∧ v.rcvHere = false ∧ (nextUnits v true stage1 [{ written v with itemDone := true }]).isSome = true ∧
     ((running (sendJob outDesc (written v)) []).sendJob (sendJob outDesc (written v)) 0 1 1 0 0).isNone = true ∧
     ((withFlits [] (sendJob outDesc (written v))).sendJob (sendJob outDesc (written v)) 0 1 1 0 0).isSome = true ∧
     v.sendUnits stage1.tileCount = 2 ∧ ({ written v with itemDone := true, sent := [0, 1] } : SendEntry).sent.length = 2) := by
  decide +kernel

/-- DATA, NOTICE and CREDIT flits of edge 8 on an open edge whose ends are here in turn, on a closed one, and on none. -/
theorem witness_StageFlitsLand :
    let inDesc : Nat := item [(0, 16, 8), (18, 1, 1), (24, 8, 1), (32, 12, 6), (48, 12, 5), (80, 16, 1), (96, 16, 1), (112, 16, 1),
      (128, 16, 1), (72, 2, 1)]
    let s (d k : Nat) (st : EdgeState) : State := withFlits [toMe 1 (item [(0, 2, k), (2, 16, 8)]) 0]
      { job1 [] with strand := { strand1 .running with edges := [{ slot := 2, desc := d, peerMod := 1, st := st }] } }
    let met (s : State) (k : Nat) : Bool := (s.takeRx 0 1 (fun f => fKind f == k)).any (fun x => (flitEdge x.2 x.1).any (fun p =>
      gRemote p.2.desc && fSrc x.1 == p.1.alias? p.2.peerMod && decide (p.1.edge? p.2.slot = some p.2)))
    (∀ k ∈ [0, 1], met (s inDesc k .opened) k = true) ∧ met (s outDesc 2 .opened) 2 = true ∧ met (s inDesc 0 .closed) 0 = true ∧
    (({ slot := 2, desc := inDesc, peerMod := 1 } : Edge).view false).rcvHere = true ∧
    (((withFlits [toMe 1 (8 * 4) 0] (job1 [])).takeRx 0 1 (fun f => fKind f == 0)).any (fun x =>
      (flitEdge x.2 x.1).isNone && (otherJobEdge x.2 x.1).isNone)) = true := by decide +kernel

theorem witness_EdgeEndsAgreeAndClose :
    let e : Edge := { slot := 2, desc := outDesc + 2 ^ 80, peerMod := 1, st := .down }
    let s := running { job1 [] with strand := { strand1 .running with edges := [e] } } []
    s.runJob.any (fun j => j.strand.edges.find? (fun x => gId x.desc == 8) == some e && (j.strand.edges.find? (fun x => gId x.desc == 7)).isNone &&
      j.alias? e.peerMod == 1 && gRemote e.desc && !s.reachable j 0 1 &&
      answerOk s j e { openMsg s j e true with tiles := 1 }) = true ∧
    (withFlits [] (job1 [])).reachable (job1 []) 0 1 = true := by decide +kernel

theorem witness_StepBoundaryClosesTheStep :
    let p : Pipe := { st := .running, mbPerStep := 1, stepCtr := 8 }
    let j : Job := { job1 [] with strand := { stages := [{ stage1 with fDone := 1, bDone := 1, wDone := 1 }], pipe := p } }
    let s : State := { running j [] with ctrs := [(8, 1)] }
    p.st = .running ∧ p.normWait = false ∧ stageDone p { stage1 with wDone := 1 } = true ∧
    ctrGe (s.ctr p.stepCtr) (BitVec.ofNat 32 (p.steps + 1)) = true ∧ ctrGe (live.ctr 8) 1 = false ∧ (strandJob s).isSome = true := by
  decide +kernel

/-- A RESULT of tag 5, epoch 3 from the previous member: with no job, with its bucket, before its command, from a stranger. (64 bytes more than `gatherRec`.) -/
theorem witness_RingPacketsMeetTheirBucket :
    let b : Bucket := { tag := 5, gather := true, record := gatherRec + 2 ^ 286, queue := qR, group := 0, epoch := 3, use := 1, dst := 0x2000, resDue := 1 }
    let cls (ty : Nat) : Nat := item [(0, 20, 5), (20, 16, 3), (46, 2, ty), (57, 4, 1)]
    let s (bs : List Bucket) (ty : Nat) : State := withFlits [toMe 3 (cls ty) 0x99] { withGroup (job1 [queueAt qR]) with ring := { groups := [group1], buckets := bs } }
    let fate (s : State) (ty : Nat) : Option Fate := (ringPacket 0 3 ty false s).bind (fun x => x.2.runJob.map (fun j => ringFate j x.1))
    fate (s [b] 1) 1 = some .deliver ∧ fate (s [] 0) 0 = some .early ∧ fate (s [] 2) 2 = some .early ∧
    fate (withFlits [toMe 3 (cls 1) 0] (job1 [])) 1 = some (.discard eProtect) ∧
    ((s [b] 1).runJob.bind (fun j => State.ringGroup j b)).any (fun g => (resultSeq b g)[b.resGot]? != none && g.at_ (withGroup (job1 [])) g.prev == 1 &&
      !g.tree && decide (b.since + g.timeout * 100000 ≤ (s [b] 1).now) && !State.bucketOver b) = true ∧ dieHeld (s [b] 1) (5 % 4) = false := by
  decide +kernel

/-- NORM_CLOSEs of step 0 and root 1 unsent, with root 2 (this module); a contribution and a total of that step. -/
theorem witness_NormExchangeDecidesTheGate :
    let c (root : Nat) (sent : Bool) : NormClose := { queue := qR, step := 0, root := root, list := [1, 2], timeout := 20, sent := sent }
    let j (cs : List NormClose) (rs : List NormRoot) : Job := { job1 [queueAt qR] with ring := { closes := cs, roots := rs } }
    let pkt (j : Job) : State := withFlits [toMe 3 (item [(0, 20, 0xFFFFF), (46, 2, 3)]) 0] j
    (j [c 1 false] []).ring.closes.find? (fun c => !c.sent) = some (c 1 false) ∧ sealedBefore (j [] []) 0 = true ∧
    (ringPacket 0 3 3 true (pkt (j [c 2 true] [{ step := 0 }]))).any (fun x => x.2.runJob.any (fun j => !isTotal x.2 j x.1 &&
      pktStep x.1 == 0 && (j.ring.roots.find? (fun r => r.step == 0)).any (fun r => r.got.isEmpty && r.total.isNone))) = true ∧
    (ringPacket 0 3 3 true (pkt (j [c 1 true] []))).any (fun x => x.2.runJob.any (fun j => isTotal x.2 j x.1)) = true ∧
    live.mod.id ≠ 1 ∧ 0 + 20 * 100000 ≤ live.now ∧ 0 + 2 * 20 * 100000 ≤ live.now ∧
    (let r : RingSt := { poisons := [(1, 2)], goodRun := 1000 }
     2 ≤ ((r.poisons.find? (fun p => p.1 == 1)).map (·.2)).getD 0 ∧ 1 ∉ r.reported ∧ 1000 ≤ r.goodRun) := by decide +kernel

/-- A Locket descriptor: buddy 1, hosting module 1 at 16 MiB with halves of 2 MiB and a mirror of 64 bytes, one spare, one static range,
partner 1 (R354). -/
def locketItem : Nat := item [(0, 8, 1), (8, 8, 1), (16, 1, 1), (26, 4, 1), (64, 48, 0x1000000), (128, 40, 0x200000), (192, 32, 64),
  (384, 48, H + 0x300), (432, 16, 1), (496, 8, 1), (576, 8, 9), (640, 48, H), (688, 16, 1), (704, 16, 1), (768, 48, H), (816, 16, 1), (832, 16, 1)]

theorem witness_LocketKeepsTheCopy :
    (let s := atHead qL (cmd 0xA0 [(128, 48, H + 0x200)]) id [(H + 0x200, 128, locketItem), (H + 0x300, 16, item [(64, 32, 64)])]
     meets locketSpec qL s (fun _ _ _ => decide (s.offers = [])) = true) ∧
    (let j : Job := { job1 [queueAt qL] with locket := { bound := true, desc := locketItem } }
     let s := running j []
     s.job? 1 = some j ∧ State.hosts j 1 = true ∧ State.hosts j 2 = false ∧ openHalf j = 0 ∧
     ((j.locket.srcStatics ++ (j.locket.half 0).fresh.ranges).map (·.len)).sum + 64 ≤ lHalf j.locket.desc ∧
     (j.locket.half (4 % 2)).fresh.short = false ∧ 0 + 64 ≤ lFeed j.locket.desc ∧ lFeed j.locket.desc < 1 + 64 ∧ s.offers = []) ∧
    (let b : StateBlockMsg := ⟨4, 0, 0, [], [], 0⟩
     let g : Sealing := { queue := qL, step := 4, skip := false, block := b, ranges := [] }
     let l : Locket := { binding := some qL, desc := locketItem, tandems := [0], tandem := some { queue := qL, entry := 0 }, sealing := some g }
     let j : Job := { job1 [queueAt qL] with locket := l }
     j.locket.answer = none ∧ j.alias? (lBuddy j.locket.desc) = 1 ∧ j.locket.tandems[0]? = some 0 ∧ j.locket.tandems.length ≤ 0 + 1 ∧
     j.alias? (lPartner j.locket.desc) = 1) := by decide +kernel

/-- Witness of DeferredCommandsJoin: its five kinds start (`strandCases`, `ringCases`, `controlCases`). -/
theorem witness_DeferredCommandsJoin :
    ∀ k ∈ [0x65, 0x84, 0xA2, 0xF0, 0xF1], k ∈ (strandCases ++ ringCases ++ controlCases).map (fun p => p.1.kind) := by decide +kernel


/-! ## Well-formedness: one ill-formed term for each check -/

def info0 (partner : Nat) : SrcInfo := ⟨H, partner, false, false, 0, 0, []⟩
def open0 : OpenMsg := ⟨1, 1, 8, false, 0, 0, 1, 1, 1, 1, 0, 0, 1⟩
def fp0 : FpMsg := ⟨1, 1, 0, 5, H, 0, 0, 64, false, none⟩
def block0 : StateBlockMsg := ⟨4, 0, H, [], [], 0⟩
def lock0 : LockMsg := ⟨1, 1, [], 0, false, [], 0, 0⟩
def lockOut0 : LockOut := ⟨1, 1, List.replicate 8 800, 0, 700⟩
def switch0 : SwitchMsg := ⟨1, 1, false, 0, 0, false⟩
def time0 : TimeMsg := ⟨1, 0, 0, 0, none, 2, none⟩
def quiet0 : QuietMsg := ⟨1, 1, 4, [(0, 2)], [], none, []⟩
def env0 : BootEnv := ⟨2, [], [], [], [], [], [], [], [], true, true, none⟩

/-- Queues: six engine codes, 256 tile engines, eight queues of a Mover, one Strand engine, and the engine that a row belongs to (R49, R50). -/
theorem wf_refuses_queues : [Instr.nop ⟨6, 0, 0⟩, .wait ⟨0, 256, 0⟩, .signal ⟨2, 1, 0⟩, .pushList ⟨1, 0, 8⟩, .mm ⟨1, 0, 0⟩, .fill ⟨0, 0, 0⟩,
    .stageBind ⟨3, 0, 0⟩, .reduce ⟨2, 0, 0⟩, .tandem ⟨5, 0, 0⟩, .gearTableLoad ⟨4, 0, 0⟩, .commandComplete ⟨0, 0, 0⟩ 65536,
    .chunkIssue ⟨1, 0, 0⟩ 65536].all (fun i => !i.wf) = true := by decide +kernel

/-- Numbers of tiles, groups, edges, ports, channels of the Spoke, and dies, links, wires, memory channels, Movers, banks, rows. -/
theorem wf_refuses_units : [Instr.vadd 256, .tileFail 256, .itemChoose 16, .edgeDown 64, .unitForward 64 true, .partialPkt 36,
    .dataFlit 0 7, .laneSubstitution 0 5, .barrierArrive 4, .beaconFail 4, .dieLinkRetrain 6 ⟨false, true, []⟩, .wireSubstitution 0 true 32 0,
    .wireSubstitution 0 true 0 34, .patrolRead ⟨128, .clean⟩, .holdQueueRetry 0 16, .rowRemap 0 16 0 false, .rowRemap 0 0 0x100000 false,
    .scratchBankFail 0 32 true, .regulatorPhaseFail 0 26, .throttleEngage 0 0, .thermalTrip 289 0, .windowStopTime 32,
    .shardTimeout 0x100000].all (fun i => !i.wf) = true := by decide +kernel

/-- Names of modules and jobs, and steps. -/
theorem wf_refuses_names : [Instr.failureNotice 256 1, .failureNotice 0 0, .suspect 0 1 256, .recover 0 65536, .deferredApply 0 .gearTable,
    .closingAck 256 1 8, .lockBroadcast 0, .normWindowClose 0x100000000, .replayOrder 1 1 0x100000000,
    .portTrainingComplete 0 true 256 0 0].all (fun i => !i.wf) = true := by decide +kernel

/-- Messages: each field that has a range, outside it. -/
theorem wf_refuses_messages : [Instr.openingNotice { open0 with tiles := 0 }, .openingNotice { open0 with tiles := 257 },
    .openingNotice { open0 with fwdLog2 := 16 }, .tandemFingerprintRequest { fp0 with len := 65 },
    .tandemFingerprintRequest { fp0 with off := 0x100000000 }, .buddyOffer (.offer 1 1 0 (info0 256)), .buddyOffer (.ack 1 0 true),
    .buddyOffer (.static 256 1 0 [] true), .stateBlock (.block 1 1 false { block0 with slots := [⟨4096, 0, [], 0⟩] }),
    .stateBlock (.block 1 1 false { block0 with slots := [⟨0, 0, List.replicate 17 0, 0⟩] }), .stateBlock (.ack 1 1 0x100000000),
    .lockReport { lock0 with gears := [(8, 800)] }, .lockReport { lock0 with estimate := List.replicate 11 (0, 0) },
    .lockReceive { lockOut0 with locks := [] }, .lockReceive { lockOut0 with grant := 11 }, .switchRequest { switch0 with rank := 6 },
    .timeMessage { time0 with source := 256 }, .timeMessage { time0 with port := 36 }, .quiescentReport { quiet0 with links := [(36, 2)] },
    .takeoverOffer (.admitted 1 1 true [(1280, 1, false)] []), .takeoverOffer (.offer 1 1 256 0 0 (info0 0)),
    .marginRunComplete [⟨4, 0, 0, 0, 0, 0⟩] [], .marginRunComplete [⟨0, 128, 0, 0, 0, 0⟩] [], .marginRunComplete [⟨0, 0, 1088, 0, 0, 0⟩] [],
    .marginRunComplete [] [36]].all (fun i => !i.wf) = true := by decide +kernel

/-- The host's side, power and the edge of the module. -/
theorem wf_refuses_the_rest : [Instr.mboxOutPost ⟨List.replicate 1025 0, true⟩, .bar0Write 65533 4 0, .bar0Write 0 3 0,
    .lockReportSend 0 (List.replicate 11 (0, 0)), .cadenceGate [] [0, 0, 0, 0], .refreshRateCheck (List.replicate 33 0),
    .wearSample [] ⟨[], []⟩, .wearLedgerWrite 3 0 0 0, .wearSample (List.replicate 128 0) ⟨[(288, 0)], []⟩,
    .wearSample (List.replicate 128 0) ⟨[], [(128, 0)]⟩, .firmwareData 0x2000000 [0], .sensorRead 65536, .effecterPowerCap 0x100000000,
    .perst 2, .shock 65536 0 0, .inputLoss 131072, .mctpEndpointMessage 128 0, .powerOnSequence { env0 with idPins := 256 },
    .powerOnSequence { env0 with bistTiles := [288] }, .powerOnSequence { env0 with bistBanks := [(0, 34)] },
    .powerOnSequence { env0 with goodPorts := [36] }].all (fun i => !i.wf) = true := by decide +kernel

/-- The same terms within their ranges are accepted. -/
theorem wf_accepts : [Instr.nop ⟨5, 0, 0⟩, .mm qT, .fill qM, .stageBind qS, .reduce qR, .tandem qL, .gearTableLoad qJ, .vadd 255,
    .itemChoose 15, .edgeDown 63, .dataFlit 35 6, .wireSubstitution 5 true 31 33, .rowRemap 127 15 0xFFFFF false, .failureNotice 255 65535,
    .openingNotice open0, .tandemFingerprintRequest fp0, .buddyOffer (.offer 1 1 0 (info0 3)), .stateBlock (.block 1 1 false block0),
    .lockReport lock0, .lockReceive lockOut0, .switchRequest switch0, .timeMessage time0, .quiescentReport quiet0,
    .takeoverOffer (.admitted 1 1 true [(1279, 1, false)] []), .marginRunComplete [⟨3, 127, 1087, 0, 0, 0⟩] [35],
    .mboxOutPost ⟨List.replicate 1024 0, true⟩, .bar0Write 65532 4 0, .throttleEngage 288 0, .powerOnSequence env0].all (fun i => i.wf) = true := by
  decide +kernel

/-! ## Worked examples of the spec -/

/-- The Bead8 block of chapter 4: its 32 values. -/
def beadValues : List (Nat × Val) :=
  ([.fin false 300 0, .fin true 1 0, .fin false 1 (-11)] ++ List.replicate 5 .zero ++ [.fin false 3 (-2), .fin false 1 (-11)] ++
    List.replicate 6 .zero ++ [.fin true 3 (-6)] ++ List.replicate 15 .zero : List Val).zipIdx.map (fun p => (p.2, p.1))

/-- The worked Bead8 conversion (R95, R97), and the same values as MXFP8 E4M3. -/
theorem test_bead8_block :
    encodeBlock 0x0A 0 0 beadValues = ⟨0x7F, [0, 3, 3, 0], [0x79, 0xB8] ++ List.replicate 6 0 ++ [0x4C, 0x02] ++ List.replicate 6 0 ++
      [0xAC] ++ List.replicate 15 0, false, 1⟩ ∧
    (let r := encodeBlock 0x0D 0 0 beadValues
     r.scale = 0x7F ∧ r.elems.getD 8 0 = 0x34 ∧ r.elems.getD 9 1 = 0 ∧ r.elems.getD 16 0 = 0x94 ∧ r.lost = 2) := by decide +kernel

/-- The worked stochastic rounding to BF16 (R87, R88). -/
theorem test_sr_bf16 : srHash 1 0 = 0x514E28B7 ∧ (toScalar 0x02 2 (srHash 1 0) (decodeFp fp32 0x3F804000)).code = 0x3F80 ∧
    (toScalar 0x02 2 (srHash 1 0) (decodeFp fp32 0x3F80C000)).code = 0x3F81 := by decide +kernel

/-- The worked master weight: one update of 2^-30 in W40, and the final weight as FP32 and BF16. -/
theorem test_w40_weight :
    (toFp w40 0 0 (addVal (decodeFp w40 0x3F80000000) (.fin false 1 (-30))).1).code = 0x3F80000002 ∧
    (toScalar 0 0 0 (decodeFp w40 0x3F800007D0)).code = 0x3F800008 ∧ (toScalar 0x02 0 0 (decodeFp w40 0x3F800007D0)).code = 0x3F80 := by
  decide +kernel

/-- The worked recompute of chapter 7: 1,000 at k = 1 overflows E4M3, at k = 3 it is 0x70; 2^20 overflows even at k = 7. -/
theorem test_recompute :
    (toScalar 0x04 0 0 ((Val.fin false 1000 0).scale (-1))).ovf = true ∧
    toScalar 0x04 0 0 ((Val.fin false 1000 0).scale (-3)) = { code := 0x70 } ∧
    (toScalar 0x04 0 0 ((Val.fin false 1 20).scale (-7))).ovf = true := by decide +kernel

/-- The worked clip factors of chapter 7: NORM2 36 and 0.25 under MAX_NORM 1 (R157). -/
theorem test_clip : (toFp32 (clipVal (.fin false 1 0) (.fin false 36 0))).code = 0x3E2AAAAB ∧
    (toFp32 (clipVal (.fin false 1 0) (.fin false 1 (-2)))).code = 0x3F800000 := by decide +kernel

/-- The worked ring packet of chapter 11: members 1, 2 and 3 of element 0, and member 0's final sum (R261, R265). -/
theorem test_ring_partials :
    let c (n : Int) : Nat := (toFp32 (Val.ofInt n)).code
    encodePacket 3 (-4) 0 [c 1500] = ⟨0, [0x75DC], [false]⟩ ∧
    (ringAdd (wireVal 3 (-4) 0x75DC).1 (Val.ofInt 1800)).1 = c 3300 ∧ encodePacket 3 (-4) 0 [c 3300] = ⟨0, [0x7A72], [false]⟩ ∧
    (ringAdd (wireVal 3 (-4) 0x7A72).1 (Val.ofInt 900)).1 = c 4200 ∧ encodePacket 3 (-4) 0 [c 4200] = ⟨1, [0x781A], [false]⟩ ∧
    (ringAdd (wireVal 3 (-3) 0x781A).1 (Val.ofInt (-200))).1 = 0x457A0000 ∧
    encodePacket 3 (-4) 1 [c 40000] = ⟨3, [0x7C00], [true]⟩ := by decide +kernel

/-- The worked pools of chapter 8 on a PK960-F: three addresses of the Module pool, and one of Die 1's (R167). -/
theorem test_addresses :
    let ps : List Pool := [⟨none, 1976⟩, ⟨some 0, 250⟩, ⟨some 1, 250⟩, ⟨some 2, 250⟩, ⟨some 3, 250⟩]
    let s : State := { live with lp := { live.lp with pools := ps } }
    s.userEnd = 0x02E800000000 ∧ (s.locate 0x0800).map (fun x => x.1) = some 1 ∧ (s.locate 0x00040800).map (fun x => x.1) = some 0 ∧
    (s.locate (0x40000 * 127)).map (fun x => x.1) = some 127 ∧
    (s.locate 0x022C80005A40).map (fun x => (x.1, x.2.2)) = some (43, 8093696 / 16) := by decide +kernel

/-- The worked boot banks of chapter 17: commit SEQ 1 is newer than 0xFFFFFFFE, and 2 newer than 1. -/
theorem test_commit_seq : newer 32 1 0xFFFFFFFE = true ∧ newer 32 0xFFFFFFFE 1 = false ∧ newer 32 2 1 = true := by decide +kernel

/-- The worked rejection of chapter 3, for job 1: PUSH_LIST with SEQ 7, TGT_ENGINE 1 and TGT_INSTANCE 17, at the job-control queue.
LAST_ERROR reads code 0x1001, engine 5, job 1; the check names ARG 0x1088; the record starts 0x8003_0001_0007_1001. -/
theorem test_push_list_rejected :
    let s := atHead qJ (cmd 0x03 [(112, 16, 7), (128, 4, 1), (136, 8, 17), (144, 48, H + 0x400), (192, 16, 1)]) id []
    (match exec (.pushList qJ) s with
     | .next t => t.bar.lastError.code == 0x1001 && t.bar.lastError.engine == 5 && t.bar.lastError.job == 1
     | _ => false) = true ∧
    s.runJob.any (fun j => (j.queue? qJ).any (fun q => (q.lists.head?).any (fun l =>
      decide (firstChecks pushSpec qJ s j q l (s.num H 64) = some ⟨0x1001, 0x1088, 0xFFFF⟩)))) = true ∧
    (s.putRecord 1 (queueAt qJ) (State.mkRecord 0x1001 7 1 0x03 { arg := 0x1088 } 0 0 0 0)).num (H + 0x1000) 8 = 0x8003000100071001 := by
  decide +kernel
/-! ## More clauses met -/

/-- A patch from a module that leads nothing, one whose epoch is not newer, a port of another die with and without a way there, a flow that
waits on a dropped port. -/
theorem witness_RoutesPatchAndForward_rest :
    (let f : SpokeFlit := mkFlit 1 17 1 0 0
     let s := withFlits [f] (job1 [])
     let up : State := { s with ports := s.ports.set 10 { st := .up, peerMod := 17 }, spoke := { s.spoke with forward := [(17, { primary := 0x400 })] } }
     let bare : State := { up with links := List.replicate 6 { out := true } }
     up.rxIdx 0 1 false = some 0 ∧ dieHeld up 0 = false ∧ up.flowOn (up.forward 17).dropped f = false ∧
     up.nextPort (outMask up 0 f) (State.flowKey f) f = some 10 ∧ State.inService (up.port 10) = true ∧ crossReady { up with links := (linked fullEnd fullEnd).links } 0 1 = true ∧
     crossReady bare 0 1 = false ∧
     (let t : State := { up with ports := up.ports.set 9 { st := .up, peerMod := 17, replay := [{ vc := 1, mask := 0x200, flit := f }] } }
      t.flowOn 0x200 f = true ∧ t.usable (outMask t 0 f) ≠ []) ∧
     (outMask { s with spoke := { s.spoke with forward := [(17, { primary := 0x10000 })] } } 8 f = 0)) ∧
    (let j : Job := { job1 [] with lead := 2, routeEpoch := some 5 }
     1 ≠ j.alias? j.lead ∧ 1 ≠ j.alias? { j with deputy := 3 }.deputy ∧ patchNewer j.routeEpoch 5 = false ∧ patchNewer j.routeEpoch 6 = true) := by
  decide +kernel

/-- A range of a channel in retrain: its hold queue with room, and full. -/
theorem witness_RemoteRequestsServed_rest :
    let s (h : Nat) : State := chans { held := true, hold := h } (withFlits [vc5 (vc5Word 0 false 1 3 0) (rangePay 0 64)] (job1 []))
    waitsHere 0 (s 511) = true ∧ ((s 511).takeRx 0 5 (fun f => xOp f == 0)).isSome = true ∧
    flitRange (s 511) (vc5 (vc5Word 0 false 1 3 0) (rangePay 0 64)) = some (0, 64) ∧ (s 511).stalledRange 0 64 = false ∧
    (s 511).chanUnits 0 0 64 = 1 := by decide +kernel

/-- Units the patrol reads under each mark, and a row with no spare left. -/
theorem witness_ChannelUpkeepAndRetrain_marks :
    (∀ m ∈ [Mark.soft, .hard, .uncorr, .poison], let s : State := { chans {} live with marks := [(0, m)] }; s.markOf 0 = m) ∧
    (patrolPlace (chans {} live) 0 0).2.2.isSome = true := by decide +kernel

set_option maxRecDepth 100000 in
/-- A request that ends at this die, a die that holds, an end with flits waiting, ends of both dies at a change. -/
theorem witness_DieFlitsAndControlFlits_rest :
    (let s : State := { linked { fullEnd with rx := [dataDie] } fullEnd with dies := live.dies.map (fun (d : Die) => { d with hold := some 0 }) }
     dieHeld s (endDie 0 true) = true ∧ dieHeld s (endDie 0 false) = true ∧ (s.linkEnd 0 false).rx ≠ []) ∧
    dClass dataDie = 0 ∧ dClass (sealDie (place 44 12 1025 + place 26 2 2) 0) ≠ 0 ∧
    (let c := controlOf { fullEnd with quarter := true } false 0 0 none
     kEpoch c = 0 ∧ (linked { fullEnd with wstate := .proposed, peerEpoch := 1 } fullEnd).linkEnd 0 false =
       { fullEnd with wstate := .proposed, peerEpoch := 1 }) := by decide +kernel

/-- Pedal work and none; an inlet inside its range before and outside it now, and one outside both times. -/
theorem witness_GatesAndHeat_rest :
    pedalWorks live 2000 2000 = false ∧
    (let s : State := { live with pwr := { live.pwr with pedals := [{ bit := 0, job := 1, gear := 0, floor := 1200, since := 0 }] } }
     pedalWorks s 700 700 = true) ∧
    (let s (x : Int) : State := { live with mss := { live.mss with sensors := [(0x230, x)] } }
     (s 300).mss.sensors.find? (fun y => y.1 == 0x230) = some (0x230, 300) ∧ (s 100).mss.sensors.find? (fun y => y.1 == 0x230) = some (0x230, 100)) := by
  decide +kernel

/-- The lead of a job that a switch brings in, with one report outstanding and with none. -/
theorem witness_CadenceLockExchange_rest :
    let j : Job := { job1 [] with lead := 2, routes := [⟨1, 1, false, 0⟩] }
    let s (rs : List (Nat × LockMsg)) : State := { withFlits [] { j with lock := { reports := rs } } with
      sched := { switch := some { outgoing := none, incoming := some 1, raised := true, asked := true, locking := some 5000000 } } }
    ((s []).job? 1).any (fun k => (s []).leadNow k == some 2 && answerWaits (s []) k [] && multiModule k) = true ∧ (s []).mod.id = 2 ∧
    ((s []).job? 1).any (fun k => !answerWaits (s []) k ((jobModules (s []) k).map (fun m =>
      ((s []).now, { src := m, job := 1, gears := [], power := 0, critical := false, estimate := [], cap := 0, budget := 0 })))) = true := by decide +kernel

/-- Phase 6 before and at the incoming job's level, phase 7 with and without remote edges, phase 8 waiting, answered and late. -/
theorem witness_JobsSwitchAtTheirBoundaries_phases :
    (let s (p : Nat) : State := { running (job1 []) [] with
       running := none, jobs := [{ job1 [] with st := .parked, lock := { mean := 900 } }], pwr := { live.pwr with power100 := p }
       sched := { switch := some { outgoing := none, incoming := some 1, raised := true } } }
     (s 899).pwr.power100 < switchLevel (s 899) ∧ switchLevel (s 900) ≤ (s 900).pwr.power100 ∧ (s 0).reopening (job1 []) = []) ∧
    (let j (x : Lock) : Job := { job1 [] with lead := 2, lock := x }
     (j { locks := some [1], at_ := 7 }).lock.locks.isSome = true ∧ 7 ≤ (j { locks := some [1], at_ := 7 }).lock.at_ ∧
     (j {}).lock.locks = none ∧ (running (j {}) []).leadNow (j {}) = some 2 ∧ 4900000 + 100000 ≤ (running (j {}) []).now ∧
     (running (j {}) []).now < 4900001 + 100000) ∧
    (let s : State := { running (job1 []) [] with dies := live.dies.map (fun (d : Die) => { d with hold := some 0 }) }
     ∃ d ∈ s.dies, d.hold ≠ none) := by decide +kernel

/-- A mirrored feed edge of a job with a Locket (R359); a stream whose source is gone while its tiles' die holds; a run in the air. -/
theorem witness_CommandsInFlight_rest :
    (let k : Job := { job1 [] with locket := { bound := true, desc := item [(0, 8, 1), (17, 1, 1)] } }
     gReplayDepth (feedDesc + place 76 2 1) ≠ 0 ∧ bitAt k.locket.desc 17 = true ∧ buddyOf k = 1) ∧
    (let w : Stream := { desc := streamDesc, start := 0, total := 2, ver := 0, holds := none, down := true }
     streamOver w = true ∧ tilesHeld live streamDesc = false ∧
     tilesHeld { live with dies := live.dies.map (fun (d : Die) => { d with hold := some 0 }) } streamDesc = true) ∧
    (let f : Flight := { record := mmRec, listId := 7, last := true, reads := [(0x1000, 64)] }
     let w : Flight := { record := wsRec, listId := 7, last := true, writes := [(0x1000, leBytes 64 5)] }
     tornBy (job1 [{ queueAt qM with flight := [w] }]) qT f = [(0x1000, leBytes 64 5)] ∧ tornBy (job1 []) qT f = []) := by decide +kernel

/-- A chunk read held by a channel in retrain, one of a die that holds, one of a peer with a way there and without. -/
theorem witness_ChunksStreamInOrder_rest :
    let x : Stream := { desc := streamDesc, start := 0, total := 3, ver := 0, holds := none }
    let a := dPiece streamDesc 0 0 0
    (let s : State := chans ({ held := true } : Channel) live
     (s.channelNow (a / 64)).isSome = true ∧ s.stalledRange a 64 = false ∧
     ((s.channelNow (a / 64)).any (fun c => State.inRetrain { s with lp := { s.lp with channels := [(c, ({ held := true } : Channel))] } } a 64)) = true ∧
     ({ s with dies := live.dies.map (fun (d : Die) => { d with hold := some 0 }) } : State).stalledRange a 64 = true) ∧
    (let d := streamDesc + place 56 8 1 + place 48 1 1
     let y : Stream := { x with desc := d }
     let j : Job := { job1 [queueAt qM] with routes := [⟨1025, 1, false, 0⟩] }
     (dPeer d = true → (askChunk (withFlits [] j) j y 0).isSome = true) ∧ (dPeer d = true → askChunk (running j []) j y 0 = none)) := by decide +kernel

/-- An edge still BOUND, one DOWN, one of a job that is not running, a notice for a job not admitted. -/
theorem witness_StageFlitsLand_rest :
    (let inDesc : Nat := item [(0, 16, 8), (18, 1, 1), (24, 8, 1), (32, 12, 6), (48, 12, 5), (80, 16, 1), (96, 16, 1), (112, 16, 1),
       (128, 16, 1), (72, 2, 1)]
     let s (st : EdgeState) (other : Bool) : State :=
       let j : Job := { job1 [] with strand := { strand1 .running with edges := [{ slot := 2, desc := inDesc, peerMod := 1, st := st }] } }
       let u := withFlits [toMe 1 (item [(0, 2, 0), (2, 16, 8)]) 0] j
       if other then { u with running := none } else u
     let edge (st : EdgeState) : Option EdgeState := ((s st false).takeRx 0 1 (fun f => fKind f == 0)).bind (fun x => (flitEdge x.2 x.1).map (·.2.st))
     edge .bound = some .bound ∧ edge .down = some .down ∧ dieHeld (s .bound false) 1 = false ∧ anyHeld (s .opened false) = false ∧
     ((s .opened true).takeRx 0 1 (fun f => fKind f == 0)).any (fun x => (flitEdge x.2 x.1).isNone && (otherJobEdge x.2 x.1).isSome) = true) ∧
    live.job? 9 = none ∧ (openMsg live (job1 []) { slot := 2, desc := outDesc, peerMod := 1 } false).answer = false := by decide +kernel

/-- A packet whose early buffer has no room left, one that names no job, a sum that reads no memory. -/
theorem witness_RingPacketsMeetTheirBucket_rest :
    (let p : RPkt := { src := 1, vc := 3, cls := BitVec.ofNat 64 (item [(0, 20, 5), (20, 16, 3), (57, 4, 1)]), payload := 0 }
     let j (n : Nat) : Job := { job1 [] with ring := { early := List.replicate n p } }
     earlyRoom ≤ earlyUsed live (j 8192) 1 ∧ earlyUsed live (j 8191) 1 < earlyRoom ∧ parkedOwner live (job1 []) p = none) ∧
    (let b : Bucket := { tag := 5, gather := true, record := gatherRec, queue := qR, group := 0, epoch := 3, use := 1, dst := 0x2000 }
     let p : RPkt := { src := 1, vc := 3, cls := BitVec.ofNat 64 (item [(0, 20, 5), (20, 16, 3), (46, 2, 1), (57, 4, 1)]), payload := 0 }
     readsFor (job1 []) group1 b p = [] ∧ live.runJob.isSome = true ∧ ({ live with running := none } : State).runJob = none) := by decide +kernel

/-- A contribution to a step that has closed, with the total sent, of a module that its NORM_CLOSE names and of one it does not. -/
theorem witness_NormExchangeDecidesTheGate_rest :
    let r : NormRoot := { step := 0, total := some (0, 0), list := [1] }
    let j : Job := { job1 [queueAt qR] with ring := { roots := [r], openStep := 7 } }
    (j.ring.roots.find? (fun r => r.step == 0)) = some r ∧ 1 ∈ r.list ∧ 3 ∉ r.list ∧ dieHeld (running j []) normInst = false ∧
    normOther (running j []) j 1 = none ∧ beforeClose (running j []) j 0 = false ∧
    (let p : RPkt := { src := 1, vc := 3, cls := BitVec.ofNat 64 (item [(0, 20, 0xFFFFF), (46, 2, 3)]), payload := 0 }
     mayContribute (running j []) j p = true ∧ isTotal (running j []) j p = false) := by decide +kernel

/-- A copy for which a seal waits, one that fills its half and one that overfills it, a request whose tensor a held channel keeps back. -/
theorem witness_LocketKeepsTheCopy_rest :
    (let b : StateBlockMsg := ⟨4, 0, 0, [], [], 1⟩
     let j : Job := { job1 [queueAt qL] with locket := { bound := true, desc := locketItem, awaited := some (1, b) } }
     locketWaits (running j []) (hostedRegion (running j []) 1) = false ∧ (j.locket.half 0).ranges.length < b.copied ∧
     locketWaits { running j [] with dies := live.dies.map (fun (d : Die) => { d with hold := some 0 }) } [] = true ∧
     lHalf j.locket.desc = 0x200000 ∧ 0 + 0x200000 ≤ lHalf j.locket.desc ∧ lHalf j.locket.desc < 1 + 0x200000) ∧
    (let j : Job := { job1 [] with strand := strand1 .running }
     let m : FpMsg := { fp0 with stage := 0, slot0 := 0x4000, len := 64 }
     fpRange j m = some (0x4000, 64) ∧ fpRange j { m with stage := 3 } = none ∧ locketWaits (running j []) [(0x4000, 64)] = false ∧
     (running j []).mapped 0x4000 64 = true) := by decide +kernel

end Sys2Proof.Tests
end

section
/-! SUPPORT. Facts about the model's shared functions: fields, port masks, memory set to zero, a die updated, and folds that change the
jobs only. -/
namespace Sys2Proof.Machine

/-! ## Fields -/

/-- A field of zeros is zeros in both of its parts. -/
theorem bits_split_eq_zero {x lo v w : Nat} (h : bits x lo (v + w) = 0) : bits x lo v = 0 ∧ bits x (lo + v) w = 0 := by
  have dvd : 2 ^ v * 2 ^ w ∣ x >>> lo := by rw [← pow_add]; exact Nat.dvd_of_mod_eq_zero h
  have high : x >>> (lo + v) = (x >>> lo) / 2 ^ v := by rw [Nat.shiftRight_add, Nat.shiftRight_eq_div_pow (x >>> lo) v]
  constructor
  · exact Nat.mod_eq_zero_of_dvd (dvd_of_mul_right_dvd dvd)
  · rw [bits, high]
    exact Nat.mod_eq_zero_of_dvd (Nat.dvd_div_of_mul_dvd dvd)

/-! ## Port masks -/

theorem State.mem_maskPorts {m : BitVec 36} {p : Nat} : p ∈ State.maskPorts m ↔ p < 36 ∧ m.getLsbD p = true := by
  simp [State.maskPorts]

/-- A mask built from a list has the ports of the list. -/
theorem State.getLsbD_portsMask (l : List Nat) {p : Nat} (hp : p < 36) : (State.portsMask l).getLsbD p = decide (p ∈ l) := by
  suffices h : ∀ m : BitVec 36, (l.foldl (fun m i => m ||| (1#36 <<< i)) m).getLsbD p = (m.getLsbD p || decide (p ∈ l)) by
    simpa [State.portsMask] using h 0
  induction l with
  | nil => simp
  | cons i l ih =>
    intro m
    have bit : (1#36 <<< i).getLsbD p = decide (p = i) := by
      rcases Nat.lt_trichotomy p i with lt | rfl | gt
      · simp [lt, hp, lt.ne]
      · simp [hp]
      · simp [hp, show ¬ p < i by omega, show p - i ≠ 0 by omega, gt.ne']
    rw [List.foldl_cons, ih, BitVec.getLsbD_or, bit]
    by_cases e : p = i <;> simp [e]

/-! ## Memory set to zero -/

theorem cells_replicate_blank (a n : Nat) : Memory.cells a (List.replicate n Memory.blank) = [] := by
  induction n generalizing a with
  | zero => rfl
  | succ n ih => rw [List.replicate_succ, Memory.cells, if_pos rfl, ih]

/-- A range cleared is a range written with zeros. -/
theorem Memory.clear_eq_write (m : Memory) (a n : Nat) : m.clear a n = m.write a (List.replicate n Memory.blank) := by
  simp [Memory.clear, Memory.write, cells_replicate_blank]

theorem Memory.byte_clear_in {m : Memory} {a n x : Nat} (h : m.wf = true) (lo : a ≤ x) (hi : x < a + n) :
    (m.clear a n).byte x = 0 := by
  obtain ⟨i, rfl⟩ := Nat.exists_eq_add_of_le lo
  rw [Memory.clear_eq_write, Memory.byte_write_in h (by simpa using hi), List.getElem_replicate]
  rfl

theorem Memory.byte_clear_out {m : Memory} {a n x : Nat} (h : m.wf = true) (out : x < a ∨ a + n ≤ x) :
    (m.clear a n).byte x = m.byte x := by
  rw [Memory.clear_eq_write, Memory.byte_write_out h (by simpa using out)]

/-! ## A die updated -/

theorem State.updDie_eq_set {s : State} {d : Nat} {x : Die} (die : s.dies[d]? = some x) (f : Die → Die) :
    s.updDie d f = { s with dies := s.dies.set d (f x) } := by
  suffices h : s.dies.mapIdx (fun i y => if i = d then f y else y) = s.dies.set d (f x) by rw [State.updDie, h]
  apply List.ext_getElem?
  intro i
  rw [List.getElem?_mapIdx, List.getElem?_set]
  by_cases e : d = i
  · subst e
    rw [die, if_pos rfl, if_pos (List.getElem?_eq_some_iff.1 die).1, Option.map_some, if_pos rfl]
  · have e' : i ≠ d := Ne.symm e
    simp [e, e']

/-! ## Updates of the jobs -/

/-- Where each step of a fold changes the jobs only, the fold changes the jobs only. -/
theorem State.foldl_onlyJobs {α : Type} {g : State → α → State} (step : ∀ t x, ∃ js, g t x = { t with jobs := js }) (l : List α) (s : State) :
    ∃ js, l.foldl g s = { s with jobs := js } := by
  induction l generalizing s with
  | nil => exact ⟨s.jobs, rfl⟩
  | cons x l ih =>
    obtain ⟨js, e⟩ := step s x
    obtain ⟨js', e'⟩ := ih { s with jobs := js }
    exact ⟨js', by rw [List.foldl_cons, e, e']⟩

/-- Where each step of a fold over pairs leaves the first part, so does the fold. -/
theorem foldl_fst_eq {α β γ : Type} {g : γ × β → α → γ × β} (step : ∀ acc x, (g acc x).1 = acc.1) (l : List α) (acc : γ × β) :
    (l.foldl g acc).1 = acc.1 := by
  induction l generalizing acc with
  | nil => rfl
  | cons x l ih => rw [List.foldl_cons, ih, step]

/-- Flights changed by a function that leaves the state: only the jobs change. -/
theorem State.mapFlights_eq {k : State → Job → QRef → Flight → State × Flight} (pure : ∀ t j r f, (k t j r f).1 = t) (s : State) (jid : Nat) :
    ∃ js, s.mapFlights jid k = { s with jobs := js } := by
  unfold State.mapFlights
  cases s.job? jid with
  | none => exact ⟨s.jobs, rfl⟩
  | some j =>
    refine State.foldl_onlyJobs (fun t q => ?_) j.queues s
    dsimp only
    rw [foldl_fst_eq]
    · exact ⟨_, rfl⟩
    · intro acc f
      cases acc.1.job? jid with
      | none => rfl
      | some j => exact pure ..

theorem State.noteAllWaits_eq (s : State) (jid : Nat) : ∃ js, s.noteAllWaits jid = { s with jobs := js } :=
  State.foldl_onlyJobs (fun _ _ => ⟨_, rfl⟩) _ s

theorem State.noteAllWaits_mapFlights_eq {k : State → Job → QRef → Flight → State × Flight} (pure : ∀ t j r f, (k t j r f).1 = t)
    (s : State) (jid : Nat) : ∃ js, (s.mapFlights jid k).noteAllWaits jid = { s with jobs := js } := by
  obtain ⟨js, e⟩ := State.mapFlights_eq pure s jid
  rw [e]
  exact State.noteAllWaits_eq { s with jobs := js } jid

/-- Dropping the transfers to the host changes the jobs only. -/
theorem State.dropHost_eq (s : State) : ∃ js, s.dropHost = { s with jobs := js } := by
  refine State.foldl_onlyJobs (fun t j => ?_) s.jobs s
  exact State.noteAllWaits_mapFlights_eq (fun t j r f => (apply_ite Prod.fst _ _ _).trans (ite_self t)) t j.id

@[simp] theorem State.dropHost_mem (s : State) : s.dropHost.mem = s.mem := by
  obtain ⟨js, e⟩ := s.dropHost_eq
  rw [e]

end Sys2Proof.Machine
end

section
/-! SUPPORT. Route patches and transit (R300-R307): what a patch does case by case, where a transit flit may go and what becomes of it. -/
namespace Sys2Proof.Machine

/-! ## Route patches (R300, R306) -/

/-- A message of VC0 that is there to take is given to its handler, on the state whose port has given it up. -/
theorem onVc0_of_takeRx {n msg : Nat} {s u : State} {f : SpokeFlit} (k : SpokeFlit → State → State)
    (h : s.takeRx n 0 (fun f => bits (fCls f) 0 8 == msg) = some (f, u)) : onVc0 n msg s k = k f u := by
  simp [onVc0, h]

theorem exec_routePatch_of_takeRx {n : Nat} {s u : State} {f : SpokeFlit}
    (h : s.takeRx n 0 (fun f => bits (fCls f) 0 8 == 3) = some (f, u)) :
    exec (.routePatch n) s = .next (settle s (applyPatch f u)) :=
  congrArg (done s) (onVc0_of_takeRx applyPatch h)

theorem exec_patchAck_of_takeRx {n : Nat} {s u : State} {f : SpokeFlit}
    (h : s.takeRx n 0 (fun f => bits (fCls f) 0 8 == 4) = some (f, u)) :
    exec (.patchAck n) s = .next (settle s (takePatchAck f u)) :=
  congrArg (done s) (onVc0_of_takeRx takePatchAck h)

/-- The sender of a flit is a job's lead or deputy, as the job's alias table has them. -/
def leads (f : SpokeFlit) (j : Job) : Bool := fSrc f == j.alias? j.lead || fSrc f == j.alias? j.deputy

theorem leads_iff {f : SpokeFlit} {j : Job} : leads f j = true ↔ fSrc f = j.alias? j.lead ∨ fSrc f = j.alias? j.deputy := by
  simp [leads]

section
variable {f : SpokeFlit} {u : State} {j : Job}

/-- R306: a route table obeys only the lead and the deputy of its job. -/
theorem applyPatch_of_stranger (tbl : bitAt (fPay f) 0 = false) (uniq : ∀ k ∈ u.jobs, k.id = bits (fCls f) 8 16 → k = j)
    (out : leads f j = false) : applyPatch f u = u.log eProtect 7 (fSrc f) (bits (fCls f) 8 16) := by
  have none_leads : (u.jobs.filter (fun k => k.admitted && k.id == bits (fCls f) 8 16)).any (leads f) = false := by
    rw [List.any_eq_false]
    intro k hk
    obtain ⟨mem, ok⟩ := List.mem_filter.1 hk
    rw [uniq k mem (by simpa using (Bool.and_eq_true_iff.1 ok).2), out]
    exact Bool.false_ne_true
  unfold leads at none_leads
  simp [applyPatch, tbl, none_leads]

/-- R306: a sound patch of a route table replaces its entry if its epoch is newer, and is acknowledged with code 0 either way. -/
theorem applyPatch_route (tbl : bitAt (fPay f) 0 = false) (job : u.job? (bits (fCls f) 8 16) = some j) (mem : j ∈ u.jobs)
    (id : j.id = bits (fCls f) 8 16) (adm : j.admitted = true) (lead : leads f j = true) (cls : bits (fPay f) 1 3 ≤ 4)
    (rsv₁ : bits (fPay f) 4 4 = 0) (rsv₂ : bits (fPay f) 69 59 = 0) (fall : bits (fPay f) 128 36 = 0) (rsv₃ : bits (fPay f) 164 1884 = 0)
    (entry : entryBad u (bits (fPay f) 8 8) (BitVec.ofNat 36 (bits (fPay f) 32 36)) (bitAt (fPay f) 68) = false)
    (classes : classesMeet (putRoute j.routes (bits (fPay f) 1 3 * 256 + bits (fPay f) 8 8)
      (BitVec.ofNat 36 (bits (fPay f) 32 36)) (bitAt (fPay f) 68)) = false) :
    applyPatch f u = ackPatch (if patchNewer j.routeEpoch (bits (fPay f) 16 16) = true then
        u.updJob (bits (fCls f) 8 16) (fun k => { k with
          routes := putRoute j.routes (bits (fPay f) 1 3 * 256 + bits (fPay f) 8 8)
            (BitVec.ofNat 36 (bits (fPay f) 32 36)) (bitAt (fPay f) 68)
          routeEpoch := some (bits (fPay f) 16 16) }) else u)
      (fSrc f) (bits (fCls f) 8 16) (bits (fPay f) 16 16) 0 := by
  have owner : (u.jobs.filter (fun k => k.admitted && k.id == bits (fCls f) 8 16)).any (leads f) = true :=
    List.any_eq_true.2 ⟨j, List.mem_filter.2 ⟨mem, by simp [adm, id]⟩, lead⟩
  unfold leads at owner
  have narrow : ¬ 4 < bits (fPay f) 1 3 := by omega
  cases new : patchNewer j.routeEpoch (bits (fPay f) 16 16) <;>
    simp [applyPatch, tbl, owner, job, rsv₁, rsv₂, rsv₃, fall, narrow, entry, classes, new]

/-- R306: a sound and newer patch of the forwarding table replaces both masks; the ports that it drops are remembered. -/
theorem applyPatch_forward (tbl : bitAt (fPay f) 0 = true) (mem : j ∈ u.jobs) (adm : j.admitted = true) (lead : leads f j = true)
    (cls : bits (fPay f) 1 3 = 0) (rsv₁ : bits (fPay f) 4 4 = 0) (rsv₂ : bits (fPay f) 68 60 = 0) (rsv₃ : bits (fPay f) 164 1884 = 0)
    (prim : entryBad u (bits (fPay f) 8 8) (BitVec.ofNat 36 (bits (fPay f) 32 36)) false = false)
    (fall : entryBad u (bits (fPay f) 8 8) (BitVec.ofNat 36 (bits (fPay f) 128 36)) false = false)
    (new : patchNewer u.spoke.epoch (bits (fPay f) 16 16) = true) :
    let e := u.forward (bits (fPay f) 8 8)
    let ports : BitVec 36 := BitVec.ofNat 36 (bits (fPay f) 32 36)
    let fall : BitVec 36 := BitVec.ofNat 36 (bits (fPay f) 128 36)
    applyPatch f u = ackPatch { u with spoke := { u.spoke with
        forward := sput {} u.spoke.forward (bits (fPay f) 8 8) { e with
          primary := ports, fallback := fall, dropped := (e.dropped ||| e.primary ||| e.fallback) &&& ~~~ports &&& ~~~fall }
        epoch := some (bits (fPay f) 16 16) } } (fSrc f) (bits (fCls f) 8 16) (bits (fPay f) 16 16) 0 := by
  have owner : (u.jobs.filter Job.admitted).any (leads f) = true :=
    List.any_eq_true.2 ⟨j, List.mem_filter.2 ⟨mem, adm⟩, lead⟩
  unfold leads at owner
  obtain ⟨transit, rest⟩ := bits_split_eq_zero (v := 1) (w := 59) rsv₂
  have transit' : bitAt (fPay f) 68 = false := by simp [bitAt, transit]
  simp [applyPatch, tbl, owner, cls, rsv₁, rest, rsv₃, transit', prim, fall, new]

end

/-! ## Transit (R302, R305, R307) -/

/-- R302: a transit flit may leave by the ports of its forwarding entry in use, never by a second global port. -/
theorem getLsbD_outMask (s : State) (n : Nat) (f : SpokeFlit) {p : Nat} (hp : p < 36) : (outMask s n f).getLsbD p =
    ((s.forwardMask (fDst f)).getLsbD p && !(globalPort p && (globalPort n || flitClass f s.mod.id == 1))) := by
  rw [outMask, State.getLsbD_portsMask _ hp, Bool.eq_iff_iff, decide_eq_true_iff, List.mem_filter, State.mem_maskPorts]
  simp [hp]

theorem State.usable_zero (s : State) : s.usable 0#36 = [] := by
  simp [State.usable, State.maskPorts]

section
variable {n vc i : Nat} {f : SpokeFlit} {s : State} (oldest : s.rxIdx n vc false = some i) (flit : (s.port n).rx[i]? = some f)
  (free : dieHeld s (n / 9) = false)
include oldest flit free

theorem forwardFlit_unreachable (no : s.usable (outMask s n f) = []) (listed : ¬ (outMask s n f = 0 ∧ s.forwardMask (fDst f) ≠ 0)) :
    forwardFlit n vc s = (s.dropRx n i).tellUnreachable (fSrc f) (fDst f) := by
  simp only [forwardFlit, portDie, oldest, flit, free, no, if_neg listed, List.isEmpty_nil, if_true, Bool.false_eq_true, if_false]

theorem forwardFlit_secondGlobal (empty : outMask s n f = 0#36) (listed : s.forwardMask (fDst f) ≠ 0#36) :
    forwardFlit n vc s = (s.dropRx n i).log eField 7 n 0 := by
  simp [forwardFlit, portDie, oldest, flit, free, empty, listed, State.usable_zero]

/-- R306: while flits of its flow are on a port that a patch dropped, a flit waits. -/
theorem forwardFlit_flowOn (can : s.usable (outMask s n f) ≠ []) (on : s.flowOn (s.forward (fDst f)).dropped f = true) :
    forwardFlit n vc s = s := by
  simp [forwardFlit, portDie, oldest, flit, free, can, on]

section
variable (can : s.usable (outMask s n f) ≠ []) (off : s.flowOn (s.forward (fDst f)).dropped f = false)
include can off

/-- While its bundle re-forms, or the port it is dealt to sleeps, a flit waits. -/
theorem forwardFlit_noPort (no : ∀ p, s.nextPort (outMask s n f) (State.flowKey f) f = some p → State.inService (s.port p) = false) :
    forwardFlit n vc s = s := by
  have kept : (s.nextPort (outMask s n f) (State.flowKey f) f).filter (fun p => State.inService (s.port p)) = none := by
    simpa [Option.filter_eq_none_iff] using no
  simp [forwardFlit, portDie, oldest, flit, free, can, off, kept]

variable {p : Nat} (next : s.nextPort (outMask s n f) (State.flowKey f) f = some p) (up : State.inService (s.port p) = true)
include next up

theorem forwardFlit_sameDie (die : p / 9 = n / 9) :
    forwardFlit n vc s = ((s.dropRx n i).sendMask (outMask s n f) (State.flowKey f) f).getD s := by
  simp [forwardFlit, portDie, oldest, flit, free, can, off, next, Option.filter_some, up, die]

/-- R316: to a port of another die a flit goes over the die links, if the one on the way takes it now. -/
theorem forwardFlit_otherDie (die : p / 9 ≠ n / 9) : forwardFlit n vc s =
    if crossReady s (n / 9) (p / 9) = true then ((crossDies (s.dropRx n i) n p).sendMask (outMask s n f) (State.flowKey f) f).getD s else s := by
  cases ready : crossReady s (n / 9) (p / 9) <;> simp [forwardFlit, portDie, oldest, flit, free, can, off, next, Option.filter_some, up, die, ready]

end
end

/-! ## The obligation -/

/-- Settles O12: the cases of `applyPatch` and of `forwardFlit`, one lemma each, put together. -/
theorem routesPatchAndForward : Obligations.RoutesPatchAndForward := by
  unfold Obligations.RoutesPatchAndForward
  constructor
  · intro port f s u j job key ports rs
    refine ⟨fun taken isJob id adm mem uniq tbl => ⟨?_, ?_, ?_⟩, ?_, ?_⟩
    · intro lead cls rsv₁ rsv₂ fall rsv₃ entry classes new
      rw [exec_routePatch_of_takeRx taken,
        applyPatch_route tbl isJob mem id adm (leads_iff.2 lead) cls rsv₁ rsv₂ fall rsv₃ entry classes, if_pos new]
      rfl
    · intro notLead notDeputy
      have out : leads f j = false := by simp [leads, notLead, notDeputy]
      rw [exec_routePatch_of_takeRx taken, applyPatch_of_stranger tbl uniq out]
      rfl
    · intro lead old cls rsv₁ rsv₂ fall rsv₃ entry classes
      rw [exec_routePatch_of_takeRx taken,
        applyPatch_route tbl isJob mem id adm (leads_iff.2 lead) cls rsv₁ rsv₂ fall rsv₃ entry classes, old, if_neg Bool.false_ne_true]
      rfl
    · intro k mem taken adm tbl lead cls rsv₁ rsv₂ rsv₃ prim fall new
      rw [exec_routePatch_of_takeRx taken,
        applyPatch_forward tbl mem adm (leads_iff.2 lead) cls rsv₁ rsv₂ rsv₃ prim fall new]
      rfl
    · intro taken
      rw [exec_patchAck_of_takeRx taken]
      rfl
  · intro n vc i f s oldest flit free m key go stays
    have step : exec (.transitForward n vc) s = done s (forwardFlit n vc s) := rfl
    refine ⟨fun p hp => getLsbD_outMask s n f hp, ?_, ?_, ?_, ?_⟩
    · intro no listed
      rw [step, forwardFlit_unreachable oldest flit free no listed, done_eq]
    · intro empty listed
      rw [step, forwardFlit_secondGlobal oldest flit free empty listed]
      rfl
    · intro can on
      show exec (.transitForward n vc) s = .next s
      rw [step, forwardFlit_flowOn oldest flit free can on, done_self]
    · intro can off
      refine ⟨fun no => ?_, fun p next up => ⟨fun die => ?_, fun die ready => ?_, fun die busy => ?_⟩⟩
      · show exec (.transitForward n vc) s = .next s
        rw [step, forwardFlit_noPort oldest flit free can off no, done_self]
      · rw [step, forwardFlit_sameDie oldest flit free can off next up die, done_eq]
      · rw [step, forwardFlit_otherDie oldest flit free can off next up die, if_pos ready, done_eq]
      · show exec (.transitForward n vc) s = .next s
        rw [step,
          forwardFlit_otherDie oldest flit free can off next up die, busy, if_neg Bool.false_ne_true, done_self]

end Sys2Proof.Machine
end

section
/-! SUPPORT. Spares brought into use (R10, R342-R347): tiles, scratch banks, regulator phases, wear trending and the host port. -/
namespace Sys2Proof.Machine

/-! ## Tiles (R344) -/

@[simp] theorem State.mapTile_map (s : State) (l p c : Nat) : (s.mapTile l p c).parts.map = s.parts.map.set l p := rfl

theorem State.mapTile_mem (s : State) (l p c : Nat) : (s.mapTile l p c).mem =
    (s.mem.clear (State.scratchAddr l 0) 0x400000).clear (State.accAddr l 0 0) 0x40000 := rfl

/-- The scratch of a tile on a new physical tile is zero. -/
theorem State.mapTile_byte_scratch {s : State} {l p c a : Nat} (wf : s.mem.wf = true) (lo : State.scratchAddr l 0 ≤ a)
    (hi : a < State.scratchAddr l 0 + 0x400000) : (s.mapTile l p c).mem.byte a = 0 := by
  have wf' := Memory.wf_clear (State.scratchAddr l 0) 0x400000 wf
  rw [State.mapTile_mem]
  by_cases acc : a < State.accAddr l 0 0 ∨ State.accAddr l 0 0 + 0x40000 ≤ a
  · rw [Memory.byte_clear_out wf' acc, Memory.byte_clear_in wf lo hi]
  · exact Memory.byte_clear_in wf' (by omega) (by omega)

/-- Memory below the scratch windows is as before a tile is mapped anew. -/
theorem State.mapTile_byte_below {s : State} {l p c a : Nat} (wf : s.mem.wf = true) (lt : a < State.scratchBase) :
    (s.mapTile l p c).mem.byte a = s.mem.byte a := by
  have scratch : a < State.scratchAddr l 0 := by unfold State.scratchAddr; omega
  have acc : a < State.accAddr l 0 0 := by unfold State.accAddr State.accBase; unfold State.scratchBase at lt; omega
  rw [State.mapTile_mem, Memory.byte_clear_out (Memory.wf_clear _ _ wf) (.inl acc), Memory.byte_clear_out wf (.inl scratch)]

/-- A tile marked failed, the commands in flight on it poisoned. -/
def State.markFailed (s : State) (l : Nat) : State :=
  { s.poisonTile l with parts := { (s.poisonTile l).parts with
    failed := (s.poisonTile l).parts.failed ++ [(s.poisonTile l).parts.map.getD l 0] } }

section
variable {s : State} {l : Nat} (tile : l < s.parts.map.length) (on : s.mod.mainOn = true)
include tile on

theorem failTile_eq : failTile l s = match (s.markFailed l).spareTiles (l / 64) with
    | [] => (s.markFailed l).failModule
    | p :: _ => ((s.markFailed l).mapTile l p 1).poisonStep := by
  have inRange : ¬ (s.parts.map.length ≤ l ∨ (!s.mod.mainOn) = true) := by simpa [on] using tile
  exact if_neg inRange

/-- R344: the first spare of the die takes the place of a tile that fails. -/
theorem failTile_of_spare {p : Nat} {ps : List Nat} (spare : (s.markFailed l).spareTiles (l / 64) = p :: ps) :
    failTile l s = ((s.markFailed l).mapTile l p 1).poisonStep := by
  rw [failTile_eq tile on, spare]

/-- R10: without a spare the module has failed. -/
theorem failTile_of_noSpare (no : (s.markFailed l).spareTiles (l / 64) = []) : failTile l s = (s.markFailed l).failModule := by
  rw [failTile_eq tile on, no]

/-! ## Scratch banks (R345) -/

/-- A bank that fails gives way to a spare bank of its tile, or with both in use the tile fails. -/
theorem failBank_eq {b : Nat} (bank : b < 32) (unc : Bool) :
    let u := if unc = true then s.loseWord l b else s
    let n := (u.parts.banks.filter (fun x => x.1 == l)).length
    failBank l b unc s = if 2 ≤ n then failTile l u else
      ({ u with parts := { u.parts with banks := u.parts.banks ++ [(l, b, n)] } } : State).ledger 0x02
        (leBytes 8 (place 0 8 l + place 8 5 b + place 16 1 n)) := by
  have inRange : ¬ (s.parts.map.length ≤ l ∨ 32 ≤ b ∨ (!s.mod.mainOn) = true) := by simpa [on] using ⟨tile, bank⟩
  exact if_neg inRange

end

/-! ## Regulator phases (R346) -/

theorem any_phase_of_new {x : Die} {ph : Nat} (new : ∀ f ∈ x.phases, f.1 ≠ ph) : x.phases.any (fun f => f.1 == ph) = false := by
  simpa using fun a b h e => new (a, b) h e

theorem not_idle_of_working {x : Die} {ph : Nat} (working : 24 ≤ ph → ∃ f ∈ x.phases, f.2 = some ph) :
    (24 ≤ ph ∧ (!x.phases.any (fun f => f.2 == some ph)) = true) = False := by
  simpa using working

section
variable {s : State} {d ph : Nat} {x : Die} (die : s.dies[d]? = some x)
include die

theorem failPhase_of_known (known : ∃ f ∈ x.phases, f.1 = ph) : failPhase d ph s = s := by
  have any : x.phases.any (fun f => f.1 == ph) = true := by simpa using known
  simp [failPhase, die, any]

theorem failPhase_of_unlisted (big : 26 ≤ ph) : failPhase d ph s = s := by
  simp [failPhase, die, big]

section
variable (lt : ph < 26) (new : ∀ f ∈ x.phases, f.1 ≠ ph)
include lt new

/-- A spare phase that carries nothing is only recorded as failed. -/
theorem failPhase_of_idleSpare (spare : 24 ≤ ph) (idle : ∀ f ∈ x.phases, f.2 ≠ some ph) :
    failPhase d ph s = { s with dies := s.dies.set d { x with phases := x.phases ++ [(ph, none)] } } := by
  have unused : x.phases.any (fun f => f.2 == some ph) = false := by simpa using fun a b h e => idle (a, b) h e
  simp [failPhase, die, any_phase_of_new new, lt, spare, unused, State.updDie_eq_set die]

variable (working : 24 ≤ ph → ∃ f ∈ x.phases, f.2 = some ph)
include working

/-- R346: a working phase gives way to a spare one, with a ledger record. -/
theorem failPhase_of_spare {p : Nat} (spare : spareFor x = some p) : failPhase d ph s =
    ({ s with dies := s.dies.set d { x with phases := x.phases ++ [(ph, some p)] } } : State).ledger 0x09
      (leBytes 8 (place 0 2 d + place 8 5 ph + place 16 5 p)) := by
  simp only [failPhase, die, any_phase_of_new new, not_idle_of_working working, spare, State.updDie_eq_set die,
    Bool.false_eq_true, false_or, if_neg (Nat.not_le.2 lt), if_false]

/-- R346: with no spare phase left the die's share falls by 1/24, and the module fails at the third. -/
theorem failPhase_of_noSpare (no : spareFor x = none) : failPhase d ph s =
    let u := ({ s with dies := s.dies.set d { x with phases := x.phases ++ [(ph, none)], shareLost := x.shareLost + 1 } } : State).log eSpare 7 d 0
    if 2 ≤ x.shareLost then u.failModule else u := by
  have third : 24 < 22 + (x.shareLost + 1) ↔ 2 ≤ x.shareLost := by omega
  simp only [failPhase, die, any_phase_of_new new, not_idle_of_working working, no, State.updDie_eq_set die, third,
    Bool.false_eq_true, false_or, if_neg (Nat.not_le.2 lt), if_false]

end
end

/-! ## Wear trending (R343) -/

/-- The samples of a source. -/
def samplesOf (w : List (Nat × List Nat)) (k : Nat) : List Nat := ((w.find? (fun e => e.1 == k)).map (·.2)).getD []

theorem find?_addSample_same (w : List (Nat × List Nat)) (k v : Nat) :
    (addSample w (k, v)).find? (fun e => e.1 == k) = some (k, (v :: samplesOf w k).take 168) := by
  have gone : (w.filter (fun e => e.1 != k)).find? (fun e => e.1 == k) = none := by simp
  simp [addSample, samplesOf, List.find?_append, gone]

theorem find?_addSample_other {w : List (Nat × List Nat)} {k : Nat} {x : Nat × Nat} (ne : x.1 ≠ k) :
    (addSample w x).find? (fun e => e.1 == k) = w.find? (fun e => e.1 == k) := by
  have stays : (w.filter (fun e => e.1 != x.1)).find? (fun e => e.1 == k) = w.find? (fun e => e.1 == k) := by
    rw [List.find?_filter]
    congr 1
    funext e
    by_cases h : e.1 = k
    · simp [h, ne.symm]
    · simp [h]
  simp [addSample, List.find?_append, stays, ne]

/-- Readings of other sources leave a source's samples. -/
theorem find?_readings_of_notMem {xs : List (Nat × Nat)} {k : Nat} (out : ∀ x ∈ xs, x.1 ≠ k) (w : List (Nat × List Nat)) :
    (xs.foldl addSample w).find? (fun e => e.1 == k) = w.find? (fun e => e.1 == k) := by
  induction xs generalizing w with
  | nil => rfl
  | cons x xs ih =>
    obtain ⟨hx, hxs⟩ := List.forall_mem_cons.1 out
    rw [List.foldl_cons, ih hxs, find?_addSample_other hx]

/-- A source's one reading joins its last samples. -/
theorem find?_readings_of_mem {xs : List (Nat × Nat)} {k v : Nat} (once : (xs.map Prod.fst).Nodup) (mem : (k, v) ∈ xs)
    (w : List (Nat × List Nat)) :
    (xs.foldl addSample w).find? (fun e => e.1 == k) = some (k, (v :: samplesOf w k).take 168) := by
  induction xs generalizing w with
  | nil => simp at mem
  | cons x xs ih =>
    obtain ⟨hx, hxs⟩ := List.nodup_cons.1 once
    rw [List.foldl_cons]
    rcases List.mem_cons.1 mem with rfl | tail
    · rw [find?_readings_of_notMem (fun y hy e => hx (List.mem_map.2 ⟨y, hy, e⟩)), find?_addSample_same]
    · have ne : x.1 ≠ k := fun e => hx (List.mem_map.2 ⟨_, tail, e.symm⟩)
      rw [ih hxs tail, samplesOf, find?_addSample_other ne, samplesOf]

theorem map_fst_zip_sublist {α β : Type} (l : List α) (l' : List β) : ((l.zip l').map Prod.fst).Sublist l := by
  induction l generalizing l' with
  | nil => simp
  | cons a l ih =>
    cases l' with
    | nil => simp
    | cons b l' => exact (ih l').cons_cons a

/-- Readings of a kind, each under its source. -/
def readings (kind : Nat) (l : List (Nat × Nat)) : List (Nat × Nat) := l.map (fun x => (kind * 65536 + x.1, x.2))

/-- The samples after the hour's readings. -/
def wearAfter (slow : List Nat) (ber share : List (Nat × Nat)) (w : List (Nat × List Nat)) : List (Nat × List Nat) :=
  (readings 0 ((List.range 128).zip slow) ++ readings 1 ber ++ readings 2 share).foldl addSample w

theorem readings_fst_ge {kind : Nat} {l : List (Nat × Nat)} : ∀ x ∈ readings kind l, kind * 65536 ≤ x.1 := by
  intro x hx
  obtain ⟨y, -, rfl⟩ := List.mem_map.1 hx
  exact Nat.le_add_right ..

/-- R343: a wear monitor's reading joins its last 168. -/
theorem find?_wearAfter {slow : List Nat} {m v : Nat} (lt : m < 128) (reading : slow[m]? = some v) (ber share : List (Nat × Nat))
    (w : List (Nat × List Nat)) :
    (wearAfter slow ber share w).find? (fun e => e.1 == m) = some (m, (v :: samplesOf w m).take 168) := by
  have monitors : readings 0 ((List.range 128).zip slow) = (List.range 128).zip slow := by simp [readings]
  have once : (((List.range 128).zip slow).map Prod.fst).Nodup := (map_fst_zip_sublist ..).nodup List.nodup_range
  have mem : (m, v) ∈ (List.range 128).zip slow :=
    List.mem_of_getElem? (List.getElem?_zip_eq_some.2 ⟨List.getElem?_range lt, reading⟩)
  have lanes : ∀ x ∈ readings 1 ber, x.1 ≠ m := fun x hx => by have := readings_fst_ge x hx; omega
  have phases : ∀ x ∈ readings 2 share, x.1 ≠ m := fun x hx => by have := readings_fst_ge x hx; omega
  rw [wearAfter, List.foldl_append, List.foldl_append, find?_readings_of_notMem phases, find?_readings_of_notMem lanes, monitors,
    find?_readings_of_mem once mem]

/-- The hour's readings added, and the tiles of due monitors flagged. -/
def State.readWear (s : State) (slow : List Nat) (ber share : List (Nat × Nat)) : State :=
  let wear := wearAfter slow ber share s.parts.wear
  { s with parts := { s.parts with
    wear := wear
    flagged := s.parts.flagged ++ ((wearDue wear 0).flatMap monitorTiles).filter (fun p => !s.parts.flagged.contains p) } }

/-- What WEAR_SAMPLE does after the readings: flagged tiles, then due lanes, then due phases give way. -/
theorem sampleWear_eq (slow : List Nat) (ber share : List (Nat × Nat)) (s : State) :
    let u := s.readWear slow ber share
    sampleWear slow ber share s = (wearDue u.parts.wear 2).foldl State.retirePhase
      ((wearDue u.parts.wear 1).foldl State.retireLane u.substituteFlagged) := rfl

theorem State.mem_readWear_flagged {s : State} {slow : List Nat} {ber share : List (Nat × Nat)} {p : Nat} :
    let u := s.readWear slow ber share
    p ∈ u.parts.flagged ↔ p ∈ s.parts.flagged ∨ ∃ m ∈ wearDue u.parts.wear 0, p ∈ monitorTiles m := by
  by_cases old : p ∈ s.parts.flagged <;> simp [State.readWear, old]

/-- The ledger record of a fit of one source. -/
theorem ledgerFit_of_source {kind idx slope date : Nat} {s : State} {e : Nat × List Nat}
    (source : s.parts.wear.find? (fun e => e.1 == kind * 65536 + idx) = some e) :
    ∃ sl dt : Nat, ledgerFit kind idx slope date s =
        s.ledger 0x0B (leBytes 16 (place 0 8 kind + place 8 16 idx + place 32 32 sl + place 64 32 dt)) ∧
      ((fitOf e.2).sxx ≠ 0 → sl = (fitOf e.2).slope kind ∧
        ∀ h, (fitOf e.2).hours (wearLimit kind).1 = some h → dt = (s.mss.date.at s.now + 3600 * h) / 86400) := by
  exact ⟨_, _, by simp only [ledgerFit, source]; rfl, fun fits => ⟨by simp [fits], fun h hours => by simp [fits, hours]⟩⟩

theorem ledgerFit_of_noSource {kind idx slope date : Nat} {s : State} (no : ∀ e ∈ s.parts.wear, e.1 ≠ kind * 65536 + idx) :
    ledgerFit kind idx slope date s = s := by
  have none : s.parts.wear.find? (fun e => e.1 == kind * 65536 + idx) = none := by simpa using no
  simp [ledgerFit, none]

/-! ## The host port (R347) -/

/-- R417: a port held in PERST has not failed. -/
theorem failHostPort_of_perst {s : State} (held : s.perstOf s.mod.portB = true) (trains : Bool) : failHostPort trains s = s := by
  simp [failHostPort, held]

section
variable {s : State} (on : s.mod.mainOn = true) (host : s.mod.hostLost = false) (out : s.perstOf s.mod.portB = false)
include on host out

/-- R347: the standby port comes into use, once since power-on. -/
theorem failHostPort_of_standby (first : s.dropHost.mod.hostSwitched = false) : failHostPort true s =
    ({ s.dropHost with mod := { s.dropHost.mod with
      portB := !s.dropHost.mod.portB, hostSwitched := true, hostUp := !(s.dropHost.perstOf (!s.dropHost.mod.portB)) } } : State).ledger
      0x0A (leBytes 8 (boolNat (!s.dropHost.mod.portB))) := by
  simp [failHostPort, on, host, out, first]

/-- R347: with the standby port used already, or one that does not train, the host is lost. -/
theorem failHostPort_of_lost {trains : Bool} (no : s.dropHost.mod.hostSwitched = true ∨ trains = false) : failHostPort trains s =
    ({ s.dropHost with mod := { s.dropHost.mod with hostLost := true, hostUp := false } } : State).log eSpare 7 0 0 := by
  rcases no with used | rfl
  · simp [failHostPort, on, host, out, used]
  · simp [failHostPort, on, host, out]

end

/-! ## The obligation -/

/-- Settles O30: what each kind of part's failure does, one lemma a case, put together. -/
theorem sparesTakeOver : Obligations.SparesTakeOver := by
  unfold Obligations.SparesTakeOver
  intro s on
  refine ⟨?tile, ?map, ?bank, ?word, ?spares, ?phase, ?wear, ?fit, ?perst, ?host⟩
  case tile =>
    intro l tile
    exact ⟨fun p ps spare => congrArg (done s) (failTile_of_spare tile on spare),
      fun no => congrArg (done s) (failTile_of_noSpare tile on no)⟩
  case map =>
    intro v l p tile wf
    refine ⟨?_, fun k ne => ?_, fun a lo hi => State.mapTile_byte_scratch wf lo hi, fun a lt => State.mapTile_byte_below wf lt⟩
    · rw [State.mapTile_map, List.getElem?_set_self tile]
    · rw [State.mapTile_map, List.getElem?_set_ne ne.symm]
  case bank =>
    intro l b tile bank free
    exact congrArg (done s) ((failBank_eq tile on bank false).trans (if_neg (Nat.not_le.2 free)))
  case word =>
    intro l b unc tile bank
    exact ⟨fun full => congrArg (done s) ((failBank_eq tile on bank unc).trans (if_pos full)),
      fun free => congrArg (done s) ((failBank_eq tile on bank unc).trans (if_neg (Nat.not_le.2 free)))⟩
  case spares =>
    intro d ph x die
    exact ⟨fun known => congrArg (done s) (failPhase_of_known die known), fun big => congrArg (done s) (failPhase_of_unlisted die big),
      fun spare idle => congrArg (done s) (failPhase_of_idleSpare die (by omega) (fun f mem => (idle f mem).1) (by omega)
        (fun f mem => (idle f mem).2))⟩
  case phase =>
    intro d ph x die lt working new
    exact ⟨fun p spare => congrArg (done s) (failPhase_of_spare die lt new working spare),
      fun no => congrArg (done s) (failPhase_of_noSpare die lt new working no)⟩
  case wear =>
    intro slow ber share
    exact ⟨s.readWear slow ber share, rfl, rfl, fun p => State.mem_readWear_flagged, congrArg (done s) (sampleWear_eq slow ber share s),
      fun m v lt reading => ⟨_, find?_wearAfter lt reading ber share s.parts.wear, rfl⟩⟩
  case fit =>
    intro kind idx slope date
    refine ⟨fun no => congrArg (done s) (ledgerFit_of_noSource no), fun e source => ?_⟩
    obtain ⟨sl, dt, record, fits⟩ := ledgerFit_of_source (slope := slope) (date := date) source
    exact ⟨sl, dt, congrArg (done s) record, fits⟩
  case perst => exact fun _ held trains => congrArg (done s) (failHostPort_of_perst held trains)
  case host =>
    intro host out trains
    constructor
    · rintro first rfl
      exact congrArg (done s) (failHostPort_of_standby on host out first)
    · intro no
      exact ⟨_, congrArg (done s) (failHostPort_of_lost on host out no), rfl, rfl, State.dropHost_mem s⟩

end Sys2Proof.Machine
end

section
/-! SUPPORT. Die links (R314-R320): the fields of a control flit, updates of an end, and what a flit received does case by case. -/
namespace Sys2Proof.Machine

/-! ## Fields of a sum of fields -/

theorem place_eq (lo w v : Nat) : place lo w v = 2 ^ lo * (v % 2 ^ w) := by rw [place, Nat.shiftLeft_eq, mul_comm]

theorem bits_eq (x lo w : Nat) : bits x lo w = x / 2 ^ lo % 2 ^ w := by rw [bits, Nat.shiftRight_eq_div_pow]

theorem add_mul_lt {x y a b : Nat} (hx : x < 2 ^ a) (hy : y < 2 ^ b) : x + 2 ^ a * y < 2 ^ (a + b) := by
  rw [pow_add]
  calc x + 2 ^ a * y < 2 ^ a * (y + 1) := by rw [Nat.mul_succ]; omega
    _ ≤ 2 ^ a * 2 ^ b := Nat.mul_le_mul_left _ hy

/-- A field is not changed by what is added above it. -/
theorem bits_add_mul {x lo w k y : Nat} (h : lo + w ≤ k) : bits (x + 2 ^ k * y) lo w = bits x lo w := by
  obtain ⟨n, rfl⟩ := Nat.exists_eq_add_of_le h
  rw [bits_eq, bits_eq, pow_add, pow_add, mul_assoc, mul_assoc, Nat.add_mul_div_left _ _ (Nat.two_pow_pos lo),
    Nat.add_mul_mod_self_left]

theorem bits_add_place_above {x lo w k v y : Nat} (h : lo + w ≤ k) : bits (x + place k v y) lo w = bits x lo w := by
  rw [place_eq, bits_add_mul h]

theorem bits_add_place_same {x lo w y : Nat} (h : x < 2 ^ lo) : bits (x + place lo w y) lo w = y % 2 ^ w := by
  rw [bits_eq, place_eq, Nat.add_mul_div_left _ _ (Nat.two_pow_pos lo), Nat.div_eq_of_lt h, zero_add, Nat.mod_mod]

theorem bits_mod_two_pow {x lo w n : Nat} (h : lo + w ≤ n) : bits (x % 2 ^ n) lo w = bits x lo w := by
  conv_rhs => rw [← Nat.mod_add_div x (2 ^ n), bits_add_mul h]

/-- A field replaced leaves those above it. -/
theorem bits_setBits_above {x a b v lo w : Nat} (h : a + b ≤ lo) : bits (setBits x a b v) lo w = bits x lo w := by
  obtain ⟨n, rfl⟩ := Nat.exists_eq_add_of_le h
  have cut : x - place a b (bits x a b) = x % 2 ^ a + 2 ^ (a + b) * (x / 2 ^ (a + b)) := by
    have whole : x = x % 2 ^ a + 2 ^ a * (x / 2 ^ a % 2 ^ b) + 2 ^ (a + b) * (x / 2 ^ (a + b)) := by
      rw [← Nat.mod_mul, ← pow_add, Nat.mod_add_div]
    rw [place_eq, bits_eq, Nat.mod_mod]
    omega
  have low : x % 2 ^ a + place a b v < 2 ^ (a + b) := by
    rw [place_eq]
    exact add_mul_lt (Nat.mod_lt x (Nat.two_pow_pos a)) (Nat.mod_lt v (Nat.two_pow_pos b))
  have top : setBits x a b v / 2 ^ (a + b) = x / 2 ^ (a + b) := by
    rw [setBits, cut, Nat.add_right_comm, Nat.add_mul_div_left _ _ (Nat.two_pow_pos _), Nat.div_eq_of_lt low, zero_add]
  rw [bits_eq, bits_eq, pow_add _ (a + b), ← Nat.div_div_eq_div_mul, ← Nat.div_div_eq_div_mul, top]

/-- Fields of w bits, one after the other. -/
def fieldsOf (w n : Nat) (g : Nat → Nat) : Nat := (List.range n).foldl (fun x c => x + place (w * c) w (g c)) 0

theorem fieldsOf_succ (w n : Nat) (g : Nat → Nat) : fieldsOf w (n + 1) g = fieldsOf w n g + place (w * n) w (g n) := by
  rw [fieldsOf, List.range_succ, List.foldl_append]
  rfl

theorem fieldsOf_lt (w n : Nat) (g : Nat → Nat) : fieldsOf w n g < 2 ^ (w * n) := by
  induction n with
  | zero => simp [fieldsOf]
  | succ n ih =>
    rw [fieldsOf_succ, place_eq, Nat.mul_succ]
    exact add_mul_lt ih (Nat.mod_lt (g n) (Nat.two_pow_pos w))

theorem bits_fieldsOf {w n c : Nat} (g : Nat → Nat) (h : c < n) : bits (fieldsOf w n g) (w * c) w = g c % 2 ^ w := by
  induction n with
  | zero => omega
  | succ n ih =>
    rw [fieldsOf_succ]
    rcases Nat.lt_succ_iff_lt_or_eq.1 h with lt | rfl
    · rw [bits_add_place_above (by rw [← Nat.mul_succ]; exact Nat.mul_le_mul_left w lt), ih lt]
    · exact bits_add_place_same (fieldsOf_lt w c g)

/-! ## Control flits (R318) -/

theorem bits_ofNat {n x lo w : Nat} (h : lo + w ≤ n) : bits (BitVec.ofNat n x).toNat lo w = bits x lo w := by
  rw [BitVec.toNat_ofNat, bits_mod_two_pow h]

/-- Sequence number and CRC leave what lies above them. -/
theorem bits_sealDie {f seq lo w : Nat} (above : 26 ≤ lo) (fits : lo + w ≤ 1088) : bits (sealDie f seq).toNat lo w = bits f lo w := by
  rw [sealDie, bits_ofNat fits, bits_setBits_above (by omega), bits_setBits_above above]

/-- Payload of a control flit that tells no substitution. -/
def controlPay (e : LinkEnd) (nak : Bool) (w epoch : Nat) : Nat :=
  fieldsOf 16 4 (fun c => (e.freed.getD c 0).toNat) + place 64 1 (boolNat nak) + place 65 2 w + place 67 1 (boolNat e.quarter) +
    place 80 16 epoch + place 96 32 e.sentMask + place 128 896 dieControlPattern

theorem controlOf_eq (e : LinkEnd) (nak : Bool) (w epoch : Nat) : controlOf e nak w epoch none =
    sealDie (place 28 1 1 + place 64 1024 (controlPay e nak w epoch)) ((e.rxSeq.toNat + 1023) % 1024) := by
  simp only [controlOf, controlPay, fieldsOf, Nat.add_zero]

theorem dCtrl_controlOf (e : LinkEnd) (nak : Bool) (w epoch : Nat) : dCtrl (controlOf e nak w epoch none) = true := by
  rw [dCtrl, bitAt, controlOf_eq, bits_sealDie (by decide) (by decide), bits_add_place_above (by decide)]
  decide

theorem dPay_controlOf (e : LinkEnd) (nak : Bool) (w epoch : Nat) :
    dPay (controlOf e nak w epoch none) = controlPay e nak w epoch % 2 ^ 1024 := by
  rw [dPay, controlOf_eq, bits_sealDie (by decide) (by decide), bits_add_place_same (by decide)]

/-- A control flit carries the slots freed so far of each class. -/
theorem kCredit_controlOf (e : LinkEnd) (nak : Bool) (w epoch : Nat) {c : Nat} (lt : c < 4) :
    kCredit (controlOf e nak w epoch none) c = e.freed.getD c 0 := by
  have below : 16 * c + 16 ≤ 64 := by omega
  have field : bits (dPay (controlOf e nak w epoch none)) (16 * c) 16 = (e.freed.getD c 0).toNat % 2 ^ 16 := by
    rw [dPay_controlOf, bits_mod_two_pow (by omega), controlPay, bits_add_place_above (by omega), bits_add_place_above (by omega),
      bits_add_place_above (by omega), bits_add_place_above (by omega), bits_add_place_above (by omega), bits_add_place_above below]
    exact bits_fieldsOf _ lt
  rw [kCredit, field, Nat.mod_eq_of_lt (e.freed.getD c 0).isLt, BitVec.ofNat_toNat, BitVec.setWidth_eq]

/-! ## Updates of an end -/

@[simp] theorem DieLink.side_setSide (k : DieLink) (far : Bool) (e : LinkEnd) : (k.setSide far e).side far = e := by
  cases far <;> rfl

@[simp] theorem DieLink.side_setSide_other (k : DieLink) (far : Bool) (e : LinkEnd) : (k.setSide far e).side (!far) = k.side (!far) := by
  cases far <;> rfl

@[simp] theorem DieLink.setSide_setSide (k : DieLink) (far : Bool) (e e' : LinkEnd) : (k.setSide far e).setSide far e' = k.setSide far e' := by
  cases far <;> rfl

@[simp] theorem DieLink.setSide_side (k : DieLink) (far : Bool) : k.setSide far (k.side far) = k := by
  cases far <;> rfl

namespace State
section
variable {s : State} {l : Nat} {far : Bool} {f g : LinkEnd → LinkEnd}

theorem updEnd_eq : s.updEnd l far f = { s with links := s.links.set l ((s.link l).setSide far (f (s.linkEnd l far))) } := rfl

theorem updEnd_congr (h : f (s.linkEnd l far) = g (s.linkEnd l far)) : s.updEnd l far f = s.updEnd l far g := by
  rw [updEnd_eq, updEnd_eq, h]

variable (link : l < s.links.length)
include link

theorem link_updEnd : (s.updEnd l far f).link l = (s.link l).setSide far (f (s.linkEnd l far)) := by
  simp [updEnd_eq, State.link, link]

@[simp] theorem linkEnd_updEnd : (s.updEnd l far f).linkEnd l far = f (s.linkEnd l far) := by
  rw [linkEnd, link_updEnd link, DieLink.side_setSide]

theorem linkEnd_updEnd_other : (s.updEnd l far f).linkEnd l (!far) = s.linkEnd l (!far) := by
  rw [linkEnd, link_updEnd link, DieLink.side_setSide_other, linkEnd]

theorem updEnd_updEnd : (s.updEnd l far f).updEnd l far g = s.updEnd l far (fun e => g (f e)) := by
  rw [updEnd_eq, link_updEnd link, linkEnd_updEnd link, DieLink.setSide_setSide, updEnd_eq, updEnd_eq, List.set_set]

theorem updEnd_self (h : f (s.linkEnd l far) = s.linkEnd l far) : s.updEnd l far f = s := by
  have same : s.links.set l (s.link l) = s.links := by simp [State.link, link]
  rw [updEnd_eq, h, linkEnd, DieLink.setSide_side, same]

end
end State

/-! ## Data flits (R314, R317) -/

section
variable {s : State} {l : Nat} {far : Bool} {f : DieFlit}

/-- A link in service, on a module with main power, takes the step. -/
theorem onLink_of_inService (six : l < 6) (inService : (s.link l).out = false) (on : s.mod.mainOn = true) (k : State → State) :
    onLink l k s = k s := by
  simp [onLink, Nat.not_le.2 six, inService, on]

theorem logicFault_of_listed (src : endpointListed (dFrom f) = true) (dst : endpointListed (dTo f) = true) : logicFault l f s = none := by
  simp [logicFault, src, dst]

theorem logicFault_of_bad (bad : dieFlitGood f = false) : logicFault l f s = none := by
  simp [logicFault, bad]

theorem logicFault_of_unlisted (good : dieFlitGood f = true) (un : endpointListed (dFrom f) = false ∨ endpointListed (dTo f) = false) :
    logicFault l f s = some (s.log eFault 7 l 0 0).failModule := by
  rcases un with h | h <;> simp [logicFault, good, h]

/-- An end with a flit accepted into its receive buffer. -/
def State.acceptDie (s : State) (l : Nat) (far : Bool) (f : DieFlit) : State :=
  s.updEnd l far (fun e => { e with rxSeq := e.rxSeq + 1, nakSent := false, unacked := e.unacked + 1, rx := e.rx ++ [f] })

/-- An end with a flit accepted that leaves its slot at once. -/
def State.passDie (s : State) (l : Nat) (far : Bool) (f : DieFlit) : State :=
  s.updEnd l far (fun e => { e with
    rxSeq := e.rxSeq + 1, nakSent := false, unacked := e.unacked + 1, freed := e.freed.set (dClass f) (e.freed.getD (dClass f) 0 + 1) })

/-- The sixteenth flit accepted is acknowledged. -/
def State.ackDie (s : State) (l : Nat) (far : Bool) : State :=
  if 16 ≤ (s.linkEnd l far).unacked then s.sendDieControl l far false else s

theorem receiveDie_of_expected (good : dieFlitGood f = true) (data : dCtrl f = false) (seq : dSeq f = (s.linkEnd l far).rxSeq.toNat)
    (src : endpointListed (dFrom f) = true) (dst : endpointListed (dTo f) = true) :
    receiveDie l far f s = ((s.acceptDie l far f).drainDie l far).ackDie l far := by
  simp only [receiveDie, logicFault_of_listed src dst, good, data, seq, beq_self_eq_true, Bool.and_false, Bool.and_true,
    Bool.false_eq_true, if_false, if_true]
  rfl

theorem receiveDie_of_control (good : dieFlitGood f = true) (ctrl : dCtrl f = true)
    (src : endpointListed (dFrom f) = true) (dst : endpointListed (dTo f) = true) : receiveDie l far f s = s := by
  simp [receiveDie, logicFault_of_listed src dst, good, ctrl]

theorem receiveDie_of_unlisted (good : dieFlitGood f = true)
    (un : endpointListed (dFrom f) = false ∨ endpointListed (dTo f) = false) :
    receiveDie l far f s = (s.log eFault 7 l 0 0).failModule := by
  simp [receiveDie, logicFault_of_unlisted good un]

/-- R317: what is not good, or out of sequence, is not accepted. -/
theorem receiveDie_of_refused (no : dieFlitGood f = false ∨ (dCtrl f = false ∧ endpointListed (dFrom f) = true ∧
    endpointListed (dTo f) = true ∧ dSeq f ≠ (s.linkEnd l far).rxSeq.toNat)) : receiveDie l far f s = nakDie l far s := by
  rcases no with bad | ⟨data, src, dst, seq⟩
  · simp [receiveDie, logicFault_of_bad bad, bad]
  · simp [receiveDie, logicFault_of_listed src dst, data, seq]

theorem nakDie_of_first (first : (s.linkEnd l far).nakSent = false) (free : dieHeld s (endDie l far) = false) :
    nakDie l far s = (s.updEnd l far (fun e => { e with nakSent := true })).sendDieControl l far true := by
  simp [nakDie, first, free]

theorem nakDie_of_told (told : (s.linkEnd l far).nakSent = true ∨ dieHeld s (endDie l far) = true) : nakDie l far s = s := by
  rcases told with h | h <;> simp [nakDie, h]

/-! ## A die that holds, and one that does not (R31) -/

namespace State

theorem drainDie_of_held (held : dieHeld s (endDie l far) = true) : s.drainDie l far = s := if_pos held

theorem sendDieControl_of_held (held : dieHeld s (endDie l far) = true) (nak : Bool) : s.sendDieControl l far nak = s := if_pos held

theorem ackDie_of_held (held : dieHeld s (endDie l far) = true) : s.ackDie l far = s := by
  rw [ackDie, sendDieControl_of_held held, ite_self]

section
variable (free : dieHeld s (endDie l far) = false)
include free

theorem drainDie_of_free :
    s.drainDie l far = (s.linkEnd l far).rx.foldl (drainOne l far) (s.updEnd l far (fun e => { e with rx := [] })) := by
  rw [drainDie, free, if_neg Bool.false_ne_true]

/-- R318: the control flit that goes out carries the slots freed so far. -/
theorem sendDieControl_of_free (nak : Bool) : ∃ g, s.sendDieControl l far nak =
      { s.updEnd l far (fun e => { e with unacked := 0 }) with
        out := s.out ++ [.dieFlit l far (if (s.linkEnd l far).quarter then 2 ^ quarterLanes l - 1 else 0) g] } ∧
    dCtrl g = true ∧ ∀ c < 4, kCredit g c = (s.linkEnd l far).freed.getD c 0 := by
  refine ⟨controlOf (s.linkEnd l far) nak (wstateCode (s.linkEnd l far).wstate) (s.linkEnd l far).sentEpoch none, ?_, dCtrl_controlOf ..,
    fun c lt => kCredit_controlOf _ _ _ _ lt⟩
  rw [sendDieControl, free, if_neg Bool.false_ne_true]
  rfl

variable (link : l < s.links.length) (empty : (s.linkEnd l far).rx = [])
include link empty

theorem drainDie_of_empty : s.drainDie l far = s := by
  rw [drainDie_of_free free, empty, List.foldl_nil]
  exact updEnd_self link (by rw [← empty])

/-- R31, R314: a flit accepted into an empty buffer leaves its slot, for another die, for this one, or for its end. -/
theorem drainDie_acceptDie : (s.acceptDie l far f).drainDie l far =
    if dTo f / 1024 ≠ endDie l far then (s.passDie l far f).routeDie (endDie l far) f
    else if dClass f = 0 then (s.passDie l far f).answerDie (endDie l far) f else s.passDie l far f := by
  have slot : ((s.acceptDie l far f).updEnd l far (fun e => { e with rx := [] })).updEnd l far
      (fun e => { e with freed := e.freed.set (dClass f) (e.freed.getD (dClass f) 0 + 1) }) = s.passDie l far f := by
    rw [acceptDie, updEnd_updEnd link, updEnd_updEnd link, passDie]
    exact updEnd_congr (by rw [← empty])
  have waits : ((s.acceptDie l far f).linkEnd l far).rx = [f] := by
    rw [acceptDie, linkEnd_updEnd link, empty]
    rfl
  rw [drainDie_of_free (s := s.acceptDie l far f) free, waits, List.foldl_cons, List.foldl_nil, drainOne, slot]

end
end State

/-! ## Control flits received (R318, R320) -/

/-- A control flit of the far end in NORMAL tells of another width than this end's, or of quarter mode. -/
def widthDiffers (e : LinkEnd) (f : DieFlit) : Prop :=
  kQuarter f = true ∨ e.width = none ∨ ∃ w, e.width = some w ∧ (kEpoch f ≠ w.1 ∨ (e.wstate = .normal ∧ kMask f ≠ w.2))

theorem receiveDieControl_of_held (src : endpointListed (dFrom f) = true) (dst : endpointListed (dTo f) = true)
    (held : dieHeld s (endDie l far) = true) : receiveDieControl l far f s = s := by
  simp [receiveDieControl, onControl, logicFault_of_listed src dst, held]

theorem receiveDieControl_of_normal (good : dieFlitGood f = true) (ctrl : dCtrl f = true) (normal : kWstate f = 0)
    (src : endpointListed (dFrom f) = true) (dst : endpointListed (dTo f) = true) (free : dieHeld s (endDie l far) = false) :
    receiveDieControl l far f s = heedControl l far f s := by
  simp [receiveDieControl, onControl, logicFault_of_listed src dst, free, good, ctrl, normal]

namespace State

theorem enterQuarter_far_of_full (full : (s.linkEnd l true).quarter = false) :
    s.enterQuarter l true = (s.updEnd l true (fun e => { e with quarter := true })).sendDieControl l true false := by
  simp [enterQuarter, full]

theorem enterQuarter_far_of_quarter (quarter : (s.linkEnd l true).quarter = true) : s.enterQuarter l true = s := by
  simp [enterQuarter, quarter]

theorem enterQuarter_near_of_normal (normal : (s.linkEnd l false).wstate = .normal) : s.enterQuarter l false = s.proposeWidth l := by
  simp [enterQuarter, normal]

theorem enterQuarter_near_of_change (change : (s.linkEnd l false).wstate ≠ .normal) : s.enterQuarter l false = s := by
  simp [enterQuarter, change]

end State

theorem not_widthDiffers {e : LinkEnd} (h : ¬ widthDiffers e f) :
    kQuarter f = false ∧ ∃ w, e.width = some w ∧ kEpoch f = w.1 ∧ (e.wstate ≠ .normal ∨ kMask f = w.2) := by
  obtain ⟨full, other⟩ := not_or.1 h
  obtain ⟨some, agrees⟩ := not_or.1 other
  obtain ⟨w, width⟩ := Option.ne_none_iff_exists'.1 some
  obtain ⟨epoch, mask⟩ := not_or.1 (fun no => agrees ⟨w, width, no⟩)
  exact ⟨by simpa using full, w, width, not_not.1 epoch, (not_and_or.1 mask).imp_right not_not.1⟩

section
variable (link : l < s.links.length)
include link

theorem takeDieControl_width : ((s.takeDieControl l far f).linkEnd l far).width = (s.linkEnd l far).width := by
  rw [State.takeDieControl, State.linkEnd_updEnd link]

theorem takeDieControl_wstate : ((s.takeDieControl l far f).linkEnd l far).wstate = (s.linkEnd l far).wstate := by
  rw [State.takeDieControl, State.linkEnd_updEnd link]

theorem takeDieControl_quarter : ((s.takeDieControl l far f).linkEnd l far).quarter = (s.linkEnd l far).quarter := by
  rw [State.takeDieControl, State.linkEnd_updEnd link]

theorem heedControl_of_same (same : ¬ widthDiffers (s.linkEnd l far) f) :
    heedControl l far f s = ((s.takeDieControl l far f).pumpDie l far).retest l far := by
  obtain ⟨full, w, width, epoch, change | mask⟩ := not_widthDiffers same
  · simp [heedControl, takeDieControl_width link, takeDieControl_wstate link, full, width, epoch, change]
  · simp [heedControl, takeDieControl_width link, full, width, epoch, mask]

/-- R320, R323: another width leads to quarter mode, or restarts a change whose far end has retrained. -/
theorem heedControl_of_differs (normal : kWstate f = 0) (differs : widthDiffers (s.linkEnd l far) f) : heedControl l far f s =
    if far = false ∧ (s.linkEnd l far).wstate ≠ .normal ∧ kEpoch f = 0 ∧ (s.linkEnd l far).peerEpoch ≠ 0
    then (s.takeDieControl l far f).proposeWidth l else (s.takeDieControl l far f).enterQuarter l far := by
  rcases differs with quarter | none | ⟨w, width, epoch | ⟨now, mask⟩⟩
  · simp [heedControl, takeDieControl_wstate link, normal, quarter, and_assoc]
  · simp [heedControl, takeDieControl_width link, takeDieControl_wstate link, normal, none, and_assoc]
  · simp [heedControl, takeDieControl_width link, takeDieControl_wstate link, normal, width, epoch, and_assoc]
  · simp [heedControl, takeDieControl_width link, takeDieControl_wstate link, normal, width, now, mask]

end
end

/-! ## The obligation -/

/-- Settles O21: each case of `receiveDie`, of the control flit sent and of the control flit received, one lemma each. -/
theorem dieFlitsAndControlFlits : Obligations.DieFlitsAndControlFlits := by
  unfold Obligations.DieFlitsAndControlFlits
  refine ⟨?_, ?_⟩
  · intro l far f s six link inService on e d
    have receive : exec (.dieFlitReceive l far f) s = done s (receiveDie l far f s) :=
      congrArg (done s) (onLink_of_inService six inService on _)
    have send : exec (.dieControlFlitSend l far) s = done s ((s.drainDie l far).sendDieControl l far false) :=
      congrArg (done s) (onLink_of_inService six inService on _)
    refine ⟨?accepted, ?control, ?unlisted, ?refused, ?sent, ?waiting, ?held⟩
    case accepted =>
      intro good data seq src dst ack took freed
      have accepted : exec (.dieFlitReceive l far f) s = done s ((took.drainDie l far).ackDie l far) := by
        rw [receive, receiveDie_of_expected good data seq src dst]
        rfl
      refine ⟨accepted, fun held => ?_, fun free empty => ?_⟩
      · have still : dieHeld took (endDie l far) = true := held
        rw [accepted, State.drainDie_of_held still, State.ackDie_of_held still, done_eq]
      · have drained := State.drainDie_acceptDie (f := f) free link empty
        have left {t : State} (h : took.drainDie l far = t) : exec (.dieFlitReceive l far f) s = done s (t.ackDie l far) := by
          rw [accepted, h]
        refine ⟨fun onward => left (drained.trans (if_pos onward)), fun here request => ?_, fun here other => ?_⟩
        · exact left (drained.trans ((if_neg (not_not.2 here)).trans (if_pos request)))
        · exact left (drained.trans ((if_neg (not_not.2 here)).trans (if_neg other)))
    case control =>
      intro good ctrl src dst
      rw [receive, receiveDie_of_control good ctrl src dst, done_self]
    case unlisted =>
      intro good un
      rw [receive, receiveDie_of_unlisted good un]
      rfl
    case refused =>
      intro no
      refine ⟨fun first free => ?_, fun told => ?_⟩
      · rw [receive, receiveDie_of_refused no, nakDie_of_first first free, done_eq]
      · rw [receive, receiveDie_of_refused no, nakDie_of_told told, done_self]
    case sent =>
      intro empty free
      obtain ⟨g, sent, ctrl, credit⟩ := State.sendDieControl_of_free free false
      exact ⟨g, by rw [send, State.drainDie_of_empty free link empty, sent, done_eq], ctrl, credit⟩
    case waiting => exact fun _ _ => send
    case held =>
      intro held
      rw [send, State.drainDie_of_held held, State.sendDieControl_of_held held, done_self]
  · intro l far f s six link inService on good ctrl normal src dst e u differs
    have receive : exec (.dieControlFlit l far f) s = done s (receiveDieControl l far f s) :=
      congrArg (done s) (onLink_of_inService six inService on _)
    have own : u.linkEnd l far = _ := State.linkEnd_updEnd link
    refine ⟨by rw [own], by rw [own], by rw [own], State.linkEnd_updEnd_other link, fun held => ?_, fun free => ?_⟩
    · rw [receive, receiveDieControl_of_held src dst held, done_self]
    · have heed := receive.trans (congrArg (done s) (receiveDieControl_of_normal good ctrl normal src dst free))
      have wstate : (u.linkEnd l far).wstate = e.wstate := takeDieControl_wstate link
      have quarter : (u.linkEnd l far).quarter = e.quarter := takeDieControl_quarter link
      refine ⟨fun same => ?_, fun diff => ?_⟩
      · rw [heed, heedControl_of_same link same, done_eq]
      · rw [heed, heedControl_of_differs link normal diff]
        refine ⟨?_, ?_, ?_, ?_⟩
        · rintro rfl full
          rw [if_neg (by simp), State.enterQuarter_far_of_full (quarter.trans full), done_eq]
        · rintro rfl quart
          rw [if_neg (by simp), State.enterQuarter_far_of_quarter (quarter.trans quart), done_eq]
        · rintro rfl norm
          rw [if_neg (fun h => h.2.1 norm), State.enterQuarter_near_of_normal (wstate.trans norm), done_eq]
        · rintro rfl change
          rw [State.enterQuarter_near_of_change (by rwa [wstate])]
          exact congrArg (done s) (if_congr ⟨fun h => h.2.2, fun h => ⟨rfl, change, h⟩⟩ rfl rfl)

end Sys2Proof.Machine
end

section
/-! SUPPORT. A module that a thermal trip has taken the core voltage from (R386): no die of it begins or reaches anything, though
none is in a droop hold of its own. -/
namespace Sys2Proof.Machine

section
variable {s : State} (tripped : s.mss.tripped = true)
include tripped

/-- Without core voltage every die stands as in a droop hold. -/
theorem dieHeld_of_tripped (d : Nat) : dieHeld s d = true := by
  simp [dieHeld, tripped]

theorem arriveDie_of_tripped (d : Nat) : arriveDie d s = s := by
  simp [arriveDie, dieHeld_of_tripped tripped]

theorem holdDie_of_tripped (d mv : Nat) : holdDie d mv s = s := by
  simp [holdDie, dieHeld_of_tripped tripped]

end

/-- A module with main power on that a sensor at 110 °C has just tripped. -/
def afterTrip : State := trip 0 1100 { mod := { mainOn := true } }

theorem afterTrip_tripped : afterTrip.mss.tripped = true := rfl

theorem afterTrip_mainOn : afterTrip.mod.mainOn = true := rfl

theorem afterTrip_die : afterTrip.dies[0]? = some ({} : Die) := rfl

/-- A command that leaves a state as it is does not send anything. -/
theorem done_self_ne_emit {s t : State} {o : Out} {os : List Out} (out : t.out = s.out ++ o :: os) :
    done s s ≠ .next (settle s t) := by
  intro h
  rw [done_self, Host.Outcome.next.injEq] at h
  have len := congrArg (fun u : State => u.out.length) h
  simp only [settle, out, List.length_append, List.length_cons] at len
  omega

/-- Refutes O24: after a thermal trip no die is in a droop hold of its own and main power is on, but the core voltage is off
(`dieHeld`), so a die that arrives is not noted and nothing is sent. -/
theorem not_barrierAndBeacon : ¬ Obligations.BarrierAndBeacon := by
  unfold Obligations.BarrierAndBeacon
  intro h
  obtain ⟨arrive, -⟩ := h 0 {} afterTrip afterTrip_die
  obtain ⟨first, -⟩ := arrive afterTrip_mainOn rfl
  have sent := first ⟨1, {}, by decide, rfl, rfl⟩
  refine done_self_ne_emit rfl (Eq.trans ?_ sent)
  exact congrArg (done afterTrip) (arriveDie_of_tripped afterTrip_tripped 0).symm

/-- Refutes O26: after a thermal trip a die is in no droop hold of its own, but a voltage below 0.58 V begins none, as the core
voltage is off (`dieHeld`): nothing is marked on the beacon. -/
theorem not_heatAndDroop : ¬ Obligations.HeatAndDroop := by
  unfold Obligations.HeatAndDroop
  intro h
  obtain ⟨-, -, -, -, -, -, droop, -⟩ := h afterTrip afterTrip_mainOn
  obtain ⟨start, -, -⟩ := droop 0 0 {} afterTrip_die
  refine done_self_ne_emit rfl (Eq.trans ?_ (start rfl (by decide)))
  exact congrArg (done afterTrip) (holdDie_of_tripped afterTrip_tripped 0 0).symm

end Sys2Proof.Machine
end

section
/-! SUPPORT. Cadence meters, governor, telemetry and cap (R26, R39-R42, R374-R384): what a gate decides, and what it leaves as it was. -/
namespace Sys2Proof.Machine

/-! ## Cadence gate (R40, R41, R313) -/

/-- The dies after a gate's readings. -/
def State.gateDies (s : State) (meters steps : List Nat) : List Die :=
  s.dies.mapIdx (fun d (x : Die) => x.gate (lowest (dieReadings meters d)) (gateSteps s steps d) (gateBeats s meters)
    ((List.range 4).map (gateSteps s steps)).sum)

theorem State.getElem?_gateDies (s : State) (meters steps : List Nat) (d : Nat) : ∃ n base total, (s.gateDies meters steps)[d]? =
    (s.dies[d]?).map (fun (x : Die) => x.gate (lowest (dieReadings meters d)) n base total) :=
  ⟨_, _, _, List.getElem?_mapIdx⟩

theorem meterGate_eq {s : State} (on : s.mod.mainOn = true) (meters steps : List Nat) : ∃ occ, meterGate meters steps s = { s with
    dies := s.gateDies meters steps, pwr := { s.pwr with occ := occ }
    out := s.out ++ [.pin (if (s.dies[0]?).any (·.beaconFail) then 52 else 20) 0] } := by
  have beacon : ((s.gateDies meters steps)[0]?).any (·.beaconFail) = (s.dies[0]?).any (·.beaconFail) := by
    obtain ⟨n, base, total, die⟩ := s.getElem?_gateDies meters steps 0
    rw [die, Option.any_map]
    rfl
  have run : ¬ (!s.mod.mainOn) = true := by simp [on]
  rw [meterGate, if_neg run, ← beacon]
  exact ⟨_, rfl⟩

/-! ## Voltages (R26, R379) -/

theorem voltGate_range (top set : Nat) (fits : Bool) (x : Die) (k : Nat) :
    248 ≤ voltGate top set fits x k ∧ voltGate top set fits x k ≤ 360 := by
  simp only [voltGate, voltFloor, voltCeil]
  omega

/-- R379: a voltage in range moves by at most 20 steps. -/
theorem voltGate_near (top set : Nat) (fits : Bool) (x : Die) (k : Nat) (lo : 248 ≤ x.volt) (hi : x.volt ≤ 360) :
    voltGate top set fits x k ≤ x.volt + 20 ∧ x.volt ≤ voltGate top set fits x k + 20 := by
  simp only [voltGate, voltFloor, voltCeil, voltLimited, Bool.and_eq_true]
  split_ifs with above slow limited
  · omega
  · have rises := of_decide_eq_true limited.1
    omega
  · omega
  · omega
  · omega

/-- R26, R379: how a gate may move a die's voltage. -/
def Governed (x y : Die) : Prop :=
  248 ≤ y.volt ∧ y.volt ≤ 360 ∧ (248 ≤ x.volt → x.volt ≤ 360 → y.volt ≤ x.volt + 20 ∧ x.volt ≤ y.volt + 20)

theorem voltGates_governed (top set : Nat) (fits : Bool) (ds : List Die) (s : State) :
    List.Forall₂ Governed ds (voltGates top set fits ds s).1 := by
  induction ds generalizing s with
  | nil => exact .nil
  | cons d ds ih =>
    obtain ⟨lo, hi⟩ := voltGate_range top set fits d s.draw.1
    exact .cons ⟨lo, hi, voltGate_near top set fits d s.draw.1⟩ (ih _)

/-! ## What the parts of a governor gate leave as it was -/

/-- Memory, counters, BAR0 and dies, and what the gate has decided of gear and means. -/
def State.gateView (s : State) : Memory × List (Nat × Word32) × Bar0 × List Die × Nat × Nat × Nat :=
  (s.mem, s.ctrs, s.bar, s.dies, s.pwr.gear, s.pwr.power, s.pwr.power100)

theorem milliGate_view (s : State) (budget : Nat) : (milliGate s budget).gateView = s.gateView := by
  rw [milliGate]
  split
  · rfl
  · rfl

theorem assignedCad_view (s : State) (g : Nat) : (assignedCad s g).2.gateView = s.gateView := by
  unfold assignedCad
  cases s.runJob with
  | none => rfl
  | some j =>
    dsimp only
    split
    · rfl
    · split
      · rfl
      · rfl

theorem voltGates_view (top set : Nat) (fits : Bool) (ds : List Die) (s : State) : (voltGates top set fits ds s).2.gateView = s.gateView := by
  induction ds generalizing s with
  | nil => rfl
  | cons d ds ih => exact ih _

theorem jobGate_view (s : State) (g assigned set budget : Nat) : (jobGate s g assigned set budget).gateView = s.gateView := by
  unfold jobGate
  cases s.runJob with
  | none => rfl
  | some j =>
    dsimp only
    split
    · rfl
    · rfl

theorem pedalGate_view (s : State) : (pedalGate s).gateView = s.gateView := by
  unfold pedalGate
  generalize s.pwr.pedals = ps
  induction ps generalizing s with
  | nil => rfl
  | cons p ps ih =>
    refine (ih _).trans ?_
    dsimp only
    cases s.jobs.findIdx? (fun j => j.id == p.job) with
    | none => rfl
    | some i => rfl

theorem gateView_withDies {s t : State} (view : t.gateView = s.gateView) (ds : List Die) :
    ({ t with dies := ds } : State).gateView = ({ s with dies := ds } : State).gateView := by
  simp only [State.gateView, Prod.mk.injEq] at view ⊢
  obtain ⟨mem, ctrs, bar, -, gear, power, power100⟩ := view
  exact ⟨mem, ctrs, bar, trivial, gear, power, power100⟩

/-- A gate once gear and means are decided. -/
def State.decided (s : State) (mean mean100 : Nat) : State :=
  let g := activeGear s mean mean100
  { s with pwr := { s.pwr with
    gear := g, power := pedalled s (budgetOf s g) mean, power100 := pedalled s (budgetOf s g) (faded s mean100)
    fade := if pedalWorks s mean mean100 then some (s.pwr.fade.getD s.pwr.gear) else none } }

/-- What follows in the gate: setpoint and voltages, duty limits, and what is noted for the jobs. -/
def State.moveVolts (s : State) (g mean budget old : Nat) : State :=
  let a := assignedCad s g
  let set := lowered (lowered (lowered a.1 a.2.pwr.budgetCut) a.2.pwr.capCut) a.2.pwr.heatCut
  let vmax := gtVmax a.2.pwr.table g * 2 / 5
  let top := if mean ≤ a.2.pwr.cap then vmax else min vmax voltLimited
  let u := a.2.draw.2
  let r := voltGates top set (decide (mean + a.2.draw.1 ≤ u.pwr.cap)) u.dies u
  pedalGate (jobGate (dutyGate { r.2 with dies := r.1, pwr := { r.2.pwr with setpoint := set } } budget old) g a.1 set budget)

theorem moveVolts_eq (s : State) (g mean budget old : Nat) : ∃ ds, List.Forall₂ Governed s.dies ds ∧
    (s.moveVolts g mean budget old).gateView = ({ s with dies := ds } : State).gateView := by
  have start : (assignedCad s g).2.draw.2.gateView = s.gateView := assignedCad_view s g
  have dies : (assignedCad s g).2.draw.2.dies = s.dies := congrArg (fun v => v.2.2.2.1) start
  refine ⟨?ds, ?volts, (pedalGate_view _).trans ((jobGate_view ..).trans ?view)⟩
  case view => exact gateView_withDies ((voltGates_view ..).trans start) _
  case volts =>
    rw [← dies]
    exact voltGates_governed ..

/-- R378, R379: a gate decides gear and means, then moves the voltages, and takes the tags of what is in flight. -/
theorem governorGate_eq {s : State} (on : s.mod.mainOn = true) (cold : s.mss.tripped = false) (mean mean100 : Nat) :
    ∃ ds, ∃ w : State, List.Forall₂ Governed s.dies ds ∧ w.gateView = ({ s.decided mean mean100 with dies := ds } : State).gateView ∧
      governorGate mean mean100 s = { w with pwr := { w.pwr with tags := flightTags w } } := by
  have run : ¬ ((!s.mod.mainOn || s.mss.tripped) = true) := by simp [on, cold]
  let g := activeGear s mean mean100
  have milli := milliGate_view (s.decided mean mean100) (budgetOf s g)
  have dies : (milliGate (s.decided mean mean100) (budgetOf s g)).dies = s.dies := congrArg (fun v => v.2.2.2.1) milli
  obtain ⟨ds, volts, view⟩ := moveVolts_eq (milliGate (s.decided mean mean100) (budgetOf s g)) g (pedalled s (budgetOf s g) mean)
    (budgetOf s g) s.pwr.power100
  refine ⟨ds, _, dies ▸ volts, view.trans (gateView_withDies milli ds), ?_⟩
  rw [governorGate, if_neg run]
  dsimp only [State.moveVolts, State.decided, g]

/-! ## The cap's fast limit, and meters replaced (R41, R374) -/

theorem capLimit_of_over {s : State} (on : s.mod.mainOn = true) {mean100 : Nat} (beyond : 105 * s.pwr.cap < 100 * mean100)
    (first : s.pwr.capDuty = false) : capLimit mean100 s =
      ({ s with pwr := { s.pwr with capDuty := true, capCut := deeper s.pwr.capCut 2, power100 := mean100 } } : State).log eCap 7 0 0 := by
  simp [capLimit, on, Nat.not_le.2 beyond, first]

theorem capLimit_of_not {s : State} {mean100 : Nat} (no : 100 * mean100 ≤ 105 * s.pwr.cap ∨ s.pwr.capDuty = true) :
    capLimit mean100 s = s := by
  rcases no with below | limited
  · simp [capLimit, below]
  · simp [capLimit, limited]

/-- R73: an entry for which the spec names no code has one of the codes listed. -/
theorem State.logOpen_eq (s : State) (inst job detail : Nat) : ∃ e n, e.code ∈ State.errorCodes ∧
    s.logOpen inst job detail = { s with free := n, mss := { s.mss with logQ := s.mss.logQ ++ [e] } } := by
  have lt : Config.freeNat s.free % State.errorCodes.length < State.errorCodes.length := Nat.mod_lt _ (by decide)
  refine ⟨⟨s.now, _, 7, inst, job, 0, detail⟩, s.free + 1, ?_, rfl⟩
  rw [List.getD_eq_getElem _ _ lt]
  exact List.getElem_mem lt

theorem replaceMeters_of_departed {s : State} {d : Nat} {x : Die} (die : s.dies[d]? = some x) (long : 100 ≤ x.departed)
    (own : x.replaced = false) :
    replaceMeters d s = ({ s with dies := s.dies.set d { x with replaced := true } } : State).logOpen d 0 0 := by
  simp [replaceMeters, die, Nat.not_lt.2 long, own, State.updDie_eq_set die]

/-! ## The obligation -/

/-- Settles O25: each gate's effect, one lemma each, put together. -/
theorem gatesMeterAndGovern : Obligations.GatesMeterAndGovern := by
  unfold Obligations.GatesMeterAndGovern
  intro s on
  refine ⟨?cadence, ?governor, ?telemetry, ?cap, ?below, ?meters⟩
  case cadence =>
    intro meters steps
    obtain ⟨occ, gate⟩ := meterGate_eq on meters steps
    refine ⟨_, occ, congrArg (done s) gate, List.length_mapIdx, fun d x y old new => ?_⟩
    obtain ⟨n, base, total, die⟩ := s.getElem?_gateDies meters steps d
    obtain rfl : x.gate (lowest (dieReadings meters d)) n base total = y := by simpa [die, old] using new
    exact ⟨rfl, rfl, rfl, rfl, rfl⟩
  case governor =>
    intro cold mean mean100
    obtain ⟨ds, w, volts, view, gate⟩ := governorGate_eq on cold mean mean100
    simp only [State.gateView, Prod.mk.injEq] at view
    obtain ⟨mem, ctrs, bar, dies, gear, power, power100⟩ := view
    refine ⟨_, congrArg (done s) gate, gear, fun idle => ?_, ⟨power, power100⟩, rfl, mem, ctrs, bar, ?_, fun d x y old new => ?_⟩
    · exact gear.trans (by simp [State.decided, activeGear, idle])
    · exact (congrArg List.length dies).trans volts.length_eq.symm
    · obtain ⟨lt, rfl⟩ := List.getElem?_eq_some_iff.1 old
      obtain ⟨lt', rfl⟩ := List.getElem?_eq_some_iff.1 (dies ▸ new : ds[d]? = some y)
      exact volts.get lt lt'
  case telemetry => exact ⟨_, congrArg (done s) (if_neg (by simp [on])), rfl, rfl, rfl, rfl, rfl⟩
  case cap => exact fun mean100 beyond first => congrArg (done s) (capLimit_of_over on beyond first)
  case below => exact fun mean100 no => (congrArg (done s) (capLimit_of_not no)).trans (done_self s)
  case meters =>
    intro d x die long own
    obtain ⟨e, n, code, logged⟩ := State.logOpen_eq { s with dies := s.dies.set d { x with replaced := true } } d 0 0
    exact ⟨_, e, congrArg (done s) ((replaceMeters_of_departed die long own).trans logged), rfl, rfl, code, rfl⟩

end Sys2Proof.Machine
end

section
/-! SUPPORT. Messages over the Spoke ports (R289-R305): a message sent changes the ports, the Spoke's own state and the outputs, and
nothing else; and which updates of a job leave it its ID. -/
namespace Sys2Proof.Machine

/-- What each step of a fold leaves as it was, the fold leaves as it was. -/
theorem foldl_keeps {σ α β : Type} {g : σ → α → σ} {v : σ → β} (step : ∀ t x, v (g t x) = v t) (l : List α) (s : σ) :
    v (l.foldl g s) = v s := by
  induction l generalizing s with
  | nil => rfl
  | cons x l ih => rw [List.foldl_cons, ih, step]

namespace State

/-- The state without its ports, the Spoke's own state and the outputs. -/
def inner (s : State) : State := { s with out := [], ports := [], spoke := {} }

/-! ## A port that sends (R290-R292) -/

theorem sendIdx_inner (s : State) (n i : Nat) : (s.sendIdx n i).inner = s.inner := by
  unfold sendIdx
  dsimp only
  cases (s.port n).txq[i]? with
  | none => rfl
  | some q => rfl

theorem pumpResend_inner (s : State) (n k : Nat) : (s.pumpResend n k).inner = s.inner := by
  induction k generalizing s with
  | zero => rfl
  | succ k ih =>
    rw [pumpResend]
    cases (s.port n).resend with
    | nil => rfl
    | cons f t => exact ih _

theorem pumpNew_inner (s : State) (n k : Nat) : (s.pumpNew n k).inner = s.inner := by
  induction k generalizing s with
  | zero => rfl
  | succ k ih =>
    rw [pumpNew]
    split
    · rfl
    · cases arbiter (s.port n) with
      | none => rfl
      | some i => exact (ih _).trans (sendIdx_inner s n i)

theorem pump_inner (s : State) (n : Nat) : (s.pump n).inner = s.inner := by
  rw [pump]
  dsimp only
  split
  · rfl
  · exact (pumpNew_inner ..).trans (pumpResend_inner ..)

/-! ## A flit put on a mask of ports (R303-R306) -/

theorem dealOne_inner (s : State) (b : Bundle) (ps : List Nat) (q : QFlit) : (s.dealOne b ps q).inner = s.inner :=
  (pump_inner _ _).trans rfl

theorem sendMask_inner {s t : State} {m : BitVec 36} {key : Nat} {f : SpokeFlit} (h : s.sendMask m key f = some t) : t.inner = s.inner := by
  unfold sendMask at h
  cases ports : s.usable m with
  | nil => simp [ports] at h
  | cons p ps =>
    simp only [ports] at h
    split at h
    · cases h
      rfl
    · cases h
      exact dealOne_inner ..

theorem sendFlow_inner {s t : State} {old m : BitVec 36} {f : SpokeFlit} (h : s.sendFlow old m f = some t) : t.inner = s.inner := by
  unfold sendFlow at h
  split at h
  · cases h
    rfl
  · exact sendMask_inner h

theorem getD_inner {s : State} {o : Option State} (h : ∀ t, o = some t → t.inner = s.inner) : (o.getD s).inner = s.inner := by
  cases o with
  | none => rfl
  | some t => exact h t rfl

theorem sendVc0_inner (s : State) (dst msg job args pay : Nat) : (s.sendVc0 dst msg job args pay).inner = s.inner :=
  getD_inner (fun _ => sendFlow_inner)

theorem send_inner (s : State) (dst : Nat) (i : Instr) : (s.send dst i).inner = s.inner := by
  unfold send
  split
  · dsimp only
    split
    · rfl
    · exact sendVc0_inner ..
  · rfl

/-! ## What a message leaves as it was -/

theorem send_keeps {α : Type} {v : State → α} (apart : ∀ u : State, v u.inner = v u) (s : State) (dst : Nat) (i : Instr) :
    v (s.send dst i) = v s := by
  rw [← apart, send_inner, apart]

@[simp] theorem send_mod (s : State) (dst : Nat) (i : Instr) : (s.send dst i).mod = s.mod := send_keeps (fun _ => rfl) s dst i

/-! ## A job's part in its recovery updated -/

theorem job?_updRecov (s : State) (jid : Nat) (f : Recov → Recov) :
    (s.updRecov jid f).job? jid = (s.job? jid).map (fun j => { j with recov := f j.recov }) :=
  job?_updJob s jid _ (fun _ => rfl)

end State
end Sys2Proof.Machine
end

section
/-! SUPPORT. The orders of a recovery (R364-R369) at a module of the job and at the spare: what each does, and whom it obeys. -/
namespace Sys2Proof.Machine

/-! ## A die that holds, and an order that is not the lead's (R31, R364) -/

section
variable {s : State}

theorem onLocket_of_held (held : dieHeld s 2 = true) (f : State → State) : onLocket f s = s := if_pos held

theorem onLocket_of_free (free : dieHeld s 2 = false) (f : State → State) : onLocket f s = f s := by
  rw [onLocket, free, if_neg Bool.false_ne_true]

theorem onLocket_of_same {f : State → State} (same : f s = s) : onLocket f s = s := by
  rw [onLocket, same, ite_self]

theorem done_onLocket_of_held (held : dieHeld s 2 = true) (f : State → State) : done s (onLocket f s) = .next s := by
  rw [onLocket_of_held held, done_self]

theorem done_onLocket_of_free (free : dieHeld s 2 = false) (f : State → State) : done s (onLocket f s) = .next (settle s (f s)) := by
  rw [onLocket_of_free free, done_eq]

theorem done_onLocket_of_same {f : State → State} (same : f s = s) : done s (onLocket f s) = .next s := by
  rw [onLocket_of_same same, done_self]

theorem startPulls_of_noTake (no : s.mod.take = none) (src jid x y : Nat) : startPulls src jid x y s = s := by
  simp [startPulls, no]

section
variable {src jid : Nat} (stranger : orderOf s src jid = none)
include stranger

theorem obeyRecover_of_stranger : obeyRecover src jid s = s := by simp only [obeyRecover, stranger]

theorem obeyAlias_of_stranger (x y : Nat) : obeyAlias src jid x y s = s := by simp only [obeyAlias, stranger]

theorem obeyRepoint_of_stranger : obeyRepoint src jid s = s := by simp only [obeyRepoint, stranger]

theorem obeyReplay_of_stranger (step : Nat) : obeyReplay src jid step s = s := by simp only [obeyReplay, stranger]

theorem obeyDurable_of_stranger (no : s.mod.take = none) (d : Nat) : obeyDurable src jid d s = s := by
  simp only [obeyDurable, no, Option.filter_none, stranger]

theorem obeyRetire_of_stranger (step : Nat) : obeyRetire src jid step s = s := by simp only [obeyRetire, stranger]

end

/-! ## What an offer leaves as it was (R355) -/

theorem State.correct_mod (s : State) (a n : Nat) : (s.correct a n).mod = s.mod := by
  refine foldl_keeps (v := State.mod) (fun t u => ?_) _ s
  dsimp only
  split
  · rfl
  · obtain ⟨fs, e⟩ := State.rowDue_eq (t.countCe (t.faultChannel (u.1 * 64))) (u.1 * 64)
    rw [e]
    rfl

theorem State.fetch_mod (s : State) (job a n : Nat) : (s.fetch job a n).2.mod = s.mod := by
  refine (foldl_keeps (v := fun p : Bytes × State => p.2.mod) (fun p u => ?_) _ _).trans ?_
  · rfl
  obtain ⟨ms, lq, fs, e⟩ := State.meetBad_eq (s.correct a n) job (s.badUnits a n)
  exact (congrArg State.mod e).trans (s.correct_mod a n)

theorem State.sendOffer_mod (s : State) (j : Job) : (s.sendOffer j).mod = s.mod := by
  refine (foldl_keeps (v := State.mod) (fun t p => ?_) _ _).trans (State.send_mod ..)
  exact (State.send_mod ..).trans (State.fetch_mod ..)

/-! ## The orders, from the lead or deputy -/

section
variable {src jid : Nat} {j : Job} (order : orderOf s src jid = some j)
include order

theorem obeyRecover_of_order : obeyRecover src jid s =
    (((s.expireCloses jid).updRecov jid (fun r => { r with active := true, quiesce := some src })).pedalStart 2 jid).reportQuiet jid := by
  simp only [obeyRecover, order]
  rfl

/-- R364: a 17th ALIAS is refused. -/
theorem obeyAlias_of_full {x : Nat} (full : 16 ≤ j.aliases.length) (new : ∀ a ∈ j.aliases, a.1 ≠ x) (y : Nat) :
    obeyAlias src jid x y s = s.ackOrder src jid .alias_ false := by
  have unknown : j.aliases.any (fun a => a.1 == x) = false := by simpa using fun a b h e => new (a, b) h e
  simp [obeyAlias, order, unknown, full]

section
variable {x : Nat} (room : j.aliases.length < 16 ∨ ∃ a ∈ j.aliases, a.1 = x) (y : Nat)
include room

theorem obeyAlias_of_room : obeyAlias src jid x y s =
    let u := s.updJob jid (fun k => { k with aliases := j.aliases.filter (fun a => a.1 != x) ++ [(x, y)] })
    if j.locket.bound = true ∧ (lBuddy j.locket.desc = x ∨ j.alias? (lBuddy j.locket.desc) = x)
    then (((u.job? jid).map (fun k => u.sendOffer k)).getD u).ackOrder src jid .alias_ true
    else u.ackOrder src jid .alias_ true := by
  have fits : (!j.aliases.any (fun a => a.1 == x) && decide (16 ≤ j.aliases.length)) = false := by
    rcases room with few | known
    · simp [Nat.not_le.2 few]
    · have any : j.aliases.any (fun a => a.1 == x) = true := by simpa using known
      simp [any]
  simp only [obeyAlias, order, fits, Bool.false_eq_true, if_false]
  refine if_congr ?_ rfl rfl
  cases j.locket.bound <;> simp [or_comm]

end

/-- ALIAS leaves the module's own part in a takeover. -/
theorem obeyAlias_mod (x y : Nat) : (obeyAlias src jid x y s).mod = s.mod := by
  by_cases room : j.aliases.length < 16 ∨ ∃ a ∈ j.aliases, a.1 = x
  · rw [obeyAlias_of_room order room]
    dsimp only
    split
    · refine (State.send_mod ..).trans ?_
      cases (s.updJob jid _).job? jid with
      | none => rfl
      | some k => exact State.sendOffer_mod ..
    · exact State.send_mod ..
  · obtain ⟨full, new⟩ := not_or.1 room
    rw [obeyAlias_of_full order (Nat.not_lt.1 full) (fun a mem e => new ⟨a, mem, e⟩)]
    exact State.send_mod ..

theorem obeyRepoint_of_noTake (no : s.mod.take = none) : obeyRepoint src jid s =
    ((s.repointAll jid).updRecov jid (fun r => { r with owing := some src })).reportRepoint jid := by
  simp only [obeyRepoint, order, no]

/-- R367: at the spare that has admitted the job REPOINT starts the TAKEOVER list. -/
theorem obeyRepoint_of_admitted {t : TakeSt} (take : s.mod.take = some t) (job : t.job = jid) (stage : t.stage = .admitted) :
    obeyRepoint src jid s =
      let u := s.pushLocketList jid (s.num t.info.desc 128) 640
      { u with mod := { u.mod with take := some { t with stage := .started } } } := by
  simp only [obeyRepoint, order, take, job, stage, ne_eq, not_true, or_self, if_false]
  rfl

theorem obeyReplay_of_order {k : Job} (step : Nat) (job : (((s.releaseHalted jid).endRecovery jid).newSeal jid).job? jid = some k) :
    obeyReplay src jid step s =
      let u := ((s.releaseHalted jid).endRecovery jid).newSeal jid
      if replayUnfit k step = true then (u.ownReplay jid step).ackOrder src jid .replay false
      else (u.ownReplay jid step).updRecov jid (fun r => { r with replaying := some src }) := by
  simp only [obeyReplay, order, job]

theorem obeyDurable_of_order (no : s.mod.take = none) (d : Nat) : obeyDurable src jid d s =
    let u := s.updRecov jid (fun r => { r with restoring := some d, quiesce := none, owing := none })
    ((if j.strand.pipe.st = .idle ∨ j.strand.pipe.st = .stopping then u else u.stopBegin jid).restoreDurable jid).ackOrder
      src jid .durable true := by
  have same : { s.mod with take := (none : Option TakeSt) } = s.mod := by rw [← no]
  simp only [obeyDurable, no, Option.filter_none, order, same]

/-- R369, R421: a retirement leaves its ledger record, in DRAIN its log entry. -/
theorem obeyRetire_of_order (step : Nat) : obeyRetire src jid step s =
    let u := s.ackOrder src jid .retire true
    if s.mod.st = .drain then (u.log eStraggler engLocket 0 jid step).endJob jid
    else (({ u with mss := { u.mss with retired := true } } : State).ledger 0x0C (leBytes 8 (place 0 16 jid + place 32 32 step))).endJob jid := by
  have state : (s.ackOrder src jid .retire true).mod.st = s.mod.st := congrArg ModSt.st (State.send_mod ..)
  simp only [obeyRetire, order, state]

end

/-- R241, R364: a REPLAY_STEP that fits begins the replay; memory and counters are as they were. -/
theorem ownReplay_of_fit {jid step : Nat} {k : Job} (job : s.job? jid = some k) (fit : replayUnfit k step = false) :
    ∃ v : State, s.ownReplay jid step = v.replayBegin jid ∧ v.mem = s.mem ∧ v.ctrs = s.ctrs := by
  have drawn : s.draw.2.job? jid = some k := job
  unfold State.ownReplay
  simp only [drawn, fit, Bool.false_eq_true, if_false]
  cases ownQueue k with
  | none => exact ⟨_, rfl, rfl, rfl⟩
  | some q => exact ⟨_, rfl, rfl, rfl⟩

/-- R367: the spare that an ALIAS names pulls from the buddy of the module that it takes over. -/
theorem startPulls_of_named {src jid x : Nat} {t : TakeSt} (take : s.mod.take = some t) (lead : t.lead = src) (job : t.job = jid)
    (failed : t.failed = x) (buddy : t.buddy < 256) : startPulls src jid x s.mod.id s =
      (s.send t.buddy (.takeoverOffer (.pull s.mod.id jid))).ackOrder src jid .alias_ true := by
  simp only [startPulls, take, lead, job, failed, buddy, and_self, if_true]

end

/-! ## The obligation -/

/-- Settles O31: what each order does where the Locket's die does not hold, one lemma an order, put together. -/
theorem recoveryOrdersObeyed : Obligations.RecoveryOrdersObeyed := by
  unfold Obligations.RecoveryOrdersObeyed
  intro s src jid ack
  have free_alias (free : dieHeld s 2 = false) (x y : Nat) : exec (.aliasOrder src jid x y) s =
      .next (settle s (startPulls src jid x y (obeyAlias src jid x y s))) := done_onLocket_of_free free _
  refine ⟨?held, ?heldArgs, ?orders, ?spare, ?stranger⟩
  case held =>
    intro held c mem
    simp only [List.mem_cons, List.not_mem_nil, or_false] at mem
    rcases mem with rfl | rfl
    · exact done_onLocket_of_held held _
    · exact done_onLocket_of_held held _
  case heldArgs =>
    intro held x y step c mem
    simp only [List.mem_cons, List.not_mem_nil, or_false] at mem
    rcases mem with rfl | rfl | rfl | rfl
    · exact done_onLocket_of_held held _
    · exact done_onLocket_of_held held _
    · exact done_onLocket_of_held held _
    · exact done_onLocket_of_held held _
  case orders =>
    intro free j order
    have obeyed (x y : Nat) (no : s.mod.take = none) : exec (.aliasOrder src jid x y) s = .next (settle s (obeyAlias src jid x y s)) := by
      rw [free_alias free, startPulls_of_noTake (by rw [obeyAlias_mod order, no])]
    refine ⟨?recover, ?room, ?full, ?repoint, ?admitted, ?replay, ?durable, ?retire⟩
    case recover => exact (done_onLocket_of_free free _).trans (by rw [obeyRecover_of_order order])
    case room =>
      intro x y no room u
      rw [obeyed x y no, obeyAlias_of_room order room]
      refine ⟨fun other => ?_, fun bound buddy => congrArg (done s) (if_pos ⟨bound, buddy⟩)⟩
      have notBuddy : ¬ (j.locket.bound = true ∧ (lBuddy j.locket.desc = x ∨ j.alias? (lBuddy j.locket.desc) = x)) := by
        rintro ⟨bound, buddy⟩
        rcases other with unbound | ⟨direct, named⟩
        · exact Bool.false_ne_true (unbound.symm.trans bound)
        · exact buddy.elim direct named
      exact congrArg (done s) (if_neg notBuddy)
    case full =>
      intro x y no full new
      rw [obeyed x y no, obeyAlias_of_full order full new]
      rfl
    case repoint =>
      intro no
      exact (done_onLocket_of_free free _).trans (by rw [obeyRepoint_of_noTake order no])
    case admitted =>
      intro t take job stage
      exact (done_onLocket_of_free free _).trans (by rw [obeyRepoint_of_admitted order take job stage])
    case replay =>
      intro step k u job
      have replay : exec (.replayOrder src jid step) s = done s (obeyReplay src jid step s) := done_onLocket_of_free free _
      rw [replay, obeyReplay_of_order order step job]
      refine ⟨fun fit => ⟨ownReplay_of_fit job fit, ?_⟩, fun unfit => congrArg (done s) (if_pos unfit)⟩
      exact congrArg (done s) (if_neg (by rw [fit]; exact Bool.false_ne_true))
    case durable =>
      intro d no u
      have durable : exec (.durable src jid d) s = done s (obeyDurable src jid d s) := done_onLocket_of_free free _
      rw [durable, obeyDurable_of_order order no]
      refine ⟨fun stopped => ?_, fun busy going => ?_⟩
      · exact congrArg (fun t : State => done s (ack (t.restoreDurable jid) .durable true)) (if_pos stopped)
      · exact congrArg (fun t : State => done s (ack (t.restoreDurable jid) .durable true)) (if_neg (not_or.2 ⟨busy, going⟩))
    case retire =>
      intro step u
      have retire : exec (.retire src jid step) s = done s (obeyRetire src jid step s) := done_onLocket_of_free free _
      rw [retire, obeyRetire_of_order order]
      exact ⟨fun other => congrArg (done s) (if_neg other), fun drain => congrArg (done s) (if_pos drain)⟩
  case spare =>
    intro free stranger t x take lead job failed buddy
    rw [free_alias free, obeyAlias_of_stranger stranger, startPulls_of_named take lead job failed buddy]
    rfl
  case stranger =>
    intro stranger no x y step
    exact ⟨done_onLocket_of_same (obeyRecover_of_stranger stranger),
      done_onLocket_of_same (by rw [obeyAlias_of_stranger stranger, startPulls_of_noTake no]),
      done_onLocket_of_same (obeyRepoint_of_stranger stranger), done_onLocket_of_same (obeyReplay_of_stranger stranger step),
      done_onLocket_of_same (obeyDurable_of_stranger stranger no step), done_onLocket_of_same (obeyRetire_of_stranger stranger step)⟩

end Sys2Proof.Machine
end

section
/-! SUPPORT. A module that fails (R350), and how the others come to know it (R351, R366, R369, R370). -/
namespace Sys2Proof.Machine

/-! ## The module that fails (R350) -/

theorem State.sendNotices_inner (s : State) : s.sendNotices.inner = s.inner :=
  foldl_keeps (v := State.inner) (fun _ _ => (State.send_inner ..).trans (State.send_inner ..)) _ s

theorem State.failModule_of_fault {s : State} (fault : s.mod.st = .fault) : s.failModule = s := if_pos fault

/-- R69, R72, R408: FAULT is entered with its causes and one log entry. -/
theorem State.enter_fault {s : State} (other : s.mod.st ≠ .fault) : (s.enter .fault).mod.st = .fault ∧
    (s.enter .fault).bar.irqStatus = s.bar.irqStatus ||| 0x90 ∧
    (s.enter .fault).mss.logQ = s.mss.logQ ++ [⟨s.now, 0, 7, 0, 0, 1, s.mod.st.code + 16 * 7⟩] ∧
    (s.enter .fault).jobs = s.jobs ∧ (s.enter .fault).mem = s.mem := by
  rw [State.enter, if_neg other]
  exact ⟨rfl, BitVec.or_assoc .., rfl, rfl, rfl⟩

theorem State.failModule_effect {s : State} (other : s.mod.st ≠ .fault) : s.failModule.mod.st = .fault ∧
    s.failModule.bar.irqStatus = s.bar.irqStatus ||| 0x90 ∧
    s.failModule.mss.logQ = s.mss.logQ ++ [⟨s.now, 0, 7, 0, 0, 1, s.mod.st.code + 16 * 7⟩] ∧
    s.failModule.jobs = s.jobs ∧ s.failModule.mem = s.mem := by
  have noticed {α : Type} (v : State → α) (apart : ∀ u : State, v u.inner = v u) : v s.sendNotices = v s := by
    rw [← apart, State.sendNotices_inner, apart]
  have mod := noticed State.mod (fun _ => rfl)
  obtain ⟨st, irq, log, jobs, mem⟩ := State.enter_fault (s := s.sendNotices) (by rwa [mod])
  rw [State.failModule, if_neg other]
  refine ⟨st, irq.trans ?_, log.trans ?_, jobs.trans (noticed State.jobs (fun _ => rfl)), mem.trans (noticed State.mem (fun _ => rfl))⟩
  · rw [noticed State.bar (fun _ => rfl)]
  · rw [noticed State.mss (fun _ => rfl), noticed State.now (fun _ => rfl), mod]

/-! ## A module that hears of a failure (R351) -/

theorem State.updJob_updJob (s : State) (jid : Nat) {f : Job → Job} (g : Job → Job) (keeps : ∀ j, (f j).id = j.id) :
    (s.updJob jid f).updJob jid g = s.updJob jid (fun j => g (f j)) := by
  have once : (s.jobs.map (fun j => if j.id == jid then f j else j)).map (fun j => if j.id == jid then g j else j) =
      s.jobs.map (fun j => if j.id == jid then g (f j) else j) := by
    rw [List.map_map]
    refine List.map_congr_left (fun j _ => ?_)
    by_cases own : j.id = jid <;> simp [own, keeps]
  exact congrArg (fun js => ({ s with jobs := js } : State)) once

theorem State.updRecov_updRecov (s : State) (jid : Nat) (f g : Recov → Recov) :
    (s.updRecov jid f).updRecov jid g = s.updRecov jid (fun r => g (f r)) := State.updJob_updJob s jid _ (fun _ => rfl)

/-- A suspicion of x by a module, kept once. -/
def Recov.suspect (r : Recov) (x src : Nat) : Recov :=
  if r.suspects.contains (x, src) then r else { r with suspects := r.suspects ++ [(x, src)] }

section
variable {s : State} {j : Job} {src jid x : Nat} (job : s.job? jid = some j)
include job

theorem takeNoticeOf_of_job : takeNoticeOf src jid s = if hears s j src = true then s.confirmFailed jid src else s.sendSuspect jid src := by
  simp only [takeNoticeOf, job]

section
variable (heard : hears s j x = true) (new : x ∉ j.recov.failed) (ok : (x, src) ∉ j.recov.suspects)
include heard new ok

theorem takeSuspect_of_heard : takeSuspect src jid x s =
    let u := s.updRecov jid (fun r => r.suspect x src)
    if 2 ≤ countIf (fun p => p.1 == x) j.recov.suspects + 1 then u.confirmFailed jid x
    else if j.recov.probes.any (fun p => p.1 == x) then u
    else (u.updRecov jid (fun r => { r with probes := r.probes ++ [(x, s.now)] })).emit (.probe x) := by
  have kept : (j.recov.suspect x src).suspects = j.recov.suspects ++ [(x, src)] := by simp [Recov.suspect, ok]
  have count : (((s.updRecov jid (fun r => r.suspect x src)).job? jid).map (fun k => countIf (fun p => p.1 == x) k.recov.suspects)).getD 0 =
      countIf (fun p => p.1 == x) j.recov.suspects + 1 := by
    rw [State.job?_updRecov, job]
    simp [kept, countIf]
  simp only [takeSuspect, job]
  refine (if_neg (by simpa [heard] using new)).trans ?_
  rw [← count]
  rfl

/-- R351: a first suspicion is probed. -/
theorem takeSuspect_first (first : ∀ p ∈ j.recov.suspects, p.1 ≠ x) (unprobed : ∀ p ∈ j.recov.probes, p.1 ≠ x) :
    takeSuspect src jid x s =
      (s.updRecov jid (fun r => { r.suspect x src with probes := r.probes ++ [(x, s.now)] })).emit (.probe x) := by
  have none : countIf (fun p => p.1 == x) j.recov.suspects = 0 := by
    simpa [countIf, List.filter_eq_nil_iff] using fun a b h e => first (a, b) h e
  have probes : j.recov.probes.any (fun p => p.1 == x) = false := by simpa using fun a b h e => unprobed (a, b) h e
  have both (r : Recov) : (r.suspect x src).probes = r.probes := apply_ite Recov.probes .. |>.trans (ite_self _)
  rw [takeSuspect_of_heard job heard new ok, none, probes]
  simp [State.updRecov_updRecov, both]

/-- R351: a second module's suspicion confirms the failure. -/
theorem takeSuspect_second {o : Nat} (one : j.recov.suspects = [(x, o)]) :
    takeSuspect src jid x s = (s.updRecov jid (fun r => r.suspect x src)).confirmFailed jid x := by
  have two : 2 ≤ countIf (fun p => p.1 == x) j.recov.suspects + 1 := by simp [one, countIf]
  rw [takeSuspect_of_heard job heard new ok]
  exact if_pos two

end

/-- R351: a probe unanswered for 1 ms. -/
theorem probeOver_of_late {since : Nat} (probe : (x, since) ∈ j.recov.probes) (late : since + 100000 ≤ s.now) :
    probeOver jid x s = s.confirmFailed jid x := by
  have any : j.recov.probes.any (fun p => p.1 == x && decide (p.2 + 100000 ≤ s.now)) = true :=
    List.any_eq_true.2 ⟨_, probe, Bool.and_eq_true_iff.2 ⟨beq_self_eq_true x, decide_eq_true late⟩⟩
  simp only [probeOver, job, any, if_true]

/-- R369, R421: a straggler is logged, is to retire, and counts as failed. -/
theorem takeStraggler_of_heard (heard : hears s j src = true) (alive : src ∈ survivors s j) (step : Nat) :
    takeStraggler src jid step s = ((s.log eStraggler engLocket 0 jid step).updRecov jid (fun r =>
      { r with retiring := r.retiring ++ [(src, step)] })).confirmFailed jid src := by
  have contains : (survivors s j).contains src = true := List.contains_iff_mem.2 alive
  simp only [takeStraggler, job, heard, contains, Bool.not_true, Bool.or_self, Bool.false_eq_true, if_false]

/-! ## A failure confirmed (R366, R370) -/

theorem confirmFailed_of_known (known : x ∈ j.recov.failed ∨ x = s.mod.id) : s.confirmFailed jid x = s := by
  simp only [State.confirmFailed, job]
  exact if_pos (by simpa using known)

/-- No suspicion or probe of x is left. -/
def Recov.cleared (r : Recov) (x : Nat) : Recov :=
  { r with suspects := r.suspects.filter (fun p => p.1 != x), probes := r.probes.filter (fun p => p.1 != x) }

theorem confirmFailed_of_new (new : x ∉ j.recov.failed) (other : x ≠ s.mod.id) : s.confirmFailed jid x =
    let u := s.updRecov jid (fun r => r.cleared x)
    if State.isSpare j x = true then (if j.recov.spare = some x then u.nextCandidate jid else u)
    else ((u.updJob jid (fun k => { k with
        aliases := k.aliases.filter (fun a => !j.recov.taking.any (fun t => t.1 == a.1))
        routes := k.routes.filter (fun r => j.recov.spare != some (r.key % 256)) })).updRecov jid (fun r =>
          { r with failed := r.failed ++ [x] })).sendRecover jid := by
  simp only [State.confirmFailed, job]
  exact if_neg (by simpa using ⟨new, other⟩)

end

theorem isSpare_of_asked {j : Job} {x : Nat} (taking : j.recov.taking ≠ none) (asked : j.recov.spare = some x) : State.isSpare j x = true := by
  obtain ⟨t, takes⟩ := Option.ne_none_iff_exists'.1 taking
  simp [State.isSpare, takes, asked]

theorem isSpare_of_noTakeover {j : Job} {x : Nat} (no : j.recov.taking = none) : State.isSpare j x = false := by
  simp [State.isSpare, no]

/-! ## The obligation -/

/-- Settles O32: the module's own failure, then each way in which another one hears of it, one lemma each. -/
theorem failureConfirmed : Obligations.FailureConfirmed := by
  unfold Obligations.FailureConfirmed
  intro s
  refine ⟨?fails, ?again, ?held, ?hears⟩
  case fails =>
    intro other
    obtain ⟨st, irq, log, jobs, mem⟩ := State.failModule_effect other
    exact ⟨settle s s.failModule, rfl, st, irq, log, jobs, mem⟩
  case again => exact fun fault => (congrArg (done s) (State.failModule_of_fault fault)).trans (done_self s)
  case held =>
    intro held src jid x c mem
    simp only [List.mem_cons, List.not_mem_nil, or_false] at mem
    rcases mem with rfl | rfl | rfl | rfl
    · exact done_onLocket_of_held held _
    · exact done_onLocket_of_held held _
    · exact done_onLocket_of_held held _
    · exact done_onLocket_of_held held _
  case hears =>
    intro j src jid x job _
    refine ⟨fun free => ⟨?heard, ?unheard, ?suspect, ?second, ?probe, ?straggler⟩, ?known, ?new⟩
    case heard =>
      intro heard
      exact (done_onLocket_of_free free _).trans (by rw [takeNoticeOf_of_job job, if_pos heard])
    case unheard =>
      intro unheard
      exact (done_onLocket_of_free free _).trans
        (by rw [takeNoticeOf_of_job job, unheard, if_neg Bool.false_ne_true])
    case suspect =>
      intro heard new first unprobed
      exact (done_onLocket_of_free free _).trans
        (by rw [takeSuspect_first job heard new (fun mem => first _ mem rfl) first unprobed]; rfl)
    case second =>
      intro o heard new other one
      have ok : (x, src) ∉ j.recov.suspects := by simpa [one] using other.symm
      exact (done_onLocket_of_free free _).trans (by rw [takeSuspect_second job heard new ok one]; rfl)
    case probe =>
      intro since probe late
      exact (done_onLocket_of_free free _).trans (by rw [probeOver_of_late job probe late])
    case straggler =>
      intro step heard alive
      exact (done_onLocket_of_free free _).trans (by rw [takeStraggler_of_heard job heard alive]; rfl)
    case known => exact confirmFailed_of_known job
    case new =>
      intro drop new other
      have confirmed := confirmFailed_of_new job new other
      refine ⟨fun spare asked => ?_, fun spare notAsked => ?_, fun not => ?_, isSpare_of_asked, isSpare_of_noTakeover⟩
      · exact confirmed.trans ((if_pos spare).trans (if_pos asked))
      · exact confirmed.trans ((if_pos spare).trans (if_neg notAsked))
      · exact confirmed.trans (if_neg (by rw [not]; exact Bool.false_ne_true))

end Sys2Proof.Machine
end

section
/-! SUPPORT. The takeover (R364-R368): reports gathered and answers taken at the lead, the offer and what was pulled at the spare. -/
namespace Sys2Proof.Machine

/-! ## Reports at the lead (R364, R365) -/

/-- A quiescent report kept in place of an older one of its module; reports are awaited from the first. -/
def Recov.report (r : Recov) (m : QuietMsg) (now : Nat) : Recov :=
  { r with
    reports := r.reports.filter (fun n => n.src != m.src) ++ [m], since := r.since.orElse (fun _ => some now)
    phase := if r.phase = .idle then .reports else r.phase }

theorem Recov.reported_iff (r : Recov) (m : QuietMsg) (now x : Nat) :
    (r.report m now).reports.any (fun n => n.src == x) = true ↔ x = m.src ∨ ∃ n ∈ r.reports, n.src = x := by
  have member (n : QuietMsg) : n ∈ (r.report m now).reports ↔ (n ∈ r.reports ∧ n.src ≠ m.src) ∨ n = m := by simp [Recov.report]
  simp only [List.any_eq_true, member, beq_iff_eq]
  constructor
  · rintro ⟨n, ⟨mem, -⟩ | rfl, rfl⟩
    · exact .inr ⟨n, mem, rfl⟩
    · exact .inl rfl
  · rintro (rfl | ⟨n, mem, rfl⟩)
    · exact ⟨m, .inr rfl, rfl⟩
    · by_cases own : n.src = m.src
      · exact ⟨m, .inr rfl, own.symm⟩
      · exact ⟨n, .inl ⟨mem, own⟩, rfl⟩

section
variable {s : State} {j : Job}

/-- R365: with the last report of the survivors' the path is chosen. -/
theorem takeQuiet_of_awaited {m : QuietMsg} (job : s.job? m.job = some j) (own : m.job = j.id) (acts : actsFor s j = true)
    (alive : m.src ∈ survivors s j) (going : j.recov.halted = false) (phase : j.recov.phase = .reports) :
    takeQuiet m s =
      let u := s.updRecov j.id (fun r => r.report m s.now)
      if ∀ x ∈ survivors s j, x = m.src ∨ ∃ n ∈ j.recov.reports, n.src = x then u.decidePath j.id else u := by
  have here : s.job? j.id = some j := own ▸ job
  have noted : (s.updRecov j.id (fun r => r.report m s.now)).job? j.id = some { j with recov := j.recov.report m s.now } := by
    rw [State.job?_updRecov, here, Option.map_some]
  have awaits : (j.recov.report m s.now).phase = .reports := by simp [Recov.report, phase]
  have last : (survivors s j).all (fun x => (j.recov.report m s.now).reports.any (fun n => n.src == x)) = true ↔
      ∀ x ∈ survivors s j, x = m.src ∨ ∃ n ∈ j.recov.reports, n.src = x := by
    simp only [List.all_eq_true, Recov.reported_iff]
  have contains : (survivors s j).contains m.src = true := List.contains_iff_mem.2 alive
  simp only [takeQuiet, job, acts, contains, going, Bool.not_true, Bool.or_self, Bool.false_eq_true, if_false]
  unfold Recov.report at noted awaits last ⊢
  simp only [noted]
  exact if_congr ⟨fun h => last.1 h.2, fun h => ⟨awaits, last.2 h⟩⟩ rfl rfl

/-- R364: after 1 s the modules without a report count as failed. -/
theorem quietOver_of_late {jid since : Nat} (job : s.job? jid = some j) (acts : actsFor s j = true) (phase : j.recov.phase = .reports)
    (from_ : j.recov.since = some since) (late : since + 100000000 ≤ s.now) : quietOver jid s =
      ((survivors s j).filter (fun x => !j.recov.reports.any (fun n => n.src == x))).foldl (fun s x => s.confirmFailed jid x) s := by
  have due : j.recov.since.any (fun t => decide (t + 100000000 ≤ s.now)) = true := by
    rw [from_, Option.any_some]
    exact decide_eq_true late
  simp only [quietOver, job, acts, phase, due, ne_eq, not_true, decide_false, Bool.not_true, Bool.or_self, Bool.false_eq_true, if_false]

/-! ## The offer (R367 step 1) -/

theorem takeOffered_of_fit {lead job x buddy r : Nat} {info : SrcInfo} (run : s.mod.st = .run) (idle : ∀ k ∈ s.jobs, k.admitted = false)
    (inUse : s.mss.retired = false) : takeOffered lead job x buddy r info s =
      ({ s with mod := { s.mod with take := some { lead := lead, job := job, failed := x, buddy := buddy, step := r, info := info } } } : State).send
        lead (.takeoverOffer (.answer s.mod.id job true)) := by
  have none : s.jobs.any Job.admitted = false := by simpa using idle
  simp [takeOffered, run, none, inUse]

theorem takeOffered_of_unfit {lead job x buddy r : Nat} {info : SrcInfo}
    (no : s.mod.st ≠ .run ∨ (∃ k ∈ s.jobs, k.admitted = true) ∨ s.mss.retired = true) :
    takeOffered lead job x buddy r info s = s.send lead (.takeoverOffer (.answer s.mod.id job false)) := by
  have unfit : (decide (s.mod.st = .run) && !s.jobs.any Job.admitted && !s.mss.retired) = false := by
    rcases no with other | busy | retired
    · simp [other]
    · simp [List.any_eq_true.2 busy]
    · simp [retired]
  simp [takeOffered, unfit]

/-! ## The candidate's answer (R367 steps 1 and 2) -/

/-- ALIAS to every survivor and the spare, and a patch to each whose table names x. -/
def State.sendAliases (s : State) (j : Job) (jid x src : Nat) : State :=
  let u := s.updRecov jid (fun r => { r with phase := .patching, spare := some src, askedAt := none, patches := [], patchBad := false })
  let v := (survivors u j ++ [src]).foldl (fun s m => s.send m (.aliasOrder s.mod.id jid x src)) u
  let rs := allReports j
  let named (m : Nat) : List Nat := if m = v.mod.id then (j.routes.filter (fun r => r.ports != 0)).map (·.key)
    else ((rs.find? (fun n => n.src == m)).map (·.named)).getD []
  (survivors u j).foldl (fun s m =>
    ((List.range 5).filter (fun k => (named m).contains (k * 256 + x))).foldl (fun s k =>
      s.sendPatch jid m (k * 256 + src) (portsTo (((rs.find? (fun n => n.src == m)).map (·.links)).getD []) rs src)) s) v

theorem takeAnswer_of_asked {src jid x r : Nat} (job : s.job? jid = some j) (taking : j.recov.taking = some (x, r))
    (cand : (lSpares j.locket.desc)[j.recov.cand]? = some src) (phase : j.recov.phase = .asking) (ok : Bool) :
    takeAnswer src jid ok s =
      if ok = false then s.nextCandidate jid
      else if 16 ≤ (j.aliases.filter (fun a => a.1 != x)).length then s.haltAll jid else s.sendAliases j jid x src := by
  simp only [takeAnswer, job, taking, cand, phase, ne_eq, not_true, or_self, if_false, Bool.not_eq_true']
  rfl

theorem acceptOver_of_late {jid at_ : Nat} (job : s.job? jid = some j) (phase : j.recov.phase = .asking)
    (asked : j.recov.askedAt = some at_) (late : at_ + 100000 ≤ s.now) : acceptOver jid s = s.nextCandidate jid := by
  have due : j.recov.askedAt.any (fun t => decide (t + 100000 ≤ s.now)) = true := by
    rw [asked, Option.any_some]
    exact decide_eq_true late
  simp only [acceptOver, job, phase, due, and_self, if_true]

/-! ## The spare admits the job (R367 step 4, R368) -/

/-- Patches for every entry of the spare's table that names another module. -/
def State.patchTable (s : State) (j : Job) (src jid : Nat) (routes : List (Nat × Nat × Bool)) (links : List (Nat × Nat)) : State :=
  ((routes.filter (fun (e : Nat × Nat × Bool) => e.2.1 != 0 && e.1 % 256 != src)).map (·.1)).foldl (fun s k =>
    s.sendPatch jid src k (portsTo links (allReports j) (j.alias? (k % 256)))) s

theorem takeAdmitted_of_restart {src jid : Nat} (job : s.job? jid = some j) (restart : src ∈ j.recov.restarts) (ok : Bool)
    (routes : List (Nat × Nat × Bool)) (links : List (Nat × Nat)) : takeAdmitted src jid ok routes links s =
      let u := s.updRecov jid (fun r => { r with restarts := r.restarts.filter (· != src) })
      if ok = true then u.patchTable j src jid routes links else u.haltAll jid := by
  have contains : j.recov.restarts.contains src = true := List.contains_iff_mem.2 restart
  simp only [takeAdmitted, job, contains, if_true]
  rfl

theorem takeAdmitted_of_patching {src jid : Nat} (job : s.job? jid = some j) (first : src ∉ j.recov.restarts)
    (spare : j.recov.spare = some src) (phase : j.recov.phase = .patching) (path : j.recov.durable = none) (ok : Bool)
    (routes : List (Nat × Nat × Bool)) (links : List (Nat × Nat)) : takeAdmitted src jid ok routes links s =
      if ok = false then s.durablePath jid
      else (s.updRecov jid (fun r => { r with phase := .routing })).patchTable j src jid routes links := by
  have contains : j.recov.restarts.contains src = false := by simpa using first
  simp only [takeAdmitted, job, contains, spare, phase, path, ne_eq, not_true, or_self, Option.isSome_none, Bool.false_eq_true, if_false,
    Bool.not_eq_true']
  rfl

/-! ## What the spare has pulled (R367 steps 3 and 4) -/

theorem takeRestoredAll_of_refused {t : TakeSt} {b : StateBlockMsg} (block : t.block = some b) (refused : admitRestored s t b = none) :
    s.takeRestoredAll t = s.takeFails t := by
  simp only [State.takeRestoredAll, block, refused]

theorem takeRestoredAll_of_admitted {t : TakeSt} {b : StateBlockMsg} {u : State} {table : List (Nat × Nat × Bool)}
    (block : t.block = some b) (admitted : admitRestored s t b = some (u, table)) :
    s.takeRestoredAll t =
      let v : State := { u with mod := { u.mod with take := some { t with stage := .admitted, block := none } } }
      v.send t.lead (.takeoverOffer (.admitted v.mod.id t.job true table (linkMap v))) := by
  simp only [State.takeRestoredAll, block, admitted]

section
variable {t : TakeSt} (take : s.mod.take = some t) (stage : t.stage = .pulling)
include take stage

theorem takeRestored_of_bad (ranges : List (Nat × Bytes)) (b : StateBlockMsg) : takeRestored t.job ranges b true s = s.takeFails t := by
  simp only [takeRestored, take, stage, ne_eq, not_true, or_self, if_false, if_true]

theorem takeRestored_of_good (ranges : List (Nat × Bytes)) (b : StateBlockMsg) : takeRestored t.job ranges b false s =
    let w := ranges.foldl (fun (s : State) (r : Nat × Bytes) => s.store r.1 r.2) s
    let es := if t.info.tandem then tandemsAt w t.info.desc else []
    let t' : TakeSt := { t with stage := .tensors, block := some b, due := List.range es.length }
    let u : State := { w with mod := { w.mod with take := some t' } }
    if es.isEmpty = true then u.takeRestoredAll t' else ((List.range es.length).zip es).foldl (fun s p =>
      s.send t.info.partner (.takeoverOffer (.pullTensor s.mod.id t.job p.1 (tStage p.2) (tSlot0 p.2) (tPitch p.2) (tLen p.2)))) u := by
  simp only [takeRestored, take, stage, ne_eq, not_true, or_self, Bool.false_eq_true, if_false]

end

/-! ## REPOINT carried out (R367 steps 5 to 7) -/

section
variable {src jid : Nat} (job : s.job? jid = some j) (phase : j.recov.phase = .repointing) (due : src ∈ j.recov.repoint)
include job phase due

theorem takeCarried_of_failed : takeCarried src jid false s = s.durablePath jid := by
  have contains : j.recov.repoint.contains src = true := List.contains_iff_mem.2 due
  simp only [takeCarried, job, phase, contains, ne_eq, not_true, Bool.not_true, Bool.false_eq_true, or_self, if_false, Bool.not_false, if_true]

theorem takeCarried_of_notLast (other : ∃ m ∈ j.recov.repoint, m ≠ src) : takeCarried src jid true s =
    s.updRecov jid (fun r => { r with repoint := r.repoint.filter (· != src) }) := by
  have contains : j.recov.repoint.contains src = true := List.contains_iff_mem.2 due
  have left : j.recov.repoint.filter (· != src) ≠ [] := by simpa using other
  have noted := State.job?_updRecov s jid (fun r => { r with repoint := r.repoint.filter (· != src) })
  rw [job] at noted
  simp only [takeCarried, job, phase, contains, ne_eq, not_true, Bool.not_true, Bool.false_eq_true, or_self, if_false, noted,
    Option.map_some, left, not_false_eq_true, if_true]

end
end

/-! ## The obligation -/

/-- Settles O33: each message of a takeover, at the lead and at the spare, one lemma each. -/
theorem takeoverAtSpareAndLead : Obligations.TakeoverAtSpareAndLead := by
  unfold Obligations.TakeoverAtSpareAndLead
  intro s j
  refine ⟨fun held => ⟨fun m => done_onLocket_of_held held _, fun m => done_onLocket_of_held held _, fun jid =>
    ⟨done_onLocket_of_held held _, done_onLocket_of_held held _⟩⟩, fun free => ?_⟩
  have taken (m : TakeoverMsg) : exec (.takeoverOffer m) s = done s (takeTakeover m s) := done_onLocket_of_free free _
  refine ⟨?quiet, ?late, ?accepts, ?declines, ?answer, ?admitted, ?restored, ?carried, ?timeout⟩
  case quiet =>
    intro m job own acts alive going phase u
    have report : exec (.quiescentReport m) s = done s (takeQuiet m s) := done_onLocket_of_free free _
    rw [report, takeQuiet_of_awaited job own acts alive going phase]
    refine ⟨?_, fun all => congrArg (done s) (if_pos all)⟩
    rintro ⟨x, mem, other, silent⟩
    refine congrArg (done s) (if_neg (fun all => ?_))
    rcases all x mem with same | ⟨n, reported, src⟩
    · exact other same
    · exact silent n reported src
  case late =>
    intro jid since job acts phase from_ late
    exact (done_onLocket_of_free free _).trans (by rw [quietOver_of_late job acts phase from_ late])
  case accepts =>
    intro lead job x buddy r info run idle inUse
    exact (taken _).trans (congrArg (done s) (takeOffered_of_fit run idle inUse))
  case declines =>
    intro lead job x buddy r info no
    exact (taken _).trans (congrArg (done s) (takeOffered_of_unfit no))
  case answer =>
    intro src jid x r job taking cand phase
    have answer (ok : Bool) := (taken (.answer src jid ok)).trans (congrArg (done s) (takeAnswer_of_asked job taking cand phase ok))
    refine ⟨answer false, fun full => ?_, fun room => ?_⟩
    · exact (answer true).trans (congrArg (done s) (if_pos full))
    · exact (answer true).trans (congrArg (done s) (if_neg (Nat.not_le.2 room)))
  case admitted =>
    intro src jid routes links job keys patched
    refine ⟨fun first spare phase path => ?_, fun restart => ?_⟩
    · have outcome (ok : Bool) := (taken (.admitted src jid ok routes links)).trans
        (congrArg (done s) (takeAdmitted_of_patching job first spare phase path ok routes links))
      exact ⟨outcome false, outcome true⟩
    · have outcome (ok : Bool) := (taken (.admitted src jid ok routes links)).trans
        (congrArg (done s) (takeAdmitted_of_restart job restart ok routes links))
      exact ⟨outcome false, outcome true⟩
  case restored =>
    intro t ranges b take stage refuse w es t' u
    have good := (taken (.restored t.job ranges b false)).trans (congrArg (done s) (takeRestored_of_good take stage ranges b))
    refine ⟨(taken _).trans (congrArg (done s) (takeRestored_of_bad take stage ranges b)), fun none refused => ?_,
      fun x table none admitted => ?_, fun some => ?_⟩
    · have whole : es.isEmpty = true := List.isEmpty_iff.2 none
      exact good.trans (congrArg (done s) ((if_pos whole).trans (takeRestoredAll_of_refused rfl refused)))
    · have whole : es.isEmpty = true := List.isEmpty_iff.2 none
      exact good.trans (congrArg (done s) ((if_pos whole).trans (takeRestoredAll_of_admitted rfl admitted)))
    · exact good.trans (congrArg (done s) (if_neg (fun whole => some (List.isEmpty_iff.1 whole))))
  case carried =>
    intro src jid job phase due
    exact ⟨(taken _).trans (congrArg (done s) (takeCarried_of_failed job phase due)),
      fun other => (taken _).trans (congrArg (done s) (takeCarried_of_notLast job phase due other))⟩
  case timeout =>
    intro jid at_ job phase asked late
    exact (done_onLocket_of_free free _).trans (by rw [acceptOver_of_late job phase asked late])

end Sys2Proof.Machine
end

section
/-! SUPPORT. BAR0 and the mailbox (R66-R70), what a port gives up on VC0 (R289), a step's front command, and reset. -/
namespace Sys2Proof.Machine

/-! ## The step and reset -/

/-- Settles O1: the definition of a step, where the queue of commands has a front. -/
theorem stepTakesFront : Obligations.StepTakesFront := by
  unfold Obligations.StepTakesFront
  intro c rest s front
  rw [step, front]

/-- Settles O5: the reset state is a literal, and each field is read off it. -/
theorem resetValues : Obligations.ResetValues := by
  unfold Obligations.ResetValues
  refine ⟨rfl, rfl, rfl, by decide, by decide, rfl, rfl, rfl, rfl⟩

/-! ## Bits of a register's word -/

theorem bitAt_toNat {n : Nat} (v : BitVec n) (i : Nat) : bitAt v.toNat i = v.getLsbD i := by
  rw [bitAt, bits, pow_one, BitVec.getLsbD, Nat.testBit_eq_decide_div_mod_eq, Nat.shiftRight_eq_div_pow]
  rfl

/-- The low bits of a word do not show what lies above them. -/
theorem bits_zero_eq {n : Nat} (v : BitVec n) (w : Nat) : bits v.toNat 0 w = v.toNat % 2 ^ w := by rw [bits, Nat.shiftRight_zero]

theorem toNat_or_mod {v m : Word32} {w : Nat} (h : m.toNat % 2 ^ w = 0) : (v ||| m).toNat % 2 ^ w = v.toNat % 2 ^ w := by
  rw [BitVec.toNat_or, Nat.or_mod_two_pow, h, Nat.or_zero]

/-- A bit that is set already is set again without effect. -/
theorem or_twoPow_of_getLsbD {v : Word32} {i : Nat} (h : v.getLsbD i = true) : v ||| BitVec.twoPow 32 i = v := by
  ext k hk
  rw [BitVec.getElem_or, BitVec.getElem_twoPow, Bool.or_eq_left_iff_imp, decide_eq_true_eq]
  rintro rfl
  rw [← BitVec.getLsbD_eq_getElem, h]

/-! ## Writes of BAR0 (R67, R68, R69) -/

section
variable {s : State} (f : State → State)

theorem onBar_of_reaches (up : barUp s = true) (free : dieHeld s (hostDie s) = false) : onBar f s = f s := by
  simp [onBar, up, free]

theorem onBar_of_shut (shut : barUp s = false ∨ dieHeld s (hostDie s) = true) : onBar f s = s := by
  rcases shut with down | held
  · simp [onBar, down]
  · simp [onBar, held]

end

theorem irqClear_toNat (v : Word32) (s : State) :
    irqClear v.toNat s = { s with bar := { s.bar with irqStatus := s.bar.irqStatus &&& ~~~(v.setWidth 8) } } := by
  rw [irqClear, BitVec.ofNat_toNat]

theorem irqMask_toNat (v : Word32) (s : State) : irqMask v.toNat s = { s with bar := { s.bar with irqMask := v.setWidth 8 } } := by
  rw [irqMask, BitVec.ofNat_toNat]

/-- The values g 0, ..., g (n − 1) put from place a on. -/
def sputRange (a n : Nat) (g : Nat → Byte) (m : List (Nat × Byte)) : List (Nat × Byte) :=
  (List.range n).foldl (fun l i => sput 0 l (a + i) (g i)) m

theorem sputRange_succ (a n : Nat) (g : Nat → Byte) (m : List (Nat × Byte)) :
    sputRange a (n + 1) g m = sput 0 (sputRange a n g m) (a + n) (g n) := by
  simp only [sputRange, List.range_succ, List.foldl_append, List.foldl_cons, List.foldl_nil]

theorem swf_sputRange {m : List (Nat × Byte)} (a n : Nat) (g : Nat → Byte) (h : swf 0 m = true) : swf 0 (sputRange a n g m) = true := by
  induction n with
  | zero => exact h
  | succ n ih => rw [sputRange_succ]; exact swf_sput _ _ ih

theorem sget_sputRange_out {m : List (Nat × Byte)} {a n x : Nat} (g : Nat → Byte) (out : x < a ∨ a + n ≤ x) :
    sget 0 (sputRange a n g m) x = sget 0 m x := by
  induction n with
  | zero => rfl
  | succ n ih => rw [sputRange_succ, sget_sput_other (by omega), ih (by omega)]

theorem sget_sputRange_in {m : List (Nat × Byte)} {a n i : Nat} (g : Nat → Byte) (h : swf 0 m = true) (lt : i < n) :
    sget 0 (sputRange a n g m) (a + i) = g i := by
  induction n with
  | zero => omega
  | succ n ih =>
    rw [sputRange_succ]
    rcases Nat.lt_succ_iff_lt_or_eq.1 lt with below | rfl
    · rw [sget_sput_other (by omega), ih below]
    · exact sget_sput_same (swf_sputRange a i g h)

/-- A byte of the low 32 bits of a word is a byte of the word. -/
theorem ofNat_bits_mod_byte (x : Nat) {i : Nat} (lt : i < 4) :
    BitVec.ofNat 8 (bits (x % 2 ^ 32) (8 * i) 8) = BitVec.ofNat 8 (x >>> (8 * i)) := by
  rw [bits_mod_two_pow (by omega), bits]
  apply BitVec.eq_of_toNat_eq
  simp

/-- MBOX_IN after an aligned 32-bit write of it. -/
def mboxWord (off v : Nat) (m : List (Nat × Byte)) : List (Nat × Byte) :=
  sputRange (off - 0x100) 4 (fun i => BitVec.ofNat 8 (bits (v % 2 ^ 32) (8 * i) 8)) m

theorem sget_mboxWord_in {m : List (Nat × Byte)} {off i : Nat} (v : Nat) (h : swf 0 m = true) (lt : i < 4) :
    sget 0 (mboxWord off v m) (off - 0x100 + i) = BitVec.ofNat 8 (v >>> (8 * i)) := by
  rw [mboxWord, sget_sputRange_in _ h lt, ofNat_bits_mod_byte v lt]

section
variable {off : Nat} (v : Nat) (s : State)

theorem barWrite_other {size : Nat}
    (h : size ≠ 4 ∨ off % 4 ≠ 0 ∨ (off ≠ 0 ∧ off ≠ 8 ∧ off ≠ 0xC ∧ off ≠ 0x10 ∧ (off < 0x100 ∨ 0x4FF < off))) :
    barWrite off size v s = s := by
  unfold barWrite
  by_cases odd : size ≠ 4 ∨ off % 4 ≠ 0
  · rw [if_pos odd]
  · obtain ⟨n0, n8, nC, n10, out⟩ : off ≠ 0 ∧ off ≠ 8 ∧ off ≠ 0xC ∧ off ≠ 0x10 ∧ (off < 0x100 ∨ 0x4FF < off) := by omega
    rw [if_neg odd, if_neg n0, if_neg n8, if_neg nC, if_neg n10, if_neg (by omega)]

theorem barWrite_mboxIn (aligned : off % 4 = 0) (lo : 0x100 ≤ off) (hi : off ≤ 0x4FF) :
    barWrite off 4 v s = { s with bar := { s.bar with mboxIn := mboxWord off v s.bar.mboxIn } } := by
  unfold barWrite
  rw [if_neg (by omega), if_neg (by omega), if_neg (by omega), if_neg (by omega), if_neg (by omega), if_pos ⟨lo, hi⟩]
  rfl

end

/-- Settles O6: a write goes to its register's command, to four bytes of MBOX_IN, or nowhere. -/
theorem bar0RegistersWrite : Obligations.Bar0RegistersWrite := by
  unfold Obligations.Bar0RegistersWrite
  refine ⟨fun v s => ⟨fun up free => ⟨?_, ?_⟩, fun shut => ⟨?_, ?_⟩⟩, fun off size v s up free => ?_⟩
  · exact congrArg (done s) ((onBar_of_reaches _ up free).trans (irqClear_toNat v s))
  · exact congrArg (done s) ((onBar_of_reaches _ up free).trans (irqMask_toNat v s))
  · exact (congrArg (done s) (onBar_of_shut _ shut)).trans (done_self s)
  · exact (congrArg (done s) (onBar_of_shut _ shut)).trans (done_self s)
  · have word : (v.setWidth 32).toNat = v.toNat % 2 ^ 32 := BitVec.toNat_setWidth ..
    have again : ∀ i < 32, v.getLsbD i = true → (v.setWidth 32 ||| BitVec.twoPow 32 i).toNat = v.toNat % 2 ^ 32 := fun i lt set => by
      rw [or_twoPow_of_getLsbD (by rw [BitVec.getLsbD_setWidth, set, decide_eq_true lt, Bool.and_true]), word]
    refine ⟨?_, ?_, ?_, fun go => ?_, fun _ ready => ?_, fun _ err => ?_, fun aligned lo hi => ?_, fun other => ?_⟩
    · exact congrArg (fun x => done s (onBar (ringDoorbell none (x % 2 ^ 16)) s)) word.symm
    · exact congrArg (fun x => done s (onBar (irqClear x) s)) word.symm
    · exact congrArg (fun x => done s (onBar (irqMask x) s)) word.symm
    · exact congrArg (fun x => done s (onBar (mboxCtrl x) s)) (again 16 (by omega) go).symm
    · exact congrArg (fun x => done s (onBar (mboxCtrl x) s)) (again 18 (by omega) ready).symm
    · exact congrArg (fun x => done s (onBar (mboxCtrl x) s)) (again 19 (by omega) err).symm
    · exact ⟨_, congrArg (done s) ((onBar_of_reaches _ up free).trans (barWrite_mboxIn v.toNat s aligned lo hi)), fun wf =>
        ⟨swf_sputRange _ _ _ wf, fun i lt => sget_mboxWord_in v.toNat wf lt, fun a out => sget_sputRange_out _ out⟩⟩
    · exact (congrArg (done s) ((onBar_of_reaches _ up free).trans (barWrite_other v.toNat s other))).trans (done_self s)

/-! ## The mailbox (R70) -/

/-- What a write of MBOX_CTRL leaves of BAR0 before GO is judged. -/
def mboxLoad (v : Word32) (b : Bar0) : Bar0 :=
  { b with
    inLen := BitVec.ofNat 11 (v.toNat % 2048), outReady := b.outReady && !v.getLsbD 18, mboxErr := b.mboxErr && !v.getLsbD 19 }

/-- A write of MBOX_CTRL: IN_LEN and the bits written 1, then GO. -/
theorem mboxCtrl_toNat (v : Word32) (s : State) : mboxCtrl v.toNat s =
    if v.getLsbD 16 = false then { s with bar := mboxLoad v s.bar }
    else if s.bar.busy = true then { s with bar := { mboxLoad v s.bar with mboxErr := true, lastError := ⟨0x2001, 7, 0, 0⟩ } }
    else if v.toNat % 2048 = 0 ∨ 1024 < v.toNat % 2048 then
      { s with bar := { mboxLoad v s.bar with mboxErr := true, lastError := ⟨0x1001, 7, 0, 0⟩ } }
    else { s with
      bar := { mboxLoad v s.bar with busy := true }
      mss := { s.mss with inbox := s.mss.inbox ++ [(256, (List.range (v.toNat % 2048)).map (sget 0 s.bar.mboxIn))] } } := by
  simp only [mboxCtrl, bits_zero_eq, bitAt_toNat, Nat.reducePow]
  cases v.getLsbD 16 <;> rfl

section
variable (v : Word32) {i : Nat}

theorem getLsbD_or_twoPow (k : Nat) (lt : i < 32) : (v ||| BitVec.twoPow 32 i).getLsbD k = (v.getLsbD k || decide (i = k)) := by
  rw [BitVec.getLsbD_or, BitVec.getLsbD_twoPow, decide_eq_true lt, Bool.true_and]

/-- A bit set above IN_LEN leaves IN_LEN. -/
theorem inLen_or_twoPow (lo : 11 ≤ i) (hi : i < 32) : (v ||| BitVec.twoPow 32 i).toNat % 2048 = v.toNat % 2048 := by
  have high : (BitVec.twoPow 32 i).toNat % 2 ^ 11 = 0 := by
    rw [BitVec.toNat_twoPow_of_lt hi]
    exact Nat.mod_eq_zero_of_dvd (Nat.pow_dvd_pow 2 lo)
  exact toNat_or_mod high

theorem ofNat_inLen : BitVec.ofNat 11 (v.toNat % 2048) = v.setWidth 11 := by
  apply BitVec.eq_of_toNat_eq
  simp

theorem mboxLoad_or_twoPow (b : Bar0) (lo : 11 ≤ i) (hi : i < 32) : mboxLoad (v ||| BitVec.twoPow 32 i) b =
    { b with
      inLen := BitVec.ofNat 11 (v.toNat % 2048), outReady := b.outReady && !(v.getLsbD 18 || decide (i = 18))
      mboxErr := b.mboxErr && !(v.getLsbD 19 || decide (i = 19)) } := by
  rw [mboxLoad, inLen_or_twoPow v lo hi, getLsbD_or_twoPow v 18 hi, getLsbD_or_twoPow v 19 hi]

theorem mboxLoad_or_go (b : Bar0) : mboxLoad (v ||| BitVec.twoPow 32 16) b = mboxLoad v b := by
  rw [mboxLoad_or_twoPow v b (by omega) (by omega)]
  simp [mboxLoad]

theorem mboxLoad_or_outReady (b : Bar0) : mboxLoad (v ||| BitVec.twoPow 32 18) b =
    { b with inLen := v.setWidth 11, outReady := false, mboxErr := b.mboxErr && !v.getLsbD 19 } := by
  rw [mboxLoad_or_twoPow v b (by omega) (by omega), ofNat_inLen]
  simp

theorem mboxLoad_or_err (b : Bar0) : mboxLoad (v ||| BitVec.twoPow 32 19) b =
    { b with inLen := v.setWidth 11, outReady := b.outReady && !v.getLsbD 18, mboxErr := false } := by
  rw [mboxLoad_or_twoPow v b (by omega) (by omega), ofNat_inLen]
  simp

end

/-- A write of MBOX_CTRL without GO: IN_LEN and the bits written 1 only. -/
theorem mboxCtrl_of_noGo {v : Word32} (no : v.getLsbD 16 = false) (s : State) :
    mboxCtrl v.toNat s = { s with bar := mboxLoad v s.bar } := by rw [mboxCtrl_toNat, if_pos no]

section
variable {v : Word32} {s : State} (go : v.getLsbD 16 = true)
include go

theorem mboxCtrl_of_busy (busy : s.bar.busy = true) : mboxCtrl v.toNat s =
    { s with bar := { mboxLoad v s.bar with mboxErr := true, lastError := ⟨0x2001, 7, 0, 0⟩ } } := by
  rw [mboxCtrl_toNat, if_neg (by simp [go]), if_pos busy]

theorem mboxCtrl_of_badLength (idle : s.bar.busy = false) (bad : v.toNat % 2048 = 0 ∨ 1024 < v.toNat % 2048) : mboxCtrl v.toNat s =
    { s with bar := { mboxLoad v s.bar with mboxErr := true, lastError := ⟨0x1001, 7, 0, 0⟩ } } := by
  rw [mboxCtrl_toNat, if_neg (by simp [go]), if_neg (by simp [idle]), if_pos bad]

theorem mboxCtrl_of_message (idle : s.bar.busy = false) (lo : 1 ≤ v.toNat % 2048) (hi : v.toNat % 2048 ≤ 1024) : mboxCtrl v.toNat s =
    { s with
      bar := { mboxLoad v s.bar with busy := true }
      mss := { s.mss with inbox := s.mss.inbox ++ [(256, (List.range (v.toNat % 2048)).map (sget 0 s.bar.mboxIn))] } } := by
  rw [mboxCtrl_toNat, if_neg (by simp [go]), if_neg (by simp [idle]), if_neg (by omega)]

end

/-- The state with the inbound message processed, where the message answers it (R70). -/
theorem mboxDone_ite (reply : Bool) (s : State) : (if reply = true then s.mboxDone else s) = { s with
    bar := { s.bar with busy := s.bar.busy && !reply }
    mss := { s.mss with inbox := if reply = true then s.mss.inbox.filter (fun x => x.1 != 256) else s.mss.inbox } } := by
  cases reply
  · simp
  · simp [State.mboxDone, mboxSource]

/-- The messages held, with the new one if MBOX_OUT takes its length. -/
def mboxHeld (msg : Bytes) (s : State) : List Bytes := s.bar.outQueue ++ (if 1 ≤ msg.length ∧ msg.length ≤ 1024 then [msg] else [])

theorem mboxHeld_eq (msg : Bytes) (s : State) :
    (if msg = [] ∨ 1024 < msg.length then s.bar.outQueue else s.bar.outQueue ++ [msg]) = mboxHeld msg s := by
  have fits : (msg = [] ∨ 1024 < msg.length) ↔ ¬ (1 ≤ msg.length ∧ msg.length ≤ 1024) := by
    rw [← List.length_eq_zero_iff]
    omega
  by_cases ok : 1 ≤ msg.length ∧ msg.length ≤ 1024
  · rw [mboxHeld, if_neg (by simpa [fits] using ok), if_pos ok]
  · rw [mboxHeld, if_pos (fits.2 ok), if_neg ok, List.append_nil]

/-- The first message held goes out, with its length and its cause. -/
theorem mboxPost_of_free {msg m : Bytes} {rest : List Bytes} {s : State} (idle : s.bar.outReady = false) (first : mboxHeld msg s = m :: rest) :
    mboxPost msg false s = { s with bar := { s.bar with
      mboxOut := m ++ s.bar.mboxOut.drop m.length, outLen := BitVec.ofNat 11 m.length, outReady := true
      outQueue := rest, irqStatus := s.bar.irqStatus ||| 8 } } := by
  simp only [mboxPost, mboxHeld_eq, first, idle, Bool.false_eq_true, if_false]
  rfl

/-- Messages stay held while MBOX_OUT is taken, or while there is none. -/
theorem mboxPost_of_stay {msg : Bytes} {s : State} (stay : s.bar.outReady = true ∨ mboxHeld msg s = []) :
    mboxPost msg false s = { s with bar := { s.bar with outQueue := mboxHeld msg s } } := by
  simp only [mboxPost, mboxHeld_eq, Bool.false_eq_true, if_false]
  cases e : mboxHeld msg s with
  | nil => rfl
  | cons m rest => simp only [stay.resolve_right (by simp [e]), if_true]

/-- Settles O7: what a write of MBOX_CTRL and a message of the MSS do, case by case. -/
theorem mailboxBothWays : Obligations.MailboxBothWays := by
  unfold Obligations.MailboxBothWays
  refine ⟨fun v s up free => ?_, fun msg reply s => ?_, fun v s up free => ?_⟩
  · have go : (v ||| BitVec.twoPow 32 16).getLsbD 16 = true := by rw [getLsbD_or_twoPow v 16 (by omega)]; simp
    have run : ∀ t, mboxCtrl (v ||| BitVec.twoPow 32 16).toNat s = t → exec (.mboxGo v) s = .next (settle s t) := fun t e =>
      congrArg (done s) ((onBar_of_reaches _ up free).trans e)
    have len := inLen_or_twoPow v (i := 16) (by omega) (by omega)
    refine ⟨fun idle lo hi => run _ ?_, fun busy => run _ ?_, fun idle bad => run _ ?_⟩
    · rw [mboxCtrl_of_message go idle (len ▸ lo) (len ▸ hi), mboxLoad_or_go, len]
      rfl
    · rw [mboxCtrl_of_busy go busy, mboxLoad_or_go]
      rfl
    · rw [mboxCtrl_of_badLength go idle (len ▸ bad), mboxLoad_or_go]
      rfl
  · have run : ∀ t, mboxPost msg false (if reply = true then s.mboxDone else s) = t → exec (.mboxOutPost ⟨msg, reply⟩) s =
        .next (settle s t) := fun t e => congrArg (done s) e
    rw [mboxDone_ite] at run
    exact ⟨fun m rest idle first => run _ (mboxPost_of_free idle first), fun stay => run _ (mboxPost_of_stay stay)⟩
  · have run : ∀ i t, mboxCtrl (v ||| BitVec.twoPow 32 i).toNat s = t → done s (onBar (mboxCtrl (v ||| BitVec.twoPow 32 i).toNat) s) =
        .next (settle s t) := fun i t e => congrArg (done s) ((onBar_of_reaches _ up free).trans e)
    have bit : ∀ i < 32, i ≠ 16 → (v ||| BitVec.twoPow 32 i).getLsbD 16 = v.getLsbD 16 := fun i lt ne => by
      rw [getLsbD_or_twoPow v 16 lt, decide_eq_false ne, Bool.or_false]
    refine ⟨fun go => ⟨?_, ?_⟩, fun no => ⟨run 18 _ ?_, run 19 _ ?_⟩⟩
    · have set := (bit 18 (by omega) (by omega)).trans go
      exact congrArg (fun x : Word32 => done s (onBar (mboxCtrl x.toNat) s)) (or_twoPow_of_getLsbD set).symm
    · have set := (bit 19 (by omega) (by omega)).trans go
      exact congrArg (fun x : Word32 => done s (onBar (mboxCtrl x.toNat) s)) (or_twoPow_of_getLsbD set).symm
    · rw [mboxCtrl_of_noGo ((bit 18 (by omega) (by omega)).trans no), mboxLoad_or_outReady]
    · rw [mboxCtrl_of_noGo ((bit 19 (by omega) (by omega)).trans no), mboxLoad_or_err]

/-! ## The doorbell (R66, R68) -/

/-- A doorbell value discarded with an error code (R66). -/
def dropDoorbell (code : Nat) (s : State) : State := { s with bar := { s.bar with
  lastError := ⟨code, 6, 0, 0⟩, irqStatus := s.bar.irqStatus ||| 0x20
  counts := s.bar.counts.set (code / 4096) (satAdd 32 (s.bar.counts.getD (code / 4096) 0) 1) } }

section
variable {src : Option Nat} {v : Nat} {s : State}

/-- R66: only the ring's owner may ring it. -/
theorem ringDoorbell_of_stranger (other : (if s.wring.peer = true then src == some s.wring.owner else src.isNone) = false) :
    ringDoorbell src v s = dropDoorbell 0x9001 s := by
  simp only [ringDoorbell, other]
  rfl

variable (owner : (if s.wring.peer = true then src == some s.wring.owner else src.isNone) = true) (word : v < 65536)
include owner word

theorem ringDoorbell_of_beyond (far : 2 ^ s.wring.log2 < (v + 65536 - s.wring.head.toNat) % 65536) :
    ringDoorbell src v s = dropDoorbell 0x1001 s := by
  simp only [ringDoorbell, owner, Nat.reducePow, Nat.mod_eq_of_lt word, decide_eq_true far]
  rfl

theorem ringDoorbell_of_within (near : (v + 65536 - s.wring.head.toNat) % 65536 ≤ 2 ^ s.wring.log2) :
    ringDoorbell src v s = { s with wring := { s.wring with tail := BitVec.ofNat 16 v } } := by
  simp only [ringDoorbell, owner, Nat.reducePow, Nat.mod_eq_of_lt word, decide_eq_false (Nat.not_lt.2 near)]
  rfl

end

/-- Settles O8: the host's doorbell, by the ring's owner and the distance of the value from HEAD. -/
theorem doorbellHoldsNewestTail : Obligations.DoorbellHoldsNewestTail := by
  unfold Obligations.DoorbellHoldsNewestTail
  intro v s up free ahead drop
  have run : ∀ t, ringDoorbell none (v.toNat % 65536) s = t → exec (.doorbell v) s = .next (settle s t) := fun t e =>
    congrArg (done s) ((onBar_of_reaches _ up free).trans e)
  have word : v.toNat % 65536 < 65536 := Nat.mod_lt _ (by omega)
  have tail : BitVec.ofNat 16 (v.toNat % 65536) = v.setWidth 16 := by
    apply BitVec.eq_of_toNat_eq
    simp
  refine ⟨fun host near => run _ ?_, fun host far => run _ ?_, fun peer => run _ (ringDoorbell_of_stranger (by simp [peer]))⟩
  · rw [ringDoorbell_of_within (by simp [host]) word near, tail]
  · exact ringDoorbell_of_beyond (by simp [host]) word far

/-! ## VC0 (R289, R293, R307, R411) -/

/-- What takes a flit off a port takes the oldest for this module on the channel, and frees its slot (R293). -/
theorem State.takeRx_eq_some {s u : State} {n vc : Nat} {ok : SpokeFlit → Bool} {f : SpokeFlit} (h : s.takeRx n vc ok = some (f, u)) :
    ∃ i, s.rxIdx n vc true = some i ∧ (s.port n).rx[i]? = some f ∧ ok f = true ∧ u = s.dropRx n i := by
  unfold State.takeRx at h
  split at h
  · simp at h
  · rename_i i oldest
    split at h
    · simp at h
    · rename_i g at_
      split at h
      · rename_i good
        obtain ⟨rfl, rfl⟩ := Prod.mk.inj (Option.some.inj h)
        have free : dieHeld s (portDie n) = false := by
          by_contra held
          simp [held] at oldest
        exact ⟨i, by simpa [free] using oldest, at_, good, rfl⟩
      · simp at h

/-- The oldest flit of a channel that ends here: no earlier one does. -/
theorem State.rxIdx_eq_some {s : State} {n vc i : Nat} (h : s.rxIdx n vc true = some i) :
    (∀ f, (s.port n).rx[i]? = some f → lvcOrigin (fLvc f) = vc ∧ fDst f = s.mod.id) ∧
      ∀ k < i, ∀ g, (s.port n).rx[k]? = some g → ¬ (lvcOrigin (fLvc g) = vc ∧ fDst g = s.mod.id) := by
  unfold State.rxIdx at h
  obtain ⟨lt, here, before⟩ := List.findIdx?_eq_some_iff_getElem.1 h
  constructor
  · intro f at_
    rw [List.getElem?_eq_getElem lt, Option.some_inj] at at_
    simpa [at_] using here
  · intro k lt_i g at_
    rw [List.getElem?_eq_getElem (lt_i.trans lt), Option.some_inj] at at_
    simpa [at_] using before k lt_i

theorem State.dropRx_eq {s : State} {n i : Nat} {f : SpokeFlit} (h : (s.port n).rx[i]? = some f) :
    s.dropRx n i = s.setPort n { s.port n with
      rx := (s.port n).rx.eraseIdx i
      freed := (s.port n).freed.set (flitClass f s.mod.id * 8 + lvcChannel (fLvc f))
        ((s.port n).freed.getD (flitClass f s.mod.id * 8 + lvcChannel (fLvc f)) 0 + 1) } := by
  simp only [State.dropRx, State.updPort, State.setPort, h]

/-- Settles O11: the message's handler runs on what is left once the oldest flit has left its slot. -/
theorem vc0FlitsAct : Obligations.Vc0FlitsAct := by
  unfold Obligations.Vc0FlitsAct
  refine ⟨fun port f s u => ⟨?_, ?_, ?_, ?_⟩, ?_⟩
  · intro taken peer owner near
    exact congrArg (done s) ((onVc0_of_takeRx _ taken).trans
      (ringDoorbell_of_within (by simp [peer, owner]) (Nat.mod_lt _ (by omega)) near))
  · intro taken code out
    refine congrArg (done s) ((onVc0_of_takeRx _ taken).trans ?_)
    by_cases own : u.wring.peer = true ∧ fSrc f = u.wring.owner
    · have far := Nat.not_le.1 (fun near => out ⟨own.1, own.2, near⟩)
      simp only [code, if_pos own]
      exact ringDoorbell_of_beyond (by simp [own]) (Nat.mod_lt _ (by omega)) far
    · simp only [code, if_neg own]
      exact ringDoorbell_of_stranger (by simpa using own)
  · exact fun taken => congrArg (done s) (onVc0_of_takeRx takeMctp taken)
  · exact fun taken => congrArg (done s) (onVc0_of_takeRx takeUnreachable taken)
  · intro s u n vc ok f _ taken
    obtain ⟨i, oldest, at_, good, rfl⟩ := State.takeRx_eq_some taken
    obtain ⟨here, before⟩ := State.rxIdx_eq_some oldest
    obtain ⟨origin, ends⟩ := here f at_
    exact ⟨i, at_, good, origin, ends, before, State.dropRx_eq at_⟩

end Sys2Proof.Machine
end

section
/-! SUPPORT. The fetch, start, rejection and completion of a record (R47, R53, R55-R61), said once for every kind of command. -/
namespace Sys2Proof.Machine

/-! ## The record as its engine holds it -/

section
variable (sp : CmdSpec) (s : State) (r : Nat)

theorem bits_whole {lo w : Nat} (h : lo + w ≤ 512) : bits (sp.whole s r) lo w = bits r lo w := bits_add_mul h

theorem bitAt_whole {i : Nat} (h : i + 1 ≤ 512) : bitAt (sp.whole s r) i = bitAt r i := by rw [bitAt, bitAt, bits_whole sp s r h]

@[simp] theorem hKind_whole : hKind (sp.whole s r) = hKind r := bits_whole sp s r (by omega)
@[simp] theorem hPhase_whole : hPhase (sp.whole s r) = hPhase r := bits_whole sp s r (by omega)
@[simp] theorem hFence_whole : hFence (sp.whole s r) = hFence r := bitAt_whole sp s r (by omega)
@[simp] theorem hLast_whole : hLast (sp.whole s r) = hLast r := bitAt_whole sp s r (by omega)
@[simp] theorem hWaitCtr_whole : hWaitCtr (sp.whole s r) = hWaitCtr r := bits_whole sp s r (by omega)
@[simp] theorem hWaitOp_whole : hWaitOp (sp.whole s r) = hWaitOp r := bits_whole sp s r (by omega)
@[simp] theorem hSigOp_whole : hSigOp (sp.whole s r) = hSigOp r := bits_whole sp s r (by omega)
@[simp] theorem hWaitVal_whole : hWaitVal (sp.whole s r) = hWaitVal r := bits_whole sp s r (by omega)
@[simp] theorem hSigCtr_whole : hSigCtr (sp.whole s r) = hSigCtr r := bits_whole sp s r (by omega)
@[simp] theorem hJob_whole : hJob (sp.whole s r) = hJob r := bits_whole sp s r (by omega)

theorem ckZero_whole {lo w : Nat} (h : lo + w ≤ 512) : ckZero (sp.whole s r) lo w = ckZero r lo w := by
  rw [ckZero, ckZero, bits_whole sp s r h]

@[simp] theorem hdrChecks_whole (j : Job) (eng : Nat) (atCount : Bool) :
    hdrChecks j eng (sp.whole s r) atCount = hdrChecks j eng r atCount := by
  simp [hdrChecks, ckZero_whole]

@[simp] theorem gateOf_whole (j : Job) : gateOf j (sp.whole s r) = gateOf j r := by simp [gateOf]

@[simp] theorem alone_whole (ref : QRef) : Sys2Proof.Machine.alone ref (sp.whole s r) = Sys2Proof.Machine.alone ref r := by
  simp [Sys2Proof.Machine.alone]

@[simp] theorem waitOver_whole (t : State) : waitOver t (sp.whole s r) = waitOver t r := by simp [waitOver]

end

/-! ## What the taking up of a record leaves -/

theorem waitOver_of_ctrs {s t : State} (h : t.ctrs = s.ctrs) (r : Nat) : waitOver t r = waitOver s r := by
  unfold waitOver State.ctr
  rw [h]

section
variable (s : State) (j : Job) (q : Queue) (r : Nat)

@[simp] theorem taken_ref : (taken q r).ref = q.ref := rfl
@[simp] theorem taken_flight : (taken q r).flight = q.flight := rfl
@[simp] theorem taken_held : (taken q r).held = q.held := rfl
@[simp] theorem taken_cur : (taken q r).cur = some { record := r } := rfl

@[simp] theorem dieHeld_takeTurn (ref : QRef) (d : Nat) : dieHeld (s.takeTurn ref) d = dieHeld s d := by simp [dieHeld]
@[simp] theorem dieHeld_fetched (d : Nat) : dieHeld (fetched s j q r) d = dieHeld s d := by simp [dieHeld, fetched]
@[simp] theorem waitOver_takeTurn (ref : QRef) (w : Nat) : waitOver (s.takeTurn ref) w = waitOver s w := waitOver_of_ctrs (by simp) w
@[simp] theorem waitOver_fetched (w : Nat) : waitOver (fetched s j q r) w = waitOver s w := waitOver_of_ctrs (by simp [fetched]) w
@[simp] theorem holding_takeTurn (ref : QRef) : holding (s.takeTurn ref) j = holding s j := by simp [holding, stopsHard]
@[simp] theorem holding_fetched : holding (fetched s j q r) (j.setQueue (taken q r)) = holding s j := by
  simp [holding, stopsHard, fetched, Job.setQueue]
@[simp] theorem gateOf_setQueue : gateOf (j.setQueue q) r = gateOf j r := rfl

end

/-! ## The start of a fetched record -/

/-- A fetched record without queries at peers starts, where its die does not hold and nothing keeps it back (R56). -/
theorem tryStart_of_free {sp : CmdSpec} {s : State} {j : Job} {q : Queue} {r : Nat} (awake : dieHeld s (engDie q.ref) = false)
    (goes : stays sp s j q { record := r } = false) (gate : gateOf j r = none) (late : firstFail (sp.late s j q r) 7 2 = none)
    (alone : sp.exchange s j q { record := r } = none) :
    tryStart sp s j q { record := r } = launch s j.id q.ref (begin sp s j q r) := by
  simp [tryStart, awake, goes, gate, late, alone]

/-- What keeps a fetched record without queries back (R31, R46, R47, R332). -/
theorem stays_eq_false {sp : CmdSpec} {s : State} {j : Job} {q : Queue} {r : Nat} (moves : holding s j = false)
    (awake : dieHeld s (engDie q.ref) = false) (wait : waitOver s r = true)
    (fence : Sys2Proof.Machine.alone q.ref r = true → q.flight = []) (held : q.held = []) (ready : sp.ready s j q r = true) :
    stays sp s j q { record := r } = false := by
  have fenced : (Sys2Proof.Machine.alone q.ref r && !q.flight.isEmpty) = false := by
    cases e : Sys2Proof.Machine.alone q.ref r
    · rfl
    · simp [fence e]
  simp [stays, moves, awake, wait, fenced, held, ready]

/-! ## The command rows -/

/-- Each command of a queue is its kind's issue. -/
theorem exec_engineCommand {ref : QRef} (s : State) : ∀ p ∈ engineCommands ref, exec p.1 s = done s (issue p.2 ref s) := by
  simp only [engineCommands, List.cons_append, List.nil_append, List.forall_mem_cons, List.not_mem_nil, false_imp_iff, implies_true,
    and_true]
  and_intros <;> rfl

section
variable {sp : CmdSpec} {ref : QRef} {s : State} {j : Job} {q : Queue} {l : ListRef} {r : Nat}

theorem AtHead.lists (head : AtHead ref s j q l r) : ∃ t, q.lists = l :: t := List.head?_eq_some_iff.1 head.list

/-- A record of a kind that the queue accepts and another command runs is left. -/
theorem issue_of_otherKind (head : AtHead ref s j q l r) (known : accepts ref.eng (hKind r) = true) (other : hKind r ≠ sp.kind) :
    issue sp ref s = s := by
  obtain ⟨t, lists⟩ := head.lists
  simp [issue, head.job, head.queue, lists, head.record, known, other]

/-- A record that fails one of checks 1 to 3 is rejected, in its turn (R56, R57). -/
theorem issue_of_fail (head : AtHead ref s j q l r) (mine : hKind r = sp.kind ∨ accepts ref.eng (hKind r) = false)
    (fetch : sp.fetch s j q r = true) {f : Fail} (fails : firstChecks sp ref s j q l r = some f) :
    issue sp ref s = rejectTurn s q ref j.id (if accepts ref.eng (hKind r) = true then sp.whole s r else r) f := by
  obtain ⟨t, lists⟩ := head.lists
  have own : (accepts ref.eng (hKind r) && hKind r != sp.kind) = false := by rcases mine with h | h <;> simp [h]
  unfold firstChecks at fails
  cases known : accepts ref.eng (hKind r) <;> rw [known] at fails own <;>
    simp_all [issue, head.job, head.queue, head.record, head.moves, head.awake, head.free, head.turn]

/-- A record that passes checks 1 to 3 and asks nothing of peers is taken up, and starts or waits (R56). -/
theorem issue_of_passes (p : Passes sp ref s j q l r) :
    let w := sp.whole s r
    issue sp ref s = tryStart sp (fetched s j q w) (j.setQueue (taken q w)) (taken q w) { record := w } := by
  obtain ⟨t, lists⟩ := p.head.lists
  have checks := p.checks
  simp only [firstChecks, p.known, if_true] at checks
  have known := p.known
  rw [p.kind] at known
  have ref_eq := Job.queue?_ref p.head.queue
  simp [issue, p.head.job, p.head.queue, p.head.record, p.head.moves, p.head.awake, p.head.free, p.head.turn, lists, p.kind, known,
    p.fetch, checks, p.alone, fetched, taken, ref_eq]

/-- R56: a record that passes every check and waits for nothing starts. -/
theorem issue_of_startsNow (h : StartsNow sp ref s j q l r) :
    issue sp ref s = launch (fetched s j q (sp.whole s r)) j.id ref (startOf sp s j q r) := by
  obtain ⟨p, lonely⟩ := h
  have ref_eq := Job.queue?_ref p.head.queue
  have held : q.held = [] := by
    have free := p.head.free
    simp only [canFetch, Bool.and_eq_true, List.isEmpty_iff] at free
    exact free.1.1.2
  have goes := stays_eq_false (sp := sp) (s := fetched s j q (sp.whole s r)) (j := j.setQueue (taken q (sp.whole s r)))
    (q := taken q (sp.whole s r)) (by simpa using p.head.moves) (by simpa [ref_eq] using p.head.awake) (by simpa using p.wait)
    (by simpa using p.fence) held p.ready
  rw [issue_of_passes p, tryStart_of_free (by simpa [ref_eq] using p.head.awake) goes (by simpa using p.gate) p.late lonely]
  simp [startOf, atStart, ref_eq]

end

end Sys2Proof.Machine
end

section
/-! SUPPORT. Queues of a job under updates, a report and a completion (R55-R61), said once. -/
namespace Sys2Proof.Machine

/-! ## A job's queue in the state -/

/-- Queue `ref` of job `jid`. -/
def State.queueOf (s : State) (jid : Nat) (ref : QRef) : Option Queue := (s.job? jid).bind (fun j => j.queue? ref)

theorem State.job?_id {s : State} {jid : Nat} {j : Job} (h : s.job? jid = some j) : j.id = jid := by
  simpa using List.find?_some h

section
variable {s : State} {j : Job} (run : s.runJob = some j)
include run

theorem State.running_of_runJob : s.running = some j.id := by
  obtain ⟨jid, running, job⟩ := Option.bind_eq_some_iff.1 run
  rw [running, State.job?_id job]

theorem State.job?_of_runJob : s.job? j.id = some j := by
  obtain ⟨jid, -, job⟩ := Option.bind_eq_some_iff.1 run
  rwa [State.job?_id job]

theorem State.queueOf_of_runJob {ref : QRef} {q : Queue} (queue : j.queue? ref = some q) : s.queueOf j.id ref = some q := by
  rw [State.queueOf, State.job?_of_runJob run, Option.bind_some, queue]

end

/-- The running job's queue, found again. -/
theorem State.exists_runJob {t : State} {jid : Nat} {ref : QRef} {p : Queue} (run : t.running = some jid)
    (queue : t.queueOf jid ref = some p) : ∃ k, t.runJob = some k ∧ k.queue? ref = some p := by
  obtain ⟨k, job, found⟩ := Option.bind_eq_some_iff.1 queue
  exact ⟨k, by rw [State.runJob, run, Option.bind_some, job], found⟩

section
variable {s t : State} {jid : Nat} {ref : QRef}

theorem State.queueOf_of_jobs (h : t.jobs = s.jobs) : t.queueOf jid ref = s.queueOf jid ref := by
  unfold State.queueOf State.job?
  rw [h]

theorem State.queueOf_updJob {f : Job → Job} {g : Queue → Queue} (id : ∀ j, (f j).id = j.id)
    (queue : ∀ j, (f j).queue? ref = (j.queue? ref).map g) : (s.updJob jid f).queueOf jid ref = (s.queueOf jid ref).map g := by
  unfold State.queueOf
  rw [State.job?_updJob s jid f id]
  cases s.job? jid with
  | none => rfl
  | some j => exact queue j

/-- An update of one queue of the job. -/
theorem State.queueOf_updQueue {f : Job → Job} {g : Queue → Queue} (some : ∀ j q, j.queue? ref = some q → f j = j.setQueue (g q))
    (none : ∀ j, j.queue? ref = none → f j = j) (name : ∀ q, (g q).ref = q.ref) :
    (s.updJob jid f).queueOf jid ref = (s.queueOf jid ref).map g := by
  have each (j : Job) : (f j).id = j.id ∧ (f j).queue? ref = (j.queue? ref).map g := by
    cases found : j.queue? ref with
    | none => rw [none j found]; exact ⟨rfl, found⟩
    | some q =>
      rw [some j q found]
      have same : (g q).ref = ref := (name q).trans (Job.queue?_ref found)
      exact ⟨rfl, same ▸ Job.queue?_setQueue j (g q) (by rw [same, found]; rfl)⟩
  exact State.queueOf_updJob (fun j => (each j).1) (fun j => (each j).2)

/-- An update that leaves a job's queues leaves them in the state. -/
theorem State.queueOf_updJob_same {f : Job → Job} (id : ∀ j, (f j).id = j.id) (queues : ∀ j, (f j).queues = j.queues) :
    (s.updJob jid f).queueOf jid ref = s.queueOf jid ref := by
  rw [State.queueOf_updJob id (g := fun q => q) (fun j => by simp [Job.queue?, queues]), Option.map_id']

theorem State.queueOf_setQueue {p q : Queue} (queue : s.queueOf jid ref = some p) (name : q.ref = ref) :
    (s.updJob jid (fun j => j.setQueue q)).queueOf jid ref = some q := by
  obtain ⟨j, job, found⟩ := Option.bind_eq_some_iff.1 queue
  subst name
  rw [State.queueOf, State.job?_updJob s jid (fun j => j.setQueue q) (fun j => rfl), job]
  exact Job.queue?_setQueue j q (by rw [found]; rfl)

theorem State.queueOf_setQueue_other {q : Queue} (ne : ref ≠ q.ref) :
    (s.updJob jid (fun j => j.setQueue q)).queueOf jid ref = s.queueOf jid ref := by
  rw [State.queueOf_updJob (f := fun j => j.setQueue q) (fun j => rfl) (g := fun q => q)
    (fun j => by rw [Job.queue?_setQueue_other j q ne, Option.map_id']), Option.map_id']

end

theorem Job.queue?_map {j : Job} {ref : QRef} {g : Queue → Queue} (name : ∀ q, (g q).ref = q.ref) :
    ({ j with queues := j.queues.map g } : Job).queue? ref = (j.queue? ref).map g := by
  have refs : ((fun q : Queue => q.ref == ref) ∘ g) = fun q => q.ref == ref := by
    funext q
    rw [Function.comp_apply, name]
  rw [Job.queue?, Job.queue?, List.find?_map, refs]

/-- The queues of every job are as before. -/
def SameQueues (s t : State) : Prop := ∀ jid ref, t.queueOf jid ref = s.queueOf jid ref

theorem SameQueues.trans {s t u : State} (h : SameQueues s t) (k : SameQueues t u) : SameQueues s u :=
  fun jid ref => (k jid ref).trans (h jid ref)

theorem sameQueues_of_jobs {s t : State} (h : t.jobs = s.jobs) : SameQueues s t := fun _ _ => State.queueOf_of_jobs h

/-- An update of a job that leaves its queues leaves all. -/
theorem sameQueues_updJob (s : State) (jid : Nat) {f : Job → Job} (id : ∀ j, (f j).id = j.id) (queues : ∀ j, (f j).queues = j.queues) :
    SameQueues s (s.updJob jid f) := by
  intro i ref
  by_cases e : i = jid
  · subst e
    exact State.queueOf_updJob_same id queues
  · rw [State.queueOf, State.job?_updJob_other s f id e, State.queueOf]

/-! ## A state with other jobs -/

/-- The state with other jobs. -/
def State.withJobs (s : State) (js : List Job) : State := { s with jobs := js }

section
variable (s : State) (js : List Job)

theorem State.foldl_withJobs {α : Type} {g : State → α → State} (step : ∀ s js x, g (s.withJobs js) x = (g s x).withJobs js) (l : List α) :
    l.foldl g (s.withJobs js) = (l.foldl g s).withJobs js := by
  induction l generalizing s with
  | nil => rfl
  | cons x l ih => rw [List.foldl_cons, step, ih, List.foldl_cons]

@[simp] theorem State.withJobs_withJobs (ks : List Job) : (s.withJobs js).withJobs ks = s.withJobs ks := rfl

theorem State.ite_withJobs {c : Prop} [Decidable c] {a b a' b' : State} (ha : a' = a.withJobs js) (hb : b' = b.withJobs js) :
    (if c then a' else b') = (if c then a else b).withJobs js := by rw [ha, hb, ← apply_ite (fun t => State.withJobs t js)]

theorem State.rowDue_withJobs (a : Nat) : (s.withJobs js).rowDue a = (s.rowDue a).withJobs js := by
  have same : (s.withJobs js).locateNow a = s.locateNow a := rfl
  unfold State.rowDue
  rw [same]
  cases s.locateNow a with
  | none => rfl
  | some x => exact State.ite_withJobs js rfl rfl

theorem State.meetBad_withJobs (jid : Nat) (us : List (Nat × Mark)) :
    (s.withJobs js).meetBad jid us = (s.meetBad jid us).withJobs js := by
  refine State.foldl_withJobs s js ?_ us
  intro s js u
  exact State.ite_withJobs js
    (State.rowDue_withJobs ((s.log eUncorr 7 (s.faultChannel (u.1 * 64)) jid (s.memDetail (u.1 * 64))).poisonUnits [u.1]) js _) rfl

theorem State.correct_withJobs (a n : Nat) : (s.withJobs js).correct a n = (s.correct a n).withJobs js := by
  refine State.foldl_withJobs s js ?_ _
  intro s js u
  exact State.ite_withJobs js rfl (State.rowDue_withJobs (s.countCe (s.faultChannel (u.1 * 64))) js _)

theorem State.correctParts_withJobs (ws : List (Nat × Bytes)) : (s.withJobs js).correctParts ws = (s.correctParts ws).withJobs js :=
  State.foldl_withJobs s js (fun s js _ => State.correct_withJobs s js _ _) _

theorem State.unwipe_withJobs (a n : Nat) : (s.withJobs js).unwipe a n = (s.unwipe a n).withJobs js := by
  refine State.ite_withJobs js rfl (State.foldl_withJobs s js ?_ _)
  intro s js u
  exact State.ite_withJobs js rfl rfl

theorem State.marksAfter_withJobs (a n : Nat) : (s.withJobs js).marksAfter a n = (s.marksAfter a n).withJobs js := by
  unfold State.marksAfter
  exact (congrArg (fun t => State.unwipe t a n) (State.foldl_withJobs s js (fun _ _ _ => rfl) _)).trans (State.unwipe_withJobs _ js a n)

theorem State.write_withJobs (a : Nat) (bs : Bytes) : (s.withJobs js).write a bs = (s.write a bs).withJobs js := by
  unfold State.write
  rw [State.marksAfter_withJobs]
  rfl

theorem State.writes_withJobs (ws : List (Nat × Bytes)) : (s.withJobs js).writes ws = (s.writes ws).withJobs js :=
  State.foldl_withJobs s js (fun s js _ => State.write_withJobs s js _ _) ws

theorem State.commit_withJobs (ws : List (Nat × Bytes)) :
    (s.withJobs js).commit ws = ((s.commit ws).1.withJobs js, (s.commit ws).2) := by
  unfold State.commit
  rw [State.writes_withJobs]
  exact Prod.ext (State.foldl_withJobs _ js (fun _ _ _ => rfl) _) rfl

theorem State.poisonUnits_withJobs (us : List Nat) : (s.withJobs js).poisonUnits us = (s.poisonUnits us).withJobs js :=
  State.foldl_withJobs s js (fun _ _ _ => rfl) us

theorem State.queueWrites_withJobs (ws : List (Nat × Nat)) : (s.withJobs js).queueWrites ws = (s.queueWrites ws).withJobs js := rfl

end

/-! ## Results reach memory (R55, R164, R171) -/

/-- Spans noted for the send buffers change the jobs only, and no queue. -/
theorem State.noteSpans_eq (s : State) (jid : Nat) (item : Option ItemTag) (sp : List (Nat × Nat)) :
    ∃ js, s.noteSpans jid item sp = s.withJobs js ∧ SameQueues s (s.withJobs js) := by
  cases item with
  | none => exact ⟨s.jobs, rfl, fun _ _ => rfl⟩
  | some t => exact ⟨_, rfl, sameQueues_updJob s jid (fun _ => rfl) (fun _ => rfl)⟩

theorem State.noteWritten_eq (s : State) (jid : Nat) (f : Flight) :
    ∃ js, s.noteWritten jid f = s.withJobs js ∧ SameQueues s (s.withJobs js) := State.noteSpans_eq ..

/-- A read's corrections: marks, and the channels and failing rows. -/
theorem State.correct_eq (s : State) (a n : Nat) : ∃ ms lp, s.correct a n = { s with marks := ms, lp := lp } := by
  unfold State.correct
  generalize s.unitsThat _ a n = l
  suffices h : ∀ t : State, (∃ ms lp, t = { s with marks := ms, lp := lp }) → ∃ ms lp, l.foldl (fun s u =>
      let t := s.countCe (s.faultChannel (u.1 * 64))
      if u.2 = Mark.soft then t.setMark u.1 .clean else t.rowDue (u.1 * 64)) t = { s with marks := ms, lp := lp } from
    h s ⟨s.marks, s.lp, rfl⟩
  induction l with
  | nil => exact fun t ht => ht
  | cons u l ih =>
    rintro t ⟨ms, lp, rfl⟩
    apply ih
    dsimp only
    split
    · exact ⟨_, _, rfl⟩
    · obtain ⟨fs, e⟩ := State.rowDue_eq (State.countCe { s with marks := ms, lp := lp }
        (State.faultChannel { s with marks := ms, lp := lp } (u.1 * 64))) (u.1 * 64)
      exact ⟨_, _, e⟩

theorem State.correctParts_eq (s : State) (ws : List (Nat × Bytes)) : ∃ ms lp, s.correctParts ws = { s with marks := ms, lp := lp } := by
  unfold State.correctParts
  generalize partUnits ws _ = l
  suffices h : ∀ t : State, (∃ ms lp, t = { s with marks := ms, lp := lp }) →
      ∃ ms lp, l.foldl (fun s u => s.correct (u * 64) 64) t = { s with marks := ms, lp := lp } from h s ⟨s.marks, s.lp, rfl⟩
  induction l with
  | nil => exact fun t ht => ht
  | cons u l ih =>
    rintro t ⟨ms, lp, rfl⟩
    obtain ⟨ms', lp', e⟩ := State.correct_eq { s with marks := ms, lp := lp } (u * 64) 64
    exact ih _ ⟨ms', lp', e⟩

/-- The state whose memory holds a flight's results, before their spans are noted. -/
def State.landed (s : State) (jid : Nat) (f : Flight) : State :=
  let c := (s.correctParts f.writes).commit f.writes
  ((c.1.meetBad jid c.2).poisonUnits f.marks).queueWrites (f.writes.map (fun w => (w.1, w.2.length)))

/-- The result fields of a flight that has landed. -/
def State.landedRes (s : State) (jid : Nat) (f : Flight) : Res :=
  let bad := ((s.correctParts f.writes).commit f.writes).2
  withBad f.res bad.length (((bad.head?).map (fun m => (s.landed jid f).faultChannel (m.1 * 64))).getD 0)

section
variable (s : State) (js : List Job) (jid : Nat) (f : Flight)

theorem State.landed_withJobs : (s.withJobs js).landed jid f = (s.landed jid f).withJobs js := by
  simp only [State.landed, State.correctParts_withJobs, State.commit_withJobs, State.meetBad_withJobs, State.poisonUnits_withJobs,
    State.queueWrites_withJobs]

theorem State.landedRes_withJobs : (s.withJobs js).landedRes jid f = s.landedRes jid f := by
  simp only [State.landedRes, State.landed_withJobs, State.correctParts_withJobs, State.commit_withJobs]
  rfl

/-- Results that land: memory holds them, with its marks, channels and log. -/
theorem State.landed_eq : ∃ ms lp lq, s.landed jid f =
    { s with mem := s.mem.writes f.writes, marks := ms, lp := lp, mss := { s.mss with logQ := lq } } := by
  obtain ⟨ms₁, lp₁, corrected⟩ := s.correctParts_eq f.writes
  obtain ⟨ms₂, committed⟩ := State.commit_eq { s with marks := ms₁, lp := lp₁ } f.writes
  unfold State.landed
  rw [corrected]
  dsimp only
  generalize (State.commit { s with marks := ms₁, lp := lp₁ } f.writes).2 = bad
  rw [committed]
  obtain ⟨ms₃, lq, fs, met⟩ := State.meetBad_eq { s with mem := s.mem.writes f.writes, marks := ms₂, lp := lp₁ } jid bad
  rw [met]
  obtain ⟨ms₄, poisoned⟩ := State.poisonUnits_eq { s with
    mem := s.mem.writes f.writes, marks := ms₃, lp := { lp₁ with failing := fs }, mss := { s.mss with logQ := lq } } f.marks
  rw [poisoned]
  exact ⟨_, _, _, rfl⟩

theorem State.meetBad_jobs (us : List (Nat × Mark)) : (s.meetBad jid us).jobs = s.jobs := by
  obtain ⟨_, _, _, e⟩ := State.meetBad_eq s jid us
  rw [e]

theorem State.commit_jobs (ws : List (Nat × Bytes)) : (s.commit ws).1.jobs = s.jobs := by
  obtain ⟨_, e⟩ := State.commit_eq s ws
  rw [e]

theorem State.correctParts_jobs (ws : List (Nat × Bytes)) : (s.correctParts ws).jobs = s.jobs := by
  obtain ⟨_, _, e⟩ := State.correctParts_eq s ws
  rw [e]

/-- A flight's results land; of the jobs only what their send buffers note has changed. -/
theorem State.land_eq : ∃ js, s.land jid f =
      ((s.landed jid f).withJobs js, { f with writes := [], marks := [], res := s.landedRes jid f }) ∧
    SameQueues s ((s.landed jid f).withJobs js) := by
  let c := (s.correctParts f.writes).commit f.writes
  obtain ⟨js, noted, same⟩ := State.noteWritten_eq (c.1.meetBad jid c.2) jid f
  have jobs : (c.1.meetBad jid c.2).jobs = s.jobs := by rw [State.meetBad_jobs, State.commit_jobs, State.correctParts_jobs]
  have mem : (((c.1.meetBad jid c.2).noteWritten jid f).poisonUnits f.marks).queueWrites (f.writes.map (fun w => (w.1, w.2.length))) =
      (s.landed jid f).withJobs js := by rw [noted, State.poisonUnits_withJobs, State.queueWrites_withJobs]; rfl
  refine ⟨js, Prod.ext mem ?_, ((sameQueues_of_jobs jobs).trans same).trans (sameQueues_of_jobs rfl)⟩
  let res (t : State) : Res := withBad f.res c.2.length (((c.2.head?).map (fun m => t.faultChannel (m.1 * 64))).getD 0)
  have flight := congrArg (fun t : State => ({ f with writes := [], marks := [], res := res t } : Flight)) mem
  exact flight

end

/-! ## Reports (R55, R60, R61) -/

@[simp] theorem State.signal_mem (s : State) (op c v : Nat) : (s.signal op c v).mem = s.mem := by
  obtain ⟨_, e⟩ := State.signal_eq s op c v
  rw [e]

@[simp] theorem State.signal_jobs (s : State) (op c v : Nat) : (s.signal op c v).jobs = s.jobs := by
  obtain ⟨_, e⟩ := State.signal_eq s op c v
  rw [e]

@[simp] theorem State.signal_bar (s : State) (op c v : Nat) : (s.signal op c v).bar = s.bar := by
  obtain ⟨_, e⟩ := State.signal_eq s op c v
  rw [e]

@[simp] theorem State.signal_running (s : State) (op c v : Nat) : (s.signal op c v).running = s.running := by
  obtain ⟨_, e⟩ := State.signal_eq s op c v
  rw [e]

/-- What a signal makes of the counters depends on the counters alone. -/
theorem State.signal_ctrs_of {s t : State} (h : t.ctrs = s.ctrs) (op c v : Nat) : (t.signal op c v).ctrs = (s.signal op c v).ctrs := by
  unfold State.signal State.addCtr State.setCtr State.ctr
  split <;> simp only [h]

/-- The place of a queue's next completion record (R61). -/
def Queue.recordAt (q : Queue) : Nat := q.ringAddr + 32 * (q.wcount % 2 ^ (q.ringLog2 + 4))

/-- A completion record with the PHASE bit of its pass through the ring (R61). -/
def Queue.phased (q : Queue) (crec : Nat) : Nat := crec + (if (q.wcount / 2 ^ (q.ringLog2 + 4)) % 2 = 0 then 2 ^ 63 else 0)

section
variable (s : State) (jid : Nat) (q : Queue) (crec : Nat)

@[simp] theorem State.countClass_mem (code : Nat) : (s.countClass code).mem = s.mem := by
  obtain ⟨_, e⟩ := State.countClass_eq s code
  rw [e]

@[simp] theorem State.countClass_jobs (code : Nat) : (s.countClass code).jobs = s.jobs := by
  obtain ⟨_, e⟩ := State.countClass_eq s code
  rw [e]

@[simp] theorem State.queueWrites_mem (ws : List (Nat × Nat)) : (s.queueWrites ws).mem = s.mem := rfl

@[simp] theorem State.store_mem (a : Nat) (bs : Bytes) : (s.store a bs).mem = s.mem.write a bs := rfl

@[simp] theorem State.store_jobs (a : Nat) (bs : Bytes) : (s.store a bs).jobs = s.jobs := by
  obtain ⟨_, _, e⟩ := State.store_eq s a bs
  rw [e]

/-- A record written stands at entry W with its phase. -/
theorem State.putRecord_mem : (s.putRecord jid q crec).mem = s.mem.write q.recordAt (leBytes 32 (q.phased crec)) := by
  simp only [State.putRecord, State.updJob_mem, State.countClass_mem, State.store_mem, Queue.recordAt, Queue.phased, ite_mul, one_mul,
    zero_mul]

/-- A record written is counted by its queue. -/
theorem State.putRecord_queueOf : (s.putRecord jid q crec).queueOf jid q.ref =
    (s.queueOf jid q.ref).map (fun p => { p with wcount := (p.wcount + 1) % 2 ^ 32 }) := by
  unfold State.putRecord
  rw [State.queueOf_updQueue (g := fun p => { p with wcount := (p.wcount + 1) % 2 ^ 32 }) (fun j p found => by rw [found])
    (fun j found => by rw [found]) (fun _ => rfl), State.queueOf_of_jobs (s := s) (by simp)]

/-- A record written leaves the counters, ERR's causes and the running job. -/
theorem State.putRecord_rest : (s.putRecord jid q crec).ctrs = s.ctrs ∧ (s.putRecord jid q crec).running = s.running ∧
    (s.putRecord jid q crec).bar.irqStatus = s.bar.irqStatus := by
  obtain ⟨_, _, _, _, _, e⟩ := State.putRecord_eq s jid q crec
  rw [e]
  exact ⟨rfl, rfl, rfl⟩

end

section
variable {s : State} {jid : Nat} {q : Queue} {need : Bool} (h : Held) (queue : s.queueOf jid q.ref = some q)
include queue

/-- A full ring, or a record kept back before it, keeps a record back (R61). -/
theorem State.report_of_full (full : q.held ≠ [] ∨ need = true ∧ s.ringRoom q = false) : s.report jid q.ref need h =
    s.updJob jid (fun j => j.setQueue { q with held := q.held ++ [h], full := true }) := by
  unfold State.report
  unfold State.queueOf at queue
  have cond : (!q.held.isEmpty || (need && !s.ringRoom q)) = true := by
    rcases full with held | ⟨rfl, room⟩
    · simp [held]
    · simp [room]
  rw [queue]
  dsimp only
  rw [if_pos cond]

/-- A record that its ring has room for is written, and its signal follows (R55, R61). -/
theorem State.report_of_room (free : q.held = []) (room : need = true → s.ringRoom q = true) : s.report jid q.ref need h =
    let t := (if need then s.putRecord jid q h.crec else s).signal h.sigOp h.sigCtr h.sigVal
    if h.irq then t.irq 1 else t := by
  unfold State.report
  unfold State.queueOf at queue
  have cond : (!q.held.isEmpty || (need && !s.ringRoom q)) = false := by
    cases need
    · simp [free]
    · simp [free, room]
  rw [queue]
  dsimp only
  rw [if_neg (by simp [cond])]

/-- What such a report leaves: the record in memory, the signal in the counters, its interrupt, and the queue with its count. -/
theorem State.report_room_spec (free : q.held = []) (room : need = true → s.ringRoom q = true) : ∃ t : State,
    s.report jid q.ref need h = t ∧ t.mem = (if need = true then s.mem.write q.recordAt (leBytes 32 (q.phased h.crec)) else s.mem) ∧
    t.ctrs = (s.signal h.sigOp h.sigCtr h.sigVal).ctrs ∧ t.running = s.running ∧
    t.queueOf jid q.ref = some (if need = true then { q with wcount := (q.wcount + 1) % 2 ^ 32 } else q) ∧
    (need = false → SameQueues s t ∧ (h.irq = false → t.bar = s.bar)) := by
  let u := (if need = true then s.putRecord jid q h.crec else s).signal h.sigOp h.sigCtr h.sigVal
  refine ⟨if h.irq = true then u.irq 1 else u, State.report_of_room h queue free room, ?_, ?_, ?_, ?_, ?_⟩
  · rw [show (if h.irq = true then u.irq 1 else u).mem = u.mem by split <;> rfl, State.signal_mem]
    cases need
    · rfl
    · exact State.putRecord_mem s jid q h.crec
  · rw [show (if h.irq = true then u.irq 1 else u).ctrs = u.ctrs by split <;> rfl]
    apply State.signal_ctrs_of
    cases need
    · rfl
    · exact (State.putRecord_rest s jid q h.crec).1
  · rw [show (if h.irq = true then u.irq 1 else u).running = u.running by split <;> rfl, State.signal_running]
    cases need
    · rfl
    · exact (State.putRecord_rest s jid q h.crec).2.1
  · rw [State.queueOf_of_jobs (s := if need = true then s.putRecord jid q h.crec else s) (by split <;> exact State.signal_jobs ..)]
    cases need
    · exact queue
    · rw [if_pos rfl, State.putRecord_queueOf, queue, if_pos rfl]
      rfl
  · rintro rfl
    refine ⟨sameQueues_of_jobs ?_, fun quiet => by rw [if_neg (by simp [quiet]), State.signal_bar]; rfl⟩
    rw [show (if h.irq = true then u.irq 1 else u).jobs = u.jobs by split <;> rfl, State.signal_jobs]
    rfl

/-- What a report kept back leaves: its entry in the queue, and everything else as it was. -/
theorem State.report_full_spec (full : q.held ≠ [] ∨ need = true ∧ s.ringRoom q = false) : ∃ t : State,
    s.report jid q.ref need h = t ∧ t.mem = s.mem ∧ t.ctrs = s.ctrs ∧ t.running = s.running ∧ t.bar = s.bar ∧
    t.queueOf jid q.ref = some { q with held := q.held ++ [h], full := true } := by
  exact ⟨_, State.report_of_full h queue full, rfl, rfl, rfl, rfl, State.queueOf_setQueue queue rfl⟩

end

/-! ## Rejections (R57) -/

theorem State.irq_getLsbD_two (s : State) : (s.irq 2).bar.irqStatus.getLsbD 2 = true := by
  rw [State.irq_irqStatus, BitVec.getLsbD_or, show (1#8 <<< 2).getLsbD 2 = true by decide, Bool.or_true]

section
variable {s : State} {jid : Nat} {q : Queue} (queue : s.queueOf jid q.ref = some q) (free : q.held = [])
include queue free

/-- R57: a rejection halts the queue at its record, sets ERR and LAST_ERROR, and writes at most the ring's next entry. -/
theorem State.reject_spec (r : Nat) (last : Bool) (f : Fail) : ∃ (t : State) (p : Queue), s.reject jid q.ref r last f = t ∧
    t.running = s.running ∧ t.queueOf jid q.ref = some p ∧ p.halted = true ∧ p.lists = q.lists ∧ p.pos = q.pos ∧ p.flight = q.flight ∧
    t.bar.irqStatus.getLsbD 2 = true ∧ t.bar.lastError = ⟨f.code, q.ref.eng, q.ref.inst, hJob r⟩ ∧ t.ctrs = s.ctrs ∧
    (t.mem = s.mem ∨ ∃ crec, t.mem = s.mem.write q.recordAt (leBytes 32 crec)) := by
  obtain ⟨u, h, rejected, halted, mem, ctrs, running, op⟩ : ∃ (u : State) (h : Held), s.reject jid q.ref r last f =
      ((u.report jid q.ref true h).irq 2).lastError f.code q.ref.eng q.ref.inst (hJob r) ∧
      u.queueOf jid q.ref = some { q with halted := true, haltLast := last, cur := none } ∧ u.mem = s.mem ∧ u.ctrs = s.ctrs ∧
      u.running = s.running ∧ h.sigOp = 0 := by
    refine ⟨_, _, rfl, ?_, rfl, rfl, rfl, rfl⟩
    rw [State.queueOf_updQueue (g := fun p => { p with halted := true, haltLast := last, cur := none }) (fun j p found => by rw [found])
      (fun j found => by rw [found]) (fun _ => rfl)]
    exact congrArg (Option.map _) queue
  rw [rejected]
  cases room : u.ringRoom { q with halted := true, haltLast := last, cur := none } with
  | true =>
    obtain ⟨t, report, mem', ctrs', running', queue', -⟩ :=
      State.report_room_spec h (need := true) (q := { q with halted := true, haltLast := last, cur := none }) halted free (fun _ => room)
    rw [report]
    refine ⟨_, _, rfl, running'.trans running, (State.queueOf_of_jobs rfl).trans queue', rfl, rfl, rfl, rfl, State.irq_getLsbD_two t, rfl, ?_, ?_⟩
    · show t.ctrs = s.ctrs
      rw [ctrs', op, State.signal_none, ctrs]
    · exact .inr ⟨_, mem'.trans (by rw [mem]; rfl)⟩
  | false =>
    obtain ⟨t, report, mem', ctrs', running', -, queue'⟩ :=
      State.report_full_spec h (need := true) (q := { q with halted := true, haltLast := last, cur := none }) halted (.inr ⟨rfl, room⟩)
    rw [report]
    exact ⟨_, _, rfl, running'.trans running, (State.queueOf_of_jobs rfl).trans queue', rfl, rfl, rfl, rfl, State.irq_getLsbD_two t, rfl,
      ctrs'.trans ctrs, .inl (mem'.trans mem)⟩

end

end Sys2Proof.Machine
end

section
/-! SUPPORT. Records that a command row rejects (R56, R57), and the state after a completion (R55). -/
namespace Sys2Proof.Machine

/-! ## Rejected by a command row -/

@[simp] theorem leBytes_length (n x : Nat) : (leBytes n x).length = n := by
  induction n generalizing x with
  | zero => rfl
  | succ n ih => rw [leBytes, List.length_cons, ih]

theorem AtHead.held {ref : QRef} {s : State} {j : Job} {q : Queue} {l : ListRef} {r : Nat} (head : AtHead ref s j q l r) :
    q.held = [] ∧ q.cur = none := by
  have free := head.free
  simp only [canFetch, Bool.and_eq_true, List.isEmpty_iff, Option.isNone_iff_eq_none] at free
  exact ⟨free.1.1.2, free.1.2⟩

section
variable {sp : CmdSpec} {ref : QRef} {s : State} {j : Job} {q : Queue} {l : ListRef} {r : Nat} (head : AtHead ref s j q l r)
include head

/-- R57: what a record rejected by checks 1 to 3 leaves. -/
theorem issue_of_fail_spec (mine : hKind r = sp.kind ∨ accepts ref.eng (hKind r) = false) (fetch : sp.fetch s j q r = true)
    {f : Fail} (fails : firstChecks sp ref s j q l r = some f) (first : ref.eng = engTile → q.flight = []) :
    ∃ (t : State) (p : Queue), issue sp ref s = t ∧
      t.running = some j.id ∧ t.queueOf j.id ref = some p ∧ p.halted = true ∧ p.lists = q.lists ∧ p.pos = q.pos ∧ p.flight = q.flight ∧
      t.bar.irqStatus.getLsbD 2 = true ∧ t.bar.lastError = ⟨f.code, ref.eng, ref.inst, hJob r⟩ ∧ t.ctrs = s.ctrs ∧
      (t.mem = s.mem ∨ ∃ crec, t.mem = s.mem.write q.recordAt (leBytes 32 crec)) := by
  have name := Job.queue?_ref head.queue
  subst name
  have now : (q.ref.eng == engTile && !q.flight.isEmpty) = false := by
    by_cases tile : q.ref.eng = engTile
    · simp [first tile]
    · simp [tile]
  rw [issue_of_fail head mine fetch fails, rejectTurn, now]
  obtain ⟨t, p, e, running, rest⟩ := State.reject_spec (State.queueOf_of_runJob head.job head.queue) head.held.1
    (if accepts q.ref.eng (hKind r) = true then sp.whole s r else r)
    (endsList q (if accepts q.ref.eng (hKind r) = true then sp.whole s r else r)) f
  refine ⟨t, p, e, running.trans (State.running_of_runJob head.job), ?_⟩
  rwa [show hJob (if accepts q.ref.eng (hKind r) = true then sp.whole s r else r) = hJob r by split <;> simp] at rest

end

/-- Settles O45: a failing record is rejected in the state that `reject_spec` describes; one of another command's kind is left. -/
theorem engineCommandRejected : Obligations.EngineCommandRejected := by
  unfold Obligations.EngineCommandRejected
  intro ref s j q l r p command head
  refine ⟨fun own first f fails => ?_, fun known other => ?_⟩
  · have mine : hKind r = p.2.kind ∨ accepts ref.eng (hKind r) = false := own.imp And.left And.left
    have fetch : p.2.fetch s j q r = true := own.elim (fun h => h.2.2) And.right
    obtain ⟨t, p', e, running, queue, halted, lists, pos, flight, err, last, ctrs, mem⟩ := issue_of_fail_spec head mine fetch fails first
    obtain ⟨k, runs, found⟩ := State.exists_runJob (t := settle s t) running queue
    refine ⟨settle s t, k, p', by rw [exec_engineCommand s p command, e, done_eq], runs, found, halted, lists, pos, flight, err, last, ctrs, ?_⟩
    intro wf a out
    rcases mem with same | ⟨crec, written⟩
    · exact congrArg (fun m => Memory.byte m a) same
    · rw [settle_mem, written]
      exact Memory.byte_write_out wf (by simpa [Queue.recordAt] using out)
  · rw [exec_engineCommand s p command, issue_of_otherKind head known other, done_self]

end Sys2Proof.Machine
end

section
/-! SUPPORT. The completion of a command (R55): what stands before its report, and what its report leaves. -/
namespace Sys2Proof.Machine

/-! ## The parts of a completion -/

theorem bits_mkRecord_status (status seq job kind : Nat) (r : Res) (nanRow nanCol ctx time : Nat) :
    State.mkRecord status seq job kind r nanRow nanCol ctx time % 2 ^ 16 = status % 2 ^ 16 := by
  have low : bits (State.mkRecord status seq job kind r nanRow nanCol ctx time) 0 16 = bits (place 0 16 status) 0 16 := by
    unfold State.mkRecord
    iterate 15 rw [bits_add_place_above (by omega)]
  simpa [bits, place] using low

theorem Queue.phased_mod (q : Queue) (crec : Nat) : q.phased crec % 2 ^ 16 = crec % 2 ^ 16 := by
  unfold Queue.phased
  split
  · omega
  · rfl

theorem State.foldl_onlySlots {α : Type} {g : State → α → State} (step : ∀ t x, ∃ sl, g t x = { t with slots := sl }) (l : List α) (s : State) :
    ∃ sl, l.foldl g s = { s with slots := sl } := by
  induction l generalizing s with
  | nil => exact ⟨s.slots, rfl⟩
  | cons x l ih =>
    obtain ⟨sl, e⟩ := step s x
    obtain ⟨sl', e'⟩ := ih { s with slots := sl }
    exact ⟨sl', by rw [List.foldl_cons, e, e']⟩

theorem State.countEvent_eq (s : State) (ref : QRef) (res : Res) : ∃ ts, s.countEvent ref res = { s with tiles := ts } := by
  unfold State.countEvent
  split
  · exact ⟨_, rfl⟩
  · exact ⟨s.tiles, rfl⟩

theorem State.ctxBeats_eq (s : State) (b : Option Nat) : (s.ctxBeats b).2 = { s with free := s.free + 1 } := by
  cases b <;> rfl

/-- The entry under which a completed command reports (R55, R59, R60). -/
structure ReportOf (jid r : Nat) (res : Res) (h : Held) : Prop where
  status : h.crec % 2 ^ 16 = State.statusOf res % 2 ^ 16
  sigOp  : h.sigOp = hSigOp r
  sigCtr : h.sigCtr = hSigCtr r
  sigVal : h.sigVal = hSigVal r
  need   : h.need = State.needRecord r res
  irq    : h.irq = (hIrq r || (State.numIrq r && State.statusOf res / 4096 == 4))

theorem State.reportDone_eq (s : State) (jid : Nat) (ref : QRef) (r : Nat) (res : Res) : ∃ h, ReportOf jid r res h ∧
    s.reportDone jid ref r res = ({ s with free := s.free + 1 } : State).report jid ref (State.needRecord r res) h := by
  unfold State.reportDone
  rw [← State.ctxBeats_eq s res.beats]
  refine ⟨_, ?_, rfl⟩
  exact {
    status := bits_mkRecord_status _ _ _ _ _ _ _ _ _
    sigOp := rfl, sigCtr := rfl, sigVal := rfl, need := rfl, irq := rfl }

theorem State.poisonMb_eq (s : State) (jid stage n : Nat) : ∃ js lq, s.poisonMb jid stage n =
    { s with jobs := js, mss := { s.mss with logQ := lq } } ∧ SameQueues s (s.withJobs js) := by
  have stay : ∃ js lq, s = { s with jobs := js, mss := { s.mss with logQ := lq } } ∧ SameQueues s (s.withJobs js) :=
    ⟨s.jobs, s.mss.logQ, rfl, fun _ _ => rfl⟩
  unfold State.poisonMb
  cases s.job? jid with
  | none => exact stay
  | some j =>
    dsimp only
    cases j.strand.stages.find? (fun t => t.idx == stage) with
    | none => exact stay
    | some t =>
      dsimp only
      split
      · exact stay
      · exact ⟨_, _, rfl, sameQueues_updJob s jid (fun _ => rfl) (fun _ => rfl)⟩

theorem State.listDone_eq (s : State) (jid : Nat) (ref : QRef) (listId : Nat) (tag : Option ItemTag) :
    ∃ js, s.listDone jid ref listId tag = s.withJobs js ∧ SameQueues s (s.withJobs js) := by
  unfold State.listDone
  split
  · dsimp only
    split
    · exact ⟨s.jobs, rfl, fun _ _ => rfl⟩
    · exact ⟨_, rfl, sameQueues_updJob s jid (fun _ => rfl) (fun _ => rfl)⟩
  · exact ⟨s.jobs, rfl, fun _ _ => rfl⟩

/-! ## The completion -/

/-- The byte ranges of a flight's writes. -/
def Flight.spans (f : Flight) : List (Nat × Nat) := f.writes.map (fun w => (w.1, w.2.length))

/-- A completion: its results land, then it reports as entry `h` on state `v`, and state `w` is left (R55). -/
structure Completes (s : State) (jid : Nat) (ref : QRef) (f : Flight) (v : State) (h : Held) (w : State) : Prop where
  landed  : v.mem = (s.landed jid f).mem ∧ v.marks = (s.landed jid f).marks ∧ v.lp = (s.landed jid f).lp ∧ v.mod = (s.landed jid f).mod
  ctrs    : v.ctrs = s.ctrs
  running : v.running = s.running
  bar     : v.bar = s.bar
  queues  : SameQueues (s.tear jid ref.eng f.spans) v
  entry   : ReportOf jid f.record (s.landedRes jid f) h
  after   : let t := v.report jid ref (State.needRecord f.record (s.landedRes jid f)) h
    w.mem = t.mem ∧ w.ctrs = t.ctrs ∧ w.running = t.running ∧ w.bar = t.bar ∧ SameQueues t w

/-- What a completion counts between its results and its report: amaxes, recomputes, the step's counts, a tile's events. -/
def State.counted (s : State) (jid : Nat) (ref : QRef) (f : Flight) : State :=
  ((f.recomps.foldl (fun s a => let v := s.slot a.1; s.setSlot a.1 { v with recomp := satAdd 16 v.recomp a.2 })
    (f.amax.foldl (fun s a => s.mergeAmax a.1 a.2) s)).countStep jid (hPhase f.record) f.res).countEvent ref f.res

/-- What follows a completion's report: the poison of its micro-batch, and the end of its list. -/
def State.closed (s : State) (jid : Nat) (ref : QRef) (f : Flight) : State :=
  let s := match f.item with
    | some t => if f.res.poison && (t.kind = ItemKind.f || t.kind = ItemKind.b || t.kind = ItemKind.w) then s.poisonMb jid t.stage t.n else s
    | none => s
  s.listDone jid ref f.listId f.item

theorem State.complete_eq (s : State) (jid : Nat) (ref : QRef) (f : Flight) : s.complete jid ref f =
    let p := (s.tear jid ref.eng f.spans).land jid f
    ((p.1.counted jid ref p.2).reportDone jid ref p.2.record p.2.res).closed jid ref p.2 := rfl

theorem State.counted_eq (s : State) (jid : Nat) (ref : QRef) (f : Flight) : ∃ js sl ts, s.counted jid ref f =
    { s with jobs := js, slots := sl, tiles := ts } ∧ SameQueues s (s.withJobs js) := by
  obtain ⟨sl₁, amax⟩ := State.foldl_onlySlots (g := fun s a => s.mergeAmax a.1 a.2) (fun _ _ => ⟨_, rfl⟩) f.amax s
  obtain ⟨sl₂, recomps⟩ := State.foldl_onlySlots
    (g := fun s (a : Nat × Nat) => let v := s.slot a.1; s.setSlot a.1 { v with recomp := satAdd 16 v.recomp a.2 })
    (fun _ _ => ⟨_, rfl⟩) f.recomps { s with slots := sl₁ }
  unfold State.counted
  rw [amax, recomps]
  obtain ⟨ts, events⟩ := State.countEvent_eq (State.countStep { s with slots := sl₂ } jid (hPhase f.record) f.res) ref f.res
  rw [events]
  exact ⟨_, _, _, rfl, sameQueues_updJob s jid (fun _ => rfl) (fun _ => rfl)⟩

theorem State.closed_eq (s : State) (jid : Nat) (ref : QRef) (f : Flight) : ∃ js lq, s.closed jid ref f =
    { s with jobs := js, mss := { s.mss with logQ := lq } } ∧ SameQueues s (s.withJobs js) := by
  have poisoned : ∃ js lq, (match f.item with
      | some t => if f.res.poison && (t.kind = ItemKind.f || t.kind = ItemKind.b || t.kind = ItemKind.w) then s.poisonMb jid t.stage t.n else s
      | none => s) = { s with jobs := js, mss := { s.mss with logQ := lq } } ∧ SameQueues s (s.withJobs js) := by
    split
    · split
      · exact State.poisonMb_eq ..
      · exact ⟨s.jobs, s.mss.logQ, rfl, fun _ _ => rfl⟩
    · exact ⟨s.jobs, s.mss.logQ, rfl, fun _ _ => rfl⟩
  obtain ⟨js, lq, e, same⟩ := poisoned
  unfold State.closed
  rw [e]
  obtain ⟨js', e', same'⟩ := State.listDone_eq { s with jobs := js, mss := { s.mss with logQ := lq } } jid ref f.listId f.item
  exact ⟨js', lq, e', same.trans same'⟩

/-- R55: every completion is one: its results land, it reports, and nothing but its own consequences follows. -/
theorem State.exists_completes (s : State) (jid : Nat) (ref : QRef) (f : Flight) :
    ∃ v h, Completes s jid ref f v h (s.complete jid ref f) := by
  let torn := s.tear jid ref.eng f.spans
  have torn_eq : torn = s.withJobs torn.jobs := rfl
  obtain ⟨js₁, land, same₁⟩ := State.land_eq torn jid f
  rw [torn_eq, State.landed_withJobs, State.landedRes_withJobs, State.withJobs_withJobs, ← torn_eq] at land
  rw [torn_eq, State.landed_withJobs, State.withJobs_withJobs, ← torn_eq] at same₁
  obtain ⟨ms, lp, lq, landed⟩ := s.landed_eq jid f
  let g : Flight := { f with writes := [], marks := [], res := s.landedRes jid f }
  obtain ⟨js₂, sl, ts, counted, same₂⟩ := ((s.landed jid f).withJobs js₁).counted_eq jid ref g
  let u := ((s.landed jid f).withJobs js₁).counted jid ref g
  obtain ⟨h, entry, reported⟩ := u.reportDone_eq jid ref f.record (s.landedRes jid f)
  obtain ⟨js₃, lq', closed, same₃⟩ := (u.reportDone jid ref f.record (s.landedRes jid f)).closed_eq jid ref g
  have complete : s.complete jid ref f = (u.reportDone jid ref f.record (s.landedRes jid f)).closed jid ref g := by
    rw [State.complete_eq, show s.tear jid ref.eng f.spans = torn from rfl, land]
  have counted : u = _ := counted
  rw [complete, closed, reported]
  refine ⟨{ u with free := u.free + 1 }, h, ?_⟩
  exact {
    landed := by rw [counted]; exact ⟨rfl, rfl, rfl, rfl⟩
    ctrs := by rw [counted, landed]; rfl
    running := by rw [counted, landed]; rfl
    bar := by rw [counted, landed]; rfl
    queues := by
      rw [counted]
      exact same₁.trans (same₂.trans (sameQueues_of_jobs rfl))
    entry := entry
    after := ⟨rfl, rfl, rfl, rfl, by rw [← reported]; exact same₃.trans (sameQueues_of_jobs rfl)⟩ }

/-! ## Writes that another engine's commands race (R101) -/

section
variable (s : State) (jid : Nat)

theorem State.queueOf_ref {ref : QRef} {q : Queue} (queue : s.queueOf jid ref = some q) : q.ref = ref := by
  obtain ⟨j, -, found⟩ := Option.bind_eq_some_iff.1 queue
  exact Job.queue?_ref found

theorem State.queueOf_mapQueues {g : Queue → Queue} {ref : QRef} (name : ∀ q, (g q).ref = q.ref) :
    (s.updJob jid (fun j => { j with queues := j.queues.map g })).queueOf jid ref = (s.queueOf jid ref).map g :=
  State.queueOf_updJob (f := fun j => { j with queues := j.queues.map g }) (fun _ => rfl) (fun _ => Job.queue?_map name)

/-- A completing command's writes tear nothing in queues of its own engine's kind, and no writes tear nothing anywhere. -/
theorem State.queueOf_tear {eng : Nat} {ws : List (Nat × Nat)} {ref : QRef} (calm : ref.eng = eng ∨ ws = []) :
    (s.tear jid eng ws).queueOf jid ref = s.queueOf jid ref := by
  refine (State.queueOf_mapQueues s jid (fun q => by split <;> rfl)).trans ?_
  cases found : s.queueOf jid ref with
  | none => rfl
  | some q =>
    have name := State.queueOf_ref s jid found
    rw [Option.map_some, Option.some_inj]
    rcases calm with rfl | rfl
    · exact if_neg (by rw [name]; simp only [engTile, engMover]; omega)
    · split
      · refine congrArg (fun fl => { q with flight := fl }) ((List.map_congr_left fun f _ => ?_).trans (List.map_id q.flight))
        obtain ⟨_, _, _, _, _, _, _, _, _, _, _, _, _, op⟩ := f
        cases op <;> rfl
      · rfl

end

/-! ## A completion that stores and reports nothing -/

theorem State.landedRes_of_noWrites {s : State} {jid : Nat} {f : Flight} (none : f.writes = []) : s.landedRes jid f = f.res := by
  unfold State.landedRes
  rw [none]
  rfl

/-- A completion without results, whose record is not due and that raises no interrupt, applies its signal and nothing more. -/
theorem State.complete_of_quiet {s : State} {jid : Nat} {ref : QRef} {f : Flight} {p : Queue} (queue : s.queueOf jid ref = some p)
    (free : p.held = []) (writes : f.writes = []) (need : State.needRecord f.record f.res = false)
    (irq : (hIrq f.record || (State.numIrq f.record && State.statusOf f.res / 4096 == 4)) = false) :
    let w := s.complete jid ref f
    w.mem = s.mem ∧ w.ctrs = (s.signal (hSigOp f.record) (hSigCtr f.record) (hSigVal f.record)).ctrs ∧ w.running = s.running ∧
      w.bar = s.bar ∧ ∀ r, w.queueOf jid r = s.queueOf jid r := by
  obtain rfl := State.queueOf_ref s jid queue
  obtain ⟨v, h, ends⟩ := s.exists_completes jid p.ref f
  obtain ⟨wmem, wctrs, wrunning, wbar, wqueues⟩ := ends.after
  obtain ⟨ms, lp, lq, landed⟩ := s.landed_eq jid f
  have spans : f.spans = [] := by rw [Flight.spans, writes]; rfl
  have queues (r : QRef) : v.queueOf jid r = s.queueOf jid r :=
    (ends.queues jid r).trans (State.queueOf_tear s jid (.inr spans))
  have res : s.landedRes jid f = f.res := State.landedRes_of_noWrites writes
  have own : v.queueOf jid p.ref = some p := by rw [queues, queue]
  obtain ⟨t, report, mem, ctrs, running, -, kept⟩ :=
    State.report_room_spec h (need := false) own free (fun e => absurd e Bool.false_ne_true)
  obtain ⟨same, bar⟩ := kept rfl
  have entry := res ▸ ends.entry
  rw [res, need, report] at wmem wctrs wrunning wbar wqueues
  refine ⟨?_, ?_, wrunning.trans (running.trans ends.running), wbar.trans ((bar (entry.irq.trans irq)).trans ends.bar), fun r => ?_⟩
  · rw [wmem, mem, if_neg Bool.false_ne_true, ends.landed.1, landed, writes]
    rfl
  · rw [wctrs, ctrs, entry.sigOp, entry.sigCtr, entry.sigVal]
    exact State.signal_ctrs_of ends.ctrs ..
  · rw [wqueues, same, queues]

end Sys2Proof.Machine
end

section
/-! SUPPORT. The start of a command (R47), and the commands of the header (R48, R49, R57). -/
namespace Sys2Proof.Machine

/-! ## A flight's record -/

section
variable (q : Queue) (r : Nat)

theorem bits_newFlight {lo w : Nat} (h : lo + w ≤ 512) : bits (newFlight q r).record lo w = bits r lo w := bits_mod_two_pow h

@[simp] theorem hCrec_newFlight : hCrec (newFlight q r).record = hCrec r := congrArg (· == 1) (bits_newFlight q r (by omega))
@[simp] theorem hIrq_newFlight : hIrq (newFlight q r).record = hIrq r := congrArg (· == 1) (bits_newFlight q r (by omega))
@[simp] theorem hSigOp_newFlight : hSigOp (newFlight q r).record = hSigOp r := bits_newFlight q r (by omega)
@[simp] theorem hSigCtr_newFlight : hSigCtr (newFlight q r).record = hSigCtr r := bits_newFlight q r (by omega)
@[simp] theorem hSigVal_newFlight : hSigVal (newFlight q r).record = hSigVal r := bits_newFlight q r (by omega)
@[simp] theorem newFlight_last : (newFlight q r).last = hLast r := rfl
@[simp] theorem newFlight_writes : (newFlight q r).writes = [] := rfl
@[simp] theorem newFlight_res : (newFlight q r).res = {} := rfl

end

@[simp] theorem hSigVal_whole (sp : CmdSpec) (s : State) (r : Nat) : hSigVal (sp.whole s r) = hSigVal r := bits_whole sp s r (by omega)
@[simp] theorem hCrec_whole (sp : CmdSpec) (s : State) (r : Nat) : hCrec (sp.whole s r) = hCrec r := bitAt_whole sp s r (by omega)
@[simp] theorem hIrq_whole (sp : CmdSpec) (s : State) (r : Nat) : hIrq (sp.whole s r) = hIrq r := bitAt_whole sp s r (by omega)

/-! ## The start -/

/-- A start sees the state with writes in flight settled one way or the other, and leaves memory as it was before (R101). -/
theorem begin_eq (sp : CmdSpec) (s : State) (j : Job) (q : Queue) (r : Nat) : ∃ n m m', 
    let st := sp.start { s with free := n, mem := m } j q r (newFlight q r)
    begin sp s j q r = { st with s := { st.s with mem := m' } } ∧ (st.s.mem = m → m' = s.mem) := by
  unfold begin
  cases racing j q.ref with
  | nil => exact ⟨s.free, s.mem, (sp.start s j q r (newFlight q r)).s.mem, rfl, id⟩
  | cons w ws => exact ⟨(s.seen (w :: ws)).free, (s.seen (w :: ws)).mem, s.mem, rfl, fun _ => rfl⟩

theorem begin_of_noRace {sp : CmdSpec} {s : State} {j : Job} {q : Queue} {r : Nat} (tile : q.ref.eng ≠ engTile) (mover : q.ref.eng ≠ engMover) :
    begin sp s j q r = sp.start s j q r (newFlight q r) := by
  unfold begin racing
  rw [if_neg tile, if_neg mover]

section
variable {s : State} {jid : Nat} {q : Queue} {st : Started} (queue : st.s.queueOf jid q.ref = some q)
include queue

/-- A command that acts at once completes once its record has left its list (R47). -/
theorem launch_of_instant (now : st.instant = true) (first : q.ref.eng = engTile → q.flight = []) : launch s jid q.ref st =
    ((st.s.noteTag (hPhase st.flight.record)).updJob jid (fun j => j.setQueue (State.advance q st.flight.last))).complete jid q.ref
      st.flight := by
  unfold State.queueOf at queue
  have clear : (q.ref.eng != engTile || (State.advance q st.flight.last).flight.isEmpty) = true := by
    by_cases tile : q.ref.eng = engTile
    · have : (State.advance q st.flight.last).flight = [] := by unfold State.advance; split <;> exact first tile
      simp [this]
    · simp [tile]
  simp only [launch, queue, now, clear, Bool.and_self, if_true]

end

@[simp] theorem advance_ref (q : Queue) (last : Bool) : (State.advance q last).ref = q.ref := by unfold State.advance; split <;> rfl
@[simp] theorem advance_flight (q : Queue) (last : Bool) : (State.advance q last).flight = q.flight := by
  unfold State.advance; split <;> rfl
@[simp] theorem advance_held (q : Queue) (last : Bool) : (State.advance q last).held = q.held := by unfold State.advance; split <;> rfl
@[simp] theorem advance_taken (q : Queue) (r : Nat) (last : Bool) : State.advance (taken q r) last = State.advance q last := by
  unfold State.advance; split <;> rfl

theorem State.noteTag_eq (s : State) (p : Nat) : ∃ x, s.noteTag p = { s with pwr := x } := by
  unfold State.noteTag
  split
  · exact ⟨s.pwr, rfl⟩
  · exact ⟨_, rfl⟩

section
variable {ref : QRef} {s : State} {j : Job} {q : Queue} {l : ListRef} {r : Nat} (head : AtHead ref s j q l r)
include head

theorem AtHead.job?_fetched (w : Nat) : (fetched s j q w).job? j.id = some (j.setQueue (taken q w)) := by
  unfold fetched
  rw [State.job?_updJob _ _ (fun x => x.setQueue (taken q w)) (fun _ => rfl),
    show (s.takeTurn q.ref).job? j.id = s.job? j.id by unfold State.job?; rw [State.takeTurn_jobs], State.job?_of_runJob head.job]
  rfl

theorem AtHead.queue?_taken (w : Nat) : (j.setQueue (taken q w)).queue? ref = some (taken q w) := by
  have name := Job.queue?_ref head.queue
  subst name
  exact Job.queue?_setQueue j (taken q w) (by rw [taken_ref, head.queue]; rfl)

theorem AtHead.queueOf_fetched (w : Nat) : (fetched s j q w).queueOf j.id ref = some (taken q w) := by
  rw [State.queueOf, head.job?_fetched w, Option.bind_some, head.queue?_taken w]

/-- A command that acts at once, without results, record or interrupt, and whose start changes the jobs only: its record leaves the
list, its signal is applied, and the other queues stand as its start left them (R47, R55). -/
theorem AtHead.launch_of_quiet {w : Nat} {st : Started} (now : st.instant = true) (flight : st.flight = newFlight (taken q w) w)
    (queue : st.s.queueOf j.id ref = some (taken q w))
    (same : st.s.mem = s.mem ∧ st.s.bar = s.bar ∧ st.s.ctrs = s.ctrs ∧ st.s.running = s.running)
    (first : q.flight = []) (crec : hCrec w = false) (irq : hIrq w = false) :
    let t := launch (fetched s j q w) j.id ref st
    t.mem = s.mem ∧ t.bar = s.bar ∧ t.ctrs = (s.signal (hSigOp w) (hSigCtr w) (hSigVal w)).ctrs ∧ t.running = some j.id ∧
      t.queueOf j.id ref = some (State.advance q (hLast w)) ∧
      ∀ r, r ≠ ref → t.queueOf j.id r = st.s.queueOf j.id r := by
  obtain rfl := Job.queue?_ref head.queue
  obtain ⟨x, tag⟩ := st.s.noteTag_eq (hPhase st.flight.record)
  let u := (st.s.noteTag (hPhase st.flight.record)).updJob j.id (fun j => j.setQueue (State.advance q (hLast w)))
  have own : u.queueOf j.id q.ref = some (State.advance q (hLast w)) :=
    State.queueOf_setQueue (p := taken q w) (by rw [tag]; exact queue) (by simp)
  have other (r : QRef) (ne : r ≠ q.ref) : u.queueOf j.id r = st.s.queueOf j.id r := by
    rw [show u.queueOf j.id r = (st.s.noteTag (hPhase st.flight.record)).queueOf j.id r from
      State.queueOf_setQueue_other (by simpa using ne), tag]
    rfl
  have started : launch (fetched s j q w) j.id q.ref st = u.complete j.id q.ref (newFlight (taken q w) w) := by
    have e := launch_of_instant (s := fetched s j q w) (q := taken q w) (jid := j.id) (st := st) queue now (fun _ => first)
    rw [taken_ref, advance_taken] at e
    simp only [e, u, flight, newFlight_last]
  have need : State.needRecord (newFlight (taken q w) w).record (newFlight (taken q w) w).res = false := by
    simp [State.needRecord, crec, State.statusOf]
  obtain ⟨mem, ctrs, running, bar, queues⟩ := State.complete_of_quiet own (by simpa using head.held.1) (newFlight_writes ..) need
    (by simp [irq, State.statusOf])
  have fields : u.mem = s.mem ∧ u.bar = s.bar ∧ u.ctrs = s.ctrs ∧ u.running = s.running := by
    simp only [u, tag]
    exact same
  obtain ⟨umem, ubar, uctrs, urunning⟩ := fields
  rw [started]
  refine ⟨mem.trans umem, bar.trans ubar, ?_, (running.trans urunning).trans (State.running_of_runJob head.job), (queues q.ref).trans own,
    fun r ne => (queues r).trans (other r ne)⟩
  rw [ctrs]
  simpa using State.signal_ctrs_of uctrs (hSigOp w) (hSigCtr w) (hSigVal w)

end

/-! ## PUSH_LIST and QUEUE_CONTROL -/

/-- A list pushed stands at the end of the target's lists, under the job's next list number (R49). -/
theorem State.queueOf_pushList {s : State} {k : Job} {jid addr count : Nat} {ref : QRef} {g : Queue} {tag : Option ItemTag}
    (job : s.job? jid = some k) (queue : k.queue? ref = some g) : (s.pushList jid ref addr count tag).queueOf jid ref =
      some { g with lists := g.lists ++ [⟨addr, count, k.listSeq, tag⟩] } := by
  obtain rfl := Job.queue?_ref queue
  unfold State.pushList State.queueOf
  rw [State.job?_updJob _ _ _ (fun j => by cases j.queue? g.ref <;> rfl), job, Option.map_some, Option.bind_some, queue]
  exact Job.queue?_setQueue k { g with lists := g.lists ++ [⟨addr, count, k.listSeq, tag⟩] } (by rw [queue]; rfl)

theorem State.queueOf_pushList_other {s : State} {jid addr count : Nat} {ref r : QRef} {tag : Option ItemTag} (ne : r ≠ ref) :
    (s.pushList jid ref addr count tag).queueOf jid r = s.queueOf jid r := by
  unfold State.pushList
  rw [State.queueOf_updJob (g := fun q => q) (fun j => by cases j.queue? ref <;> rfl) (fun j => ?_), Option.map_id']
  cases found : j.queue? ref with
  | none => rw [Option.map_id']
  | some g =>
    rw [Option.map_id']
    exact Job.queue?_setQueue_other j { g with lists := g.lists ++ [⟨addr, count, j.listSeq, tag⟩] }
      (by rw [Job.queue?_ref found]; exact ne)

/-- A halted queue released (R57): it goes on with the next record, the same, or the next list. -/
def Queue.released (q : Queue) (action : Nat) : Queue :=
  let p := { q with halted := false, cur := none }
  if action == 2 || (action == 0 && q.haltLast) then { p with lists := p.lists.tail, pos := 0 }
  else if action = 0 then { p with pos := p.pos + 1 } else p

theorem Queue.released_ref (q : Queue) (action : Nat) : (q.released action).ref = q.ref := by
  unfold Queue.released
  dsimp only
  split
  · rfl
  · split <;> rfl

/-- Released, a queue is no longer halted and holds no record. -/
theorem Queue.released_goes (q : Queue) (action : Nat) : (q.released action).halted = false ∧ (q.released action).cur = none := by
  unfold Queue.released
  dsimp only
  split
  · exact ⟨rfl, rfl⟩
  · split <;> exact ⟨rfl, rfl⟩

/-- The three actions of R57 change the job's queue, and what the end of its list changes. -/
theorem State.controlQueue_eq {s : State} {jid : Nat} {ref : QRef} {q : Queue} (queue : s.queueOf jid ref = some q) (action : Nat) :
    ∃ js, s.controlQueue jid ref action = s.withJobs js ∧ (s.withJobs js).queueOf jid ref = some (q.released action) ∧
      ∀ r, r ≠ ref → (s.withJobs js).queueOf jid r = s.queueOf jid r := by
  obtain rfl := State.queueOf_ref s jid queue
  let u := s.updJob jid (fun j => j.setQueue (q.released action))
  have own : u.queueOf jid q.ref = some (q.released action) := State.queueOf_setQueue queue (Queue.released_ref q action)
  have other (r : QRef) (ne : r ≠ q.ref) : u.queueOf jid r = s.queueOf jid r :=
    State.queueOf_setQueue_other (by rwa [Queue.released_ref])
  have control : s.controlQueue jid q.ref action = u ∨ ∃ l item, s.controlQueue jid q.ref action = u.listDone jid q.ref l item := by
    unfold State.queueOf at queue
    unfold State.controlQueue
    rw [queue]
    dsimp only
    cases q.lists.head? with
    | none => exact .inl rfl
    | some l =>
      dsimp only
      split
      · rename_i drop
        exact .inr ⟨l.id, l.item, by simp only [u, Queue.released, if_pos drop]⟩
      · rename_i keep
        exact .inl (by simp only [u, Queue.released, if_neg keep])
  rcases control with e | ⟨l, item, e⟩
  · exact ⟨u.jobs, e, own, other⟩
  · obtain ⟨js, ended, same⟩ := u.listDone_eq jid q.ref l item
    exact ⟨js, e.trans ended, (same jid q.ref).trans own, fun r ne => (same jid r).trans (other r ne)⟩

/-- A command of a queue that starts: the state that its launch leaves. -/
theorem exec_of_startsNow {ref : QRef} {s : State} {j : Job} {q : Queue} {l : ListRef} {r : Nat} {p : Instr × CmdSpec}
    (command : p ∈ engineCommands ref) (starts : StartsNow p.2 ref s j q l r) :
    exec p.1 s = .next (settle s (launch (fetched s j q (p.2.whole s r)) j.id ref (startOf p.2 s j q r))) := by
  rw [exec_engineCommand s p command, issue_of_startsNow starts, done_eq]

/-- What a quiet command leaves, from what its start does to the queues of the job: `others` are the other queues after it. -/
theorem StartsNow.quiet {ref : QRef} {s : State} {j : Job} {q : Queue} {l : ListRef} {r : Nat} {p : Instr × CmdSpec}
    (starts : StartsNow p.2 ref s j q l r) (command : p ∈ engineCommands ref) {others : QRef → Option Queue}
    (start : ∀ (n : Nat) (m : Memory), let w := p.2.whole s r
      let u : State := { fetched s j q w with free := n, mem := m }
      ∃ js, p.2.start u (j.setQueue (taken q w)) (taken q w) w (newFlight (taken q w) w) =
          ⟨u.withJobs js, newFlight (taken q w) w, true⟩ ∧
        (u.withJobs js).queueOf j.id ref = some (taken q w) ∧ ∀ r, r ≠ ref → (u.withJobs js).queueOf j.id r = others r)
    (first : q.flight = []) (crec : hCrec r = false) (irq : hIrq r = false) :
    ∃ t, exec p.1 s = .next t ∧ t.mem = s.mem ∧ t.bar = s.bar ∧ t.ctrs = (s.signal (hSigOp r) (hSigCtr r) (hSigVal r)).ctrs ∧
      t.running = some j.id ∧ t.queueOf j.id ref = some (State.advance q (hLast r)) ∧ ∀ r, r ≠ ref → t.queueOf j.id r = others r := by
  let w := p.2.whole s r
  obtain ⟨n, m, m', begun, kept⟩ := begin_eq p.2 (fetched s j q w) (j.setQueue (taken q w)) (taken q w) w
  obtain ⟨js, e, own, other⟩ := start n m
  have st : startOf p.2 s j q r = ⟨({ fetched s j q w with free := n, mem := m' } : State).withJobs js, newFlight (taken q w) w, true⟩ := by
    rw [startOf, atStart, begun, e]
    rfl
  obtain ⟨mem, bar, ctrs, running, mine, rest⟩ := starts.passes.head.launch_of_quiet (w := w) (st := startOf p.2 s j q r) (by rw [st])
    (by rw [st]) (by rw [st]; exact own) (by rw [st]; exact ⟨(kept (by rw [e]; rfl)).trans (by simp [fetched]), by simp [fetched, State.withJobs],
      by simp [fetched, State.withJobs], by simp [fetched, State.withJobs]⟩) first (by simpa [w] using crec) (by simpa [w] using irq)
  refine ⟨_, exec_of_startsNow command starts, mem, bar, ?_, running, ?_, fun r' ne => ?_⟩
  · simpa [w] using ctrs
  · rw [State.queueOf_of_jobs (settle_jobs ..)]
    simpa [w] using mine
  · exact (rest r' ne).trans (by rw [st]; exact other r' ne)

theorem mem_engineCommands_header (ref : QRef) : ∀ p ∈ [(Instr.nop ref, plainSpec 0), (.wait ref, plainSpec 1), (.signal ref, plainSpec 2),
    (.pushList ref, pushSpec), (.queueControl ref, ctlSpec)], p ∈ engineCommands ref := fun p h => by
  simp only [engineCommands, List.append_assoc]
  exact List.mem_append_left _ h

theorem CmdSpec.whole_of_noItem {sp : CmdSpec} {s : State} {r : Nat} (none : sp.item s r = 0) : sp.whole s r = r := by
  rw [CmdSpec.whole, none, Nat.mul_zero, Nat.add_zero]

/-- A single condition of check 4 that holds. -/
theorem not_bad_of_late {code : Nat} {bad : Bool} (h : firstFail [ckState code bad] 7 2 = none) : bad = false := by
  cases bad with
  | false => rfl
  | true => simp [firstFail, ckState] at h

section
variable {ref : QRef} {s : State} {j : Job} {q g : Queue} {l : ListRef} {r : Nat} {target : QRef}

/-- Another queue of the job, while a record is taken up. -/
theorem AtHead.queue?_other (head : AtHead ref s j q l r) (ne : target ≠ ref) (queue : j.queue? target = some g) (w : Nat) :
    (j.setQueue (taken q w)).queue? target = some g := by
  rw [Job.queue?_setQueue_other j _ (by rw [taken_ref, Job.queue?_ref head.queue]; exact ne), queue]

theorem AtHead.queueOf_other (head : AtHead ref s j q l r) (ne : target ≠ ref) (queue : j.queue? target = some g) (w : Nat) :
    (fetched s j q w).queueOf j.id target = some g := by
  rw [State.queueOf, head.job?_fetched w, Option.bind_some, head.queue?_other ne queue w]

end

/-- Settles O44: each starts at once and completes quietly; a push and a release change the target queue alone. -/
theorem headerCommandsAct : Obligations.HeaderCommandsAct := by
  unfold Obligations.HeaderCommandsAct
  intro ref s j q l r first crec irq
  refine ⟨?_, ?_, ?_⟩
  · intro p command starts
    obtain ⟨kind, spec⟩ : ∃ kind, p.2 = plainSpec kind := by
      simp only [List.mem_cons, List.not_mem_nil, or_false] at command
      rcases command with rfl | rfl | rfl <;> exact ⟨_, rfl⟩
    obtain ⟨t, e, mem, bar, ctrs, running, own, -⟩ := starts.quiet
      (mem_engineCommands_header ref p (List.mem_append_left [(Instr.pushList ref, pushSpec), (.queueControl ref, ctlSpec)] command))
      (others := (fetched s j q (p.2.whole s r)).queueOf j.id)
      (fun n m => ⟨_, by rw [spec]; rfl, starts.passes.head.queueOf_fetched _, fun _ _ => rfl⟩) first crec irq
    obtain ⟨k, runs, found⟩ := State.exists_runJob running own
    exact ⟨t, k, _, e, mem, by rw [bar], by rw [bar], ctrs, runs, found, rfl⟩
  · intro starts ne g target
    have head := starts.passes.head
    have whole : pushSpec.whole s r = r := CmdSpec.whole_of_noItem rfl
    let pushed := (fetched s j q r).pushList j.id (targetOf r) (listAddr r) (listCount r) none
    obtain ⟨t, e, mem, -, -, running, -, others⟩ := StartsNow.quiet (p := (.pushList ref, pushSpec)) starts
      (mem_engineCommands_header ref _ (by simp)) (others := pushed.queueOf j.id) (fun n m => by
        rw [whole]
        exact ⟨pushed.jobs, rfl, (State.queueOf_pushList_other ne.symm).trans (head.queueOf_fetched r), fun _ _ => rfl⟩) first crec irq
    have there : pushed.queueOf j.id (targetOf r) = some { g with lists := g.lists ++ [⟨listAddr r, listCount r, j.listSeq, none⟩] } :=
      State.queueOf_pushList (k := j.setQueue (taken q r)) (head.job?_fetched r) (head.queue?_other ne target r)
    obtain ⟨k, runs, found⟩ := State.exists_runJob running ((others _ ne).trans there)
    exact ⟨t, k, _, e, mem, runs, found, rfl⟩
  · intro starts ne g target
    have head := starts.passes.head
    have whole : ctlSpec.whole s r = r := CmdSpec.whole_of_noItem rfl
    refine ⟨?_, fun more => ?_⟩
    · have late := not_bad_of_late starts.passes.late
      rw [whole, head.queue?_other ne target] at late
      simpa using late
    · obtain ⟨t, e, mem, -, -, running, -, others⟩ := StartsNow.quiet (p := (.queueControl ref, ctlSpec)) starts
        (mem_engineCommands_header ref _ (by simp))
        (others := fun x => if x = targetOf r then some (g.released (bits r 208 2)) else (fetched s j q r).queueOf j.id x) (fun n m => by
          rw [whole]
          obtain ⟨js, control, there, rest⟩ := State.controlQueue_eq (s := { fetched s j q r with free := n, mem := m })
            (head.queueOf_other ne target r) (bits r 208 2)
          refine ⟨js, congrArg (Started.mk · _ true) control, (rest ref ne.symm).trans (head.queueOf_fetched r), fun x _ => ?_⟩
          split
          · rename_i same
            rw [same, there]
          · rename_i other
            exact rest x other) first crec irq
      obtain ⟨k, runs, found⟩ := State.exists_runJob running ((others _ ne).trans (if_pos rfl))
      obtain ⟨goes, empty⟩ := g.released_goes (bits r 208 2)
      exact ⟨t, k, _, e, mem, runs, found, goes, empty, fun a => by simp [Queue.released, a, more], fun a => by simp [Queue.released, a],
        fun a => by simp [Queue.released, a]⟩

end Sys2Proof.Machine
end

section
/-! SUPPORT. COMMAND_WAIT_SATISFIED, COMMAND_COMPLETE and COMPLETION_RING_RETRY (R53, R55, R61). -/
namespace Sys2Proof.Machine

/-! ## A wait with WAIT_OP 1 (R53) -/

theorem hWaitVal_lt (r : Nat) : hWaitVal r < 2 ^ 32 := Nat.mod_lt _ (by decide)

/-- R53: such a wait is over when (counter − WAIT_VAL) mod 2^32 is below 2^31. -/
theorem waitOver_of_serial {s : State} {r : Nat} (op : hWaitOp r = 1) :
    waitOver s r = decide (((s.ctr (hWaitCtr r)).toNat + 2 ^ 32 - hWaitVal r) % 2 ^ 32 < 2 ^ 31) := by
  have lt := hWaitVal_lt r
  have dist : (s.ctr (hWaitCtr r) - BitVec.ofNat 32 (hWaitVal r)).toNat = ((s.ctr (hWaitCtr r)).toNat + 2 ^ 32 - hWaitVal r) % 2 ^ 32 := by
    rw [BitVec.toNat_sub, BitVec.toNat_ofNat, Nat.mod_eq_of_lt lt]
    congr 1
    omega
  unfold waitOver
  rw [op]
  exact congrArg (fun d => decide (d < 2 ^ 31)) dist

section
variable {ref : QRef} {s : State} {j : Job} {q : Queue} {r : Nat} {sp : CmdSpec} (run : s.runJob = some j) (queue : j.queue? ref = some q)
  (cur : q.cur = some { record := r }) (kind : specOf (hKind r) = some sp)
include run queue cur kind

/-- What COMMAND_WAIT_SATISFIED does with a fetched record without queries at peers. -/
theorem resume_eq : resume ref s =
    if myTurn s j ref (couldGo s j) = false then s
    else if dieHeld s (engDie ref) = false ∧ stays sp s j q { record := r } = false then tryStart sp (s.takeTurn ref) j q { record := r }
    else tryStart sp s j q { record := r } := by
  obtain rfl := Job.queue?_ref queue
  have go : canGo s j q = (!dieHeld s (engDie q.ref) && !stays sp s j q { record := r }) := by simp [canGo, cur, kind]
  simp only [resume, run, queue, cur, kind, go]
  cases myTurn s j q.ref (couldGo s j) <;> cases dieHeld s (engDie q.ref) <;> cases stays sp s j q { record := r } <;> rfl

/-- A record whose wait is not over is left. -/
theorem resume_of_wait (wait : waitOver s r = false) : resume ref s = s := by
  have stay : stays sp s j q { record := r } = true := by simp [stays, wait]
  have keeps : tryStart sp s j q { record := r } = s := by simp [tryStart, stay]
  rw [resume_eq run queue cur kind, keeps]
  simp [stay]

/-- A record whose wait is over, that nothing else holds back and that passes checks 4 and 5, starts. -/
theorem resume_of_over (wait : waitOver s r = true) (turn : myTurn s j ref (couldGo s j) = true) (moves : holding s j = false)
    (awake : dieHeld s (engDie ref) = false) (fence : Sys2Proof.Machine.alone q.ref r = true → q.flight = []) (held : q.held = [])
    (ready : sp.ready s j q r = true) (ready' : sp.ready (s.takeTurn ref) j q r = true) (gate : gateOf j r = none)
    (late : firstFail (sp.late (s.takeTurn ref) j q r) 7 2 = none)
    (lonely : sp.exchange (s.takeTurn ref) j q { record := r } = none) :
    resume ref s = launch (s.takeTurn ref) j.id ref (begin sp (s.takeTurn ref) j q r) := by
  obtain rfl := Job.queue?_ref queue
  have goes := stays_eq_false (sp := sp) moves awake wait fence held ready
  have goes' := stays_eq_false (sp := sp) (s := s.takeTurn q.ref) (by simpa using moves) (by simpa using awake) (by simpa using wait) fence
    held ready'
  rw [resume_eq run queue cur kind, if_neg (by simp [turn]), if_pos ⟨awake, goes⟩,
    tryStart_of_free (by simpa using awake) goes' gate late lonely]

end

/-- Settles O46: a wait that is not over keeps its record, one that is over lets it start. -/
theorem waitComparesSerially : Obligations.WaitComparesSerially := by
  unfold Obligations.WaitComparesSerially
  intro ref s j q r sp run queue cur op kind d
  constructor
  · intro far n
    have wait : waitOver { s with now := s.now + n } r = false := by
      rw [waitOver_of_serial op]
      exact decide_eq_false (Nat.not_lt.2 far)
    have kept := resume_of_wait (s := { s with now := s.now + n }) run queue cur kind wait
    exact (congrArg (done _) kept).trans (done_self _)
  · intro near turn moves awake fence held u ready ready' gate late lonely
    have wait : waitOver s r = true := by rw [waitOver_of_serial op]; exact decide_eq_true near
    exact congrArg (done s) (resume_of_over run queue cur kind wait turn moves awake fence held ready ready' gate late lonely)

/-! ## The end of a command's work (R55) -/

section
variable {ref : QRef} {s : State} {j : Job} {q : Queue} {i : Nat} {f : Flight}

theorem exec_commandComplete (run : s.runJob = some j) (queue : j.queue? ref = some q) (awake : dieHeld s (engDie ref) = false)
    (flight : q.flight[i]? = some f) (first : ref.eng = engTile → i = 0) :
    exec (.commandComplete ref i) s = done s (finishFlight s j q i f) := by
  have order : ¬ (ref.eng = engTile ∧ i ≠ 0) := fun h => h.2 (first h.1)
  refine congrArg (done s) ?_
  simp only [commandComplete, awake, Bool.false_eq_true, if_false, run, queue, flight, if_neg order]

end

/-- Settles O48: the case of each kind of work in `finishFlight`. -/
theorem commandsEndWhenTheirWorkEnds : Obligations.CommandsEndWhenTheirWorkEnds := by
  unfold Obligations.CommandsEndWhenTheirWorkEnds
  intro ref s j q i f run queue awake flight first
  have exec_eq := exec_commandComplete run queue awake flight first
  have ends (t : State) (e : finishFlight s j q i f = t) : exec (.commandComplete ref i) s = .next (settle s t) := by rw [exec_eq, e, done_eq]
  have stays (e : finishFlight s j q i f = s) : exec (.commandComplete ref i) s = .next s := by rw [exec_eq, e, done_self]
  obtain rfl := Job.queue?_ref queue
  refine ⟨?_, ?_, ?_, ?_, ?_, ?_, ?_⟩
  · intro v op
    exact ⟨fun past => ends _ (by simp only [finishFlight, op, if_pos past]),
      fun more => stays (by simp only [finishFlight, op, if_neg (Nat.not_le.2 more)])⟩
  · intro w op
    refine ⟨fun past free => ends _ ?_, fun more => stays ?_⟩
    · have goes : (streamOver w && !(w.down && tilesHeld s w.desc)) = true := by
        cases down : w.down
        · simp [past]
        · simp [past, free down]
      simp only [finishFlight, op, if_pos goes]
    · have waits : (streamOver w && !(w.down && tilesHeld s w.desc)) = false := by
        rcases more with going | ⟨down, held⟩
        · simp [going]
        · simp [down, held]
      simp only [finishFlight, op, waits, Bool.false_eq_true, if_false]
  · intro slot mbs buddy op
    exact ⟨fun gone => ends _ (by simp only [finishFlight, op, gone, Bool.false_eq_true, if_false]),
      fun way => stays (by simp only [finishFlight, op, way, if_true])⟩
  · intro n e op edge
    exact ⟨fun past => ends _ (by rcases past with h | h <;> simp [finishFlight, op, edge, h]),
      fun opened closed => stays (by simp [finishFlight, op, edge, opened, closed])⟩
  · intro op
    exact ⟨fun past => ends _ (by simp only [finishFlight, op, past, if_true]),
      fun more => stays (by simp only [finishFlight, op, more, Bool.false_eq_true, if_false])⟩
  · intro op
    exact ⟨fun past => ends _ (by simp only [finishFlight, op, if_neg past]),
      fun more => stays (by simp only [finishFlight, op, if_pos more])⟩
  · rintro (⟨m, op⟩ | ⟨a, n, k, op⟩ | op | op | op | op)
    all_goals exact stays (by simp only [finishFlight, op])

/-! ## Results, record, signal (R55, R61) -/

/-- What a ring's room depends on. -/
theorem State.ringRoom_congr {s t : State} {p q : Queue} (mem : t.mem = s.mem) (marks : t.marks = s.marks) (lp : t.lp = s.lp)
    (mod : t.mod = s.mod) (ring : p.wcount = q.wcount ∧ p.headAddr = q.headAddr ∧ p.ringLog2 = q.ringLog2) :
    t.ringRoom p = s.ringRoom q := by
  obtain ⟨wcount, head, log2⟩ := ring
  cases s
  cases t
  subst mem marks lp mod
  unfold State.ringRoom
  rw [wcount, head, log2]
  rfl

/-- What a flight on which an unordered access tore is read anew: a free value is drawn, and its results and their counts change. -/
theorem reread_eq (s : State) (j : Job) (q : Queue) (f : Flight) : (∃ n, (reread s j q f).1 = { s with free := n }) ∧
    (reread s j q f).2.record = f.record ∧ (tornBy j q.ref f = [] → reread s j q f = (s, f)) := by
  unfold reread
  cases tornBy j q.ref f with
  | nil => exact ⟨⟨s.free, rfl⟩, rfl, fun _ => rfl⟩
  | cons w ws =>
    refine ⟨?_, ?_, fun none => absurd none (List.cons_ne_nil _ _)⟩
    · cases specOf (hKind f.record) with
      | none => exact ⟨s.free, rfl⟩
      | some sp =>
        dsimp only
        split
        · exact ⟨_, rfl⟩
        · exact ⟨s.free, rfl⟩
    · cases specOf (hKind f.record) with
      | none => rfl
      | some sp =>
        dsimp only
        split <;> rfl

section
variable {s : State} {jid : Nat} {q : Queue} {i : Nat} {f : Flight} (queue : s.queueOf jid q.ref = some q) (free : q.held = [])
include queue free

omit free in
/-- R55: a flight taken out of its queue completes: its results land, and its report has the queue without it. -/
theorem State.completeAt_reports : ∃ (v w : State) (h : Held), s.completeAt jid q i f = w ∧
    v.mem = (s.land jid f).1.mem ∧ v.ctrs = s.ctrs ∧ v.running = s.running ∧ v.ringRoom { q with flight := q.flight.eraseIdx i } =
      (s.land jid f).1.ringRoom q ∧ v.queueOf jid q.ref = some { q with flight := q.flight.eraseIdx i } ∧
    ReportOf jid f.record (s.land jid f).2.res h ∧
    let t := v.report jid q.ref (State.needRecord f.record (s.land jid f).2.res) h
    w.mem = t.mem ∧ w.ctrs = t.ctrs ∧ w.running = t.running ∧ ∀ r, w.queueOf jid r = t.queueOf jid r := by
  let u := s.updJob jid (fun j => j.setQueue { q with flight := q.flight.eraseIdx i })
  have jobs : u = s.withJobs u.jobs := rfl
  obtain ⟨v, h, ends⟩ := u.exists_completes jid q.ref f
  obtain ⟨wmem, wctrs, wrunning, -, wqueues⟩ := ends.after
  obtain ⟨js, land, -⟩ := State.land_eq s jid f
  have landed : u.landed jid f = (s.landed jid f).withJobs u.jobs := by rw [← State.landed_withJobs, ← jobs]
  have res : u.landedRes jid f = s.landedRes jid f := by rw [jobs, State.landedRes_withJobs]
  obtain ⟨mem, marks, lp, mod⟩ := ends.landed
  rw [landed] at mem marks lp mod
  have entry := ends.entry
  rw [res] at entry wmem wctrs wrunning wqueues
  rw [land]
  exact ⟨v, _, h, rfl, mem, ends.ctrs, ends.running, State.ringRoom_congr mem marks lp mod ⟨rfl, rfl, rfl⟩,
    (ends.queues jid q.ref).trans ((State.queueOf_tear u jid (.inl rfl)).trans (State.queueOf_setQueue queue rfl)), entry, wmem, wctrs,
    wrunning, fun r => wqueues jid r⟩

/-- R61: with a full ring the record is kept back, and the signal with it. -/
theorem State.completeAt_of_full (need : needRecordOf { f with res := (s.land jid f).2.res } = true)
    (full : (s.land jid f).1.ringRoom q = false) : ∃ (w : State) (h : Held), s.completeAt jid q i f = w ∧ w.mem = (s.land jid f).1.mem ∧
      w.ctrs = s.ctrs ∧ w.running = s.running ∧
      w.queueOf jid q.ref = some { q with flight := q.flight.eraseIdx i, held := [h], full := true } ∧
      ReportOf jid f.record (s.land jid f).2.res h := by
  obtain ⟨v, w, h, e, mem, ctrs, running, room, own, entry, wmem, wctrs, wrunning, wqueues⟩ := State.completeAt_reports (i := i) (f := f) queue
  obtain ⟨t, report, tmem, tctrs, trunning, -, tqueue⟩ := State.report_full_spec h (need := true)
    (q := { q with flight := q.flight.eraseIdx i }) own (.inr ⟨rfl, room.trans full⟩)
  rw [show State.needRecord f.record (s.land jid f).2.res = true from need, report] at wmem wctrs wrunning wqueues
  exact ⟨w, h, e, wmem.trans (tmem.trans mem), wctrs.trans (tctrs.trans ctrs), wrunning.trans (trunning.trans running),
    (wqueues q.ref).trans (tqueue.trans (by rw [free]; rfl)), entry⟩

/-- R55: else the record, if one is due, is written over the results, and the signal is applied. -/
theorem State.completeAt_of_room (room : needRecordOf { f with res := (s.land jid f).2.res } = true → (s.land jid f).1.ringRoom q = true) :
    ∃ (w : State) (h : Held), s.completeAt jid q i f = w ∧
      w.mem = (if needRecordOf { f with res := (s.land jid f).2.res } = true then
        (s.land jid f).1.mem.write q.recordAt (leBytes 32 (q.phased h.crec)) else (s.land jid f).1.mem) ∧
      w.ctrs = (s.signal (hSigOp f.record) (hSigCtr f.record) (hSigVal f.record)).ctrs ∧
      ReportOf jid f.record (s.land jid f).2.res h := by
  obtain ⟨v, w, h, e, mem, ctrs, running, fits, own, entry, wmem, wctrs, -, -⟩ := State.completeAt_reports (i := i) (f := f) queue
  obtain ⟨t, report, tmem, tctrs, -, -, -⟩ := State.report_room_spec h (need := State.needRecord f.record (s.land jid f).2.res)
    (q := { q with flight := q.flight.eraseIdx i }) own free (fun need => fits.trans (room need))
  rw [report] at wmem wctrs
  refine ⟨w, h, e, wmem.trans (tmem.trans (by rw [mem]; rfl)), ?_, entry⟩
  rw [wctrs, tctrs, entry.sigOp, entry.sigCtr, entry.sigVal]
  exact State.signal_ctrs_of ctrs ..

end

/-- Whether a record is due hangs on the record and on the results as they landed. -/
theorem needRecordOf_land (s : State) (jid : Nat) (f : Flight) :
    needRecordOf { f with res := (s.land jid f).2.res } = needRecordOf (s.land jid f).2 := by
  obtain ⟨js, land, -⟩ := State.land_eq s jid f
  rw [land]
  rfl

theorem State.land_record (s : State) (jid : Nat) (f : Flight) : (s.land jid f).2.record = f.record := by
  obtain ⟨js, land, -⟩ := State.land_eq s jid f
  rw [land]

theorem State.land_mem (s : State) (jid : Nat) (f : Flight) : (s.land jid f).1.mem = s.mem.writes f.writes := by
  obtain ⟨js, land, -⟩ := State.land_eq s jid f
  obtain ⟨ms, lp, lq, landed⟩ := State.landed_eq s jid f
  rw [land, landed]
  rfl

/-- A plain command whose channel is free completes with its results as they are read anew. -/
theorem finishFlight_of_plain {s : State} {j : Job} {q : Queue} {i : Nat} {f : Flight} (op : f.op = .plain)
    (free : channelWait s q.ref f = false) :
    finishFlight s j q i f = (reread s j q f).1.completeAt j.id q i (reread s j q f).2 := by
  simp only [finishFlight, op, free, Bool.false_eq_true, if_false]

/-! ## COMPLETION_RING_RETRY (R61) -/

theorem exec_completionRingRetry (ref : QRef) (s : State) : exec (.completionRingRetry ref) s = done s (retryRing ref s) := rfl

/-- The jobs whose rings an engine reads again. -/
def State.retries (s : State) (j : Job) : Bool := decide (s.running = some j.id ∨ j.st = .draining)

/-- A job's part of `retryRing`. -/
def State.retryJob (ref : QRef) (s : State) (j : Job) : State :=
  s.retryHeld j.id ref (((j.queue? ref).map (fun q => q.held.length)).getD 0)

section
variable {ref : QRef} {s : State} {jid : Nat} {q : Queue} {h : Held}

/-- The one record kept back, once there is room: its report on the queue without it. -/
theorem State.retryHeld_of_room (queue : s.queueOf jid q.ref = some q) (held : q.held = [h]) (room : h.need = false ∨ s.ringRoom q = true) :
    let p : Queue := { q with held := [], full := false }
    s.retryHeld jid q.ref 1 = (s.updJob jid (fun j => j.setQueue p)).report jid p.ref h.need h := by
  intro p
  have fits : (h.need && !s.ringRoom q) = false := by rcases room with e | e <;> simp [e]
  have own : (s.updJob jid (fun j => j.setQueue p)).queueOf jid p.ref = some p := State.queueOf_setQueue queue rfl
  rw [State.report_of_room h own rfl (fun need => (State.ringRoom_congr rfl rfl rfl rfl ⟨rfl, rfl, rfl⟩).trans
    (room.resolve_left (by simp [need])))]
  unfold State.queueOf at queue
  rw [State.retryHeld, queue]
  simp only [held, fits]
  rfl

theorem State.retryHeld_of_full (queue : s.queueOf jid q.ref = some q) (held : q.held = [h]) (need : h.need = true)
    (full : s.ringRoom q = false) : s.retryHeld jid q.ref 1 = s := by
  unfold State.queueOf at queue
  simp [State.retryHeld, queue, held, need, full]

/-- Of the jobs, only those that `State.retries` names count. -/
theorem retryRing_skip {l : List Job} {t : State} (run : t.running = s.running) (off : l.filter s.retries = []) :
    l.foldl (fun s j => if s.running = some j.id ∨ j.st = JobState.draining then s.retryJob ref j else s) t = t := by
  induction l with
  | nil => rfl
  | cons x l ih =>
    rw [List.filter_cons] at off
    have skip : s.retries x = false := by
      by_contra on
      simp [Bool.eq_true_of_not_eq_false on] at off
    rw [skip] at off
    have no : ¬ (t.running = some x.id ∨ x.st = .draining) := by rw [run]; simpa [State.retries] using skip
    rw [List.foldl_cons, if_neg no]
    exact ih off

theorem retryRing_fold {j : Job} {l : List Job} (only : l.filter s.retries = [j]) (keeps : (s.retryJob ref j).running = s.running) :
    l.foldl (fun s j => if s.running = some j.id ∨ j.st = JobState.draining then s.retryJob ref j else s) s = s.retryJob ref j := by
  induction l with
  | nil => exact absurd only (List.cons_ne_nil _ _).symm
  | cons x l ih =>
    rw [List.filter_cons] at only
    cases on : s.retries x with
    | false =>
      rw [on] at only
      have no : ¬ (s.running = some x.id ∨ x.st = .draining) := by simpa [State.retries] using on
      rw [List.foldl_cons, if_neg no]
      exact ih only
    | true =>
      rw [on, if_pos rfl] at only
      obtain ⟨rfl, off⟩ := List.cons.inj only
      have yes : s.running = some x.id ∨ x.st = .draining := by simpa [State.retries] using on
      rw [List.foldl_cons, if_pos yes]
      exact retryRing_skip keeps off

theorem retryRing_of_only {j : Job} (awake : dieHeld s (engDie ref) = false) (only : s.jobs.filter s.retries = [j])
    (keeps : (s.retryJob ref j).running = s.running) : retryRing ref s = s.retryJob ref j := by
  rw [retryRing, awake, if_neg Bool.false_ne_true]
  exact retryRing_fold only keeps

end

/-! ## O47 -/

section
variable {s : State} {j : Job} {q : Queue} (run : s.runJob = some j) (queue : j.queue? q.ref = some q)
include run queue

/-- R61: the ring of the one job that retries is read again: the record kept back stays, or is written before its signal. -/
theorem retries_in_order {h : Held} (awake : dieHeld s (engDie q.ref) = false) (held : q.held = [h]) (only : s.jobs.filter s.retries = [j]) :
    (h.need = true → s.ringRoom q = false → exec (.completionRingRetry q.ref) s = .next s) ∧
    (h.need = false ∨ s.ringRoom q = true → ∃ t k p', exec (.completionRingRetry q.ref) s = .next t ∧ t.runJob = some k ∧
      k.queue? q.ref = some p' ∧ p'.held = [] ∧ p'.full = false ∧ p'.flight = q.flight ∧
      t.ctrs = (s.signal h.sigOp h.sigCtr h.sigVal).ctrs ∧
      t.mem = (if h.need then s.mem.write q.recordAt (leBytes 32 (q.phased h.crec)) else s.mem)) := by
  have own := State.queueOf_of_runJob run queue
  have one : s.retryJob q.ref j = s.retryHeld j.id q.ref 1 := by simp [State.retryJob, queue, held]
  refine ⟨fun need full => ?_, fun room => ?_⟩
  · have kept : s.retryJob q.ref j = s := one.trans (State.retryHeld_of_full own held need full)
    rw [exec_completionRingRetry, retryRing_of_only awake only (congrArg State.running kept), kept, done_self]
  · let p : Queue := { q with held := [], full := false }
    have mine : (s.updJob j.id (fun j => j.setQueue p)).queueOf j.id p.ref = some p := State.queueOf_setQueue own rfl
    have fits (need : h.need = true) : (s.updJob j.id (fun j => j.setQueue p)).ringRoom p = true :=
      (State.ringRoom_congr rfl rfl rfl rfl ⟨rfl, rfl, rfl⟩).trans (room.resolve_left (by simp [need]))
    obtain ⟨t, report, mem, ctrs, running, found, -⟩ := State.report_room_spec h mine rfl fits
    have e : s.retryJob q.ref j = t := (one.trans (State.retryHeld_of_room own held room)).trans report
    have alive : t.running = some j.id := by rw [running, State.updJob_running, State.running_of_runJob run]
    obtain ⟨k, runs, there⟩ := State.exists_runJob (t := settle s t) alive found
    have kept : p.flight = q.flight := rfl
    refine ⟨settle s t, k, _, ?_, runs, there, ?_, ?_, ?_, ctrs.trans (State.signal_ctrs_of (by simp) ..), mem⟩
    · rw [exec_completionRingRetry, retryRing_of_only awake only (e ▸ running), e, done_eq]
    all_goals split <;> rfl

/-- R55, R61: a plain command completes: its results, then its record, then its signal. -/
theorem completes_in_order {i : Nat} {f : Flight} (awake : dieHeld s (engDie q.ref) = false) (flight : q.flight[i]? = some f)
    (first : q.ref.eng = engTile → i = 0) (op : f.op = .plain) (free : channelWait s q.ref f = false) (held : q.held = []) :
    let x := reread s j q f
    let u := (x.1.land j.id x.2).1
    let g := (x.1.land j.id x.2).2
    let need := needRecordOf g
    u.mem = s.mem.writes x.2.writes ∧ (tornBy j q.ref f = [] → x = (s, f)) ∧ g.record = f.record ∧
      (need = true → u.ringRoom q = false → ∃ t k p' h, exec (.commandComplete q.ref i) s = .next t ∧ t.mem = u.mem ∧ t.ctrs = s.ctrs ∧
        t.runJob = some k ∧ k.queue? q.ref = some p' ∧ p'.flight = q.flight.eraseIdx i ∧ p'.full = true ∧ p'.held = [h] ∧
        h.sigOp = hSigOp f.record ∧ h.sigCtr = hSigCtr f.record ∧ h.sigVal = hSigVal f.record ∧ h.need = true) ∧
      (need = true → u.ringRoom q = true → ∃ t rec, exec (.commandComplete q.ref i) s = .next t ∧
        t.mem = u.mem.write q.recordAt (leBytes 32 rec) ∧ rec % 2 ^ 16 = State.statusOf g.res % 2 ^ 16 ∧
        t.ctrs = (s.signal (hSigOp f.record) (hSigCtr f.record) (hSigVal f.record)).ctrs) ∧
      (need = false → ∃ t, exec (.commandComplete q.ref i) s = .next t ∧ t.mem = u.mem ∧
        t.ctrs = (s.signal (hSigOp f.record) (hSigCtr f.record) (hSigVal f.record)).ctrs) := by
  intro x u g need
  obtain ⟨⟨n, drawn⟩, record, same⟩ := reread_eq s j q f
  have drawn : x.1 = { s with free := n } := drawn
  have record : x.2.record = f.record := record
  have exec_eq : exec (.commandComplete q.ref i) s = .next (settle s (x.1.completeAt j.id q i x.2)) := by
    rw [exec_commandComplete run queue awake flight first, finishFlight_of_plain op free, done_eq]
  have own : x.1.queueOf j.id q.ref = some q := by rw [drawn]; exact State.queueOf_of_runJob run queue
  have ctrs : x.1.ctrs = s.ctrs := by rw [drawn]
  have running : x.1.running = some j.id := by rw [drawn]; exact State.running_of_runJob run
  have due : needRecordOf { x.2 with res := (x.1.land j.id x.2).2.res } = need := needRecordOf_land x.1 j.id x.2
  have signal := State.signal_ctrs_of ctrs (hSigOp f.record) (hSigCtr f.record) (hSigVal f.record)
  refine ⟨(State.land_mem ..).trans (by rw [drawn]), same, (State.land_record ..).trans record, fun needs full => ?_,
    fun needs room => ?_, fun no => ?_⟩
  · obtain ⟨w, h, e, mem, wctrs, wrunning, wqueue, entry⟩ := State.completeAt_of_full (i := i) own held (due.trans needs) full
    obtain ⟨k, runs, there⟩ := State.exists_runJob (t := settle s w) (wrunning.trans running) wqueue
    have due' : h.need = true := entry.need.trans (due.trans needs)
    exact ⟨settle s w, k, _, h, by rw [exec_eq, e], mem, wctrs.trans ctrs, runs, there, rfl, rfl, rfl, entry.sigOp.trans (by rw [record]),
      entry.sigCtr.trans (by rw [record]), entry.sigVal.trans (by rw [record]), due'⟩
  · obtain ⟨w, h, e, mem, wctrs, entry⟩ := State.completeAt_of_room (i := i) own held (fun _ => room)
    rw [due, if_pos needs] at mem
    rw [record] at wctrs
    exact ⟨settle s w, q.phased h.crec, by rw [exec_eq, e], mem, (q.phased_mod h.crec).trans entry.status, wctrs.trans signal⟩
  · obtain ⟨w, h, e, mem, wctrs, entry⟩ := State.completeAt_of_room (i := i) own held (fun needs => absurd (due.symm.trans needs) (by simp [no]))
    rw [due, if_neg (by simp [no])] at mem
    rw [record] at wctrs
    exact ⟨settle s w, by rw [exec_eq, e], mem, wctrs.trans signal⟩

end

/-- A record rejected by checks 1 to 3, or kept until its tile's earlier commands are over, signals nothing. -/
theorem issue_of_fail_ctrs {sp : CmdSpec} {ref : QRef} {s : State} {j : Job} {q : Queue} {l : ListRef} {r : Nat} (head : AtHead ref s j q l r)
    (mine : hKind r = sp.kind) (fetch : sp.fetch s j q r = true) {f : Fail} (fails : firstChecks sp ref s j q l r = some f) :
    (issue sp ref s).ctrs = s.ctrs := by
  by_cases first : ref.eng = engTile → q.flight = []
  · obtain ⟨t, p, e, -, -, -, -, -, -, -, -, ctrs, -⟩ := issue_of_fail_spec head (.inl mine) fetch fails first
    rw [e, ctrs]
  · obtain ⟨tile, flights⟩ := Classical.not_imp.1 first
    rw [issue_of_fail head (.inl mine) fetch fails, rejectTurn, if_pos (by simp [tile, flights])]

/-- Settles O47: the order of `completeAt`, the ring's retry of a record kept back, and the rejection of `reject_spec`. -/
theorem resultsThenRecordThenSignal : Obligations.ResultsThenRecordThenSignal := by
  unfold Obligations.ResultsThenRecordThenSignal
  intro ref s j q run queue
  obtain rfl := Job.queue?_ref queue
  refine ⟨fun i f awake flight first op free held => completes_in_order run queue awake flight first op free held, fun held => ?_,
    fun h awake held only => retries_in_order run queue awake held only, fun l r f p command head kind fetch fails => ?_⟩
  · rw [exec_completionRingRetry, retryRing, if_pos held, done_self]
  · exact ⟨settle s (issue p.2 q.ref s), by rw [exec_engineCommand s p command, done_eq], issue_of_fail_ctrs head kind fetch fails⟩

end Sys2Proof.Machine
end

section
/-! SUPPORT. The starts of the Strand, Ring and Locket commands (R209-R278, R357). -/
namespace Sys2Proof.Machine

/-! ## A record of a Strand, Ring or Locket engine starts -/

/-- The kinds from 0x60 on belong to engines whose accesses no Mover and no tile overlaps. -/
theorem noRace_of_accepts {e k : Nat} (known : accepts e k = true) (late : 0x60 ≤ k) : e ≠ engTile ∧ e ≠ engMover := by
  constructor
  · rintro rfl
    simp only [accepts, engTile, Bool.or_eq_true, Bool.and_eq_true, decide_eq_true_eq, beq_iff_eq] at known
    omega
  · rintro rfl
    simp only [accepts, engMover, Bool.or_eq_true, decide_eq_true_eq, beq_iff_eq] at known
    omega

section
variable {sp : CmdSpec} {i : Instr} {ref : QRef} {s : State} {j : Job} {q : Queue} {l : ListRef} {r : Nat}

/-- Such a record starts as its kind says, on memory as it is. -/
theorem StartsNow.startOf_eq (h : StartsNow sp ref s j q l r) (late : 0x60 ≤ sp.kind) :
    startOf sp s j q r = sp.start (fetched s j q (sp.whole s r)) (j.setQueue (taken q (sp.whole s r))) (taken q (sp.whole s r)) (sp.whole s r)
      (newFlight (taken q (sp.whole s r)) (sp.whole s r)) := by
  have known := h.passes.known
  rw [h.passes.kind, ← Job.queue?_ref h.passes.head.queue] at known
  obtain ⟨tile, mover⟩ := noRace_of_accepts known late
  exact begin_of_noRace tile mover

/-- What its command answers, for a start that gives `st`. -/
theorem StartsNow.exec_eq {st : Started} (h : StartsNow sp ref s j q l r) (command : (i, sp) ∈ engineCommands ref) (late : 0x60 ≤ sp.kind)
    (start : sp.start (fetched s j q (sp.whole s r)) (j.setQueue (taken q (sp.whole s r))) (taken q (sp.whole s r)) (sp.whole s r)
      (newFlight (taken q (sp.whole s r)) (sp.whole s r)) = st) :
    exec i s = .next (settle s (launch (fetched s j q (sp.whole s r)) j.id ref st)) := by
  rw [exec_of_startsNow command h, h.startOf_eq late, start]

end

theorem mem_engineCommands_strand (ref : QRef) : ∀ p ∈ [(Instr.stageBind ref, stageSpec), (.edgeBind ref, edgeSpec), (.pipeStart ref, pipeSpec),
    (.feedPost ref, feedSpec), (.versionPublish ref, publishSpec), (.edgeRepoint ref, repointSpec), (.replayStep ref, replaySpec),
    (.pipeStop ref, stopSpec), (.groupBind ref, groupSpec), (.reduce ref, reduceSpec), (.gather ref, gatherSpec), (.normClose ref, closeSpec),
    (.groupRepoint ref, gpointSpec), (.locketSeal ref, sealSpec), (.tandem ref, tandemSpec)], p ∈ engineCommands ref := by
  simp [engineCommands]

/-! ## PIPE_START and its exchange (R245) -/

/-- A record that passes and whose kind makes an exchange with peers first is left waiting with it (R245, R355). -/
theorem issue_of_asks {sp : CmdSpec} {ref : QRef} {s t : State} {j : Job} {q : Queue} {l : ListRef} {r : Nat} (p : Passes sp ref s j q l r)
    (asks : sp.exchange (fetched s j q (sp.whole s r)) (j.setQueue (taken q (sp.whole s r))) (taken q (sp.whole s r))
      { record := sp.whole s r } = some t) : issue sp ref s = t := by
  have ref_eq := Job.queue?_ref p.head.queue
  have awake : dieHeld (fetched s j q (sp.whole s r)) (engDie (taken q (sp.whole s r)).ref) = false := by simpa [ref_eq] using p.head.awake
  have goes := stays_eq_false (sp := sp) (s := fetched s j q (sp.whole s r)) (j := j.setQueue (taken q (sp.whole s r)))
    (q := taken q (sp.whole s r)) (by simpa using p.head.moves) awake (by simpa using p.wait) (by simpa using p.fence) p.head.held.1 p.ready
  have gate : gateOf (j.setQueue (taken q (sp.whole s r))) (sp.whole s r) = none := by simpa using p.gate
  have late : firstFail (sp.late (fetched s j q (sp.whole s r)) (j.setQueue (taken q (sp.whole s r))) (taken q (sp.whole s r)) (sp.whole s r))
    7 2 = none := p.late
  rw [issue_of_passes p]
  simp [tryStart, p.head.awake, ref_eq, goes, gate, late, asks]

/-- PIPE_START with remote edges asks their peers. -/
theorem pipeExchange_of_remote {s : State} {j : Job} {q : Queue} {w : Nat} (remote : ∃ e ∈ j.strand.edges, gRemote e.desc = true) :
    pipeExchange s j q { record := w } = some ((j.strand.edges.filter (fun e => gRemote e.desc)).foldl (fun s e =>
      s.send (j.alias? e.peerMod) (.openingNotice (openMsg s j e false))) (s.updJob j.id (fun k =>
        ({ k with strand := { k.strand with edges := k.strand.edges.map (fun (e : Edge) => { e with answer := none }) } } : Job).setQueue
          { q with cur := some { record := w, begun := true } }))) := by
  have far : (j.strand.edges.filter (fun e => gRemote e.desc)).isEmpty = false := by
    obtain ⟨e, mem, there⟩ := remote
    exact List.isEmpty_eq_false_iff_exists_mem.2 ⟨e, List.mem_filter.2 ⟨mem, there⟩⟩
  simp only [pipeExchange, far, Bool.false_eq_true, if_false]

theorem pipeStart_asks {ref : QRef} {s : State} {j : Job} {q : Queue} {l : ListRef} {r : Nat} (p : Passes pipeSpec ref s j q l r)
    (remote : ∃ e ∈ j.strand.edges, gRemote e.desc = true) :
    let w := pipeSpec.whole s r
    let u := (fetched s j q w).updJob j.id (fun k =>
      ({ k with strand := { k.strand with edges := k.strand.edges.map (fun (e : Edge) => { e with answer := none }) } } : Job).setQueue
        { q with cur := some { record := w, begun := true } })
    exec (.pipeStart ref) s = .next (settle s ((j.strand.edges.filter (fun e => gRemote e.desc)).foldl (fun s e =>
      s.send (j.alias? e.peerMod) (.openingNotice (openMsg s (j.setQueue (taken q w)) e false))) u)) := by
  intro w u
  have asks := pipeExchange_of_remote (s := fetched s j q w) (j := j.setQueue (taken q w)) (q := taken q w) (w := w) remote
  rw [exec_engineCommand (ref := ref) s (.pipeStart ref, pipeSpec) (by simp [engineCommands]), issue_of_asks p asks, done_eq]
  rfl

/-! ## FEED_POST (R240, R359) -/

section
variable {u : State} {k : Job} {e : Edge} {t : Stage} {jid slot : Nat} (job : u.job? jid = some k) (edge : k.edge? slot = some e)
  (stage : k.stageNamed (gDnStage e.desc) = some t)
include job edge stage

/-- An entry without a mirror arrives at once, once its copy is in the replay buffer. -/
theorem feedOne_of_plain (plain : mirrored k e = false) :
    let n := k.strand.pipe.mb e.feedNext
    let at_ := State.replayAt k.strand.pipe e.desc (feedEntryBytes e.desc t.tileCount) e.feedNext
    let v := if gReplayDepth e.desc = 0 then u else u.store at_ (u.feedBytes e.desc t n)
    feedOne u jid slot = some ((v.arriveFeed jid e t n).updEdge jid slot (fun e => { e with feedNext := e.feedNext + 1 }), []) := by
  simp only [feedOne, job, edge, stage, plain, Bool.false_eq_true, if_false]

/-- A mirrored one is sent to the buddy, and is still to arrive. -/
theorem feedOne_of_mirrored (mirror : mirrored k e = true) :
    let n := k.strand.pipe.mb e.feedNext
    let b := u.feedBytes e.desc t n
    let at_ := State.replayAt k.strand.pipe e.desc (feedEntryBytes e.desc t.tileCount) e.feedNext
    let v := if gReplayDepth e.desc = 0 then u else u.store at_ b
    feedOne u jid slot = (v.sendCopy k (State.normClass k (buddyOf k)) (buddyOf k) (fun _ => Config.mirrorWord)
      (.feedMirror v.mod.id jid (at_ - gReplayAddr e.desc) b) b).map (fun x =>
        (x.updEdge jid slot (fun e => { e with feedNext := e.feedNext + 1 }), [n])) := by
  simp only [feedOne, job, edge, stage, mirror, if_true]

end

theorem feedStart_eq (s : State) (j : Job) (q : Queue) (r : Nat) (f : Flight) : feedStart s j q r f =
    if feedNoop j r = true then ⟨s, f, true⟩
    else
      let u := feedMany j.id (bits r 128 6) (bits r 192 6) s
      let f := if u.2.2 = true then f else { f with res := { code := eLinkDown, poison := true } }
      if u.2.1 = [] then ⟨u.1, f, true⟩ else ⟨u.1, { f with op := .feed (bits r 128 6) u.2.1 (buddyOf j) }, false⟩ := by
  unfold feedStart
  simp only [List.isEmpty_iff]

/-! ## REDUCE and GATHER (R256-R260, R272, R273) -/

/-- The bucket that a REDUCE opens. -/
def reduceBucket (s : State) (ref : QRef) (r : Nat) (g : RGroup) : Bucket :=
  let x := reduceArgs r
  let k : Int := if x.wire = 3 then scaleOf s x.ksrc x.slot (sbits r 352 8) else 0
  let b : Bucket := { tag := x.tag, gather := false, record := r, queue := ref, group := x.group, epoch := x.epoch
                      use := 0, k := k, dst := x.dst }
  { b with
    partDue := partialsDue b g, closeDue := if x.ksrc then closesDue g else 0,
    resDue := if x.ar && !(g.tree && g.self == 0) then (resultSeq b g).length else 0 }

theorem reduceBucket_resDue (s : State) (ref : QRef) (r : Nat) (g : RGroup) : (reduceBucket s ref r g).resDue =
    if (reduceArgs r).ar = true ∧ ¬ (g.tree = true ∧ g.self = 0) then (resultSeq (reduceBucket s ref r g) g).length else 0 := by
  have cond : ((reduceArgs r).ar && !(g.tree && g.self == 0)) = true ↔ (reduceArgs r).ar = true ∧ ¬ (g.tree = true ∧ g.self = 0) := by
    rw [Bool.and_eq_true, Bool.not_eq_true', ← Bool.not_eq_true, Bool.and_eq_true, beq_iff_eq]
  exact if_congr cond rfl rfl

/-- The packets that a REDUCE sends at its start. -/
def reduceOwn (j : Job) (g : RGroup) (s : State) (b : Bucket) : State × Bucket :=
  if !g.tree then (packetsOf b g g.prev).foldl (fun acc pl => acc.1.sendPartial j g acc.2 g.next pl []) (s, b)
  else if (g.kids g.self).isEmpty then (packetsOf b g 0).foldl (fun acc pl => acc.1.sendPartial j g acc.2 g.parent pl []) (s, b)
  else (s, b)

theorem reduceStart_of_group {s : State} {j : Job} {q : Queue} {r : Nat} {g : RGroup} (group : j.rgroup? (reduceArgs r).group = some g)
    (f : Flight) : reduceStart s j q r f =
      ⟨s.openBucket j (reduceBucket s q.ref r g) g (reduceOwn j g), { f with op := .bucket (reduceArgs r).tag }, false⟩ := by
  unfold reduceStart
  simp only [group]
  rfl

/-- The bucket that a GATHER opens. -/
def gatherBucket (j : Job) (ref : QRef) (r : Nat) (g : RGroup) : Bucket :=
  let x := gatherArgs r
  let slot := if x.verSel then ((j.stage? x.local_).map (·.next)).getD 0 else 0
  let b : Bucket := { tag := x.tag, gather := true, record := r, queue := ref, group := x.group, epoch := x.epoch
                      use := 0, dst := x.dst + x.pitch * slot }
  { b with
    partDue := if g.tree then ((g.kids g.self).map (fun c => (childSeq b g c).length)).sum else 0
    resDue := if g.tree && g.self == 0 then 0 else (resultSeq b g).length }

theorem gatherBucket_resDue (j : Job) (ref : QRef) (r : Nat) (g : RGroup) : (gatherBucket j ref r g).resDue =
    if g.tree = true ∧ g.self = 0 then 0 else (resultSeq (gatherBucket j ref r g) g).length := by
  have cond : (g.tree && g.self == 0) = true ↔ g.tree = true ∧ g.self = 0 := by simp
  exact if_congr cond rfl rfl

theorem gatherStart_of_group {s : State} {j : Job} {q : Queue} {r : Nat} {g : RGroup} (group : j.rgroup? (gatherArgs r).group = some g)
    (f : Flight) : ∃ own, gatherStart s j q r f =
      ⟨s.openBucket j (gatherBucket j q.ref r g) g own, { f with op := .bucket (gatherArgs r).tag }, false⟩ := by
  unfold gatherStart
  simp only [group]
  exact ⟨_, rfl⟩

/-! ## LOCKET_SEAL and TANDEM (R357) -/

theorem sealStart_eq (s : State) (j : Job) (q : Queue) (r : Nat) (f : Flight) : sealStart s j q r f =
    let buddy := j.alias? (lBuddy j.locket.desc)
    let skip := decide (j.numerics.gate = .skip)
    let b := { blockOf s j (bits r 128 32) with copied := if skip = true then 0 else j.locket.ranges.length }
    let u := s.updLocket j.id (fun l => { l with ranges := [], gatherBad := false })
    if j.numerics.gate = .hold then ⟨u, { f with res := { code := ePoison, poison := true } }, true⟩
    else if s.canReach buddy = false then ⟨u, { f with res := { code := eLinkDown, poison := true } }, true⟩
    else ⟨(u.updLocket j.id (fun l => { l with
        sealing := some { queue := q.ref, step := bits r 128 32, skip := skip, block := b,
                          ranges := if skip = true then j.locket.lastRanges else j.locket.ranges } })).send buddy
        (.stateBlock (.block s.mod.id j.id skip b)), { f with op := .seal }, false⟩ := by
  unfold sealStart
  simp only [Bool.not_eq_true']
  rfl

theorem tandemStart_eq (s : State) (j : Job) (q : Queue) (r : Nat) (f : Flight) : tandemStart s j q r f =
    if j.locket.tandems = [] then ⟨s, f, true⟩
    else if s.canReach (j.alias? (lPartner j.locket.desc)) = false then ⟨s, { f with res := { code := eLinkDown } }, true⟩
    else ⟨askFingerprint (s.updLocket j.id (fun l => { l with tandem := some { queue := q.ref, entry := 0 } })) j 0,
      { f with op := .tandem }, false⟩ := by
  unfold tandemStart
  simp only [Bool.not_eq_true', List.isEmpty_iff]

/-! ## O40 -/

theorem repointStart_of_edge {s : State} {j : Job} {q : Queue} {r : Nat} {e : Edge} (edge : j.edge? (bits r 128 6) = some e) (f : Flight) :
    repointStart s j q r f =
      ⟨(s.updEdge j.id (bits r 128 6) (fun e => { e with peerMod := bits r 136 8, answer := none })).send (j.alias? (bits r 136 8))
          (.openingNotice (openMsg (s.updEdge j.id (bits r 128 6) (fun e => { e with peerMod := bits r 136 8, answer := none })) j e false)),
        { f with op := .edgeOpen (bits r 128 6) }, false⟩ := by
  simp only [repointStart, repointEdge, edge]

/-- Settles O40: each kind's start, by `StartsNow.exec_eq`. -/
theorem engineCommandStarts : Obligations.EngineCommandStarts := by
  unfold Obligations.EngineCommandStarts
  refine ⟨fun ref s j q l r p command _ starts => exec_of_startsNow command starts, fun ref s j q l r => ?_, fun ref s j q l r => ?_⟩
  · intro starts strand
    have command := mem_engineCommands_strand ref
    refine ⟨?_, ?_, ?_, pipeStart_asks, ?_, ?_, ?_, ?_, ?_, ?_⟩
    · exact fun h => h.exec_eq (command _ (by simp)) (by decide) rfl
    · exact fun h => h.exec_eq (command _ (by simp)) (by decide) rfl
    · exact fun h => h.exec_eq (command _ (by simp)) (by decide) rfl
    · exact fun h => h.exec_eq (command _ (by simp)) (by decide) (feedStart_eq _ _ (taken q (feedSpec.whole s r)) _ _)
    · intro u k e t slot job edge stage
      refine ⟨fun plain => feedOne_of_plain job edge stage ?_, fun depth bound mirror => feedOne_of_mirrored job edge stage ?_⟩
      · rcases plain with h | h | h <;> simp [mirrored, h]
      · simp [mirrored, depth, bound, mirror]
    · exact fun h => h.exec_eq (command _ (by simp)) (by decide) rfl
    · exact fun e edge h => h.exec_eq (command _ (by simp)) (by decide) (repointStart_of_edge
        (j := j.setQueue (taken q (repointSpec.whole s r))) (q := taken q (repointSpec.whole s r)) edge _)
    · exact fun h => h.exec_eq (command _ (by simp)) (by decide) rfl
    · exact fun h => h.exec_eq (command _ (by simp)) (by decide) rfl
  · intro starts
    have command := mem_engineCommands_strand ref
    refine ⟨?_, ?_, ?_, ?_, ?_, ?_, ?_⟩
    · exact fun h => h.exec_eq (command _ (by simp)) (by decide) rfl
    · exact fun h => h.exec_eq (command _ (by simp)) (by decide) rfl
    · intro g group h w x u k
      refine ⟨reduceBucket u q.ref w g, reduceOwn k g, rfl, rfl, rfl, rfl, rfl, rfl, rfl, rfl, rfl, rfl, reduceBucket_resDue .., ?_, ?_, ?_,
        h.exec_eq (command _ (by simp)) (by decide) (reduceStart_of_group (j := k) (q := taken q w) group _)⟩
      · intro tree leaf
        funext v b
        simp [reduceOwn, tree, leaf]
      · intro tree inner
        funext v b
        simp [reduceOwn, tree, inner]
      · intro ring
        funext v b
        simp [reduceOwn, ring]
    · intro g group h w x u
      obtain ⟨own, start⟩ := gatherStart_of_group (s := u) (j := j.setQueue (taken q w)) (q := taken q w) group (newFlight (taken q w) w)
      refine ⟨gatherBucket (j.setQueue (taken q w)) q.ref w g, own, rfl, rfl, rfl, rfl, rfl, rfl, rfl, rfl, gatherBucket_resDue ..,
        h.exec_eq (command _ (by simp)) (by decide) start⟩
    · exact fun h => h.exec_eq (command _ (by simp)) (by decide) rfl
    · exact fun h => h.exec_eq (command _ (by simp)) (by decide) (sealStart_eq _ _ (taken q (sealSpec.whole s r)) _ _)
    · exact fun h => h.exec_eq (command _ (by simp)) (by decide) (tandemStart_eq _ _ (taken q (tandemSpec.whole s r)) (tandemSpec.whole s r) _)

end Sys2Proof.Machine
end

section
/-! SUPPORT. What a WSTREAM's start may do to a counter (R193, R201, R236). -/
namespace Sys2Proof.Machine

/-! ## A slot that is HELD with nothing that holds it (R201, R234, R236) -/

/-- A WSTREAM goes on after its start. -/
theorem startOf_wstream_instant (s : State) (j : Job) (q : Queue) (r : Nat) : (startOf wsSpec s j q r).instant = false := by
  unfold startOf atStart begin
  split <;> rfl

/-- WSTREAM of one pass under VER_MODE 2, whose descriptor lies 256 bytes into the host window, LAST (R192). -/
def heldSlotRecord : Nat :=
  0x48 + place 15 1 1 + place 96 16 1 + place 128 48 (State.hostBase + 0x100) + place 208 16 1 + place 224 2 2

/-- A stream to tile 3: one chunk of 64 bytes, versions 64 bytes apart, counters 3 and 4 (R191). -/
def heldSlotDesc : Nat :=
  place 0 48 0x4000 + place 192 40 64 + place 256 16 1 + place 272 16 1 + place 320 8 3 + place 328 7 1 + place 336 12 3 + place 352 12 4

/-- The record heads the Mover's queue, in a list of the item F(0) of stage 0, slot 0. -/
def heldSlotList : ListRef := { addr := State.hostBase, count := 1, id := 7, item := some { stage := 0, kind := .f, n := 0, slot := 0 } }

def heldSlotQueue : Queue :=
  { ref := ⟨engMover, 0, 0⟩, ringLog2 := 0, ringAddr := State.hostBase + 0x1000, headAddr := State.hostBase + 0x2000, lists := [heldSlotList] }

/-- Micro-batch 0 is bound to slot 0, CURRENT; slot 1 is HELD, with no count and no pin. VER_CTR is counter 2. -/
def heldSlotStage : Stage :=
  { idx := 0, stageId := 5, group := 0, chunk := 0, exit := true, warmup := 0, wLimit := 1, idle := 0, mbSlots := 1, verCtr := 2
    optGroups := 0, optCtr := 0, tileFirst := 3, tileCount := 2, statusAddr := 0, sets := List.replicate 4 []
    slots := [{ st := .current, num := 9, count := 1 }, { st := .held, num := 8 }], binds := [(0, 0)], held := [0] }

def heldSlotJob : Job :=
  { id := 1, cls := 1, rank := 1, admin := true, lead := 2, deputy := 2, ctrBase := 0, ctrCount := 64, parkAddr := 0x100000
    slowBytes := 0, st := .running, extents := [(0, 32)], routes := [], queues := [heldSlotQueue], numerics := { slotBase := 0, slotCount := 16 }
    strand := { stages := [heldSlotStage] } }

/-- Module 2 in RUN with that job. -/
def heldSlotState : State :=
  { mod := { st := .run, id := 2, mainOn := true, hostUp := true }, jobs := [heldSlotJob], running := some 1
    lp := { pools := [⟨none, 1⟩] }
    mem := (Memory.write [] State.hostBase (leBytes 64 heldSlotRecord)).write (State.hostBase + 0x100) (leBytes 64 heldSlotDesc) }

theorem heldSlot_atHead : AtHead ⟨engMover, 0, 0⟩ heldSlotState heldSlotJob heldSlotQueue heldSlotList heldSlotRecord where
  job := rfl
  queue := rfl
  list := rfl
  record := by decide +kernel
  moves := by decide +kernel
  awake := by decide +kernel
  free := by decide +kernel
  turn := by decide +kernel

/-- Its record starts. -/
theorem heldSlot_startsNow : StartsNow wsSpec ⟨engMover, 0, 0⟩ heldSlotState heldSlotJob heldSlotQueue heldSlotList heldSlotRecord where
  passes :=
    { head := heldSlot_atHead
      kind := by decide +kernel
      known := by decide +kernel
      fetch := rfl
      checks := by decide +kernel
      alone := by decide +kernel
      wait := by decide +kernel
      fence := fun _ => rfl
      ready := by decide +kernel
      gate := by decide +kernel
      late := by decide +kernel }
  alone := rfl

/-- The state that it leaves. -/
def heldSlotAfter : State :=
  settle heldSlotState (launch (fetched heldSlotState heldSlotJob heldSlotQueue (wsSpec.whole heldSlotState heldSlotRecord)) 1 ⟨engMover, 0, 0⟩
    (startOf wsSpec heldSlotState heldSlotJob heldSlotQueue heldSlotRecord))

/-- With the stream's hold, slot 1 retires, and VER_CTR advances. -/
theorem heldSlotAfter_ctrs : heldSlotAfter.ctrs ≠ heldSlotState.ctrs := by decide +kernel

/-- Refutes O41: a WSTREAM under VER_MODE 2 takes a hold on its version slot, and with a change of a stage's slots one that is HELD with nothing
that holds it retires (R236), which advances VER_CTR. -/
theorem not_tileAndMoverStartsWriteNothing : ¬ Obligations.TileAndMoverStartsWriteNothing := by
  unfold Obligations.TileAndMoverStartsWriteNothing
  intro h
  obtain ⟨t, k, p', e, -, -, -, -, -, -, -, ctrs, -⟩ := h ⟨engMover, 0, 0⟩ heldSlotState heldSlotJob heldSlotQueue heldSlotList heldSlotRecord
    (.wstream ⟨engMover, 0, 0⟩, wsSpec) (by simp) heldSlot_startsNow (startOf_wstream_instant ..)
  have next : exec (.wstream ⟨engMover, 0, 0⟩) heldSlotState = .next heldSlotAfter :=
    exec_of_startsNow (p := (.wstream ⟨engMover, 0, 0⟩, wsSpec)) (by simp [engineCommands]) heldSlot_startsNow
  obtain rfl : heldSlotAfter = t := by rw [next] at e; exact Host.Outcome.next.inj e
  exact heldSlotAfter_ctrs ctrs

end Sys2Proof.Machine
end

section
/-! SUPPORT. The MSS: sensors, effecters and margining runs (R188, R308, R374-R427). -/
namespace Sys2Proof.Machine

theorem onMss_of_on {s : State} (on : s.mod.st ≠ .off) (f : State → State) : onMss f s = f s := if_neg on

/-- What the MSS does while it runs. -/
theorem done_onMss {s : State} (on : s.mod.st ≠ .off) (f : State → State) : done s (onMss f s) = .next (settle s (f s)) := by
  rw [onMss_of_on on, done_eq]

/-- A command that leaves BAR0's registers raises no vector. -/
theorem settle_out_of_bar {s t : State} (bar : t.bar = s.bar) : (settle s t).out = t.out := by
  simp [settle, bar]

/-- A write that the MSS refuses (R71, R410). -/
theorem State.refuseWrite_eq (s : State) (answer : Int) (code : Nat) : s.refuseWrite answer code = { s with
    out := s.out ++ [.pldm 3 [answer]]
    mss := { s.mss with logQ := s.mss.logQ ++ [⟨s.now, code, 7, 0, 0, 0, 0⟩] }
    bar := { s.bar with lastError := ⟨code, 7, 0, 0⟩ } } := rfl

/-! ## Sensors (R409) -/

section
variable {s : State} {id : Nat}

/-- A reading that the state has; a peak acceleration starts again once it is read. -/
theorem readSensor_of_some {v : Int} (value : sensorValue s id = some (some v)) (kept : id < 0x233 ∨ 0x235 < id) :
    readSensor id s = { s with out := s.out ++ [.pldm 2 [id, v]] } := by
  have other : ¬ (0x233 ≤ id ∧ id ≤ 0x235) := by omega
  simp only [readSensor, value, if_neg other]
  rfl

theorem readSensor_of_none (value : sensorValue s id = none) : readSensor id s = { s with out := s.out ++ [.pldm 3 [0x80]] } := by
  simp only [readSensor, value]
  rfl

/-- A reading that only the part knows is a free value. -/
theorem readSensor_of_free (value : sensorValue s id = some none) : ∃ sensors, readSensor id s =
    { s with free := s.free + 1, mss := { s.mss with sensors := sensors }
             out := s.out ++ [.pldm 2 [id, (Config.freeNat s.free : Nat)]] } := by
  simp only [readSensor, value]
  split <;> exact ⟨_, rfl⟩

end

/-! ## Effecters (R374, R384, R388, R410, R412) -/

theorem writeCap_eq (s : State) (v : Nat) : writeCap v s =
    if v < 1200 ∨ 2400 < v ∨ v % 10 ≠ 0 then s.refuseWrite pldmInvalidData eField
    else if gearOverCap s.pwr.table v then s.refuseWrite pldmError eCap
    else { s with pwr := { s.pwr with cap := v }, out := s.out ++ [.pldm 3 [0]] } := rfl

theorem endTestHold_of_free {s : State} (margin : s.mss.margin = none) (req : s.pwr.pedalReq = false) :
    s.endTestHold = s.pedalEnd pedalOnTest := by
  simp [State.endTestHold, margin, req]

/-- A first request of the pedal begins the test situation. -/
theorem writePedal_one {s : State} (req : s.pwr.pedalReq = false) (margin : s.mss.margin = none) : writePedal 1 s =
    (({ s with pwr := { s.pwr with pedalReq := true } } : State).pedalStart 1 (s.running.getD 0)).emit (.pldm 3 [0]) := by
  simp [writePedal, req, margin, State.answer, pedalOnTest, pldmOk]

/-- The end of the request ends it, where no run is on. -/
theorem writePedal_zero {s : State} (margin : s.mss.margin = none) : writePedal 0 s = { s with
    pwr := { s.pwr with pedalReq := false, pedals := s.pwr.pedals.filter (fun p => p.bit != 1) }, out := s.out ++ [.pldm 3 [0]] } := by
  have hold := endTestHold_of_free (s := { s with pwr := { s.pwr with pedalReq := false } }) margin rfl
  simp [writePedal, hold, State.answer, State.emit, State.pedalEnd, pedalOnTest, pldmOk]

/-- Settles O35: each sensor read and effecter write, case by case. -/
theorem sensorsAndEffecters : Obligations.SensorsAndEffecters := by
  unfold Obligations.SensorsAndEffecters
  intro s on
  have next {t : State} (f : State → State) (e : f s = t) : done s (onMss f s) = .next (settle s t) := by rw [done_onMss on, e]
  refine ⟨fun id v value kept => next _ (readSensor_of_some value kept), fun id value => ?_,
    fun id value => next _ (readSensor_of_none value), ?_⟩
  · obtain ⟨sensors, e⟩ := readSensor_of_free value
    exact ⟨_, _, next _ e, settle_out_of_bar rfl, rfl, rfl, rfl, rfl⟩
  intro bad
  refine ⟨?_, ?_, ?_, ?_, ?_, ?_, ?_, ?_, ?_⟩
  · intro v low high step under
    have fits : ¬ (v < 1200 ∨ 2400 < v ∨ v % 10 ≠ 0) := by omega
    exact next (writeCap v) (by rw [writeCap_eq, if_neg fits, under]; rfl)
  · intro v out
    exact next (writeCap v) (by rw [writeCap_eq, if_pos out]; rfl)
  · intro v low high step over_
    have fits : ¬ (v < 1200 ∨ 2400 < v ∨ v % 10 ≠ 0) := by omega
    exact next (writeCap v) (by rw [writeCap_eq, if_neg fits, over_]; rfl)
  · intro v le
    exact next (writeStandby v) (if_neg (by omega))
  · intro req margin
    exact next (writePedal 1) (writePedal_one req margin)
  · intro margin
    exact next (writePedal 0) (writePedal_zero margin)
  · intro v lt
    exact next (writeDate v) (if_neg (by omega))
  · intro v big
    exact ⟨next (writeStandby v) (if_pos big), next (writePedal v) (if_pos big), next (writeEject v) (if_neg (by omega))⟩
  · intro v big
    exact next (writeDate v) (if_pos big)

/-! ## Margining runs (R188, R308, R424-R427) -/

theorem pedalStart_eq (s : State) (bit job : Nat) : ∃ pedals, s.pedalStart bit job = { s with pwr := { s.pwr with pedals := pedals } } := by
  unfold State.pedalStart
  dsimp only
  split
  · exact ⟨_, rfl⟩
  · exact ⟨_, rfl⟩

theorem endTestHold_eq (s : State) : ∃ pedals, s.endTestHold = { s with pwr := { s.pwr with pedals := pedals } } := by
  unfold State.endTestHold
  split
  · exact ⟨_, rfl⟩
  · exact ⟨_, rfl⟩

section
variable {s : State} {v : Nat}

theorem startMargin_of_bad (bad : marginBad v = true) : startMargin v s = s.refuseWrite pldmInvalidData eField := if_pos bad

theorem startMargin_of_unfit (good : marginBad v = false) (unfit : marginFits s v = false) :
    startMargin v s = s.refuseWrite pldmError eState := by
  simp [startMargin, good, unfit]

/-- The run begun, and the contents of the channels under test gone. -/
def State.marginBegun (s : State) (v : Nat) : State :=
  let u : State := { s with mss := { s.mss with margin := some { target := mgTarget v, inst := mgInst v, stress := mgStress v } } }
  if mgTarget v = 0 then u.wipeChannels (u.marginChannels (mgInst v)) else u

/-- A run without stress: begun, with a pedal hold unless one is asked for, and answered. -/
theorem startMargin_of_fits (good : marginBad v = false) (fits : marginFits s v = true) (calm : mgStress v = false) : ∃ pedals,
    startMargin v s = { s.marginBegun v with pwr := { s.pwr with pedals := pedals }, out := s.out ++ [.pldm 3 [0]] } ∧
    (s.pwr.pedalReq = true → pedals = s.pwr.pedals) := by
  have kept : (s.marginBegun v).pwr = s.pwr ∧ (s.marginBegun v).out = s.out := by unfold State.marginBegun; split <;> exact ⟨rfl, rfl⟩
  obtain ⟨pwr, out⟩ := kept
  have start : startMargin v s = (if !s.pwr.pedalReq then (s.marginBegun v).pedalStart pedalOnTest ((s.marginBegun v).running.getD 0)
      else s.marginBegun v).emit (.pldm 3 [0]) := by
    rw [startMargin, if_neg (by simp [good]), if_neg (by simp [fits])]
    exact congrArg (fun t => State.answer t pldmOk) (if_neg (by simp [calm]))
  cases req : s.pwr.pedalReq with
  | true =>
    refine ⟨s.pwr.pedals, ?_, fun _ => rfl⟩
    rw [start, req, ← pwr, ← out]
    rfl
  | false =>
    obtain ⟨pedals, held⟩ := pedalStart_eq (s.marginBegun v) pedalOnTest ((s.marginBegun v).running.getD 0)
    refine ⟨pedals, ?_, fun h => absurd h Bool.false_ne_true⟩
    rw [start, req, ← pwr, ← out]
    exact congrArg (fun t => State.emit t (.pldm 3 [0])) held

end

/-! ## The end of a run -/

theorem cycleLanes_eq (s : State) (l : Nat) : ∃ links, s.cycleLanes l = { s with links := links } := by
  unfold State.cycleLanes
  split
  · exact ⟨_, rfl⟩
  · exact ⟨_, rfl⟩

theorem foldl_cycleLanes_eq (s : State) (ls : List Nat) : ∃ links, ls.foldl State.cycleLanes s = { s with links := links } := by
  induction ls generalizing s with
  | nil => exact ⟨s.links, rfl⟩
  | cons l ls ih =>
    obtain ⟨links, e⟩ := cycleLanes_eq s l
    obtain ⟨links', e'⟩ := ih { s with links := links }
    exact ⟨links', by rw [List.foldl_cons, e, e']⟩

/-- A measurement that passes leads to nothing. -/
theorem foldl_actOnMargin_of_pass (s : State) (rs : List MarginRec) (pass : ∀ r ∈ rs, marginResult r = 0) : rs.foldl actOnMargin s = s := by
  induction rs with
  | nil => rfl
  | cons r rs ih =>
    have first : actOnMargin s r = s := by simp only [actOnMargin, pass r List.mem_cons_self]
    rw [List.foldl_cons, first]
    exact ih (fun x hx => pass x (List.mem_cons_of_mem r hx))

theorem writeCache_eq (s : State) (full : Bool) (recs : List Nat) : ∃ n flash, s.writeCache full recs =
    { s with free := n, mss := { s.mss with flash := flash, cacheHalf := 1 - s.mss.cacheHalf % 2 } } := by
  unfold State.writeCache
  cases full with
  | true => exact ⟨_, _, rfl⟩
  | false =>
    cases e : s.cacheHalf? (1 - (1 - s.mss.cacheHalf % 2)) with
    | none =>
      simp only [Bool.false_eq_true, if_false, e]
      exact ⟨_, _, rfl⟩
    | some x =>
      simp only [Bool.false_eq_true, if_false, e]
      exact ⟨_, _, rfl⟩

/-- Without jobs nothing is lost with a port. -/
theorem linkLoss_of_noJobs {a b : State} (none : b.jobs = []) : linkLoss a b = b := by rw [linkLoss, none, List.foldl_nil]

/-- The memory of a run's channels written with zeros, of the other targets' runs as it was. -/
def State.marginZeroed (s : State) (g i : Nat) : State := if g = 0 then s.zeroChannels (s.marginChannels i) else s

/-- What ends a run once its channels are written: log entry, training cache, report, hold. -/
def State.marginReported (s : State) (recs : List MarginRec) : State :=
  let s := (s.logAt 0 7 0 0 6 0).writeCache false (recs.map cacheResult)
  let s := s.emit (.mctp (BitVec.ofNat 8 mctpVendor :: recs.flatMap (fun r => leBytes 16 (marginRecord r))))
  ({ s with mss := { s.mss with margin := none } } : State).endTestHold

theorem marginReported_eq (s : State) (recs : List MarginRec) : ∃ n flash pedals, s.marginReported recs = { s with
    free := n, pwr := { s.pwr with pedals := pedals }
    mss := { s.mss with margin := none, flash := flash, cacheHalf := 1 - s.mss.cacheHalf % 2
                        logQ := s.mss.logQ ++ [⟨s.now, 0, 7, 0, 0, 6, 0⟩] }
    out := s.out ++ [.mctp (0x7E :: recs.flatMap (fun r => leBytes 16 (marginRecord r)))] } := by
  obtain ⟨n, flash, cached⟩ := writeCache_eq (s.logAt 0 7 0 0 6 0) false (recs.map cacheResult)
  unfold State.marginReported
  rw [cached]
  obtain ⟨pedals, held⟩ := endTestHold_eq _
  exact ⟨n, flash, pedals, held⟩

theorem marginDone_of_pass {s : State} {recs : List MarginRec} {g i : Nat} (run : s.mss.margin = some ⟨g, i, false⟩)
    (pass : ∀ r ∈ recs, r.kind ∈ kindsOf g ∧ marginResult r = 0) (refused : List Nat) : ∃ links,
    marginDone recs refused s = ({ s.marginZeroed g i with links := links } : State).marginReported recs := by
  have all : recs.filter (fun r => (kindsOf g).contains r.kind) = recs := List.filter_eq_self.2 (fun r hr => by simpa using (pass r hr).1)
  obtain ⟨links, cycled⟩ : ∃ links, (if g = 1 then (marginLinks i).foldl State.cycleLanes s else s) = { s with links := links } := by
    split
    · exact foldl_cycleLanes_eq s (marginLinks i)
    · exact ⟨s.links, rfl⟩
  have zeroed (u : State) (e : u = { s with links := links }) :
      (if g = 0 then u.zeroChannels (u.marginChannels i) else u) = { s.marginZeroed g i with links := links } := by
    subst e
    unfold State.marginZeroed
    split <;> rfl
  refine ⟨links, ?_⟩
  simp only [marginDone, run, all, Bool.false_eq_true, if_false]
  exact congrArg (fun u => State.marginReported u recs)
    (zeroed _ ((foldl_actOnMargin_of_pass _ recs (fun r hr => (pass r hr).2)).trans cycled))

theorem marginZeroed_of_memory {s : State} {g i : Nat} (memory : g = 0) : s.marginZeroed g i = s.zeroChannels (s.marginChannels i) :=
  if_pos memory

theorem marginZeroed_of_links {s : State} {g i : Nat} (other : g ≠ 0) : s.marginZeroed g i = s := if_neg other

theorem marginZeroed_rest (s : State) (g i : Nat) : (s.marginZeroed g i).mss = s.mss ∧ (s.marginZeroed g i).out = s.out ∧
    (s.marginZeroed g i).now = s.now ∧ (s.marginZeroed g i).jobs = s.jobs ∧ (s.marginZeroed g i).bar = s.bar := by
  unfold State.marginZeroed
  split <;> exact ⟨rfl, rfl, rfl, rfl, rfl⟩

/-! ## O36 -/

theorem stressAsked_of_quiet {s : State} {src n : Nat} (lt : n < 36)
    (quiet : (s.port n).st = .up ∧ (s.port n).peerMod = src ∧ portQuiet s n = true) :
    stressAsked src n s = (s.setPort n { s.port n with stress := true }).emit (.pldm 3 [0]) := by
  obtain ⟨up, peer, quiet⟩ := quiet
  exact if_pos (by simp [lt, up, peer, quiet])

theorem stressAsked_of_busy {s : State} {src n : Nat}
    (busy : ¬ ((s.port n).st = .up ∧ (s.port n).peerMod = src ∧ portQuiet s n = true)) :
    stressAsked src n s = (s.log 0x2001 7 n 0).emit (.pldm 3 [1]) := by
  refine if_neg (fun h => busy ?_)
  simp only [Bool.and_eq_true, decide_eq_true_eq, beq_iff_eq] at h
  obtain ⟨⟨⟨up, peer⟩, -⟩, quiet⟩ := h
  exact ⟨up, peer, quiet⟩

/-- The three margining commands are one. -/
theorem exec_margin {s : State} (on : s.mod.st ≠ .off) {v : Word32} {c : Instr}
    (command : c = .marginMemory v ∨ c = .marginDieLinks v ∨ c = .marginSpoke v) : exec c s = .next (settle s (startMargin v.toNat s)) := by
  rcases command with rfl | rfl | rfl <;> exact done_onMss on _

/-- What the begun run leaves, and for memory the free value of its channels. -/
theorem marginBegun_rest (s : State) (v : Nat) : (s.marginBegun v).jobs = s.jobs ∧ (s.marginBegun v).mod = s.mod ∧
    (s.marginBegun v).bar = s.bar ∧ (s.marginBegun v).pwr = s.pwr ∧
    (s.marginBegun v).mss.margin = some { target := mgTarget v, inst := mgInst v, stress := mgStress v } := by
  unfold State.marginBegun
  split <;> exact ⟨rfl, rfl, rfl, rfl, rfl⟩

theorem marginBegun_of_links {s : State} {v : Nat} (other : mgTarget v ≠ 0) :
    (s.marginBegun v).mem = s.mem ∧ (s.marginBegun v).marks = s.marks ∧ (s.marginBegun v).lp = s.lp := by
  unfold State.marginBegun
  rw [if_neg other]
  exact ⟨rfl, rfl, rfl⟩

theorem marginBegun_of_memory {s : State} {v c : Nat} (memory : mgTarget v = 0) (mem : c ∈ s.marginChannels (mgInst v)) :
    (c, s.free) ∈ (s.marginBegun v).lp.wiped := by
  unfold State.marginBegun
  rw [if_pos memory]
  exact List.mem_append_right _ (List.mem_map_of_mem mem)

/-- Settles O36: the start of a run, the stress request, and the end of a run without failures. -/
theorem marginRuns : Obligations.MarginRuns := by
  unfold Obligations.MarginRuns
  intro s on
  refine ⟨fun v c command => ⟨fun good fits calm => ?_, fun bad => ?_, fun good unfit => ?_⟩,
    fun src n lt => ⟨fun quiet => ?_, fun busy => ?_⟩, fun recs refused g i run none_ pass => ?_⟩
  · obtain ⟨pedals, e, asked⟩ := startMargin_of_fits good fits calm
    obtain ⟨jobs, mod, bar, pwr, margin⟩ := marginBegun_rest s v.toNat
    refine ⟨settle s (startMargin v.toNat s), exec_margin on command, ?_⟩
    rw [e]
    refine ⟨margin.trans (by rw [calm]), settle_out_of_bar bar, jobs, mod, fun req => ?_, fun other => marginBegun_of_links other,
      fun memory c mem => marginBegun_of_memory memory mem⟩
    rw [settle_pwr, asked req]
  · rw [exec_margin on command, startMargin_of_bad bad, State.refuseWrite_eq]
    rfl
  · rw [exec_margin on command, startMargin_of_unfit good unfit, State.refuseWrite_eq]
    rfl
  · exact (done_onMss on _).trans (by rw [stressAsked_of_quiet lt quiet])
  · exact (done_onMss on _).trans (by rw [stressAsked_of_busy busy])
  · obtain ⟨links, done⟩ := marginDone_of_pass run pass refused
    obtain ⟨n, flash, pedals, e⟩ := marginReported_eq ({ s.marginZeroed g i with links := links } : State) recs
    have e := done.trans e
    obtain ⟨mss, out, now, jobs, bar⟩ := marginZeroed_rest s g i
    have next : exec (.marginRunComplete recs refused) s = .next (settle s (marginDone recs refused s)) := by
      refine (done_onMss on _).trans ?_
      rw [withLoss, linkLoss_of_noJobs (by rw [e]; exact jobs.trans none_)]
    refine ⟨settle s (marginDone recs refused s), next, ?_⟩
    rw [e]
    refine ⟨rfl, fun memory => ?_, fun other => ?_, ?_, ?_, ?_⟩
    · rw [settle_mem, marginZeroed_of_memory memory]
      rfl
    · rw [settle_mem, marginZeroed_of_links other]
    · simp only [settle_mss, mss, now]
    · simp only [settle_mss, mss]
    · rw [settle_out_of_bar (by exact bar)]
      simp only [out]

end Sys2Proof.Machine
end

section
/-! SUPPORT. The input's events, reset, power-on and the entry into RUN (R392, R407, R414-R420). -/
namespace Sys2Proof.Machine

/-! ## A state entered (R69, R72, R408) -/

section
variable (s : State) (m : MState)

theorem State.enter_st : (s.enter m).mod.st = m := by
  unfold State.enter
  split
  · assumption
  · dsimp only
    split <;> rfl

/-- What the entry of a state leaves of the module's own registers. -/
theorem State.enter_mod : (s.enter m).mod.mainOn = s.mod.mainOn ∧ (s.enter m).mod.pwrEn = s.mod.pwrEn ∧
    (s.enter m).mod.inputMv = s.mod.inputMv := by
  obtain ⟨q, st, t, i, e⟩ := s.enter_eq m
  rw [e]
  exact ⟨rfl, rfl, rfl⟩

/-- What it leaves of the MSS. -/
theorem State.enter_mss : ∃ q, (s.enter m).mss = { s.mss with logQ := q } := by
  obtain ⟨q, st, t, i, e⟩ := s.enter_eq m
  exact ⟨q, congrArg State.mss e⟩

/-- What it leaves of the rest. -/
theorem State.enter_rest : (s.enter m).jobs = s.jobs ∧ (s.enter m).running = s.running ∧ (s.enter m).ctrs = s.ctrs ∧
    (s.enter m).mem = s.mem ∧ (s.enter m).now = s.now ∧ (s.enter m).sched = s.sched ∧ (s.enter m).bar.irqMask = s.bar.irqMask := by
  obtain ⟨q, st, t, i, e⟩ := s.enter_eq m
  rw [e]
  exact ⟨rfl, rfl, rfl, rfl, rfl, rfl, rfl⟩

end

/-! ## Power lost (R31, R392, R407) -/

theorem sget_filter_of_not {α : Type} (d : α) (l : List (Nat × α)) (p : Nat × α → Bool) {x : Nat} (out : ∀ v, p (x, v) = false) :
    sget d (l.filter p) x = d := by
  induction l with
  | nil => rfl
  | cons c l ih =>
    obtain ⟨k, v⟩ := c
    rw [List.filter_cons]
    split
    · next kept =>
      have ne : k ≠ x := by rintro rfl; simp [out v] at kept
      rw [sget, if_neg ne, ih]
    · exact ih

/-- Core voltage off: log entries of the holds that end, and the dies. -/
theorem State.coreOff_eq (s : State) : ∃ q ds, s.coreOff = { s with mss := { s.mss with logQ := q }, dies := ds } := by
  unfold State.coreOff
  suffices h : ∀ (l : List Nat) (t : State), ∃ q, l.foldl (fun s d =>
      match (s.dies[d]?).bind (·.hold) with
      | some t => s.logHold d t
      | none => s) t = { t with mss := { t.mss with logQ := q } } by
    obtain ⟨q, e⟩ := h (List.range s.dies.length) s
    exact ⟨q, _, congrArg (fun t : State => { t with dies := t.dies.map (fun (d : Die) => { d with volt := 0, cad := 0, hold := none }) }) e⟩
  intro l
  induction l with
  | nil => exact fun t => ⟨t.mss.logQ, rfl⟩
  | cons d l ih =>
    intro t
    rw [List.foldl_cons]
    cases (t.dies[d]?).bind (·.hold) with
    | none => exact ih t
    | some at_ =>
      obtain ⟨q, e⟩ := ih (t.logHold d at_)
      exact ⟨q, e⟩

/-- Main power off. -/
structure MainOff (s t : State) : Prop where
  st : t.mod.st = s.mod.st
  mainOn : t.mod.mainOn = false
  jobs : t.jobs = []
  running : t.running = none
  ctrs : t.ctrs = []
  irqMask : t.bar.irqMask = 0xFF
  mem : t.mem = s.mem.filter (fun c => decide (State.hostBase ≤ c.1))
  flash : t.mss.flash = s.mss.flash
  bootCount : t.mss.bootCount = s.mss.bootCount
  tripped : t.mss.tripped = s.mss.tripped
  hot : t.mss.hot = s.mss.hot

theorem State.mainOff_spec (s : State) : MainOff s s.mainOff := by
  obtain ⟨q, ds, e⟩ := s.coreOff_eq
  unfold State.mainOff
  rw [e]
  exact ⟨rfl, rfl, rfl, rfl, rfl, rfl, rfl, rfl, rfl, rfl, rfl⟩

/-- All power off. -/
theorem State.allOff_spec (s : State) : s.allOff.mod.st = .off ∧ s.allOff.mod.mainOn = false ∧ s.allOff.jobs = [] ∧
    s.allOff.mss = { flash := s.mss.flash, bootCount := s.mss.bootCount } := by
  have off := s.mainOff_spec
  exact ⟨rfl, off.mainOn, off.jobs, rfl⟩

theorem State.toStandby_spec (s : State) : s.toStandby.mod.st = .standby ∧ s.toStandby.mod.mainOn = false ∧ s.toStandby.jobs = [] ∧
    s.toStandby.mss.flash = s.mss.flash := by
  have off := s.mainOff_spec
  obtain ⟨mainOn, -⟩ := s.mainOff.enter_mod .standby
  obtain ⟨jobs, -⟩ := s.mainOff.enter_rest .standby
  obtain ⟨q, mss⟩ := s.mainOff.enter_mss .standby
  exact ⟨State.enter_st .., mainOn.trans off.mainOn, jobs.trans off.jobs, (congrArg Mss.flash mss).trans off.flash⟩

/-- Failure notices change the Spoke's ports and the outputs. -/
theorem State.sendNotices_keeps {α : Type} (s : State) (v : State → α) (apart : ∀ u : State, v u.inner = v u) : v s.sendNotices = v s := by
  rw [← apart, State.sendNotices_inner, apart]

/-! ## The input (R414, R418) -/

/-- Below 36 V a module with main power falls back to STANDBY. -/
theorem undervolt_of_on {s : State} {mv : Nat} (low : mv < 36000)
    (on : s.mod.st = .boot ∨ s.mod.st = .ready ∨ s.mod.st = .run ∨ s.mod.st = .drain) :
    ∃ u : State, undervolt mv s = u.toStandby ∧ u.mss.flash = s.mss.flash := by
  have off : ¬ (36000 ≤ mv ∨ s.mod.st = .off) := by
    rintro (h | h)
    · exact absurd h (Nat.not_le.2 low)
    · simp [h] at on
  have st : (s.setInput mv).mod.st = s.mod.st := rfl
  have told : (s.setInput mv).sendNotices.mss = s.mss := State.sendNotices_keeps _ State.mss (fun _ => rfl)
  rw [undervolt, if_neg off]
  rcases on with on | on | on | on <;> simp only [st, on]
  · exact ⟨s.setInput mv, rfl, rfl⟩
  · exact ⟨s.setInput mv, rfl, rfl⟩
  · exact ⟨(s.setInput mv).sendNotices, rfl, by rw [told]⟩
  · exact ⟨(s.setInput mv).sendNotices, rfl, by rw [told]⟩

/-- The standby domain comes up: its timers start, the boot count advances, flash stays. -/
theorem standbyUp_spec (s : State) : (standbyUp s).mod.st = .standby ∧ (standbyUp s).now = 0 ∧
    (standbyUp s).mss.bootCount = (s.mss.bootCount + 1) % 2 ^ 16 ∧ (standbyUp s).mss.flash = s.mss.flash := by
  let u : State := { s with now := 0, fabric := 0, mss := { s.mss with bootCount := (s.mss.bootCount + 1) % 2 ^ 16 } }
  obtain ⟨n, resumed⟩ : ∃ n, u.resumeLog = { u with mss := { u.mss with logIndex := n } } := by
    unfold State.resumeLog
    split <;> exact ⟨_, rfl⟩
  have e : standbyUp s = u.resumeLog.enter .standby := rfl
  obtain ⟨q, mss⟩ := u.resumeLog.enter_mss .standby
  obtain ⟨-, -, -, -, now, -, -⟩ := u.resumeLog.enter_rest .standby
  rw [resumed] at mss now e
  rw [e]
  refine ⟨State.enter_st .., now, ?_, ?_⟩ <;> rw [mss]

theorem converterUp_of_off {s : State} {mv : Nat} (off : s.mod.st = .off) (here : s.mod.absent = false) (low : 30000 ≤ mv) (high : mv < 61000) :
    converterUp mv s = standbyUp { s.setInput mv with mod := { (s.setInput mv).mod with overvolt := false } } := by
  refine if_neg ?_
  simp only [off, here, ne_eq, not_true_eq_false, Bool.false_eq_true, false_or]
  omega

/-- A qualified input enters BOOT while PWR_EN is high (R414, R415). -/
theorem qualify_spec {s : State} {mv : Nat} (standby : s.mod.st = .standby) (en : s.mod.pwrEn = true) (low : 38000 ≤ mv) (high : mv ≤ 60000) :
    ∃ t, qualify mv s = t ∧ t.mod.st = .boot ∧ t.mod.inputMv = mv ∧ t.mod.pwrEn = true ∧
      t.bar.irqStatus = s.bar.irqStatus ||| 0x10 ∧ t.mem = s.mem := by
  have other : (s.setInput mv).mod.st ≠ .boot := by rw [show (s.setInput mv).mod.st = s.mod.st from rfl, standby]; decide
  refine ⟨_, if_pos ⟨standby, en, low, high⟩, ?_⟩
  rw [State.enter, if_neg other]
  exact ⟨rfl, rfl, en, rfl, rfl⟩

/-! ## Reset (R414, R386) -/

/-- A reset that finds no sensor hot after a trip leads to STANDBY with the core cleared. -/
theorem resetModule_spec {s : State} (on : s.mod.st ≠ .off) (cool : (s.mss.tripped && s.mss.hot) = false) : ∃ t : State,
    resetModule s = t ∧ t.mod.st = .standby ∧ t.mod.mainOn = false ∧ t.mod.pwrEn = false ∧ t.mss.tripped = false ∧ t.jobs = [] ∧
    t.running = none ∧ t.ctrs = [] ∧ t.bar.irqMask = 0xFF ∧ t.mss.flash = s.mss.flash ∧
    ∀ a, a < State.hostBase → t.mem.byte a = 0 := by
  let u : State := if s.mod.st = .run ∨ s.mod.st = .drain then s.sendNotices else s
  have mss : u.mss = s.mss := by
    simp only [u]
    split
    · exact State.sendNotices_keeps s State.mss (fun _ => rfl)
    · rfl
  have off := u.mainOff_spec
  have mem (a : Nat) (lt : a < State.hostBase) : u.mainOff.mem.byte a = 0 := by
    rw [off.mem]
    exact sget_filter_of_not _ _ _ (fun _ => decide_eq_false (Nat.not_le.2 lt))
  let w : State := { u.mainOff.restartMss with
    mod := { u.mainOff.restartMss.mod with tap := .idcode, tapOpen := false, pwrEn := false }
    mss := { u.mainOff.restartMss.mss with retired := false, tripped := false, hot := false } }
  have calm : (u.mainOff.mss.tripped && u.mainOff.mss.hot) = false := by rw [off.tripped, off.hot, mss, cool]
  have reset : resetModule s = w.enter .standby := by
    rw [resetModule, if_neg on]
    exact if_neg (fun h => Bool.false_ne_true (calm.symm.trans h))
  obtain ⟨mainOn, pwrEn, -⟩ := w.enter_mod .standby
  obtain ⟨jobs, running, ctrs, mem', -, -, mask⟩ := w.enter_rest .standby
  obtain ⟨q, mss'⟩ := w.enter_mss .standby
  refine ⟨_, reset, State.enter_st .., mainOn.trans off.mainOn, pwrEn, congrArg Mss.tripped mss', jobs.trans off.jobs,
    running.trans off.running, ctrs.trans off.ctrs, mask.trans off.irqMask, ?_, fun a lt => ?_⟩
  · exact (congrArg Mss.flash mss').trans (off.flash.trans (congrArg Mss.flash mss))
  · rw [mem']
    exact mem a lt

/-! ## Power-on and RUN (R415, R420) -/

theorem powerOn_of_qualified {s : State} (env : BootEnv) (ready : (s.mod.st = .standby ∧ s.mod.pwrEn = true ∧ 38000 ≤ s.mod.inputMv ∧
    s.mod.inputMv ≤ 60000) ∨ (s.mod.st = .boot ∧ s.mod.bootWait = none)) : powerOn env s = bootModule env s := by
  rcases ready with ⟨st, en, low, high⟩ | ⟨st, wait⟩
  · simp [powerOn, st, en, inputGood, low, high]
  · simp [powerOn, st, wait]

theorem powerOn_of_off {s : State} (env : BootEnv) (st : s.mod.st = .off) (volt : s.mod.overvolt = false) : powerOn env s =
    bootModule env (standbyUp (qualified { s with mod := { s.mod with absent := false, pwrEn := true } })) := by
  simp [powerOn, st, volt]

theorem powerOn_of_on {s : State} (env : BootEnv) (on : s.mod.st = .ready ∨ s.mod.st = .run ∨ s.mod.st = .drain ∨ s.mod.st = .ejectReady ∨
    s.mod.st = .fault) : powerOn env s = s := by
  rcases on with st | st | st | st | st <;> simp [powerOn, st]

/-- The image's timetable, where it has one, is in force after it is loaded; the module's registers stay. -/
theorem imageTimetable_mod (s : State) : (imageTimetable s).mod = s.mod := by
  unfold imageTimetable
  dsimp only
  split <;> rfl

section
variable {s t : State} (mss : t.mss = s.mss)
include mss

theorem State.flashNum_of_mss (a n : Nat) : t.flashNum a n = s.flashNum a n := by
  simp only [State.flashNum, State.flashRead, State.flashByte, mss]

/-- The image lies in flash. -/
theorem State.sec?_of_mss (b k : Nat) : t.sec? b k = s.sec? b k := by
  have entry : t.imgEntry b = s.imgEntry b := funext (fun i => State.flashNum_of_mss mss ..)
  have count : t.imgSections b = s.imgSections b := congrArg (fun n => bits n 0 5) (State.flashNum_of_mss mss ..)
  unfold State.sec? State.imgEntries
  rw [entry, count]

theorem State.secNum_of_mss (b k : Nat) : t.secNum b k = s.secNum b k := by
  unfold State.secNum
  rw [State.sec?_of_mss mss]
  cases s.sec? b k with
  | none => rfl
  | some x => exact State.flashNum_of_mss mss ..

end

theorem imageTimetable_table {s : State} {b x : Nat} (bank : bankBase s.mod.bank = b) (there : s.sec? b 7 = some x) :
    (imageTimetable s).sched.table = some (timetableOf (s.secNum b 7)) := by
  subst bank
  unfold imageTimetable
  dsimp only
  rw [there]

/-- RUN is entered with every TAP in BYPASS. -/
theorem enter_run_of_ready {s : State} (ready : s.mod.st = .ready) : (s.enter .run).mod.st = .run ∧ (s.enter .run).mod.tap = .bypass := by
  have other : s.mod.st ≠ .run := by rw [ready]; decide
  rw [State.enter, if_neg other]
  exact ⟨rfl, rfl⟩

/-- Settles O38: the input's events, reset, the power-on sequence and the entry into RUN, one lemma each. -/
theorem supplyAndPowerOn : Obligations.SupplyAndPowerOn := by
  unfold Obligations.SupplyAndPowerOn
  refine ⟨fun s mv => ⟨?_, ?_, ?_, ?_, ?_⟩, ?_, fun s env => ⟨?_, ?_, ?_⟩, ?_⟩
  · intro low on
    obtain ⟨u, e, flash⟩ := undervolt_of_on low on
    obtain ⟨st, mainOn, jobs, kept⟩ := u.toStandby_spec
    exact ⟨settle s u.toStandby, congrArg (done s) e, st, mainOn, jobs, kept.trans flash⟩
  · intro low
    obtain ⟨st, mainOn, jobs, mss⟩ := (s.setInput mv).allOff_spec
    have e : inputLoss mv s = (s.setInput mv).allOff := if_neg (Nat.not_le.2 low)
    refine ⟨settle s (s.setInput mv).allOff, congrArg (done s) e, st, mainOn, jobs, ?_⟩
    rw [settle_mss, mss]
    exact ⟨rfl, rfl, rfl⟩
  · intro high
    obtain ⟨st, -, -, mss⟩ := (s.setInput mv).allOff_spec
    have e : overvolt mv s = { (s.setInput mv).allOff with mod := { (s.setInput mv).allOff.mod with overvolt := true } } :=
      if_neg (Nat.not_le.2 high)
    refine ⟨settle s _, congrArg (done s) e, st, rfl, ?_⟩
    rw [settle_mss, mss]
    rfl
  · intro off here low high
    obtain ⟨st, now, boot, flash⟩ := standbyUp_spec { s.setInput mv with mod := { (s.setInput mv).mod with overvolt := false } }
    exact ⟨settle s _, congrArg (done s) (converterUp_of_off off here low high), st, now, boot, flash⟩
  · rintro standby low high c (rfl | ⟨rfl, en⟩)
    · obtain ⟨t, e, spec⟩ := qualify_spec (s := pwrEnHigh s) standby rfl low high
      exact ⟨settle s t, congrArg (done s) e, spec⟩
    · obtain ⟨t, e, spec⟩ := qualify_spec standby en low high
      exact ⟨settle s t, congrArg (done s) e, spec⟩
  · intro s on cool
    obtain ⟨t, e, st, mainOn, pwrEn, tripped, jobs, running, ctrs, mask, flash, mem⟩ := resetModule_spec on cool
    exact ⟨settle s t, congrArg (done s) e, st, mainOn, pwrEn, tripped, jobs, running, ctrs, mask, flash, fun a lt _ => mem a lt⟩
  · exact fun ready => congrArg (done s) (powerOn_of_qualified env ready)
  · exact fun st volt => congrArg (done s) (powerOn_of_off env st volt)
  · exact fun on => (congrArg (done s) (powerOn_of_on env on)).trans (done_self s)
  · intro s ready h
    have other : ¬ s.mod.st ≠ .ready := fun no => no ready
    have st : (imageTimetable h).mod.st = .ready := by rw [imageTimetable_mod]; exact ready
    obtain ⟨run, tap⟩ := enter_run_of_ready st
    obtain ⟨-, -, -, -, -, sched, -⟩ := (imageTimetable h).enter_rest .run
    refine ⟨fun idle calm => ⟨?_, run, tap, fun x there => ?_⟩, fun busy => ?_⟩
    · have free : ¬ (h.mss.margin.isSome = true ∨ extestLoaded h = true) := by simp [h, idle, extestLoaded, calm]
      exact congrArg (done s) ((if_neg other).trans (if_neg free))
    · rw [sched]
      have loaded := imageTimetable_table (s := h) (b := bankBase s.mod.bank) rfl ((State.sec?_of_mss rfl ..).trans there)
      rwa [State.secNum_of_mss (s := s) (t := h) rfl] at loaded
    · have held : h.mss.margin.isSome = true ∨ extestLoaded h = true :=
        busy.imp (fun no => Option.isSome_iff_ne_none.2 no) id
      exact congrArg (done s) ((if_neg other).trans (if_pos held))

end Sys2Proof.Machine
end

section
/-! SUPPORT. Switch instants of multi-module jobs, and deferred commands at their boundaries (R62, R63, R333, R335). -/
namespace Sys2Proof.Machine

/-! ## Requests at the lead (R333) -/

/-- A message sent leaves the module's ID, so that each of several messages names the same sender. -/
theorem foldl_send_id (l : List Nat) (s : State) (m : Nat → Instr) :
    l.foldl (fun u d => u.send d (m u.mod.id)) s = l.foldl (fun u d => u.send d (m s.mod.id)) s := by
  suffices h : ∀ t : State, t.mod = s.mod → l.foldl (fun u d => u.send d (m u.mod.id)) t = l.foldl (fun u d => u.send d (m s.mod.id)) t from
    h s rfl
  induction l with
  | nil => exact fun _ _ => by rw [List.foldl_nil, List.foldl_nil]
  | cons d l ih =>
    intro t own
    rw [List.foldl_cons, List.foldl_cons, own]
    exact ih (t.send d (m s.mod.id)) (by rw [State.send_mod, own])

section
variable {s : State} {j : Job} {m : SwitchMsg} (job : s.job? m.job = some j) (lead : s.leadNow j = some s.mod.id) (here : j.admitted = true)
include job lead here

/-- An aging step is passed to all modules of the job. -/
theorem takeRequest_of_aged (aged : m.aged = true) : takeRequest m s = (jobModules s j).foldl (fun s d => s.send d (.switchInstant
    { src := s.mod.id, job := j.id, start := true, rank := max j.rank (min 4 m.rank), at_ := 0, aged := true })) s := by
  have taken : takeRequest m s = s.takeAge j m.rank := by simp [takeRequest, job, lead, here, aged]
  rw [taken, State.takeAge]
  exact (foldl_send_id (jobModules s j) s (fun i => .switchInstant
    { src := i, job := j.id, start := true, rank := max j.rank (min 4 m.rank), at_ := 0, aged := true })).symm

theorem takeRequest_of_start (fresh : m.aged = false) (start : m.start = true) : takeRequest m s = s.takeStart j m := by
  simp [takeRequest, job, lead, here, fresh, start]

/-- A stop request has the instant set, joins the pending one, or waits. -/
theorem takeRequest_of_stop (fresh : m.aged = false) (stop : m.start = false) : takeRequest m s =
    if recentInstant s j = false then s.sendInstant j false
    else if stopPending s j = true then s
    else s.updJob j.id (fun j => { j with inst := { j.inst with due := true } }) := by
  simp only [takeRequest, job, lead, here, fresh, stop, ne_eq, not_true_eq_false, Bool.not_true, Bool.false_eq_true, or_self, if_false,
    Bool.not_eq_true']
  rfl

end

theorem startTimeout_of_due {s : State} {j : Job} {jid : Nat} (job : s.job? jid = some j) (asked : j.inst.starters ≠ [])
    (late : j.inst.first + 1000000 ≤ s.fabric) (free : recentInstant s j = false) : startTimeout jid s = s.sendInstant j true := by
  simp [startTimeout, job, asked, Nat.not_lt.2 late, free]

/-! ## An instant at a module of the job (R332, R333) -/

section
variable (s : State) {m : SwitchMsg}

theorem takeInstant_of_aged (aged : m.aged = true) : takeInstant m s =
    (s.updJob m.job (fun j => if j.st = .parked then { j with rank := max j.rank m.rank } else j)).reexamine := by
  simp only [takeInstant, aged, if_true]

theorem takeInstant_of_stop (stop : m.start = false) (fresh : m.aged = false) : takeInstant m s =
    s.updJob m.job (fun j => { j with inst := { j.inst with stopAt := some m.at_, askedStop := false } }) := by
  simp only [takeInstant, fresh, stop, Bool.false_eq_true, if_false]

theorem takeInstant_of_start (start : m.start = true) (fresh : m.aged = false) : takeInstant m s = s.updJob m.job (fun j =>
    { j with rank := if j.st = .parked then max j.rank m.rank else j.rank, inst := { j.inst with startAt := some m.at_ } }) := by
  simp only [takeInstant, fresh, start, Bool.false_eq_true, if_false, if_true]

end

section
variable {s : State} {j : Job} {jid t : Nat} (job : s.job? jid = some j) (past : t ≤ s.fabric) (led : s.headless j = false)
include job past led

/-- A stop instant stops the running job outside a real-time window. -/
theorem instantReached_of_stop (stop : j.inst.stopAt = some t) (run : s.running = some jid) (idle : s.sched.stop = none)
    (running : j.st = .running) (calm : rtNow s = false) : instantReached jid s =
    (s.updInst jid (fun x => { x with stopAt := none })).stopJob { job := jid, at_ := t, window := none, hard := true, instant := true } := by
  have here : j.admitted = true := by simp [Job.admitted, running]
  have calm : rtNow (s.updInst jid (fun x => { x with stopAt := none })) = false := calm
  have run : (s.updInst jid (fun x => { x with stopAt := none })).running = some jid := run
  have idle : (s.updInst jid (fun x => { x with stopAt := none })).sched.stop = none := idle
  simp [instantReached, job, stop, Nat.not_lt.2 past, led, run, idle, here, calm]

variable (none_ : j.inst.stopAt = none) (start : j.inst.startAt = some t) (parked : j.st = .parked) (free : s.sched.switch = none)
include none_ start parked free

omit past led parked free in
/-- A start instant that the window in force does not allow is left. -/
theorem instantReached_of_ineligible (no : eligible s j = false) : instantReached jid s = s := by
  simp [instantReached, job, none_, start, no]

/-- With nothing running the job starts at once. -/
theorem instantReached_of_idle (fits : eligible s j = true) (idle : s.runJob = none) : instantReached jid s = s.beginSwitch none (some jid) := by
  simp [instantReached, job, none_, start, fits, idle, Nat.not_lt.2 past, led, parked, free]

/-- With one running that stops already, the job is next, unless a window's stop time has chosen. -/
theorem instantReached_of_stopping {r : Job} {st : Stop} (fits : eligible s j = true) (run : s.runJob = some r) (led' : s.headless r = false)
    (stop : s.sched.stop = some st) : instantReached jid s =
      if st.chosen = true then s else { s with sched := { s.sched with stop := some { st with next := some jid } } } := by
  simp [instantReached, job, none_, start, fits, run, led', stop, Nat.not_lt.2 past, led, parked, free]

/-- Else the running one is stopped for it, outside a real-time window. -/
theorem instantReached_of_running {r : Job} (fits : eligible s j = true) (run : s.runJob = some r) (led' : s.headless r = false)
    (idle : s.sched.stop = none) (lives : r.st ≠ .draining) (calm : rtNow s = false) : instantReached jid s =
      s.stopJob { job := r.id, at_ := t, window := none, hard := true, instant := true, next := some jid } := by
  simp [instantReached, job, none_, start, fits, run, led', idle, lives, calm, Nat.not_lt.2 past, led, parked, free]

end

/-! ## Deferred commands (R62, R63) -/

/-- With nothing due the event is left, but that the ends in progress go on. -/
theorem applyDeferred_of_none {s : State} {jid : Nat} (k : DeferKind)
    (idle : ∀ j, s.job? jid = some j → j.deferrals.find? (fun d => deferralDue s j d) = none) :
    applyDeferred jid k s = if k = .jobCancel then (s.keys jid).foldl State.endAdvance s else s := by
  cases job : s.job? jid with
  | none => simp only [applyDeferred, job]
  | some j => simp only [applyDeferred, job, idle j job]

section
variable {s : State} {jid : Nat} {j : Job} {d : Deferral} (job : s.job? jid = some j)
  (due : j.deferrals.find? (fun d => deferralDue s j d) = some d)
include job due

theorem applyDeferred_of_reshard {g : Nat} (kind : d.kind = .reshard g) : applyDeferred jid (.reshard g) s =
    ((s.applyReshard jid g).1.dropDeferral jid (.reshard g)).secondRecord jid d (s.applyReshard jid g).2 0 := by
  simp only [applyDeferred, job, due, kind, ne_eq, not_true_eq_false, if_false]

theorem applyDeferred_of_gearTable (kind : d.kind = .gearTable) : applyDeferred jid .gearTable s = s.applyGear jid d := by
  simp only [applyDeferred, job, due, kind, ne_eq, not_true_eq_false, if_false]

theorem applyDeferred_of_timetable (kind : d.kind = .timetable) : applyDeferred jid .timetable s = s.keepDue.applyTimetable jid d := by
  simp only [applyDeferred, job, due, kind, ne_eq, not_true_eq_false, if_false]

theorem applyDeferred_of_jobCancel (kind : d.kind = .jobCancel) : applyDeferred jid .jobCancel s = s.endAdvance jid := by
  simp only [applyDeferred, job, due, kind, ne_eq, not_true_eq_false, if_false]

theorem applyDeferred_of_other {k : DeferKind} (other : d.kind ≠ k) : applyDeferred jid k s = s := by
  simp only [applyDeferred, job, due, if_pos other]

end

/-- The two kinds that act at a step boundary, not here. -/
theorem applyDeferred_of_step (s : State) (jid : Nat) {k : DeferKind} (step : k = .schedPolicy ∨ k = .ckptInterval) :
    applyDeferred jid k s = s := by
  have other : k ≠ .jobCancel := by rcases step with rfl | rfl <;> decide
  by_cases idle : ∀ j, s.job? jid = some j → j.deferrals.find? (fun d => deferralDue s j d) = none
  · rw [applyDeferred_of_none k idle, if_neg other]
  · push Not at idle
    obtain ⟨j, job, some_⟩ := idle
    obtain ⟨d, due⟩ := Option.ne_none_iff_exists'.1 some_
    by_cases own : d.kind = k
    · rcases step with rfl | rfl <;> simp only [applyDeferred, job, due, own, ne_eq, not_true_eq_false, if_false]
    · exact applyDeferred_of_other job due own

/-- A RESHARD of the next epoch takes its group's place. -/
theorem applyReshard_of_next {s : State} {jid g : Nat} {j : Job} {p old : RGroup} (job : s.job? jid = some j) (pending : j.rpending? g = some p)
    (bound : j.rgroup? g = some old) (next : p.epoch = (old.epoch + 1) % 2 ^ 16) : s.applyReshard jid g =
      (s.updRing jid (fun x => { x with
        uses := x.uses.filter (fun u => u.2.2 != g), pending := x.pending.filter (fun y => y.num != g)
        groups := x.groups.map (fun y => if y.num == g then p else y) }), 0) := by
  simp only [State.applyReshard, job, Option.bind_some, pending, bound, if_pos next]
  rfl

theorem applyGear_eq (s : State) (jid : Nat) (d : Deferral) : s.applyGear jid d =
    let u := s.dropDeferral jid .gearTable
    if gearOverCap d.data s.pwr.cap = true then u.secondRecord jid d eCap 0
    else ({ u with pwr := { u.pwr with table := d.data }
                   jobs := u.jobs.map (fun (k : Job) => { k with lock := { k.lock with
                     grant := 0, lead := 0, withdrawn := true, grants := [], budgets := [], powers := [] } }) } : State).secondRecord
      jid d 0 0 := rfl

theorem applyTimetable_eq (s : State) (jid : Nat) (d : Deferral) : s.applyTimetable jid d =
    let u := s.dropDeferral jid .timetable
    let put (t : Option Timetable) (w : Nat) : State :=
      { u with sched := { u.sched with table := t, window := w, charges := [], skipped := [], records := [], early := none } }
    let rt := u.jobs.filter (fun k => k.admitted && k.cls == 5)
    let t := timetableOf d.data
    let bad := t.windows.any (fun w => w.rt && u.jobs.any (fun k => k.admitted && k.id == w.job && k.cls != 5))
    if ttClear d.record = true then
      (if rt = [] then (put none 0).secondRecord jid d 0 0 else u.secondRecord jid d eState 0)
    else if bad = true then u.secondRecord jid d eState 0
    else (put (some t) (t.inForce [] u.fabric)).secondRecord jid d 0 0 := by
  unfold State.applyTimetable
  simp only [List.isEmpty_iff]

/-- Settles O29: requests, instants and deferred commands, one lemma a case, put together. -/
theorem switchInstantsAndDeferrals : Obligations.SwitchInstantsAndDeferrals := by
  unfold Obligations.SwitchInstantsAndDeferrals
  intro s j
  have next {a b : State} (e : b = a) : done s b = .next (settle s a) := by rw [e, done_eq]
  have left {b : State} (e : b = s) : done s b = .next s := by rw [e, done_self]
  have request (m : SwitchMsg) : exec (.switchRequest m) s = done s (takeRequest m s) := rfl
  have instant (m : SwitchMsg) : exec (.switchInstant m) s = done s (takeInstant m s) := rfl
  have reached (jid : Nat) : exec (.switchInstantReached jid) s = done s (instantReached jid s) := rfl
  have applied (jid : Nat) (k : DeferKind) : exec (.deferredApply jid k) s = done s (applyDeferred jid k s) := rfl
  refine ⟨?_, ?_, ?_, ?_, ?_, ?_, ?_, ?_, ?_, ?_, ?_, ?_⟩
  · exact fun m job lead here aged => (request m).trans (next (takeRequest_of_aged job lead here aged))
  · exact fun m job lead here fresh start => (request m).trans (next (takeRequest_of_start job lead here fresh start))
  · intro m job lead running stop fresh
    have asks := takeRequest_of_stop job lead (by simp [Job.admitted, running]) fresh stop
    refine ⟨fun free => ?_, fun recent pends => ?_, fun recent none_ => ?_⟩
    · exact (request m).trans (next (asks.trans (if_pos free)))
    · exact (request m).trans (left (asks.trans ((if_neg (by simp [recent])).trans (if_pos pends))))
    · exact (request m).trans (next (asks.trans ((if_neg (by simp [recent])).trans (if_neg (by simp [none_])))))
  · exact fun jid job asked late free => next (startTimeout_of_due job asked late free)
  · exact fun m aged => (instant m).trans (next (takeInstant_of_aged s aged))
  · exact fun m stop fresh => (instant m).trans (next (takeInstant_of_stop s stop fresh))
  · exact fun m start fresh => (instant m).trans (next (takeInstant_of_start s start fresh))
  · exact fun jid t job stop past run idle running led calm =>
      (reached jid).trans (next (instantReached_of_stop job past led stop run idle running calm))
  · intro jid t job none_ start past parked free led
    refine ⟨fun no => (reached jid).trans (left (instantReached_of_ineligible job none_ start no)),
      fun fits idle => (reached jid).trans (next (instantReached_of_idle job past led none_ start parked free fits idle)),
      fun r fits run led' => ⟨?_, ?_, ?_⟩⟩
    · intro st stop chosen
      exact (reached jid).trans (left ((instantReached_of_stopping job past led none_ start parked free fits run led' stop).trans (if_pos chosen)))
    · intro st stop open_
      exact (reached jid).trans (next ((instantReached_of_stopping job past led none_ start parked free fits run led' stop).trans
        (if_neg (by simp [open_]))))
    · intro idle lives calm
      exact (reached jid).trans (next (instantReached_of_running job past led none_ start parked free fits run led' idle lives calm))
  · intro jid d job due
    have acts {k : DeferKind} {a : State} (e : applyDeferred jid k s = a) : exec (.deferredApply jid k) s = .next (settle s a) :=
      (applied jid k).trans (next e)
    refine ⟨fun kind => ⟨fun over_ => ?_, fun under => ?_⟩, fun kind => ?_, fun g kind => ?_, fun g p old kind pending bound epoch => ?_,
      fun kind => ?_, fun k other => (applied jid k).trans (left (applyDeferred_of_other job due other))⟩
    · exact acts ((applyDeferred_of_gearTable job due kind).trans ((applyGear_eq s jid d).trans (if_pos over_)))
    · exact acts ((applyDeferred_of_gearTable job due kind).trans ((applyGear_eq s jid d).trans (if_neg (by simp [under]))))
    · exact acts ((applyDeferred_of_timetable job due kind).trans (applyTimetable_eq s.keepDue jid d))
    · exact acts (applyDeferred_of_reshard job due kind)
    · rw [applyReshard_of_next job pending bound epoch]
      exact ⟨rfl, rfl⟩
    · exact acts (applyDeferred_of_jobCancel job due kind)
  · intro jid idle
    have idle' (k : Job) (job : s.job? jid = some k) : k.deferrals.find? (fun d => deferralDue s k d) = none := by
      rcases idle with none_ | ⟨own, due⟩
      · rw [none_] at job
        cases job
      · rw [own] at job
        cases job
        exact due
    exact ⟨(applied jid _).trans (next ((applyDeferred_of_none .jobCancel idle').trans (if_pos rfl))),
      fun k other => (applied jid k).trans (left ((applyDeferred_of_none k idle').trans (if_neg other)))⟩
  · exact fun jid => ⟨(applied jid _).trans (left (applyDeferred_of_step s jid (.inl rfl))),
      (applied jid _).trans (left (applyDeferred_of_step s jid (.inr rfl)))⟩

end Sys2Proof.Machine
end

section
/-! SUPPORT. Numbers in bytes (R5), writes joined into one, and what memory as a command sees it reads (R101). -/
namespace Sys2Proof.Machine

/-! ## Numbers in bytes (R5) -/

theorem two_pow_bytes_succ (n : Nat) : 2 ^ (8 * (n + 1)) = 256 * 2 ^ (8 * n) := by
  rw [Nat.mul_add, Nat.add_comm, pow_add]
  rfl

theorem ofLe_lt (bs : Bytes) : ofLe bs < 2 ^ (8 * bs.length) := by
  induction bs with
  | nil => simp [ofLe]
  | cons b bs ih =>
    have byte := b.isLt
    rw [ofLe, List.length_cons, two_pow_bytes_succ]
    omega

/-- The low bytes of a number. -/
theorem ofLe_mod (bs : Bytes) (m : Nat) : ofLe bs % 2 ^ (8 * m) = ofLe (bs.take m) := by
  induction bs generalizing m with
  | nil => simp [ofLe]
  | cons b bs ih =>
    cases m with
    | zero => simp [ofLe, Nat.mod_one]
    | succ m =>
      have byte := b.isLt
      rw [List.take_succ_cons, ofLe, ofLe, ← ih, two_pow_bytes_succ, Nat.mod_mul,
        show (b.toNat + ofLe bs * 256) / 256 = ofLe bs by omega]
      omega

/-- A field of whole bytes is the number that those bytes spell. -/
theorem bits_ofLe (bs : Bytes) (k m : Nat) : bits (ofLe bs) (8 * k) (8 * m) = ofLe ((bs.drop k).take m) := by
  rw [bits_eq, ← ofLe_mod]
  congr 1
  induction k generalizing bs with
  | zero => simp
  | succ k ih =>
    cases bs with
    | nil => simp [ofLe]
    | cons b bs =>
      have byte := b.isLt
      rw [List.drop_succ_cons, ← ih, ofLe, two_pow_bytes_succ, ← Nat.div_div_eq_div_mul]
      congr 1
      omega

/-! ## What a state reads -/

theorem State.num_eq (s : State) (a n : Nat) : s.num a n = ofLe (s.read a n) := by
  unfold State.num State.read
  split <;> rfl

theorem State.num_lt (s : State) (a n : Nat) : s.num a n < 2 ^ (8 * n) := by
  rw [State.num_eq]
  simpa using ofLe_lt (s.read a n)

/-- A read finds the same byte at an address, wherever it begins. -/
theorem State.exists_read_eq_map {s : State} (wf : s.mem.wf = true) :
    ∃ byte : Nat → Byte, ∀ a n, s.read a n = (List.range n).map (fun i => byte (a + i)) := by
  unfold State.read
  split
  · exact ⟨s.mem.byte, fun a n => Memory.read_eq a n wf⟩
  · exact ⟨fun x => match s.wipedBy (x / 64) with
      | some k => Config.wipedByte k x
      | none => s.mem.byte x, fun _ _ => rfl⟩

/-- A field of whole bytes of a number read is the number read there. -/
theorem State.bits_num {s : State} (wf : s.mem.wf = true) {a n k m : Nat} (inside : k + m ≤ n) :
    bits (s.num a n) (8 * k) (8 * m) = s.num (a + k) m := by
  obtain ⟨byte, read⟩ := State.exists_read_eq_map wf
  rw [State.num_eq, State.num_eq, bits_ofLe, read, read]
  congr 1
  apply List.ext_getElem
  · simp
    omega
  · intro i _ _
    simp [Nat.add_assoc]

/-! ## Memory as a command sees it (R101) -/

@[simp] theorem State.seen_nil (s : State) : s.seen [] = s := rfl

@[simp] theorem State.seen_tiles (s : State) (ws : List (Nat × Bytes)) : (s.seen ws).tiles = s.tiles := rfl

theorem State.wf_seen {s : State} (ws : List (Nat × Bytes)) (wf : s.mem.wf = true) : (s.seen ws).mem.wf = true := by
  unfold State.seen
  dsimp only
  generalize List.filter _ (byUnit ws) = pieces
  induction pieces generalizing s with
  | nil => exact wf
  | cons p ps ih => exact ih (s := { s with mem := s.mem.write p.2.1 p.2.2 }) (Memory.wf_write p.2.1 p.2.2 wf)

/-! ## Writes joined into one -/

/-- A write puts byte b at address x. -/
def Puts (w : Nat × Bytes) (x : Nat) (b : Byte) : Prop := w.1 ≤ x ∧ w.2[x - w.1]? = some b

theorem puts_append {a x : Nat} {bs cs : Bytes} {b : Byte} :
    Puts (a, bs ++ cs) x b ↔ Puts (a, bs) x b ∨ Puts (a + bs.length, cs) x b := by
  simp only [Puts, List.getElem?_append]
  split
  · have : ¬ a + bs.length ≤ x ∨ x < a := by omega
    grind
  · grind

/-- Joined or not, writes put the same bytes. -/
theorem exists_puts_coalesce {l : List (Nat × Bytes)} {x : Nat} {b : Byte} :
    (∃ w ∈ coalesce l, Puts w x b) ↔ ∃ w ∈ l, Puts w x b := by
  induction l with
  | nil => rfl
  | cons w t ih =>
    obtain ⟨a, bs⟩ := w
    rw [List.exists_mem_cons_iff, ← ih, coalesce]
    cases coalesce t with
    | nil => simp
    | cons v u =>
      obtain ⟨a', cs⟩ := v
      dsimp only
      split
      · rename_i joins
        rw [List.exists_mem_cons_iff, List.exists_mem_cons_iff, puts_append, joins, or_assoc]
      · rw [List.exists_mem_cons_iff]

theorem Memory.byte_write_of_puts {m : Memory} {w : Nat × Bytes} {x : Nat} {b : Byte} (wf : m.wf = true) (puts : Puts w x b) :
    (m.write w.1 w.2).byte x = b := by
  obtain ⟨le, byte⟩ := puts
  obtain ⟨i, rfl⟩ := Nat.exists_eq_add_of_le le
  rw [Nat.add_sub_cancel_left] at byte
  obtain ⟨lt, rfl⟩ := List.getElem?_eq_some_iff.1 byte
  exact Memory.byte_write_in wf lt

theorem Memory.byte_write_of_not_puts {m : Memory} {w : Nat × Bytes} {x : Nat} (wf : m.wf = true) (none : ∀ b, ¬ Puts w x b) :
    (m.write w.1 w.2).byte x = m.byte x := by
  refine Memory.byte_write_out wf ?_
  by_contra inside
  exact none _ ⟨by omega, List.getElem?_eq_getElem (by omega)⟩

/-- A byte at which every write that covers it puts b, and which one covers or which held b, holds b. -/
theorem Memory.byte_writes_eq {m : Memory} {ws : List (Nat × Bytes)} {x : Nat} {b : Byte} (wf : m.wf = true)
    (only : ∀ c, (∃ w ∈ ws, Puts w x c) → c = b) (some : m.byte x = b ∨ ∃ w ∈ ws, Puts w x b) : (m.writes ws).byte x = b := by
  induction ws generalizing m with
  | nil => simpa [Memory.writes] using some
  | cons w t ih =>
    refine ih (Memory.wf_write w.1 w.2 wf) (fun c ⟨v, mem, puts⟩ => only c ⟨v, List.mem_cons_of_mem w mem, puts⟩) ?_
    by_cases covers : ∃ c, Puts w x c
    · obtain ⟨c, puts⟩ := covers
      obtain rfl := only c ⟨w, List.mem_cons_self, puts⟩
      exact .inl (Memory.byte_write_of_puts wf puts)
    · rw [not_exists] at covers
      rw [Memory.byte_write_of_not_puts wf covers]
      exact some.imp_right fun any => ((List.exists_mem_cons_iff ..).1 any).resolve_left (covers b)

/-- Byte i of what lane n stores, where the lanes of a list store and no other lane's store covers it. -/
theorem Memory.byte_writes_lanes {m : Memory} {lanes : List Nat} {at_ : Nat → Nat} {data : Nat → Bytes} {n i : Nat} (wf : m.wf = true)
    (lt : i < (data n).length) (apart : ∀ k ∈ lanes, k ≠ n → at_ n + i < at_ k ∨ at_ k + (data k).length ≤ at_ n + i) :
    (m.writes (coalesce (lanes.map (fun k => (at_ k, data k))))).byte (at_ n + i) =
      if n ∈ lanes then (data n).getD i 0 else m.byte (at_ n + i) := by
  have own : Puts (at_ n, data n) (at_ n + i) ((data n).getD i 0) :=
    ⟨Nat.le_add_right .., by simp [List.getD_eq_getElem?_getD, lt]⟩
  have only (k : Nat) (mem : k ∈ lanes) (c : Byte) (puts : Puts (at_ k, data k) (at_ n + i) c) : k = n := by
    by_contra ne
    obtain ⟨le, byte⟩ := puts
    have inside := (List.getElem?_eq_some_iff.1 byte).1
    have := apart k mem ne
    dsimp only at le inside
    omega
  refine Memory.byte_writes_eq wf (fun c any => ?_) ?_
  · obtain ⟨w, mem, puts⟩ := exists_puts_coalesce.1 any
    obtain ⟨k, listed, rfl⟩ := List.mem_map.1 mem
    obtain rfl := only k listed c puts
    rw [if_pos listed]
    exact Option.some.inj (puts.2.symm.trans own.2)
  · by_cases listed : n ∈ lanes
    · rw [if_pos listed]
      exact .inr (exists_puts_coalesce.2 ⟨_, List.mem_map_of_mem listed, own⟩)
    · exact .inl (if_neg listed).symm

end Sys2Proof.Machine
end

section
/-! SUPPORT. Vector registers and masks (R124, R125, R142): what a lane, a packed lane and a mask read after a write. -/
namespace Sys2Proof.Machine

/-! ## Codes of a format (R77) -/

/-- The code of a conversion to an IEEE format fits the format's width. -/
theorem toFp_code_lt {f : FpFmt} (ieee : f.spec = .ieee) (frac : 0 < f.mbits) (mode g : Nat) (v : Val) :
    (toFp f mode g v).code < 2 ^ (f.ebits + f.mbits + 1) := by
  have top : f.overCode + 2 ^ f.mbits = 2 ^ (f.ebits + f.mbits) := by
    have pos := Nat.two_pow_pos f.ebits
    rw [FpFmt.overCode, ieee]
    dsimp only
    rw [Nat.shiftLeft_eq, pow_add, ← Nat.succ_mul]
    congr 1
    omega
  have quiet : 2 ^ (f.mbits - 1) < 2 ^ f.mbits := Nat.pow_lt_pow_right (by omega) (by omega)
  have sign (n : Bool) : place (f.ebits + f.mbits) 1 (boolNat n) ≤ 2 ^ (f.ebits + f.mbits) := by
    rw [place_eq]
    exact (Nat.mul_le_mul_left _ (Nat.le_of_lt_succ (Nat.mod_lt _ (by omega)))).trans_eq (Nat.mul_one _)
  have nan : f.nanCode = f.overCode + 2 ^ (f.mbits - 1) := by simp [FpFmt.nanCode, FpFmt.overCode, ieee]
  have inf (n : Bool) : f.infCode n = place (f.ebits + f.mbits) 1 (boolNat n) + f.overCode := by
    simp [FpFmt.infCode, FpFmt.overCode, ieee]
  have above := Nat.two_pow_pos f.mbits
  rw [pow_succ]
  cases v with
  | nan =>
    simp only [toFp, nan]
    omega
  | inf n =>
    have := sign n
    simp only [toFp, ieee, beq_self_eq_true, if_true, inf]
    omega
  | fin n m e =>
    have := sign n
    simp only [toFp, ieee, beq_self_eq_true, if_true]
    split
    · dsimp only
      omega
    · dsimp only
      rw [inf]
      omega

/-! ## Lanes -/

theorem mem_activeLanes {s : State} {tile w n i : Nat} : i ∈ activeLanes s tile w n ↔ i < n ∧ active s tile w i = true := by
  simp [activeLanes]

section
variable {s t : State} (tiles : t.tiles = s.tiles) (tile v : Nat)
include tiles

theorem lane_of_tiles (i : Nat) : lane t tile v i = lane s tile v i := by rw [lane, lane, tiles]
theorem vreg_of_tiles : vreg t tile v = vreg s tile v := by rw [vreg, vreg, tiles]
theorem maskReg_of_tiles : maskReg t tile v = maskReg s tile v := by rw [maskReg, maskReg, tiles]

end

theorem getD_vreg {s : State} {tile v i : Nat} (lt : i < 64) : (vreg s tile v).getD i 0 = lane s tile v i := by
  simp [vreg, lane, List.getD_eq_getElem?_getD, lt]

theorem w40Val_vreg {s : State} {tile v i : Nat} (lt : i < 64) : w40Val ((vreg s tile v).getD i 0) = laneVal s tile v i := by
  rw [getD_vreg lt, w40Val, laneVal]

/-- Lanes written with one value each read back as written; the others as before. -/
theorem sget_setLanes {l : List (Nat × Lane)} {base n : Nat} {xs : List (Nat × Nat)} {g : Nat → Nat} (wf : swf 0 l = true)
    (same : ∀ p ∈ xs, p.2 = g p.1) : sget 0 (setLanes l base xs) (base + n) =
      if n ∈ xs.map Prod.fst then BitVec.ofNat 40 (g n) else sget 0 l (base + n) := by
  induction xs generalizing l with
  | nil => rfl
  | cons p t ih =>
    obtain ⟨i, x⟩ := p
    obtain rfl : x = g i := same _ List.mem_cons_self
    rw [setLanes, ih (swf_sput _ _ wf) fun p mem => same p (List.mem_cons_of_mem _ mem), List.map_cons]
    by_cases later : n ∈ t.map Prod.fst
    · rw [if_pos later, if_pos (List.mem_cons_of_mem _ later)]
    · rw [if_neg later]
      by_cases here : n = i
      · rw [here, sget_sput_same wf, if_pos List.mem_cons_self]
      · rw [sget_sput_other (by omega), if_neg (by simp [here, later])]

section
variable {s : State} {tile v : Nat} (wf : swf 0 s.tiles.vregs = true)
include wf

theorem lane_putReg {xs : List (Nat × Nat)} {g : Nat → Nat} (same : ∀ p ∈ xs, p.2 = g p.1) (n : Nat) :
    lane (putReg s tile v xs) tile v n = if n ∈ xs.map Prod.fst then g n % 2 ^ 40 else lane s tile v n := by
  unfold lane putReg
  rw [sget_setLanes wf same]
  split
  · exact BitVec.toNat_ofNat ..
  · rfl

theorem lane_putReg_map {lanes : List Nat} (g : Nat → Nat) (n : Nat) :
    lane (putReg s tile v (lanes.map (fun i => (i, g i)))) tile v n = if n ∈ lanes then g n % 2 ^ 40 else lane s tile v n := by
  rw [lane_putReg wf (g := g) (by simp)]
  simp [Function.comp_def]

end

/-! ## Packed lanes (R124) -/

theorem packedLane_vreg {s : State} {tile v n : Nat} (lt : n < 128) :
    packedLane (vreg s tile v) n = bits (lane s tile v (n / 2)) (if n % 2 = 0 then 8 else 24) 16 := by
  rw [packedLane, getD_vreg (by omega)]

theorem packedLane_lt (xs : List Nat) (n : Nat) : packedLane xs n < 2 ^ 16 := Nat.mod_lt _ (Nat.two_pow_pos 16)

theorem find?_map_self {l : List Nat} {h : Nat → Nat} (k : Nat) :
    ((l.map (fun j => (j, h j))).find? (fun p => p.1 == k)).map Prod.snd = if k ∈ l then some (h k) else none := by
  induction l with
  | nil => rfl
  | cons j t ih =>
    rw [List.map_cons]
    by_cases here : j = k
    · rw [List.find?_cons_of_pos (by simpa using here), here, if_pos List.mem_cons_self]
      rfl
    · rw [List.find?_cons_of_neg (by simpa using here), ih]
      simp [Ne.symm here]

/-- What a packed lane holds once the lanes listed are written. -/
def packedAfter (old : List Nat) (lanes : List Nat) (h : Nat → Nat) (n : Nat) : Nat := if n ∈ lanes then h n else packedLane old n

/-- A lane of two packed ones, bits [7:0] zero. -/
def joinHalves (g : Nat → Nat) (i : Nat) : Nat := g (2 * i) * 256 + g (2 * i + 1) * 2 ^ 24

theorem mem_packLanes {old lanes : List Nat} {h : Nat → Nat} {p : Nat × Nat} :
    p ∈ packLanes old (lanes.map (fun j => (j, h j))) ↔
      p.1 < 64 ∧ (2 * p.1 ∈ lanes ∨ 2 * p.1 + 1 ∈ lanes) ∧ p.2 = joinHalves (packedAfter old lanes h) p.1 := by
  obtain ⟨i, x⟩ := p
  simp only [packLanes, List.mem_filterMap, List.mem_range, find?_map_self, joinHalves, packedAfter]
  constructor
  · rintro ⟨k, lt, made⟩
    by_cases lo : 2 * k ∈ lanes <;> by_cases hi : 2 * k + 1 ∈ lanes <;> simp_all
    all_goals
      obtain ⟨rfl, rfl⟩ := made
      simp_all
  · rintro ⟨lt, any, rfl⟩
    refine ⟨i, lt, ?_⟩
    by_cases lo : 2 * i ∈ lanes <;> by_cases hi : 2 * i + 1 ∈ lanes <;> simp_all

/-- The two packed lanes of a lane made of two. -/
theorem bits_joinHalves {g : Nat → Nat} {n : Nat} (small : ∀ n, g n < 2 ^ 16) :
    bits (joinHalves g (n / 2) % 2 ^ 40) (if n % 2 = 0 then 8 else 24) 16 = g n := by
  have lo := small (2 * (n / 2))
  have hi := small (2 * (n / 2) + 1)
  rw [bits_mod_two_pow (by split <;> omega), bits_eq, joinHalves]
  split
  · have even : g (2 * (n / 2)) = g n := congrArg g (by omega)
    omega
  · have odd : g (2 * (n / 2) + 1) = g n := congrArg g (by omega)
    omega

/-- Packed lanes written read back as written; the others as before. -/
theorem packedLane_putReg {s : State} {tile v : Nat} {lanes : List Nat} {h : Nat → Nat} (wf : swf 0 s.tiles.vregs = true)
    (small : ∀ n, h n < 2 ^ 16) {n : Nat} (lt : n < 128) :
    packedLane (vreg (putReg s tile v (packLanes (vreg s tile v) (lanes.map (fun j => (j, h j))))) tile v) n =
      if n ∈ lanes then h n else packedLane (vreg s tile v) n := by
  let after := packedAfter (vreg s tile v) lanes h
  have small' (n : Nat) : after n < 2 ^ 16 := by
    unfold after packedAfter
    split
    · exact small n
    · exact packedLane_lt ..
  rw [packedLane_vreg lt, lane_putReg wf (g := joinHalves after) fun p mem => (mem_packLanes.1 mem).2.2]
  by_cases listed : n / 2 ∈ (packLanes (vreg s tile v) (lanes.map (fun j => (j, h j)))).map Prod.fst
  · rw [if_pos listed, bits_joinHalves small']
    rfl
  · have out : n ∉ lanes := by
      intro mem
      have half : 2 * (n / 2) ∈ lanes ∨ 2 * (n / 2) + 1 ∈ lanes := by
        rcases Nat.mod_two_eq_zero_or_one n with even | odd
        · exact .inl (by rwa [show 2 * (n / 2) = n by omega])
        · exact .inr (by rwa [show 2 * (n / 2) + 1 = n by omega])
      exact listed (List.mem_map_of_mem (mem_packLanes (p := (n / 2, joinHalves after (n / 2))).2 ⟨by omega, half, rfl⟩))
    rw [if_neg listed, if_neg out, packedLane_vreg lt]

/-! ## Masks -/

theorem maskReg_putMask {s : State} (wf : swf 0 s.tiles.masks = true) (tile m : Nat) (x : BitVec 128) :
    maskReg (putMask s tile m x) tile m = x := sget_sput_same wf

/-- The number with the bits below k that p names. -/
theorem foldl_two_pow_filter (p : Nat → Bool) (k : Nat) :
    let x := ((List.range k).filter p).foldl (fun x i => x + 2 ^ i) 0
    x < 2 ^ k ∧ ∀ n, x.testBit n = (decide (n < k) && p n) := by
  induction k with
  | zero => simp
  | succ k ih =>
    obtain ⟨lt, bit⟩ := ih
    rw [List.range_succ, List.filter_append, List.foldl_append]
    generalize ((List.range k).filter p).foldl (fun x i => x + 2 ^ i) 0 = x at lt bit
    cases on : p k with
    | false =>
      simp only [List.filter_cons, on, List.filter_nil, List.foldl_nil, Bool.false_eq_true, if_false]
      refine ⟨by rw [pow_succ]; omega, fun n => ?_⟩
      rw [bit]
      by_cases e : n = k
      · simp [e, on]
      · simp [show n < k + 1 ↔ n < k by omega]
    | true =>
      simp only [List.filter_cons, on, List.filter_nil, List.foldl_cons, List.foldl_nil, if_true]
      refine ⟨by rw [pow_succ]; omega, fun n => ?_⟩
      rw [Nat.add_comm]
      rcases Nat.lt_trichotomy n k with below | rfl | above
      · rw [Nat.testBit_two_pow_add_gt below, bit]
        simp [below, show n < k + 1 by omega]
      · rw [Nat.testBit_two_pow_add_eq, bit]
        simp [on]
      · rw [Nat.testBit_lt_two_pow (by
          calc 2 ^ k + x < 2 ^ (k + 1) := by rw [pow_succ]; omega
            _ ≤ 2 ^ n := Nat.pow_le_pow_right (by omega) above)]
        simp [show ¬ n < k + 1 by omega]

theorem getLsbD_maskOf (p : Nat → Bool) (k : Nat) {n : Nat} (lt : n < 128) :
    (maskOf ((List.range k).filter p)).getLsbD n = (decide (n < k) && p n) := by
  rw [maskOf, BitVec.getLsbD_ofNat, (foldl_two_pow_filter p k).2, decide_eq_true lt, Bool.true_and]

end Sys2Proof.Machine
end

section
/-! SUPPORT. The issue of a vector instruction (R135-R143): what its command leaves, and what each kind of effect gives. -/
namespace Sys2Proof.Machine

/-! ## The issue of one instruction -/

/-- What an instruction's effect sees as memory: a load, what stands beside Movers' writes in flight (R101). -/
def loadView (s : State) (j : Job) (q : Queue) (op : Nat) : State :=
  s.seen (if inList op [0x01, 0x02, 0x05] then racing j q.ref else [])

theorem vecEffect_tiles (s : State) (j : Job) (q : Queue) (op : Nat) (eff : State → VEff) :
    (vecEffect s j q op eff).s.tiles = (eff (loadView s j q op)).s.tiles := by
  unfold vecEffect loadView
  split
  · rename_i none
    rw [none, State.seen_nil]
  · rfl

theorem vecEffect_of_store {s : State} {j : Job} {q : Queue} {op : Nat} (plain : inList op [0x01, 0x02, 0x05] = false) (eff : State → VEff) :
    vecEffect s j q op eff = eff s := by
  unfold vecEffect
  rw [plain]
  rfl

theorem vecEffect_mem {s : State} {j : Job} {q : Queue} {op : Nat} {eff : State → VEff}
    (keeps : ∀ u : State, (eff u).s.mem = u.mem) : (vecEffect s j q op eff).s.mem = s.mem := by
  unfold vecEffect
  split
  · exact keeps s
  · rfl

theorem State.tearStores_eq (s : State) (old : Memory) (jid : Nat) (spans : List (Nat × Nat)) :
    ∃ js, s.tearStores old jid spans = s.withJobs js := by
  unfold State.tearStores
  split
  · exact ⟨s.jobs, rfl⟩
  · exact ⟨_, rfl⟩

/-- Beside the jobs, an instruction issued leaves what its effect leaves. -/
theorem vecIssue_eq {s : State} {tile : Nat} {j : Job} {q : Queue} {i : Nat} {f : Flight} {v : VRun} {w : Nat}
    (h : Issues s tile j q i f v w) {ops : List Nat} (listed : inList (wOp w) ops = true) (eff : State → Nat → Nat → VRun → VEff) :
    ∃ js, vecIssue ops tile eff s = (vecEffect s j q (wOp w) (fun s => eff s f.record w v)).s.withJobs js := by
  unfold vecIssue
  simp only [h.run, h.word, listed, Bool.not_true, Bool.false_eq_true, if_false]
  generalize vecEffect s j q (wOp w) _ = e
  obtain ⟨js, torn⟩ := State.tearStores_eq e.s s.mem j.id e.spans
  rw [torn]
  obtain ⟨js', noted, -⟩ := State.noteSpans_eq _ j.id f.item e.spans
  exact ⟨js', noted⟩

section
variable {s : State} {tile : Nat} {j : Job} {q : Queue} {i : Nat} {f : Flight} {v : VRun} {w op : Nat} {c : Instr}
  {eff : State → Nat → Nat → VRun → VEff} (h : Issues s tile j q i f v w) (is : wOp w = op)
  (command : exec c s = done s (vecIssue [op] tile eff s))
include h is command

/-- The command of the next word answers a state with the tiles that its effect leaves. -/
theorem Issues.exec_tiles : ∃ t, exec c s = .next t ∧ t.tiles = (eff (loadView s j q op) f.record w v).s.tiles ∧
    ((∀ u : State, (eff u f.record w v).s.mem = u.mem) → t.mem = s.mem) := by
  subst is
  obtain ⟨js, e⟩ := vecIssue_eq h (ops := [wOp w]) (by simp [inList]) eff
  rw [command, e]
  exact ⟨_, rfl, vecEffect_tiles .., fun keeps => vecEffect_mem keeps⟩

/-- That of an instruction that loads nothing, the tiles and the memory that its effect leaves. -/
theorem Issues.exec_of_store (plain : inList op [0x01, 0x02, 0x05] = false) : ∃ t, exec c s = .next t ∧
    t.tiles = (eff s f.record w v).s.tiles ∧ t.mem = (eff s f.record w v).s.mem := by
  subst is
  obtain ⟨js, e⟩ := vecIssue_eq h (ops := [wOp w]) (by simp [inList]) eff
  rw [command, e, vecEffect_of_store plain]
  exact ⟨_, rfl, rfl, rfl⟩

end

/-! ## What the effects give -/

/-- Each active lane of VD takes what g says, and every other keeps its value (R142). -/
def LanesTake (s t : State) (tile w : Nat) (g : Nat → Nat) : Prop := ∀ n < 64, lane t tile (wVd w) n =
  if active s tile w n then g n % 2 ^ 40 else lane s tile (wVd w) n

/-- Each active packed lane of VD takes what g says, and every other keeps its value (R125, R142). -/
def HalvesTake (s t : State) (tile w : Nat) (g : Nat → Nat) : Prop := ∀ n < 128, packedLane (vreg t tile (wVd w)) n =
  if active s tile w n then g n else packedLane (vreg s tile (wVd w)) n

theorem laneOp_s (tile : Nat) (f : State → Nat → Nat → Nat × Bool × Bool) (s : State) (r w : Nat) (v : VRun) : (laneOp tile f s r w v).s =
    putReg s tile (wVd w) ((activeLanes s tile w 64).map (fun i => (i, (f s w i).1))) := congrArg (putReg s tile (wVd w)) List.map_map

/-- A packed lane of a register as a value of a format. -/
def halfVal (fp : FpFmt) (s : State) (tile x n : Nat) : Val := decodeFp fp (packedLane (vreg s tile x) n)

/-- The format of a packed instruction (R135). -/
def packedFmt (w : Nat) : FpFmt := if bitAt w 32 = true then fp16 else bf16

theorem packed_s (tile : Nat) (f : Val → Val → Val → Val × Bool) (s : State) (r w : Nat) (v : VRun) : (packed tile f s r w v).s =
    putReg s tile (wVd w) (packLanes (vreg s tile (wVd w)) ((activeLanes s tile w 128).map (fun n => (n, (toFp (packedFmt w) 0 0
      (f (halfVal (packedFmt w) s tile (wVa w) n) (halfVal (packedFmt w) s tile (wVb w) n) (halfVal (packedFmt w) s tile (wVc w) n)).1).code)))) :=
  congrArg (fun l => putReg s tile (wVd w) (packLanes (vreg s tile (wVd w)) l)) List.map_map

section
variable {s : State} {tile r w : Nat} {v : VRun} (wf : swf 0 s.tiles.vregs = true)
include wf

theorem lanesTake_putReg (g : Nat → Nat) :
    LanesTake s (putReg s tile (wVd w) ((activeLanes s tile w 64).map (fun i => (i, g i)))) tile w g := by
  intro n lt
  rw [lane_putReg_map wf g]
  simp [mem_activeLanes, lt]

theorem halvesTake_putReg {g : Nat → Nat} (small : ∀ n, g n < 2 ^ 16) : HalvesTake s (putReg s tile (wVd w)
    (packLanes (vreg s tile (wVd w)) ((activeLanes s tile w 128).map (fun i => (i, g i))))) tile w g := by
  intro n lt
  rw [packedLane_putReg wf small lt]
  simp [mem_activeLanes, lt]

theorem lanesTake_laneOp (f : State → Nat → Nat → Nat × Bool × Bool) :
    LanesTake s (laneOp tile f s r w v).s tile w (fun n => (f s w n).1) := by
  rw [laneOp_s]
  exact lanesTake_putReg wf _

/-- A reduction gives its result to every active lane; with none active VD is unchanged (R140). -/
theorem lanesTake_reduceLanes (f : List Val → Nat × Bool × Bool) : LanesTake s (reduceLanes tile f s r w v).s tile w
    (fun _ => (f ((activeLanes s tile w 64).map (laneVal s tile (wVa w)))).1) := by
  have vals : (activeLanes s tile w 64).map (fun i => w40Val ((vreg s tile (wVa w)).getD i 0)) =
      (activeLanes s tile w 64).map (laneVal s tile (wVa w)) :=
    List.map_congr_left fun i mem => w40Val_vreg (mem_activeLanes.1 mem).1
  have e := lanesTake_putReg (tile := tile) (w := w) wf
    (fun _ => (f ((activeLanes s tile w 64).map (laneVal s tile (wVa w)))).1)
  unfold reduceLanes
  cases lanes : activeLanes s tile w 64 with
  | nil =>
    intro n lt
    have off : active s tile w n = false := by
      rw [← Bool.not_eq_true]
      intro on
      exact List.not_mem_nil (lanes ▸ mem_activeLanes.2 ⟨lt, on⟩)
    rw [off]
    rfl
  | cons k ks =>
    rw [lanes] at vals e
    dsimp only
    rwa [vals]

theorem halvesTake_packed (f : Val → Val → Val → Val × Bool) : HalvesTake s (packed tile f s r w v).s tile w (fun n => (toFp (packedFmt w) 0 0
    (f (halfVal (packedFmt w) s tile (wVa w) n) (halfVal (packedFmt w) s tile (wVb w) n) (halfVal (packedFmt w) s tile (wVc w) n)).1).code) := by
  have small (x : Val) : (toFp (packedFmt w) 0 0 x).code < 2 ^ 16 := by
    unfold packedFmt
    split
    · exact toFp_code_lt (f := fp16) rfl (by decide) ..
    · exact toFp_code_lt (f := bf16) rfl (by decide) ..
  rw [packed_s]
  exact halvesTake_putReg wf fun _ => small _

end

section
variable {s u t : State} {tile w : Nat} {g g' : Nat → Nat}

theorem LanesTake.congr (h : LanesTake s t tile w g) (same : ∀ n < 64, g n = g' n) : LanesTake s t tile w g' :=
  fun n lt => same n lt ▸ h n lt

/-- What the lanes take stands in the tiles. -/
theorem LanesTake.of_tiles {s' : State} (h : LanesTake s t tile w g) (before : s.tiles = s'.tiles) (after : u.tiles = t.tiles) :
    LanesTake s' u tile w g := by
  intro n lt
  have on : active s' tile w n = active s tile w n := by rw [active, active, maskReg_of_tiles before]
  rw [lane_of_tiles after, h n lt, lane_of_tiles before, on]

theorem HalvesTake.of_tiles {s' : State} (h : HalvesTake s t tile w g) (before : s.tiles = s'.tiles) (after : u.tiles = t.tiles) :
    HalvesTake s' u tile w g := by
  intro n lt
  have on : active s' tile w n = active s tile w n := by rw [active, active, maskReg_of_tiles before]
  rw [vreg_of_tiles after, h n lt, vreg_of_tiles before, on]

end
end Sys2Proof.Machine
end

section
/-! SUPPORT. What each vector instruction leaves in lanes, masks and memory (R125, R135-R142). -/
namespace Sys2Proof.Machine

/-! ## Lanes: what an effect gives -/

/-- The lane-wise arithmetic commands are `arith` of their operation, and load nothing. -/
theorem exec_laneArithmetic {tile : Nat} (s : State) : ∀ p ∈ laneArithmetic tile,
    exec p.2.1 s = done s (vecIssue [p.1] tile (arith tile p.2.2.1 p.2.2.2) s) ∧ inList p.1 [0x01, 0x02, 0x05] = false := by
  simp only [laneArithmetic, List.forall_mem_cons, List.not_mem_nil, false_imp_iff, implies_true, and_true]
  and_intros <;> rfl

/-- A word of an accumulator row is the number read at its own address. -/
theorem bits_accRow {s : State} (wf : s.mem.wf = true) (tile row : Nat) {n : Nat} (lt : n < 64) :
    bits (s.num (State.accAddr tile row 0) 256) (32 * n) 32 = s.num (State.accAddr tile row n) 4 := by
  have word := State.bits_num wf (a := State.accAddr tile row 0) (n := 256) (k := 4 * n) (m := 4) (by omega)
  rw [show 8 * (4 * n) = 32 * n by omega] at word
  rw [word]
  congr 1
  unfold State.accAddr
  omega

section
variable {s : State} {tile r w : Nat} {v : VRun} (wf : swf 0 s.tiles.vregs = true)
include wf

theorem lanesTake_arith {wide : Bool} {f : Val → Val → Val → Val × Bool} : LanesTake s (arith tile wide f s r w v).s tile w (fun n =>
    (laneRound wide (f (laneVal s tile (wVa w) n) (laneVal s tile (wVb w) n) (laneVal s tile (wVc w) n))).1) :=
  (lanesTake_laneOp wf _).congr fun n lt => by simp only [w40Val_vreg lt]

theorem lanesTake_signOp {g : Nat → Nat} : LanesTake s (signOp tile g s r w v).s tile w (fun n =>
    let x := lane s tile (wVa w) n
    if (laneVal s tile (wVa w) n).isNan then w40.nanCode else g x) :=
  (lanesTake_laneOp wf _).congr fun n lt => by
    simp only [getD_vreg lt]
    rfl

theorem lanesTake_vsel : LanesTake s (effVsel tile s r w v).s tile w (fun n =>
    if (maskReg s tile (bits w 32 3)).getLsbD n then lane s tile (wVa w) n else lane s tile (wVb w) n) :=
  (lanesTake_laneOp wf _).congr fun n lt => by simp only [getD_vreg lt]

theorem lanesTake_vcvti : LanesTake s
    (laneOp tile (fun _ _ i => laneRound false (Val.ofInt (sbits ((vreg s tile (wVa w)).getD i 0) 8 32), false)) s r w v).s tile w
    (fun n => (toFp fp32 0 0 (Val.ofInt (sbits (lane s tile (wVa w) n) 8 32))).code * 256) :=
  (lanesTake_laneOp wf _).congr fun n lt => by
    simp only [getD_vreg lt]
    rfl

theorem lanesTake_vlda (mem : s.mem.wf = true) : LanesTake s (effVlda tile s r w v).s tile w (fun n =>
    s.num (State.accAddr tile (rowAt r w v.iter).toNat n) 4 * 256) :=
  (lanesTake_laneOp wf _).congr fun n lt => by simp only [bits_accRow mem tile _ lt]

theorem halvesTake_vldh : HalvesTake s (effVldh tile s r w v).s tile w (fun n =>
    bits (s.num (State.scratchAddr tile (sBase r (wStream w) + 2 * (elemAt r w v.iter).toNat)) 256) (16 * n) 16) :=
  halvesTake_putReg wf fun _ => Nat.mod_lt _ (Nat.two_pow_pos 16)

end

/-! ## Stores -/

theorem State.writes_mem (s : State) (ws : List (Nat × Bytes)) : (s.writes ws).mem = s.mem.writes ws := by
  obtain ⟨ms, e⟩ := s.writes_eq ws
  rw [e]

theorem State.writes_tiles (s : State) (ws : List (Nat × Bytes)) : (s.writes ws).tiles = s.tiles := by
  obtain ⟨ms, e⟩ := s.writes_eq ws
  rw [e]

/-- What a VST stores, lane by lane of A (R137). -/
def vstOut (tile : Nat) (s : State) (r w : Nat) (v : VRun) : List (Nat × Bytes) × NumFlags :=
  let e := (elemAt r w v.iter).toNat
  let base := State.scratchAddr tile (sBase r (wStream w))
  let o : OutSpec := ⟨wFmt w, wMode w, bits r 208 32, memK w v⟩
  if fmtBlock (wFmt w) = true then convBlocks base o e 3 ((List.range 64).map (fun n => (vCoord v n, laneVal s tile (wVa w) n)))
  else convScalars s.mem base o ((activeLanes s tile w 64).map (fun n => (e + n, e + n, vCoord v n, laneVal s tile (wVa w) n)))

theorem effVst_s (tile : Nat) (s : State) (r w : Nat) (v : VRun) : (effVst tile s r w v).s = s.writes (vstOut tile s r w v).1 := by
  have blocks : (List.range 64).map (fun i => (vCoord v i, w40Val ((vreg s tile (wVa w)).getD i 0))) =
      (List.range 64).map (fun i => (vCoord v i, laneVal s tile (wVa w) i)) :=
    List.map_congr_left fun i mem => by rw [w40Val_vreg (List.mem_range.1 mem)]
  have scalars (e : Nat) : (activeLanes s tile w 64).map (fun i => (e + i, e + i, vCoord v i, w40Val ((vreg s tile (wVa w)).getD i 0))) =
      (activeLanes s tile w 64).map (fun i => (e + i, e + i, vCoord v i, laneVal s tile (wVa w) i)) :=
    List.map_congr_left fun i mem => by rw [w40Val_vreg (mem_activeLanes.1 mem).1]
  unfold effVst vstOut
  dsimp only
  rw [blocks, scalars]

theorem State.scratchAddr_add (tile a b : Nat) : State.scratchAddr tile (a + b) = State.scratchAddr tile a + b := (Nat.add_assoc ..).symm

section
variable {s : State} (wf : s.mem.wf = true) (tile r w : Nat) (v : VRun) {n b : Nat}
include wf

/-- VSTH stores the raw bits of each active packed lane at its element, and nothing at another (R137, R142). -/
theorem effVsth_byte (lt : n < 128) (byte : b < 2) :
    let a := State.scratchAddr tile (sBase r (wStream w)) + 2 * ((elemAt r w v.iter).toNat + n) + b
    (effVsth tile s r w v).s.mem.byte a =
      if active s tile w n then (leBytes 2 (packedLane (vreg s tile (wVa w)) n)).getD b 0 else s.mem.byte a := by
  have stored := Memory.byte_writes_lanes wf (lanes := activeLanes s tile w 128) (n := n) (i := b)
    (at_ := fun k => State.scratchAddr tile (sBase r (wStream w)) + 2 * ((elemAt r w v.iter).toNat + k))
    (data := fun k => leBytes 2 (packedLane (vreg s tile (wVa w)) k)) (by simpa using byte)
    (fun k _ ne => by simp only [leBytes_length]; omega)
  simp only [mem_activeLanes, lt, true_and] at stored
  unfold effVsth
  rw [State.writes_mem]
  simp only [State.scratchAddr_add]
  exact stored

/-- VSTA stores bits [39:8] of each active lane in its bank's word of the row, and nothing in another (R136, R142). -/
theorem effVsta_byte (lt : n < 64) (byte : b < 4) :
    let a := State.accAddr tile (rowAt r w v.iter).toNat n + b
    (effVsta tile s r w v).s.mem.byte a =
      if active s tile w n then (leBytes 4 (bits (lane s tile (wVa w) n) 8 32)).getD b 0 else s.mem.byte a := by
  have stored := Memory.byte_writes_lanes wf (lanes := activeLanes s tile w 64) (n := n) (i := b)
    (at_ := State.accAddr tile (rowAt r w v.iter).toNat)
    (data := fun k => leBytes 4 (bits ((vreg s tile (wVa w)).getD k 0) 8 32)) (by simpa using byte)
    (fun k _ ne => by simp only [leBytes_length, State.accAddr]; omega)
  simp only [mem_activeLanes, lt, true_and, getD_vreg lt] at stored
  unfold effVsta
  rw [State.writes_mem]
  exact stored

end

/-! ## Masks -/

section
variable {s : State} (wf : swf 0 s.tiles.masks = true) (tile r w : Nat) (v : VRun)
include wf

/-- VCMP gives an active lane's bit the truth of its comparison, keeps an inactive one's, and clears bits 64 to 127 (R125). -/
theorem effVcmp_mask {n : Nat} (lt : n < 128) : (maskReg (effVcmp tile s r w v).s tile (wVd w % 8)).getLsbD n =
    (decide (n < 64) && (if active s tile w n then
        vcmpHolds (bits w 32 3) (cmpVal (laneVal s tile (wVa w) n) (laneVal s tile (wVb w) n))
      else (maskReg s tile (wVd w % 8)).getLsbD n)) := by
  unfold effVcmp
  rw [maskReg_putMask wf, getLsbD_maskOf _ _ lt]
  by_cases low : n < 64
  · rw [w40Val_vreg low, w40Val_vreg low]
  · rw [decide_eq_false low, Bool.false_and, Bool.false_and]

/-- MLOGIC's four operations (R135). -/
theorem effMlogic_mask : let a := maskReg s tile (wVa w % 8)
    let b := maskReg s tile (wVb w % 8)
    maskReg (effMlogic tile s r w v).s tile (wVd w % 8) = (if bits w 32 2 = 0 then a &&& b else if bits w 32 2 = 1 then a ||| b
      else if bits w 32 2 = 2 then a ^^^ b else a &&& ~~~b) := by
  unfold effMlogic
  dsimp only
  rw [maskReg_putMask wf]
  rcases bits w 32 2 with _ | _ | _ | n
  · rfl
  · rfl
  · rfl
  · simp

end

/-! ## The commands -/

section
variable {s : State} {tile : Nat} {j : Job} {q : Queue} {i : Nat} {f : Flight} {v : VRun} {w op : Nat} {c : Instr}
  {eff : State → Nat → Nat → VRun → VEff} {g : Nat → Nat} (h : Issues s tile j q i f v w) (is : wOp w = op)
  (command : exec c s = done s (vecIssue [op] tile eff s))
include h is command

/-- The lanes of VD after a load. -/
theorem Issues.lanesTake_of_load (load : inList op [0x01, 0x02, 0x05] = true)
    (takes : LanesTake (s.seen (racing j q.ref)) (eff (s.seen (racing j q.ref)) f.record w v).s tile w g) :
    ∃ t, exec c s = .next t ∧ LanesTake s t tile w g := by
  obtain ⟨t, e, tiles, -⟩ := h.exec_tiles is command
  rw [loadView, if_pos load] at tiles
  exact ⟨t, e, takes.of_tiles rfl tiles⟩

/-- The lanes of VD after an instruction that loads nothing. -/
theorem Issues.lanesTake (plain : inList op [0x01, 0x02, 0x05] = false) (takes : LanesTake s (eff s f.record w v).s tile w g) :
    ∃ t, exec c s = .next t ∧ LanesTake s t tile w g := by
  obtain ⟨t, e, tiles, -⟩ := h.exec_of_store is command plain
  exact ⟨t, e, takes.of_tiles rfl tiles⟩

/-- The packed lanes of VD after a load. -/
theorem Issues.halvesTake_of_load (load : inList op [0x01, 0x02, 0x05] = true)
    (keeps : ∀ u : State, (eff u f.record w v).s.mem = u.mem)
    (takes : HalvesTake (s.seen (racing j q.ref)) (eff (s.seen (racing j q.ref)) f.record w v).s tile w g) :
    ∃ t, exec c s = .next t ∧ t.mem = s.mem ∧ HalvesTake s t tile w g := by
  obtain ⟨t, e, tiles, mem⟩ := h.exec_tiles is command
  rw [loadView, if_pos load] at tiles
  exact ⟨t, e, mem keeps, takes.of_tiles rfl tiles⟩

/-- The packed lanes of VD after an instruction that loads nothing. -/
theorem Issues.halvesTake (plain : inList op [0x01, 0x02, 0x05] = false) (keeps : (eff s f.record w v).s.mem = s.mem)
    (takes : HalvesTake s (eff s f.record w v).s tile w g) :
    ∃ t, exec c s = .next t ∧ t.mem = s.mem ∧ HalvesTake s t tile w g := by
  obtain ⟨t, e, tiles, mem⟩ := h.exec_of_store is command plain
  exact ⟨t, e, mem.trans keeps, takes.of_tiles rfl tiles⟩

end

/-! ## The obligations -/

/-- Settles O51: the lanes that VMOVI and VADDH give, and the mask that VCMP gives, each by its effect. -/
theorem maskRegistersGovern : Obligations.MaskRegistersGovern := by
  unfold Obligations.MaskRegistersGovern
  intro tile s j q i f v w h regs masks on
  refine ⟨Nat.mod_lt _ (Nat.two_pow_pos 3), ?vmovi, ?vaddh, ?vcmp⟩
  case vmovi =>
    intro is
    obtain ⟨t, e, takes⟩ := h.lanesTake (c := .vmovi tile) (g := fun _ => bits w 32 32 * 256) is rfl rfl (lanesTake_laneOp regs _)
    refine ⟨t, e, fun n lt => (takes n lt).trans ?_⟩
    have word : bits w 32 32 < 2 ^ 32 := Nat.mod_lt _ (Nat.two_pow_pos 32)
    have fits : bits w 32 32 * 256 % 2 ^ 40 = bits w 32 32 * 256 := Nat.mod_eq_of_lt (by omega)
    simp only [fits]
    rfl
  case vaddh =>
    intro is
    obtain ⟨t, e, -, takes⟩ := h.halvesTake is (c := .vaddh tile) rfl rfl rfl (halvesTake_packed regs _)
    exact ⟨t, e, fun n lt off => (takes n lt).trans (if_neg (Bool.not_eq_true _ ▸ off))⟩
  case vcmp =>
    intro is
    obtain ⟨t, e, tiles, -⟩ := h.exec_of_store is (c := .vcmp tile) rfl rfl
    refine ⟨t, e, fun n lt => ?_⟩
    rw [maskReg_of_tiles tiles]
    exact effVcmp_mask masks tile f.record w v lt

/-- Settles O50: what each instruction's effect gives, one lemma a kind of effect, put together. -/
theorem vectorLaneResults : Obligations.VectorLaneResults := by
  unfold Obligations.VectorLaneResults
  constructor
  · intro tile s j q i f v w h regs mem gives
    have seen : (s.seen (racing j q.ref)).mem.wf = true := State.wf_seen _ mem
    refine ⟨fun p command is => ?_, fun is => h.lanesTake is rfl rfl (lanesTake_signOp regs),
      fun is => h.lanesTake is rfl rfl (lanesTake_signOp regs), fun is => h.lanesTake is rfl rfl (lanesTake_laneOp regs _),
      fun is => h.lanesTake is rfl rfl (lanesTake_vsel regs), fun is => h.lanesTake is rfl rfl (lanesTake_vcvti regs),
      fun is => h.lanesTake is rfl rfl (lanesTake_arith regs),
      fun is => h.lanesTake_of_load is rfl rfl (lanesTake_vlda (s := s.seen (racing j q.ref)) regs seen),
      fun is => h.lanesTake is rfl rfl (lanesTake_reduceLanes regs _)⟩
    obtain ⟨exec_eq, plain⟩ := exec_laneArithmetic s p command
    exact h.lanesTake is exec_eq plain (lanesTake_arith regs)
  · intro tile s j q i f v w h regs masks mem e base fp half gives givesHalves
    refine ⟨?vnop, ?vld, ?vldh, ?packed, ?vst, ?vsth, ?vsta, ?mlogic, ?vrmax⟩
    case vnop => exact fun is => h.exec_of_store is (c := .vnop tile) rfl rfl
    case vld => exact fun is => h.lanesTake_of_load is rfl rfl (lanesTake_laneOp (s := s.seen (racing j q.ref)) regs _)
    case vldh => exact fun is => h.halvesTake_of_load is rfl rfl (fun _ => rfl) (halvesTake_vldh (s := s.seen (racing j q.ref)) regs)
    case packed =>
      simp only [List.forall_mem_cons, List.not_mem_nil, false_imp_iff, implies_true, and_true]
      exact ⟨fun is => h.halvesTake is rfl rfl rfl (halvesTake_packed regs _), fun is => h.halvesTake is rfl rfl rfl (halvesTake_packed regs _),
        fun is => h.halvesTake is rfl rfl rfl (halvesTake_packed regs _)⟩
    case vst =>
      intro is o out
      obtain ⟨t, e, tiles, mem⟩ := h.exec_of_store is (c := .vst tile) rfl rfl
      rw [effVst_s] at tiles mem
      exact ⟨t, e, mem, tiles.trans (State.writes_tiles ..)⟩
    case vsth =>
      intro is
      obtain ⟨t, e, tiles, after⟩ := h.exec_of_store is (c := .vsth tile) rfl rfl
      refine ⟨t, e, tiles.trans (State.writes_tiles ..), fun n lt b byte => ?_⟩
      rw [after]
      exact effVsth_byte mem tile f.record w v lt byte
    case vsta =>
      intro is
      obtain ⟨t, e, tiles, after⟩ := h.exec_of_store is (c := .vsta tile) rfl rfl
      refine ⟨t, e, tiles.trans (State.writes_tiles ..), fun n lt b byte => ?_⟩
      rw [after]
      exact effVsta_byte mem tile f.record w v lt byte
    case mlogic =>
      intro is
      obtain ⟨t, e, tiles, after⟩ := h.exec_of_store is (c := .mlogic tile) rfl rfl
      refine ⟨t, e, after, ?_⟩
      rw [maskReg_of_tiles tiles]
      exact effMlogic_mask masks tile f.record w v
    case vrmax => exact fun is => h.lanesTake is rfl rfl (lanesTake_reduceLanes regs _)

end Sys2Proof.Machine
end

section
/-! SUPPORT. The starts of VPROG_LOAD and VRUN (R47, R101, R128-R131). -/
namespace Sys2Proof.Machine

/-! ## Words copied into an instruction store (R128) -/

/-- Words copied stand from the first on, and every other word is as it was. -/
theorem sget_storeWords {l : List (Nat × BitVec 64)} (wf : swf 0 l = true) (base : Nat) (ws : List Nat) :
    (∀ i < ws.length, sget 0 (storeWords l base ws) (base + i) = BitVec.ofNat 64 (ws.getD i 0)) ∧
      ∀ a, (a < base ∨ base + ws.length ≤ a) → sget 0 (storeWords l base ws) a = sget 0 l a := by
  induction ws generalizing l base with
  | nil => exact ⟨fun i lt => absurd lt (Nat.not_lt_zero i), fun _ _ => rfl⟩
  | cons w ws ih =>
    obtain ⟨copied, kept⟩ := ih (swf_sput base (BitVec.ofNat 64 w) wf) (base + 1)
    rw [List.length_cons, storeWords]
    refine ⟨fun i lt => ?_, fun a out => ?_⟩
    · cases i with
      | zero => rw [kept (base + 0) (.inl (Nat.lt_succ_self base)), Nat.add_zero, sget_sput_same wf, List.getD_cons_zero]
      | succ i => rw [show base + (i + 1) = base + 1 + i by omega, copied i (by omega), List.getD_cons_succ]
    · rw [kept a (by omega), sget_sput_other (by omega)]

/-! ## The start of a tile's command (R47, R101) -/

/-- Only a tile's queue accepts the vector commands (R127). -/
theorem engTile_of_accepts {e k : Nat} (known : accepts e k = true) (vector : k = 0x20 ∨ k = 0x21) : e = engTile := by
  unfold accepts at known
  split at known
  · rfl
  all_goals
    simp only [Bool.or_eq_true, Bool.and_eq_true, decide_eq_true_eq, beq_iff_eq, or_false, Bool.false_eq_true] at known
    omega

/-- A start that leaves memory as it sees it gives what it gives beside the writes in flight, with memory unchanged (R101). -/
theorem begin_eq_seen {sp : CmdSpec} {s : State} {j : Job} {q : Queue} {r : Nat}
    (keeps : ∀ u : State, (sp.start u j q r (newFlight q r)).s.mem = u.mem) :
    let st := sp.start (s.seen (racing j q.ref)) j q r (newFlight q r)
    begin sp s j q r = { st with s := { st.s with mem := s.mem } } := by
  unfold begin
  cases racing j q.ref with
  | nil => rw [State.seen_nil, ← keeps s]
  | cons w ws => rfl

/-- A tile's queue changed leaves the writes in flight of Movers. -/
theorem racing_setQueue {j : Job} {p : Queue} (tile : p.ref.eng = engTile) : racing (j.setQueue p) p.ref = racing j p.ref := by
  have movers : (j.setQueue p).queues.filter (fun x => x.ref.eng == engMover) = j.queues.filter (fun x => x.ref.eng == engMover) := by
    unfold Job.setQueue
    dsimp only
    induction j.queues with
    | nil => rfl
    | cons x t ih =>
      rw [List.map_cons]
      by_cases own : x.ref = p.ref
      · rw [if_pos (by simpa using own), List.filter_cons_of_neg (by simp [tile, engTile, engMover]),
          List.filter_cons_of_neg (by simp [own, tile, engTile, engMover]), ih]
      · rw [if_neg (by simpa using own), List.filter_cons, List.filter_cons, ih]
  unfold racing
  rw [if_pos tile, if_pos tile]
  dsimp only
  rw [movers]

theorem fetched_eq (s : State) (j : Job) (q : Queue) (r : Nat) : ∃ js ts, fetched s j q r = { s with jobs := js, turns := ts } := by
  unfold fetched State.takeTurn
  split
  · exact ⟨_, _, rfl⟩
  · exact ⟨_, s.turns, rfl⟩

/-- A record taken up is not seen in memory. -/
theorem num_seen_fetched (s : State) (j : Job) (q : Queue) (r : Nat) (ws : List (Nat × Bytes)) (a n : Nat) :
    ((fetched s j q r).seen ws).num a n = (s.seen ws).num a n := by
  obtain ⟨js, ts, e⟩ := fetched_eq s j q r
  rw [e]
  rfl

section
variable {ref : QRef} {s : State} {j : Job} {q : Queue} {l : ListRef} {r : Nat}

/-- A started command that does not act at once joins the end of its queue's flights (R47). -/
theorem AtHead.launch_of_lasting (head : AtHead ref s j q l r) {w : Nat} {st : Started} (lasts : st.instant = false)
    (jobs : st.s.jobs = (fetched s j q w).jobs) (running : st.s.running = s.running) :
    let t := launch (fetched s j q w) j.id ref st
    t.mem = st.s.mem ∧ t.tiles = st.s.tiles ∧ t.running = some j.id ∧
      ∃ p, t.queueOf j.id ref = some p ∧ p.flight = q.flight ++ [st.flight] := by
  have queue : st.s.queueOf j.id ref = some (taken q w) := (State.queueOf_of_jobs jobs).trans (head.queueOf_fetched w)
  have name := Job.queue?_ref head.queue
  obtain ⟨x, tag⟩ := st.s.noteTag_eq (hPhase st.flight.record)
  let p : Queue := { State.advance q st.flight.last with flight := q.flight ++ [st.flight] }
  have started : launch (fetched s j q w) j.id ref st = ({ st.s with pwr := x } : State).updJob j.id (fun k => k.setQueue p) := by
    unfold State.queueOf at queue
    simp only [launch, queue, lasts, Bool.false_and, Bool.false_eq_true, if_false, tag, advance_taken, advance_flight, p]
  intro t
  have joins : t.queueOf j.id ref = some p := by
    unfold t
    rw [started]
    exact State.queueOf_setQueue (p := taken q w) queue (by simp [p, name])
  unfold t at joins ⊢
  rw [started] at joins ⊢
  exact ⟨rfl, rfl, running.trans (State.running_of_runJob head.job), p, joins, rfl⟩

/-- A tile's command that lasts, and whose start changes nothing but the tile: what it leaves, its start on memory as it sees it. -/
theorem StartsNow.exec_lasting {sp : CmdSpec} {i : Instr} (h : StartsNow sp ref s j q l r) (command : (i, sp) ∈ engineCommands ref)
    (tile : ref.eng = engTile) (noItem : sp.item s r = 0) {x : State → Tiles} {f : State → Flight}
    (start : ∀ u, sp.start u (j.setQueue (taken q r)) (taken q r) r (newFlight (taken q r) r) = ⟨{ u with tiles := x u }, f u, false⟩) :
    let u := (fetched s j q r).seen (racing j ref)
    ∃ t, exec i s = .next t ∧ t.mem = s.mem ∧ t.tiles = x u ∧
      ∃ k p, t.runJob = some k ∧ k.queue? ref = some p ∧ p.flight = q.flight ++ [f u] := by
  intro u
  have name := Job.queue?_ref h.passes.head.queue
  have race : racing (j.setQueue (taken q r)) (taken q r).ref = racing j ref := by
    rw [racing_setQueue (by rw [taken_ref, name, tile]), taken_ref, name]
  have st : startOf sp s j q r = ⟨{ u with tiles := x u, mem := s.mem }, f u, false⟩ := by
    rw [startOf, atStart, CmdSpec.whole_of_noItem noItem, begin_eq_seen fun v => by rw [start v], race, start]
    simp only [u, fetched, State.updJob_mem, State.takeTurn_mem]
  obtain ⟨mem, tiles, running, p, queue, flight⟩ := h.passes.head.launch_of_lasting (w := r) (st := startOf sp s j q r) (by rw [st])
    (by rw [st]; rfl) (by rw [st]; simp [u, fetched, State.seen])
  obtain ⟨k, runs, found⟩ := State.exists_runJob running queue
  have answer := exec_of_startsNow command h
  rw [CmdSpec.whole_of_noItem noItem] at answer
  exact ⟨_, answer, mem.trans (by rw [st]), tiles.trans (by rw [st]), k, p, runs, found, by rw [flight, st]⟩

/-- A record that its command may not fetch yet stays in its queue (R130). -/
theorem issue_of_noFetch {sp : CmdSpec} (head : AtHead ref s j q l r) (no : sp.fetch s j q r = false) : issue sp ref s = s := by
  obtain ⟨t, lists⟩ := head.lists
  simp [issue, head.job, head.queue, lists, head.record, no]

theorem AtHead.record_lt (head : AtHead ref s j q l r) : r < 2 ^ 512 := by
  have lt := State.num_lt s (l.addr + 64 * q.pos) 64
  rwa [head.record, show 8 * 64 = 512 from rfl] at lt

theorem AtHead.record_newFlight (head : AtHead ref s j q l r) (p : Queue) : (newFlight p r).record = r := Nat.mod_eq_of_lt head.record_lt

end

/-! ## The obligation -/

/-- Settles O42: both starts by `StartsNow.exec_lasting`, and a VRUN not fetched beside a VPROG_LOAD of its list. -/
theorem programsLoadAndRun : Obligations.ProgramsLoadAndRun := by
  unfold Obligations.ProgramsLoadAndRun
  refine ⟨fun ref s j q l r => ⟨fun h wf => ?load, fun h => ?run⟩, fun ref s j q l r head ⟨f, mem, load, list⟩ => ?waits⟩
  case load =>
    have name := Job.queue?_ref h.passes.head.queue
    have tile := engTile_of_accepts h.passes.known (.inl h.passes.kind)
    let words (u : State) : List Nat := vpWords u (taken q r) r
    obtain ⟨t, e, mem, tiles, -⟩ := h.exec_lasting (i := .vprogLoad ref) (by simp [engineCommands]) tile rfl
      (x := fun u => { u.tiles with istore := storeWords u.tiles.istore (ref.inst * 256 + bits r 128 8) (words u) })
      (fun u => by rw [← name]; rfl)
    obtain ⟨copied, kept⟩ := sget_storeWords wf (ref.inst * 256 + bits r 128 8) (words ((fetched s j q r).seen (racing j ref)))
    have store : t.tiles.istore = storeWords s.tiles.istore (ref.inst * 256 + bits r 128 8) (words ((fetched s j q r).seen (racing j ref))) := by
      rw [tiles]
      simp [fetched]
    have count (u : State) : (words u).length = bits r 136 9 := by simp [words, vpWords]
    rw [count] at copied kept
    refine ⟨t, e, mem, fun i lt => ?_, fun a out => by rw [store, kept a out]⟩
    rw [store, copied i lt]
    simp [words, vpWords, List.getD_eq_getElem?_getD, lt, num_seen_fetched, name]
  case run =>
    have name := Job.queue?_ref h.passes.head.queue
    have tile := engTile_of_accepts h.passes.known (.inr h.passes.kind)
    obtain ⟨t, e, mem, -, k, p, runs, found, flight⟩ := h.exec_lasting (i := .vrun ref) (by simp [engineCommands]) tile rfl
      (x := State.tiles) (fun _ => rfl)
    exact ⟨t, k, p, _, _, e, mem, runs, found, flight, h.passes.head.record_newFlight (taken q r), rfl, congrArg QRef.inst name, rfl, rfl, rfl⟩
  case waits =>
    have no : vrFetch s j q r = false := by
      rw [vrFetch, List.all_eq_false]
      exact ⟨f, mem, by simp [load, list, head.list]⟩
    rw [exec_engineCommand (ref := ref) s (.vrun ref, vrSpec) (by simp [engineCommands]), issue_of_noFetch head no, done_self]

end Sys2Proof.Machine
end

section
/-! SUPPORT. A part of every job, followed through the updates that leave it (R55-R61, R235). -/
namespace Sys2Proof.Machine

namespace State

/-! ## A part of every job -/

/-- The job that runs, and a part of every job beside its ID. -/
def jobsAs {β : Type} (v : Job → β) (s : State) : Option Nat × List (Nat × β) := (s.running, s.jobs.map (fun j => (j.id, v j)))

section
variable {β : Type} {v : Job → β} {s t : State} {jid : Nat} {j : Job}

theorem jobsAs_of_jobs (run : t.running = s.running) (jobs : t.jobs = s.jobs) : t.jobsAs v = s.jobsAs v := by
  rw [jobsAs, run, jobs, jobsAs]

theorem jobsAs_ite {c : Prop} [Decidable c] {a b : State} (ha : a.jobsAs v = s.jobsAs v) (hb : b.jobsAs v = s.jobsAs v) :
    (if c then a else b).jobsAs v = s.jobsAs v := by
  split
  · exact ha
  · exact hb

theorem running_of_jobsAs (same : t.jobsAs v = s.jobsAs v) : t.running = s.running := congrArg Prod.fst same

/-- Updates of jobs that keep their IDs and the part. -/
theorem jobsAs_mapJobs {f : Job → Job} (run : t.running = s.running) (jobs : t.jobs = s.jobs.map f)
    (id : ∀ j, (f j).id = j.id := by exact fun _ => rfl) (part : ∀ j, v (f j) = v j := by exact fun _ => rfl) : t.jobsAs v = s.jobsAs v := by
  simp only [jobsAs, run, jobs, List.map_map]
  exact congrArg _ (List.map_congr_left fun j _ => by rw [Function.comp_apply, id, part])

theorem jobsAs_updJob {f : Job → Job} (id : ∀ j, (f j).id = j.id := by exact fun _ => rfl)
    (part : ∀ j, v (f j) = v j := by exact fun _ => rfl) : (s.updJob jid f).jobsAs v = s.jobsAs v :=
  jobsAs_mapJobs rfl rfl (fun j => by split <;> [exact id j; rfl]) (fun j => by split <;> [exact part j; rfl])

theorem map_job? (v : Job → β) (s : State) (jid : Nat) :
    (s.job? jid).map (fun j => (j.id, v j)) = (s.jobsAs v).2.find? (fun p => p.1 == jid) :=
  (List.find?_map (p := fun p : Nat × β => p.1 == jid)).symm

/-- A job is found again with the part that it had. -/
theorem exists_job_of_jobsAs (same : t.jobsAs v = s.jobsAs v) (job : s.job? jid = some j) : ∃ k, t.job? jid = some k ∧ v k = v j := by
  have found := map_job? v t jid
  rw [same, ← map_job?, job] at found
  obtain ⟨k, job', pair⟩ := Option.map_eq_some_iff.1 found
  exact ⟨k, job', congrArg Prod.snd pair⟩

theorem exists_runJob_of_jobsAs (same : t.jobsAs v = s.jobsAs v) (run : s.runJob = some j) : ∃ k, t.runJob = some k ∧ v k = v j := by
  obtain ⟨k, job, part⟩ := exists_job_of_jobsAs same (job?_of_runJob run)
  exact ⟨k, by rw [runJob, running_of_jobsAs same, running_of_runJob run, Option.bind_some, job], part⟩

/-! ## What changes memory, counters or ports alone -/

theorem store_jobsAs (a : Nat) (bs : Bytes) : (s.store a bs).jobsAs v = s.jobsAs v := by
  obtain ⟨_, _, e⟩ := s.store_eq a bs
  rw [e]
  rfl

theorem correctParts_jobsAs (ws : List (Nat × Bytes)) : (s.correctParts ws).jobsAs v = s.jobsAs v := by
  obtain ⟨_, _, e⟩ := s.correctParts_eq ws
  rw [e]
  rfl

theorem commit_jobsAs (ws : List (Nat × Bytes)) : (s.commit ws).1.jobsAs v = s.jobsAs v := by
  obtain ⟨_, e⟩ := s.commit_eq ws
  rw [e]
  rfl

theorem meetBad_jobsAs (us : List (Nat × Mark)) : (s.meetBad jid us).jobsAs v = s.jobsAs v := by
  obtain ⟨_, _, _, e⟩ := s.meetBad_eq jid us
  rw [e]
  rfl

theorem poisonUnits_jobsAs (us : List Nat) : (s.poisonUnits us).jobsAs v = s.jobsAs v := by
  obtain ⟨_, e⟩ := s.poisonUnits_eq us
  rw [e]
  rfl

theorem countEvent_jobsAs (ref : QRef) (res : Res) : (s.countEvent ref res).jobsAs v = s.jobsAs v := by
  obtain ⟨_, e⟩ := s.countEvent_eq ref res
  rw [e]
  rfl

theorem signal_jobsAs (op c n : Nat) : (s.signal op c n).jobsAs v = s.jobsAs v :=
  jobsAs_of_jobs (signal_running ..) (signal_jobs ..)

theorem send_jobsAs (dst : Nat) (i : Instr) : (s.send dst i).jobsAs v = s.jobsAs v := send_keeps (fun _ => rfl) s dst i

/-! ## Reports, for a part that no queue is in -/

section
variable (queue : ∀ j q, v (j.setQueue q) = v j)
include queue

theorem putRecord_jobsAs (q : Queue) (crec : Nat) : (s.putRecord jid q crec).jobsAs v = s.jobsAs v := by
  have counted := countClass_eq (s.store (q.ringAddr + 32 * (q.wcount % 2 ^ (q.ringLog2 + 4)))
    (leBytes 32 (crec + (if (q.wcount / 2 ^ (q.ringLog2 + 4)) % 2 = 0 then 1 else 0) * 2 ^ 63))) (crec % 2 ^ 16)
  obtain ⟨_, e⟩ := counted
  unfold putRecord
  dsimp only
  rw [e]
  refine (jobsAs_updJob (id := fun j => ?_) (part := fun j => ?_)).trans (store_jobsAs ..)
  · split <;> rfl
  · split
    · exact queue ..
    · rfl

theorem report_jobsAs (ref : QRef) (need : Bool) (h : Held) : (s.report jid ref need h).jobsAs v = s.jobsAs v := by
  unfold report
  split
  · rfl
  · split
    · exact jobsAs_updJob (part := fun _ => queue ..)
    · have written (q : Queue) : (if need = true then s.putRecord jid q h.crec else s).jobsAs v = s.jobsAs v := by
        split
        · exact putRecord_jobsAs queue ..
        · rfl
      dsimp only
      split <;> exact (signal_jobsAs ..).trans (written _)

theorem reportDone_jobsAs (ref : QRef) (r : Nat) (res : Res) : (s.reportDone jid ref r res).jobsAs v = s.jobsAs v := by
  obtain ⟨h, -, e⟩ := s.reportDone_eq jid ref r res
  rw [e]
  exact report_jobsAs queue ..

theorem secondRecord_jobsAs (d : Deferral) (code arg : Nat) : (s.secondRecord jid d code arg).jobsAs v = s.jobsAs v :=
  report_jobsAs queue ..

end

/-! ## Pins, for a part that no stage is in -/

section
variable (stage : ∀ j t, v (j.setStage t) = v j)
include stage

theorem updStage_jobsAs (idx : Nat) (f : Stage → Stage) : (s.updStage jid idx f).jobsAs v = s.jobsAs v := by
  unfold updStage
  split
  · rfl
  · unfold putStage
    dsimp only
    have put (t : Stage) : (s.updJob jid (fun j => j.setStage t)).jobsAs v = s.jobsAs v := jobsAs_updJob (part := fun _ => stage ..)
    split
    · exact put _
    · exact (jobsAs_of_jobs rfl rfl).trans (put _)

theorem unpin_jobsAs (step : Nat) : (s.unpin jid step).jobsAs v = s.jobsAs v := by
  unfold unpin
  split
  · rfl
  · exact foldl_keeps (v := jobsAs v) (fun t _ => updStage_jobsAs (s := t) stage ..) _ s

end
end

end State
end Sys2Proof.Machine
end

section
/-! SUPPORT. The step boundary (R231): when it passes, and what it leaves. -/
namespace Sys2Proof.Machine

/-! ## The conditions (R231, R248) -/

theorem gateReady_iff (j : Job) : gateReady j = true ↔ j.numerics.gate = .opened ∨ j.numerics.gate = .skip ∨
    (j.numerics.gate = .undecided ∧ j.strand.pipe.normWait = false) := by
  unfold gateReady
  cases j.numerics.gate <;> simp

theorem stageDone_iff (p : Pipe) (t : Stage) : stageDone p t = true ↔
    if p.fwdOnly = true then p.steps * p.mbPerStep + p.mbPerStep ≤ t.fDone
    else p.steps * p.mbPerStep + p.mbPerStep ≤ t.wDone ∧ t.optDone = t.optGroups := by
  unfold stageDone
  cases p.fwdOnly
  · simp only [Bool.false_eq_true, if_false, Bool.and_eq_true, decide_eq_true_eq, beq_iff_eq]
    rfl
  · simp only [if_true, decide_eq_true_eq]
    rfl

theorem boundaryHere_iff (s : State) (j : Job) : boundaryHere s j = true ↔ j.strand.pipe.st = .running ∧
    (∀ t ∈ j.strand.stages, stageDone j.strand.pipe t = true) ∧ gateReady j = true ∧
    ctrGe (s.ctr j.strand.pipe.stepCtr) (BitVec.ofNat 32 (j.strand.pipe.steps + 1)) = true := by
  simp [boundaryHere, and_assoc]

/-! ## What comes before the next step begins -/

/-- What only the beginning of the next step changes: state, count, poisoned steps and STEP_OVERLAP of the pipeline, and how many
queues the job has. -/
def Job.pace (j : Job) : PipeState × Nat × List Nat × Bool × Nat :=
  (j.strand.pipe.st, j.strand.pipe.steps, j.strand.pipe.poisoned, j.strand.pipe.overlap, j.queues.length)

theorem Job.pace_setQueue (j : Job) (q : Queue) : (j.setQueue q).pace = j.pace := by simp [Job.pace, Job.setQueue]

theorem Job.pace_setStage (j : Job) (t : Stage) : (j.setStage t).pace = j.pace := rfl

namespace State
section
variable {s : State} {jid : Nat}

theorem updateSlots_jobsAs {β : Type} {v : Job → β} (j : Job) : (s.updateSlots j).jobsAs v = s.jobsAs v := by
  refine foldl_keeps (v := jobsAs v) (fun t i => ?_) _ s
  exact store_jobsAs ..

theorem reportGroup_pace (g : Group) (step : Nat) : (s.reportGroup jid g step).jobsAs Job.pace = s.jobsAs Job.pace := by
  unfold reportGroup
  split
  · rfl
  · refine foldl_keeps (v := jobsAs Job.pace) (fun t u => ?_) _ s
    exact Eq.trans jobsAs_updJob (store_jobsAs (s := t) u.statusAddr _)

theorem reportGroups_pace (j : Job) (step : Nat) : (s.reportGroups j step).1.jobsAs Job.pace = s.jobsAs Job.pace :=
  foldl_keeps (v := jobsAs Job.pace) (fun _ _ => reportGroup_pace ..) _ s

theorem dropDeferral_pace (k : DeferKind) : (s.dropDeferral jid k).jobsAs Job.pace = s.jobsAs Job.pace :=
  jobsAs_updJob

theorem applyPolicy_pace (d : Deferral) : (s.applyPolicy jid d).jobsAs Job.pace = s.jobsAs Job.pace := by
  have policy (t : State) (p ib : Nat) : (t.updPipe jid (fun x => { x with policy := p, iblock := ib })).jobsAs Job.pace = t.jobsAs Job.pace :=
    jobsAs_updJob
  unfold applyPolicy
  dsimp only
  split
  · exact (secondRecord_jobsAs Job.pace_setQueue ..).trans (dropDeferral_pace _)
  · exact (secondRecord_jobsAs Job.pace_setQueue ..).trans ((policy ..).trans (dropDeferral_pace _))

theorem applyGear_pace (d : Deferral) : (s.applyGear jid d).jobsAs Job.pace = s.jobsAs Job.pace := by
  rw [applyGear_eq]
  dsimp only
  split
  · exact (secondRecord_jobsAs Job.pace_setQueue ..).trans (dropDeferral_pace _)
  · exact (secondRecord_jobsAs Job.pace_setQueue ..).trans
      (Eq.trans (jobsAs_mapJobs (s := s.dropDeferral jid .gearTable) rfl (by rfl)) (dropDeferral_pace .gearTable))

theorem applyAtStep_pace : (s.applyAtStep jid).jobsAs Job.pace = s.jobsAs Job.pace := by
  unfold applyAtStep
  refine foldl_keeps (v := jobsAs Job.pace) (fun t j => foldl_keeps (v := jobsAs Job.pace) (fun u d => ?_) _ t) _ s
  split
  · split
    · exact applyPolicy_pace d
    · rfl
  · split
    · exact applyGear_pace d
    · rfl
  · rfl

theorem judgeLag_pace (step : Nat) : (s.judgeLag jid step).jobsAs Job.pace = s.jobsAs Job.pace := by
  have lock (f : Job → Lock) : (s.updJob jid (fun j => { j with lock := f j })).jobsAs Job.pace = s.jobsAs Job.pace :=
    jobsAs_updJob
  unfold judgeLag
  split
  · rfl
  · exact jobsAs_ite (lock _) (jobsAs_ite (lock _) (jobsAs_ite ((send_jobsAs ..).trans (lock _)) (lock _)))

/-! ## The next step begins -/

theorem exists_job_nextStep {k : Job} (job : s.job? jid = some k) : ∃ l, (s.nextStep jid).job? jid = some l ∧
    l.pace = (k.strand.pipe.st, k.strand.pipe.steps + 1, k.strand.pipe.poisoned, k.strand.pipe.overlap, k.queues.length) ∧
    l.strand.pipe.replay = false ∧ l.numerics.gate = .undecided ∧ (∀ u ∈ l.strand.stages, u.optNext = 0 ∧ u.optDone = 0) ∧
    (k.strand.pipe.overlap = false → ∀ g ∈ l.strand.groups, g.fwd = 0 ∧ g.bwd = 0) := by
  have found : (s.nextStep jid).job? jid = _ := job?_updJob s jid _ (by exact fun _ => rfl)
  rw [found, job]
  refine ⟨_, rfl, rfl, rfl, rfl, fun u mem => ?_, fun no g mem => ?_⟩
  · obtain ⟨t, -, rfl⟩ := List.mem_map.1 mem
    exact ⟨rfl, rfl⟩
  · obtain ⟨h, -, rfl⟩ := List.mem_map.1 mem
    rw [no]
    exact ⟨rfl, rfl⟩

end
end State

/-! ## The boundary -/

theorem stepBoundary_of_not {s : State} {j : Job} (strand : strandJob s = some j) (no : boundaryHere s j = false) : stepBoundary s = s := by
  simp only [stepBoundary, strand, no, Bool.not_false, if_true]

/-- A boundary that passes is the next step's beginning, in a state that has every job's pace as before. -/
theorem stepBoundary_of_here {s : State} {j : Job} (strand : strandJob s = some j) (here : boundaryHere s j = true) :
    ∃ u : State, stepBoundary s = u.nextStep j.id ∧ u.jobsAs Job.pace = s.jobsAs Job.pace := by
  simp only [stepBoundary, strand, here, Bool.not_true, Bool.false_eq_true, if_false]
  have lock (t : State) (f : Job → Lock) : (t.updJob j.id (fun k => { k with lock := f k })).jobsAs Job.pace = t.jobsAs Job.pace :=
    State.jobsAs_updJob
  exact ⟨_, rfl, (State.judgeLag_pace _).trans (State.applyAtStep_pace.trans ((lock _ _).trans
    ((State.reportGroups_pace j _).trans ((State.unpin_jobsAs Job.pace_setStage _).trans (State.updateSlots_jobsAs j)))))⟩

theorem runJob_of_strandJob {s : State} {j : Job} (strand : strandJob s = some j) : s.runJob = some j := by
  unfold strandJob at strand
  split at strand
  · cases strand
  · exact strand

/-- Settles O57: the boundary's conditions read off the model's, and what a boundary that passes leaves by `exists_job_nextStep`. -/
theorem stepBoundaryClosesTheStep : Obligations.StepBoundaryClosesTheStep := by
  unfold Obligations.StepBoundaryClosesTheStep
  intro s j strand
  have holds := boundaryHere_iff s j
  simp only [stageDone_iff, gateReady_iff] at holds
  dsimp only
  rw [← holds, Bool.not_eq_true]
  refine ⟨fun no => ?stays, fun here => ?passes⟩
  case stays => exact (congrArg (done s) (stepBoundary_of_not strand no)).trans (done_self s)
  case passes =>
    have run := runJob_of_strandJob strand
    obtain ⟨running, -⟩ := holds.1 here
    obtain ⟨u, boundary, same⟩ := stepBoundary_of_here strand here
    obtain ⟨k, job, pace⟩ := State.exists_job_of_jobsAs same (State.job?_of_runJob run)
    obtain ⟨l, next, paced, replay, gate, stages, groups⟩ := State.exists_job_nextStep job
    simp only [Job.pace, Prod.mk.injEq] at pace paced
    obtain ⟨st, steps, poisoned, overlap, queues⟩ := pace
    obtain ⟨st', steps', poisoned', -, queues'⟩ := paced
    have run' : (settle s (u.nextStep j.id)).runJob = some l := by
      rw [State.runJob, settle_running, show (u.nextStep j.id).running = some j.id from
        (State.running_of_jobsAs same).trans (State.running_of_runJob run)]
      exact next
    refine ⟨_, l, congrArg (done s) boundary, run', steps'.trans (by rw [steps]), st'.trans (st.trans running),
      poisoned'.trans poisoned, replay, gate, queues'.trans queues, stages, fun no => groups (overlap.trans no)⟩

end Sys2Proof.Machine
end

section
/-! SUPPORT. A flit of a job, sent with other jobs in the state (R298-R305): no sending reads or changes a job. -/
namespace Sys2Proof.Machine
namespace State
section
variable (s : State) (js : List Job)

theorem sendIdx_withJobs (n i : Nat) : (s.withJobs js).sendIdx n i = (s.sendIdx n i).withJobs js := by
  unfold sendIdx
  rw [show (s.withJobs js).port n = s.port n from rfl]
  dsimp only
  cases (s.port n).txq[i]? with
  | none => rfl
  | some q => rfl

theorem pumpResend_withJobs (n k : Nat) : (s.withJobs js).pumpResend n k = (s.pumpResend n k).withJobs js := by
  induction k generalizing s with
  | zero => rfl
  | succ k ih =>
    rw [pumpResend, pumpResend, show (s.withJobs js).port n = s.port n from rfl]
    cases (s.port n).resend with
    | nil => rfl
    | cons f t => exact ih ((s.setPort n { s.port n with resend := t, lastFlit := s.now }).emit (.flit n f.flit))

theorem pumpNew_withJobs (n k : Nat) : (s.withJobs js).pumpNew n k = (s.pumpNew n k).withJobs js := by
  induction k generalizing s with
  | zero => rfl
  | succ k ih =>
    rw [pumpNew, pumpNew, show (s.withJobs js).port n = s.port n from rfl]
    split
    · rfl
    · cases arbiter (s.port n) with
      | none => rfl
      | some i =>
        dsimp only
        rw [sendIdx_withJobs, ih]

theorem pump_withJobs (n : Nat) : (s.withJobs js).pump n = (s.pump n).withJobs js := by
  rw [pump, pump, show (s.withJobs js).port n = s.port n from rfl, show dieHeld (s.withJobs js) (portDie n) = dieHeld s (portDie n) from rfl]
  dsimp only
  rw [pumpResend_withJobs, pumpNew_withJobs]
  exact ite_withJobs _ rfl rfl

theorem dealOne_withJobs (b : Bundle) (ps : List Nat) (q : QFlit) : (s.withJobs js).dealOne b ps q = (s.dealOne b ps q).withJobs js := by
  let x := s.dealing b ps
  let b' : Bundle := { x.1 with rot := x.1.rot.set q.vc ((x.1.rot.getD q.vc 0 + 1) % x.2.length) }
  exact pump_withJobs ((s.putBundle b').updPort (dealPort x q.vc) (fun p => { p with txq := p.txq ++ [q] })) js (dealPort x q.vc)

/-- A flit given to its bundle: it waits while the bundle re-forms, else it is dealt (R304). -/
def giveFlit (s : State) (b : Bundle) (ps : List Nat) (q : QFlit) : State :=
  match b.waiting with
  | some ws => s.putBundle { b with waiting := some (ws ++ [q]) }
  | none => s.dealOne b ps q

theorem giveFlit_withJobs (b : Bundle) (ps : List Nat) (q : QFlit) : (s.withJobs js).giveFlit b ps q = (s.giveFlit b ps q).withJobs js := by
  unfold giveFlit
  cases b.waiting with
  | some ws => rfl
  | none => exact dealOne_withJobs ..

/-- A flit put on a mask of ports that can take it is given to a bundle (R303). -/
theorem sendMask_of_usable {m : BitVec 36} {p : Nat} {ps : List Nat} (can : s.usable m = p :: ps) (key : Nat) (f : SpokeFlit) :
    let nm := s.flowModule (p :: ps) key (fSrc f) (fDst f)
    let t : State := { s with spoke := { s.spoke with dealt := s.spoke.dealt + 1 } }
    s.sendMask m key f = some (t.giveFlit (t.bundle m nm) ((p :: ps).filter (fun i => (t.port i).peerMod == nm))
      { vc := lvcChannel (fLvc f), mask := m, flit := f, age := s.spoke.dealt }) := by
  simp only [sendMask, can]
  split
  · next ws waits => simp only [giveFlit, waits]
  · next waits => simp only [giveFlit, waits]

theorem sendMask_withJobs (m : BitVec 36) (key : Nat) (f : SpokeFlit) :
    (s.withJobs js).sendMask m key f = (s.sendMask m key f).map (fun t => t.withJobs js) := by
  cases can : s.usable m with
  | nil =>
    have none_ : s.sendMask m key f = none := by simp only [sendMask, can]
    have none_' : (s.withJobs js).sendMask m key f = none := by simp only [sendMask, show (s.withJobs js).usable m = [] from can]
    rw [none_, none_', Option.map_none]
  | cons p ps =>
    rw [sendMask_of_usable s can, sendMask_of_usable (s.withJobs js) can, Option.map_some, ← giveFlit_withJobs]
    rfl

theorem sendFlow_withJobs (old m : BitVec 36) (f : SpokeFlit) :
    (s.withJobs js).sendFlow old m f = (s.sendFlow old m f).map (fun t => t.withJobs js) := by
  unfold sendFlow
  rw [show (s.withJobs js).flowOn old f = s.flowOn old f from rfl, show (s.withJobs js).spoke = s.spoke from rfl]
  split
  · rfl
  · exact sendMask_withJobs ..

theorem sendJob_withJobs (j : Job) (cls dst vc word pay : Nat) :
    (s.withJobs js).sendJob j cls dst vc word pay = (s.sendJob j cls dst vc word pay).map (fun t => t.withJobs js) := by
  unfold sendJob
  rw [show (s.withJobs js).reachable j cls dst = s.reachable j cls dst from rfl]
  split
  · rfl
  · cases j.route cls dst with
    | none => rfl
    | some r => exact sendFlow_withJobs ..

theorem sendNorm_withJobs (j : Job) (dst : Nat) (poison : Option Nat) (pay : Nat) :
    (s.withJobs js).sendNorm j dst poison pay = (s.sendNorm j dst poison pay).withJobs js := by
  unfold sendNorm
  rw [sendJob_withJobs, Option.getD_map]

theorem sendJob_inner {s t : State} {j : Job} {cls dst vc word pay : Nat} (h : s.sendJob j cls dst vc word pay = some t) :
    t.inner = s.inner := by
  unfold sendJob at h
  split at h
  · cases h
  · cases route : j.route cls dst with
    | none => simp [route] at h
    | some r => simp only [route] at h; exact sendFlow_inner h

theorem sendNorm_inner (j : Job) (dst : Nat) (poison : Option Nat) (pay : Nat) : (s.sendNorm j dst poison pay).inner = s.inner :=
  getD_inner (fun _ => sendJob_inner)

end
end State
end Sys2Proof.Machine
end

section
/-! SUPPORT. The norm exchange (R153, R268-R270, R277, R358): the contribution sent and received, the window, and the total that decides
the gate. -/
namespace Sys2Proof.Machine

/-! ## A completion leaves the gates (R55, R155) -/

/-- The gate of a job's step (R153). -/
def Job.gate (j : Job) : Gate := j.numerics.gate

namespace State
section
variable {s : State} {jid : Nat}

theorem tear_gate (eng : Nat) (ws : List (Nat × Nat)) : (s.tear jid eng ws).jobsAs Job.gate = s.jobsAs Job.gate :=
  jobsAs_updJob

theorem noteWritten_gate (f : Flight) : (s.noteWritten jid f).jobsAs Job.gate = s.jobsAs Job.gate := by
  unfold noteWritten noteSpans
  split
  · rfl
  · exact jobsAs_updJob

theorem land_gate (f : Flight) : (s.land jid f).1.jobsAs Job.gate = s.jobsAs Job.gate :=
  (poisonUnits_jobsAs ..).trans ((noteWritten_gate f).trans ((meetBad_jobsAs ..).trans ((commit_jobsAs ..).trans (correctParts_jobsAs ..))))

theorem counted_gate (ref : QRef) (f : Flight) : (s.counted jid ref f).jobsAs Job.gate = s.jobsAs Job.gate := by
  have slots {α : Type} {g : State → α → State} (step : ∀ t x, (g t x).jobsAs Job.gate = t.jobsAs Job.gate) (l : List α) (t : State) :
      (l.foldl g t).jobsAs Job.gate = t.jobsAs Job.gate := foldl_keeps step l t
  refine (countEvent_jobsAs ..).trans (Eq.trans jobsAs_updJob ((slots ?_ ..).trans (slots ?_ ..)))
  · exact fun _ _ => rfl
  · exact fun _ _ => rfl

theorem poisonMb_gate (stage n : Nat) : (s.poisonMb jid stage n).jobsAs Job.gate = s.jobsAs Job.gate := by
  unfold poisonMb
  split
  · rfl
  · split
    · rfl
    · refine jobsAs_ite rfl ?_
      exact jobsAs_updJob (s := s)

theorem listDone_gate (ref : QRef) (listId : Nat) (tag : Option ItemTag) : (s.listDone jid ref listId tag).jobsAs Job.gate = s.jobsAs Job.gate := by
  unfold listDone
  split
  · refine jobsAs_ite rfl ?_
    exact jobsAs_updJob
  · rfl

theorem closed_gate (ref : QRef) (f : Flight) : (s.closed jid ref f).jobsAs Job.gate = s.jobsAs Job.gate := by
  unfold closed
  refine (listDone_gate ..).trans ?_
  split
  · exact jobsAs_ite (poisonMb_gate ..) rfl
  · rfl

theorem completeAt_gate (q : Queue) (i : Nat) (f : Flight) : (s.completeAt jid q i f).jobsAs Job.gate = s.jobsAs Job.gate := by
  unfold completeAt
  rw [complete_eq]
  exact (closed_gate ..).trans ((reportDone_jobsAs (fun _ _ => rfl) ..).trans ((counted_gate ..).trans ((land_gate ..).trans
    ((tear_gate ..).trans jobsAs_updJob))))

/-! ## The decision (R153, R269) -/

/-- What follows the gate's decision: GATE_CTR, the hold's pedal or the step's pins, and a long run of skips (R155, R156, R235, R384). -/
def gateFollows (s : State) (jid step : Nat) (g : Gate) (ctr run : Nat) : State :=
  let s := s.addCtr ctr 1
  let s := if g = Gate.hold then s.pedalStart pedalOnRecovery jid else s.unpin jid step
  if g = Gate.skip ∧ run % 8 = 0 then s.log eStepSkip 7 0 jid step else s

theorem gateFollows_gate (step : Nat) (g : Gate) (ctr run : Nat) : (s.gateFollows jid step g ctr run).jobsAs Job.gate = s.jobsAs Job.gate := by
  have counted : (s.addCtr ctr 1).jobsAs Job.gate = s.jobsAs Job.gate := rfl
  have pinned : (if g = Gate.hold then (s.addCtr ctr 1).pedalStart pedalOnRecovery jid else (s.addCtr ctr 1).unpin jid step).jobsAs Job.gate =
      s.jobsAs Job.gate := by
    obtain ⟨_, pedal⟩ := pedalStart_eq (s.addCtr ctr 1) pedalOnRecovery jid
    refine jobsAs_ite ?_ ((unpin_jobsAs (by exact fun _ _ => rfl) _).trans counted)
    rw [pedal]
    rfl
  exact jobsAs_ite pinned pinned

/-- The run of skips after a decision (R156). -/
def skipsAfter (g : Gate) (run : Nat) : Nat :=
  match g with
  | .skip => satAdd 16 run 1
  | .opened => 0
  | _ => run

/-- A job whose gate is decided: its counts begin again, and a decision other than HOLD is a good one (R153, R155, R277). -/
def gateDecided (g : Gate) (run : Nat) (j : Job) : Job := { j with
  numerics := { j.numerics.clearCounts with gate := g, skipRun := run }
  ring := { j.ring with goodRun := if g = Gate.hold then 0 else j.ring.goodRun + 1 } }

section
variable {j : Job} (job : s.job? jid = some j)
include job

theorem decideGate_eq (step : Nat) (t : NormTotal) :
    let run := skipsAfter (gateFor t) j.numerics.skipRun
    s.decideGate jid step t = ((s.store j.numerics.stepRec (leBytes 64 (stepRecord j.numerics step run t))).updJob jid
      (gateDecided (gateFor t) run)).gateFollows jid step (gateFor t) j.numerics.gateCtr run := by
  unfold decideGate
  rw [job]
  rfl

theorem decideGate_gate (step : Nat) (t : NormTotal) : (s.decideGate jid step t).running = s.running ∧
    ∃ k, (s.decideGate jid step t).job? jid = some k ∧ k.gate = gateFor t := by
  let run := skipsAfter (gateFor t) j.numerics.skipRun
  let stored := s.store j.numerics.stepRec (leBytes 64 (stepRecord j.numerics step run t))
  have running : stored.running = s.running := running_of_jobsAs (v := Job.gate) (store_jobsAs ..)
  have found : (stored.updJob jid (gateDecided (gateFor t) run)).job? jid = some (gateDecided (gateFor t) run j) := by
    have same : stored.job? jid = some j := by rw [job?, store_jobs]; exact job
    rw [job?_updJob stored jid (gateDecided (gateFor t) run) (fun _ => rfl), same, Option.map_some]
  have follows := gateFollows_gate (s := stored.updJob jid (gateDecided (gateFor t) run)) (jid := jid) step (gateFor t) j.numerics.gateCtr run
  obtain ⟨k, again, gate⟩ := exists_job_of_jobsAs follows found
  rw [decideGate_eq job]
  exact ⟨(running_of_jobsAs follows).trans running, k, again, gate⟩

/-- R269 step 5: the total for a NORM_CLOSE that has sent decides the gate. -/
theorem closeTotal_gate {step : Nat} (waits : ∃ c ∈ j.ring.closes, c.sent = true ∧ c.step = step)
    (total : NormTotal) (missing : List Nat) : (s.closeTotal jid step total missing).running = s.running ∧
    ∃ k, (s.closeTotal jid step total missing).job? jid = some k ∧ k.gate = gateFor total := by
  obtain ⟨c, close⟩ : ∃ c, j.ring.closes.find? (fun c => c.sent && c.step == step) = some c := by
    rw [← Option.isSome_iff_exists, List.find?_isSome]
    simpa using waits
  let u := s.updRing jid (fun r => missing.foldl RingSt.countPoison { r with closes := r.closes.filter (fun x => x != c) })
  have own : u.job? jid = _ := (job?_updJob s jid _ (by exact fun _ => rfl)).trans (congrArg _ job)
  obtain ⟨running, k, decided, gate⟩ := decideGate_gate own step total
  have quiesce : (if gateFor total = Gate.hold then (u.decideGate jid step total).updJob jid (fun j =>
      { j with recov := { j.recov with hold := true, quiesce := some ((u.decideGate jid step total).leadFor j) } })
      else u.decideGate jid step total).jobsAs Job.gate = (u.decideGate jid step total).jobsAs Job.gate :=
    jobsAs_ite (jobsAs_updJob) rfl
  have same : (s.closeTotal jid step total missing).jobsAs Job.gate = (u.decideGate jid step total).jobsAs Job.gate := by
    refine Eq.trans ?_ quiesce
    simp only [closeTotal, job, close]
    split
    · rfl
    · split
      · rfl
      · split
        · rfl
        · exact completeAt_gate ..
  obtain ⟨l, again, gate'⟩ := exists_job_of_jobsAs same decided
  exact ⟨(running_of_jobsAs same).trans running, l, again, gate'.trans gate⟩

end

theorem closeTotal_runJob {j : Job} {step : Nat} (run : s.runJob = some j) (waits : ∃ c ∈ j.ring.closes, c.sent = true ∧ c.step = step)
    (total : NormTotal) (missing : List Nat) :
    ∃ k, (s.closeTotal j.id step total missing).runJob = some k ∧ k.numerics.gate = gateFor total := by
  obtain ⟨running, k, job, gate⟩ := closeTotal_gate (job?_of_runJob run) waits total missing
  exact ⟨k, by rw [runJob, running, running_of_runJob run, Option.bind_some, job], gate⟩

end
end State
end Sys2Proof.Machine
end

section
/-! SUPPORT. The rows of the norm exchange (R269, R270, R277, R358), case by case. -/
namespace Sys2Proof.Machine

/-! ## The contribution sent (R269, R358) -/

/-- The job once its contribution of a NORM_CLOSE's step has gone: the step's mark and accumulator are gone, and the next step is open. -/
def Job.contributed (j : Job) (c : NormClose) (now : Nat) : Job :=
  let k := j.setPipe { j.strand.pipe with poisoned := j.strand.pipe.poisoned.filter (· != c.step) }
  { k with ring := { k.ring with
    closes := k.ring.closes.map (fun (y : NormClose) => if y = c then { y with sent := true, since := now } else y)
    openStep := (c.step + 1) % 2 ^ 32, accs := k.ring.accs.filter (fun a => a.step != c.step) } }

/-- A REDUCE of the step with NORM is open. -/
def Job.NormBusy (j : Job) (step : Nat) : Prop :=
  ∃ b ∈ j.ring.buckets, b.gather = false ∧ (reduceArgs b.record).norm = true ∧ (reduceArgs b.record).step = step

theorem Job.normBusy_iff (j : Job) (step : Nat) : j.NormBusy step ↔
    j.ring.buckets.any (fun b => !b.gather && (reduceArgs b.record).norm && (reduceArgs b.record).step == step) = true := by
  simp [Job.NormBusy, and_assoc]

section
variable {s : State} {j : Job} {c : NormClose} (run : s.runJob = some j) (close : j.ring.closes.find? (fun c => !c.sent) = some c)
include run close

theorem sendContribution_of_wait (wait : j.NormBusy c.step ∨ sealedBefore j c.step = false) : sendContribution s = s := by
  rw [Job.normBusy_iff] at wait
  simp only [sendContribution, run, close]
  rcases wait with busy | unsealed
  · rw [busy, Bool.true_or, if_pos rfl]
  · rw [unsealed, Bool.not_false, Bool.or_true, if_pos rfl]

theorem sendContribution_of_remote (idle : ¬ j.NormBusy c.step) (sealed : sealedBefore j c.step = true) (remote : c.root ≠ s.mod.id) :
    sendContribution s = (s.updJob j.id (fun k => k.contributed c s.now)).sendNorm j c.root (contributionOf s j c.step).poison
      (contributionPay (contributionOf s j c.step) c.step) := by
  rw [Job.normBusy_iff, Bool.not_eq_true] at idle
  simp only [sendContribution, run, close]
  rw [idle, sealed, Bool.not_true, Bool.or_false, if_neg Bool.false_ne_true]
  have updated := State.updJob_updJob s j.id (f := fun k => k.setPipe
    { k.strand.pipe with poisoned := k.strand.pipe.poisoned.filter (· != c.step) }) (fun k => { k with ring := { k.ring with
      closes := k.ring.closes.map (fun (y : NormClose) => if y = c then { y with sent := true, since := s.now } else y)
      openStep := (c.step + 1) % 2 ^ 32, accs := k.ring.accs.filter (fun a => a.step != c.step) } }) (fun _ => rfl)
  exact (if_neg remote).trans (congrArg (fun t : State => t.sendNorm j c.root (contributionOf s j c.step).poison
    (contributionPay (contributionOf s j c.step) c.step)) updated)

end

theorem mem_closes_contributed {j : Job} {c : NormClose} (mem : c ∈ j.ring.closes) (now : Nat) :
    { c with sent := true, since := now } ∈ (j.contributed c now).ring.closes :=
  List.mem_map.2 ⟨c, mem, if_pos rfl⟩

/-- A norm packet leaves the jobs and memory, and goes the way that it would with other jobs in the state. -/
theorem sendNorm_updJob {s : State} {j : Job} {f : Job → Job} (id : ∀ j, (f j).id = j.id) (dst : Nat) (poison : Option Nat) (pay : Nat) :
    let t := (s.updJob j.id f).sendNorm j dst poison pay
    t.mem = s.mem ∧ t.ctrs = s.ctrs ∧ t.spoke = (s.sendNorm j dst poison pay).spoke ∧ (s.runJob = some j → t.runJob = some (f j)) := by
  have kept {α : Type} (v : State → α) (apart : ∀ u : State, v u.inner = v u) : v ((s.updJob j.id f).sendNorm j dst poison pay) =
      v (s.updJob j.id f) := by rw [← apart, State.sendNorm_inner, apart]
  have spoke := congrArg State.spoke (State.sendNorm_withJobs s (s.updJob j.id f).jobs j dst poison pay)
  refine ⟨kept State.mem (fun _ => rfl), kept State.ctrs (fun _ => rfl), spoke, fun run => ?_⟩
  have found : (s.updJob j.id f).job? j.id = some (f j) := by rw [State.job?_updJob s j.id f id, State.job?_of_runJob run, Option.map_some]
  have running : (s.updJob j.id f).running = some j.id := State.running_of_runJob (s := s) run
  rw [kept State.runJob (fun _ => rfl), State.runJob, running]
  exact found

/-! ## A norm packet received (R270, R328) -/

theorem ringPacket_now {s u : State} {n vc type : Nat} {norm : Bool} {p : RPkt} (packet : ringPacket n vc type norm s = some (p, u)) :
    u.now = s.now := by
  obtain ⟨x, taken, pair⟩ := Option.map_eq_some_iff.1 packet
  obtain ⟨i, -, -, -, left⟩ := State.takeRx_eq_some taken
  have same : x.2 = u := congrArg Prod.snd pair
  rw [← same, left]
  rfl

section
variable {s u : State} {j : Job} {p : RPkt} {port : Nat} (free : dieHeld s normInst = false) (packet : ringPacket port 3 3 true s = some (p, u))
  (run : u.runJob = some j) (own : normOther u j p.src = none)
include free packet run own

theorem onNorm_of_packet (k : RPkt → Job → State → State) : onNorm port s k = k p j u := by
  simp only [onNorm, free, packet, run, own, Bool.false_eq_true, if_false]

theorem takeContribution_of_mine (other : isTotal u j p = false) (mine : mayContribute u j p = true)
    (room : beforeClose u j (pktStep p) = true → earlyUsed u j normInst < earlyRoom) :
    takeContribution port s = u.addContribution j.id (pktStep p)
      { src := p.src, value := bits p.payload.toNat 0 512, nan := bitAt p.payload.toNat 512
        inf := bitAt p.payload.toNat 513, poison := pktPoison p } := by
  have fits : (beforeClose u j (pktStep p) && decide (earlyRoom ≤ earlyUsed u j normInst)) = false := by
    cases before : beforeClose u j (pktStep p)
    · rfl
    · rw [Bool.true_and, decide_eq_false_iff_not, Nat.not_le]
      exact room before
  rw [takeContribution, onNorm_of_packet free packet run own]
  simp only [other, mine, fits, Bool.not_true, Bool.false_eq_true, if_false]

theorem takeTotal_of_contribution (other : isTotal u j p = false) (mine : mayContribute u j p = true) : takeTotal port s = s := by
  rw [takeTotal, onNorm_of_packet free packet run own]
  simp only [other, mine, Bool.false_eq_true, if_false, if_true]

theorem takeTotal_of_stray (other : isTotal u j p = false) (stray : mayContribute u j p = false) : takeTotal port s = u := by
  rw [takeTotal, onNorm_of_packet free packet run own]
  simp only [other, stray, Bool.false_eq_true, if_false]

/-- The total that a NORM_CLOSE waits for decides the gate (R153). -/
theorem takeTotal_of_total (total : isTotal u j p = true) : ∃ k, (takeTotal port s).runJob = some k ∧ k.numerics.gate =
    if bitAt p.cls.toNat 48 then .hold else if (decodeFp fp32 (bits p.payload.toNat 0 32)).isFin then .opened else .skip := by
  have waits : ∃ c ∈ j.ring.closes, c.sent = true ∧ c.step = pktStep p := by
    simp only [isTotal, List.any_eq_true, Bool.and_eq_true, beq_iff_eq] at total
    obtain ⟨c, mem, ⟨⟨sent, -⟩, -⟩, step⟩ := total
    exact ⟨c, mem, sent, step⟩
  have poison : (pktPoison p).isSome = bitAt p.cls.toNat 48 := by
    unfold pktPoison
    split
    · next h => exact h.symm
    · next h => exact (Bool.eq_false_of_not_eq_true h).symm
  obtain ⟨k, runs, gate⟩ := State.closeTotal_runJob run waits (some (bits p.payload.toNat 0 32, (pktPoison p).isSome))
    ((List.range 256).filter (fun m => bitAt p.payload.toNat (768 + m)))
  refine ⟨k, ?_, gate.trans ?_⟩
  · rw [takeTotal, onNorm_of_packet free packet run own, if_pos total]
    exact runs
  · rw [poison, gateFor]

end

/-! ## The contribution at the root (R270) -/

namespace State
section
variable {s : State} {j : Job} {jid step : Nat} (job : s.job? jid = some j) (x : Contribution)
include job

theorem addContribution_of_first (none_ : j.ring.roots.find? (fun r => r.step == step) = none) : s.addContribution jid step x =
    (s.updRing jid (fun y => { y with roots := y.roots ++ [{ step := step, got := [x], since := s.now }] })).tryTotal jid step := by
  simp only [addContribution, job, none_]

section
variable {r : NormRoot} (root : j.ring.roots.find? (fun r => r.step == step) = some r)
include root

theorem addContribution_of_open (open_ : r.total = none) (new : ∀ y ∈ r.got, y.src ≠ x.src) : s.addContribution jid step x =
    (s.updRoot jid { r with got := r.got ++ [x] }).tryTotal jid step := by
  have fresh : r.got.any (fun y => y.src == x.src) = false := by simpa using new
  simp only [addContribution, job, root, open_, fresh, Bool.false_eq_true, if_false]

theorem addContribution_of_unnamed {t : BitVec 64 × BitVec 2048} (total : r.total = some t) (un : x.src ∉ r.list) :
    s.addContribution jid step x = s.log eProtect engRing 0 jid := by
  have out : r.list.contains x.src = false := by simpa using un
  simp only [addContribution, job, root, total, out, Bool.not_false, if_true]

theorem addContribution_of_named {t : BitVec 64 × BitVec 2048} (total : r.total = some t) (named : x.src ∈ r.list) :
    s.addContribution jid step x =
      s.sendNorm j x.src (if bitAt t.1.toNat 48 then some (bits t.1.toNat 49 8) else none) t.2.toNat := by
  have listed : r.list.contains x.src = true := by simpa using named
  simp only [addContribution, job, root, total, listed, Bool.not_true, Bool.false_eq_true, if_false]

end
end
end State

section
variable {s : State} {j : Job} {step : Nat} {r : NormRoot} {c : NormClose} (run : s.runJob = some j)
  (root : j.ring.roots.find? (fun r => r.step == step) = some r)
  (close : j.ring.closes.find? (fun c => c.step == step && c.root == s.mod.id) = some c)
include run root close

theorem closeWindow_of_early (early : r.total ≠ none ∨ s.now < r.since + c.timeout * 100000) : closeWindow step s = s := by
  simp only [closeWindow, run, root, close]
  refine if_pos ?_
  rcases early with formed | before
  · rw [Option.isSome_iff_ne_none.2 formed, Bool.true_or]
  · rw [decide_eq_true before, Bool.or_true]

theorem closeWindow_of_late (open_ : r.total = none) (late : r.since + c.timeout * 100000 ≤ s.now) :
    closeWindow step s = (s.updRoot j.id { r with closed := true }).tryTotal j.id step := by
  simp only [closeWindow, run, root, close]
  refine if_neg ?_
  simp [open_, late]

end

/-! ## No total (R269) -/

section
variable {s : State} {j : Job} (run : s.runJob = some j)
include run

theorem timeoutTotal_of_early (early : ∀ c ∈ j.ring.closes, c.sent = true → c.root ≠ s.mod.id → s.now < c.since + 2 * c.timeout * 100000) :
    timeoutTotal s = s := by
  have none_ : j.ring.closes.find? (fun c => c.sent && c.root != s.mod.id && decide (c.since + 2 * c.timeout * 100000 ≤ s.now)) = none := by
    simpa [and_imp] using early
  simp only [timeoutTotal, run, none_]

theorem timeoutTotal_of_late (late : ∃ c ∈ j.ring.closes, c.sent = true ∧ c.root ≠ s.mod.id ∧ c.since + 2 * c.timeout * 100000 ≤ s.now) :
    ∃ k, (timeoutTotal s).runJob = some k ∧ k.numerics.gate = .hold := by
  obtain ⟨c, due⟩ : ∃ c, j.ring.closes.find? (fun c => c.sent && c.root != s.mod.id &&
      decide (c.since + 2 * c.timeout * 100000 ≤ s.now)) = some c := by
    rw [← Option.isSome_iff_exists, List.find?_isSome]
    simpa [and_assoc] using late
  have sent : c.sent = true := by
    have holds := List.find?_some due
    simp only [Bool.and_eq_true] at holds
    obtain ⟨⟨sent, -⟩, -⟩ := holds
    exact sent
  obtain ⟨k, runs, gate⟩ := State.closeTotal_runJob run ⟨c, List.mem_of_find?_eq_some due, sent, rfl⟩ none []
  refine ⟨k, ?_, gate⟩
  simp only [timeoutTotal, run, due]
  exact runs

end

/-! ## Poison counts (R277) -/

/-- How often a source's poison was counted. -/
def Job.poisonCount (j : Job) (src : Nat) : Nat := ((j.ring.poisons.find? (fun p => p.1 == src)).map (·.2)).getD 0

/-- A message to a module that VC0 reaches goes out. -/
theorem State.mem_send_out {s : State} {dst : Nat} (near : s.near dst = true) (i : Instr) : Out.msg dst i ∈ (s.send dst i).out := by
  unfold State.send
  rw [if_pos near]
  exact List.mem_append_right _ (List.mem_singleton.2 rfl)

section
variable {s : State} {j : Job} {job src : Nat} (found : s.job? job = some j)
include found

theorem reportSource_of_few (few : j.poisonCount src < 2 ∨ src ∈ j.ring.reported) : reportSource job src s = s := by
  simp only [reportSource, found]
  exact if_pos (few.imp id (fun mem => by simpa using mem))

/-- A source counted twice is logged and reported to the lead, and kept as reported. -/
theorem reportSource_of_twice (twice : 2 ≤ j.poisonCount src) (new : src ∉ j.ring.reported) : reportSource job src s =
    ((s.updRing job (fun r => { r with reported := r.reported ++ [src] })).log ePoison engRing 0 job src).send (s.reportTo j src)
      (.suspect s.mod.id job src) := by
  have fresh : ¬ (j.poisonCount src < 2 ∨ j.ring.reported.contains src = true) := by
    rw [not_or, Nat.not_lt]
    exact ⟨twice, by simpa using new⟩
  let u := (s.updRing job (fun r => { r with reported := r.reported ++ [src] })).log ePoison engRing 0 job src
  have again : u.job? job = some { j with ring := { j.ring with reported := j.ring.reported ++ [src] } } := by
    have updated : u.job? job = _ := State.job?_updJob s job _ (by exact fun _ => rfl)
    rw [updated, found, Option.map_some]
  have reports : reportSource job src s = u.sendSuspect job src := by
    simp only [reportSource, found]
    exact if_neg fresh
  rw [reports, State.sendSuspect, again]
  rfl

theorem clearPoison_of_few (few : j.ring.goodRun < 1000) : clearPoison job s = s := by
  simp only [clearPoison, found, few, if_true]

theorem clearPoison_of_many (many : 1000 ≤ j.ring.goodRun) : clearPoison job s =
    s.updRing job (fun r => { r with poisons := [], reported := [], goodRun := 0 }) := by
  simp only [clearPoison, found, Nat.not_lt.2 many, if_false]

end

/-! ## The obligation -/

/-- Settles O59: each row's cases, one lemma a case, put together. -/
theorem normExchangeDecidesTheGate : Obligations.NormExchangeDecidesTheGate := by
  unfold Obligations.NormExchangeDecidesTheGate
  intro s free
  have awake (f : State → State) : done s (if dieHeld s normInst = true then s else f s) = done s (f s) := by
    rw [free, if_neg Bool.false_ne_true]
  refine ⟨?send, ?contribution, ?window, ?total, ?timeout, ?counts⟩
  case send =>
    intro j c run close
    have step : exec .normContributionSend s = done s (sendContribution s) := awake sendContribution
    refine ⟨fun wait => step.trans (by rw [sendContribution_of_wait run close wait, done_self]), fun idle sealed remote => ?_⟩
    have sends := sendContribution_of_remote run close idle sealed remote
    obtain ⟨mem, ctrs, spoke, runs⟩ := sendNorm_updJob (s := s) (j := j) (f := fun k => k.contributed c s.now) (fun _ => rfl) c.root
      (contributionOf s j c.step).poison (contributionPay (contributionOf s j c.step) c.step)
    refine ⟨_, j.contributed c s.now, step.trans (congrArg (done s) sends), mem, ctrs, runs run, rfl, fun a mem => ?_,
      mem_closes_contributed (List.mem_of_find?_eq_some close) s.now, spoke⟩
    simpa using (List.mem_filter.1 mem).2
  case contribution =>
    intro port p u j packet run own other mine room
    have job := State.job?_of_runJob run
    have takes := takeContribution_of_mine free packet run own other mine room
    refine ⟨fun none_ => ?_, fun r root open_ new => ?_, fun r t root total => ⟨fun un => ?_, fun named => ?_⟩⟩
    · rw [← ringPacket_now packet]
      exact congrArg (done s) (takes.trans (State.addContribution_of_first job _ none_))
    · exact congrArg (done s) (takes.trans (State.addContribution_of_open job _ root open_ new))
    · exact congrArg (done s) (takes.trans (State.addContribution_of_unnamed job _ root total un))
    · exact congrArg (done s) (takes.trans (State.addContribution_of_named job _ root total named))
  case window =>
    intro step j r c run root close
    have acts : exec (.normWindowClose step) s = done s (closeWindow step s) := awake (closeWindow step)
    exact ⟨fun early => acts.trans (by rw [closeWindow_of_early run root close early, done_self]),
      fun open_ late => acts.trans (congrArg (done s) (closeWindow_of_late run root close open_ late))⟩
  case total =>
    intro port p u j packet run own
    refine ⟨fun other mine => ?_, fun other stray => ?_, fun total => ?_⟩
    · exact (congrArg (done s) (takeTotal_of_contribution free packet run own other mine)).trans (done_self s)
    · exact congrArg (done s) (takeTotal_of_stray free packet run own other stray)
    · obtain ⟨k, runs, gate⟩ := takeTotal_of_total free packet run own total
      exact ⟨_, k, rfl, runs, gate⟩
  case timeout =>
    intro j run
    have acts : exec .normTotalTimeout s = done s (timeoutTotal s) := awake timeoutTotal
    refine ⟨fun early => acts.trans (by rw [timeoutTotal_of_early run early, done_self]), fun late => ?_⟩
    obtain ⟨k, runs, gate⟩ := timeoutTotal_of_late run late
    exact ⟨_, k, acts, runs, gate⟩
  case counts =>
    intro job src j found
    refine ⟨fun few => ?_, fun twice new => ?_, fun few => ?_, fun many => ?_⟩
    · exact (congrArg (done s) (reportSource_of_few found few)).trans (done_self s)
    · let u := (s.updRing job (fun r => { r with reported := r.reported ++ [src] })).log ePoison engRing 0 job src
      let i := Instr.suspect s.mod.id job src
      have again : u.job? job = _ := State.job?_updJob s job _ (by exact fun _ => rfl)
      refine ⟨_, _, congrArg (done s) (reportSource_of_twice found twice new), State.send_keeps (v := State.mem) (fun _ => rfl) u _ i,
        (State.send_keeps (v := fun t => t.job? job) (fun _ => rfl) u _ i).trans (again.trans (congrArg _ found)), rfl,
        congrArg Mss.logQ (State.send_keeps (v := State.mss) (fun _ => rfl) u _ i), fun near => ?_⟩
      exact List.mem_append_left _ (State.mem_send_out (s := u) near i)
    · exact (congrArg (done s) (clearPoison_of_few found few)).trans (done_self s)
    · exact congrArg (done s) (clearPoison_of_many found many)

end Sys2Proof.Machine
end

section
/-! SUPPORT. What leaves memory as it was: a rule for each operation of the model that writes none. -/
namespace Sys2Proof.Machine

@[simp] theorem foldl_mem {α : Type} {g : State → α → State} (step : ∀ t x, (g t x).mem = t.mem) {l : List α} {s : State} :
    (l.foldl g s).mem = s.mem := foldl_keeps step l s

@[simp] theorem ite_mem (c : Prop) [Decidable c] (a b : State) : (if c then a else b).mem = if c then a.mem else b.mem := apply_ite ..

theorem getD_mem {o : Option State} {s : State} (h : ∀ t, o = some t → t.mem = s.mem) : (o.getD s).mem = s.mem := by
  cases o with
  | none => rfl
  | some t => exact h t rfl
@[simp] theorem getD_map_mem {α : Type} {o : Option α} {g : α → State} {s : State} (h : ∀ x, (g x).mem = s.mem) :
    ((o.map g).getD s).mem = s.mem := by
  cases o with
  | none => rfl
  | some x => exact h x

@[simp] theorem foldl_updEdge_mem {α : Type} (jid : Nat) (slot : α → Nat) (f : α → Edge → Edge) (l : List α) (s : State) :
    (l.foldl (fun s x => s.updEdge jid (slot x) (f x)) s).mem = s.mem := foldl_mem (fun _ _ => by rfl)

theorem foldl_fst_mem {α β : Type} {g : State × β → α → State × β} (step : ∀ p x, (g p x).1.mem = p.1.mem) {l : List α} {p : State × β} :
    (l.foldl g p).1.mem = p.1.mem := foldl_keeps (v := fun p : State × β => p.1.mem) step l p

theorem foldl_snd_mem {α β : Type} {g : β × State → α → β × State} (step : ∀ p x, (g p x).2.mem = p.2.mem) {l : List α} {p : β × State} :
    (l.foldl g p).2.mem = p.2.mem := foldl_keeps (v := fun p : β × State => p.2.mem) step l p

/-- A fold that may give up: where each step that goes on keeps memory, so does the fold. -/
theorem foldl_opt_mem {α β : Type} {g : Option (State × β) → α → Option (State × β)} {s : State}
    (step : ∀ o x t, g o x = some t → ∃ u, o = some u ∧ t.1.mem = u.1.mem) {l : List α} {o : Option (State × β)}
    (first : ∀ t, o = some t → t.1.mem = s.mem) {t : State × β} (h : l.foldl g o = some t) : t.1.mem = s.mem := by
  induction l generalizing o with
  | nil => exact first t h
  | cons x l ih =>
    refine ih (fun u hu => ?_) h
    obtain ⟨v, hv, same⟩ := step o x u hu
    exact same.trans (first v hv)

@[simp] theorem State.putBundle_mem (s : State) (b : Bundle) : (State.putBundle s b).mem = s.mem := rfl

@[simp] theorem State.pumpResend_mem (s : State) (n a2 : Nat) : (State.pumpResend s n a2).mem = s.mem := by
  fun_induction State.pumpResend <;> simp_all

@[simp] theorem State.sendIdx_mem (s : State) (n i : Nat) : (State.sendIdx s n i).mem = s.mem := by
  unfold State.sendIdx
  dsimp only
  split <;> rfl

@[simp] theorem State.pumpNew_mem (s : State) (n a2 : Nat) : (State.pumpNew s n a2).mem = s.mem := by
  fun_induction State.pumpNew <;> simp_all

@[simp] theorem State.pump_mem (s : State) (n : Nat) : (s.pump n).mem = s.mem := (congrArg State.mem (s.pump_inner n) :)

@[simp] theorem State.dealOne_mem (s : State) (b : Bundle) (ps : List Nat) (q : QFlit) : (s.dealOne b ps q).mem = s.mem :=
  (congrArg State.mem (s.dealOne_inner ..) :)

theorem State.sendMask_mem {s : State} {m : BitVec 36} {key : Nat} {f : SpokeFlit} {t}
    (h : s.sendMask m key f = some t) : t.mem = s.mem :=
  (congrArg State.mem (State.sendMask_inner h) :)

theorem State.sendFlow_mem {s : State} {old m : BitVec 36} {f : SpokeFlit} {t}
    (h : s.sendFlow old m f = some t) : t.mem = s.mem :=
  (congrArg State.mem (State.sendFlow_inner h) :)

@[simp] theorem State.sendVc0_mem (s : State) (dst msg job args pay : Nat) : (s.sendVc0 dst msg job args pay).mem = s.mem :=
  (congrArg State.mem (s.sendVc0_inner ..) :)

@[simp] theorem State.send_mem (s : State) (dst : Nat) (i : Instr) : (s.send dst i).mem = s.mem := State.send_keeps (fun _ => by rfl) s dst i

@[simp] theorem State.reportDrain_mem (s : State) (jid : Nat) : (State.reportDrain s jid).mem = s.mem := by
  unfold State.reportDrain
  (repeat' split) <;> simp

@[simp] theorem drainReports_mem (s : State) : (drainReports s).mem = s.mem := by
  unfold drainReports
  (repeat' split) <;> simp

@[simp] theorem drainTick_mem (s : State) : (drainTick s).mem = s.mem := by simp [drainTick]

@[simp] theorem State.decay_mem (s : State) : (State.decay s).mem = s.mem := by
  unfold State.decay
  dsimp only
  (repeat' split) <;> rfl

@[simp] theorem State.updInst_mem (s : State) (jid : Nat) (f : Instants → Instants) : (State.updInst s jid f).mem = s.mem := rfl

@[simp] theorem State.sendInstant_mem (s : State) (j : Job) (start : Bool) : (State.sendInstant s j start).mem = s.mem := by simp [State.sendInstant]

@[simp] theorem State.instantTick_mem (s : State) : (State.instantTick s).mem = s.mem := by simp [State.instantTick]

@[simp] theorem State.updRecov_mem (s : State) (jid : Nat) (f : Recov → Recov) : (State.updRecov s jid f).mem = s.mem := rfl

@[simp] theorem State.haltJob_mem (s : State) (jid : Nat) : (State.haltJob s jid).mem = s.mem := rfl

@[simp] theorem State.haltIfHeadless_mem (s : State) (jid : Nat) : (State.haltIfHeadless s jid).mem = s.mem := by
  unfold State.haltIfHeadless
  (repeat' split) <;> rfl

@[simp] theorem State.haltAll_mem (s : State) (jid : Nat) : (State.haltAll s jid).mem = s.mem := by
  unfold State.haltAll
  (repeat' split) <;> simp

@[simp] theorem State.offerTo_mem (s : State) (jid : Nat) : (State.offerTo s jid).mem = s.mem := by
  unfold State.offerTo
  (repeat' split) <;> simp

@[simp] theorem State.sendRetires_mem (s : State) (jid : Nat) : (State.sendRetires s jid).mem = s.mem := by
  unfold State.sendRetires
  (repeat' split) <;> simp

@[simp] theorem State.sendDurable_mem (s : State) (jid d : Nat) : (State.sendDurable s jid d).mem = s.mem := by
  unfold State.sendDurable
  (repeat' split) <;> simp

@[simp] theorem State.durablePath_mem (s : State) (jid : Nat) : (State.durablePath s jid).mem = s.mem := by
  unfold State.durablePath
  (repeat' split) <;> simp

@[simp] theorem State.leadAdvance_mem (s : State) (jid : Nat) : (State.leadAdvance s jid).mem = s.mem := by
  unfold State.leadAdvance
  (repeat' split) <;> simp

@[simp] theorem State.unbindAll_mem (s : State) (jid : Nat) : (State.unbindAll s jid).mem = s.mem := rfl

@[simp] theorem State.updLocket_mem (s : State) (jid : Nat) (f : Locket → Locket) : (State.updLocket s jid f).mem = s.mem := rfl

@[simp] theorem State.newSeal_mem (s : State) (jid : Nat) : (State.newSeal s jid).mem = s.mem := rfl

@[simp] theorem State.endRecovery_mem (s : State) (jid : Nat) : (State.endRecovery s jid).mem = s.mem := rfl

@[simp] theorem State.unwipe_mem (s : State) (a n : Nat) : (State.unwipe s a n).mem = s.mem := by simp [State.unwipe]

@[simp] theorem State.marksAfter_mem (s : State) (a n : Nat) : (s.marksAfter a n).mem = s.mem :=
  (State.unwipe_mem ..).trans (foldl_mem (fun _ _ => by rfl))

@[simp] theorem State.pushList_mem (s : State) (jid : Nat) (ref : QRef) (addr count : Nat) (tag : Option ItemTag) :
  (State.pushList s jid ref addr count tag).mem = s.mem := rfl

@[simp] theorem State.pushLocketList_mem (s : State) (jid desc ref : Nat) : (State.pushLocketList s jid desc ref).mem = s.mem := rfl

@[simp] theorem State.ackOrder_mem (s : State) (dst jid : Nat) (o : OrderKind) (ok : Bool) : (State.ackOrder s dst jid o ok).mem = s.mem := by simp
  [State.ackOrder]

@[simp] theorem State.reportReplay_mem (s : State) (jid : Nat) : (State.reportReplay s jid).mem = s.mem := by
  unfold State.reportReplay
  (repeat' split) <;> simp

@[simp] theorem State.reportRepoint_mem (s : State) (jid : Nat) : (State.reportRepoint s jid).mem = s.mem := by
  unfold State.reportRepoint
  (repeat' split) <;> simp

@[simp] theorem State.reportQuiet_mem (s : State) (jid : Nat) : (State.reportQuiet s jid).mem = s.mem := by
  unfold State.reportQuiet
  (repeat' split) <;> simp

@[simp] theorem askFingerprint_mem (s : State) (j : Job) (i : Nat) : (askFingerprint s j i).mem = s.mem := by
  unfold askFingerprint
  (repeat' split) <;> simp

@[simp] theorem State.takeAdvance_mem (s : State) : s.takeAdvance.mem = s.mem := by
  unfold State.takeAdvance
  dsimp only
  (repeat' split)
  case h_2.isFalse.isFalse => exact getD_map_mem (fun j => askFingerprint_mem _ j 0)
  all_goals simp

@[simp] theorem State.countBeats_mem (s : State) : (State.countBeats s).mem = s.mem := by
  unfold State.countBeats
  (repeat' split) <;> rfl

@[simp] theorem startPlain_mem (s : State) (a1 : Job) (a2 : Queue) (a3 : Nat) (f : Flight) : (startPlain s a1 a2 a3 f).s.mem = s.mem := rfl

@[simp] theorem pushStart_mem (s : State) (j : Job) (a2 : Queue) (r : Nat) (f : Flight) : (pushStart s j a2 r f).s.mem = s.mem := rfl

@[simp] theorem State.listDone_mem (s : State) (jid : Nat) (ref : QRef) (listId : Nat) (tag : Option ItemTag) :
  (State.listDone s jid ref listId tag).mem = s.mem := by
  unfold State.listDone
  (repeat' split) <;> simp

@[simp] theorem State.controlQueue_mem (s : State) (jid : Nat) (ref : QRef) (action : Nat) : (State.controlQueue s jid ref action).mem = s.mem := by
  unfold State.controlQueue
  dsimp only
  (repeat' split) <;> simp

@[simp] theorem ctlStart_mem (s : State) (j : Job) (a2 : Queue) (r : Nat) (f : Flight) : (ctlStart s j a2 r f).s.mem = s.mem := by simp [ctlStart]

@[simp] theorem countSteps_mem (s : State) (tile n : Nat) : (countSteps s tile n).mem = s.mem := rfl

@[simp] theorem mmStart_mem (s : State) (a1 : Job) (q : Queue) (r : Nat) (f : Flight) : (mmStart s a1 q r f).s.mem = s.mem := rfl

@[simp] theorem initStart_mem (s : State) (a1 : Job) (q : Queue) (r : Nat) (f : Flight) : (initStart s a1 q r f).s.mem = s.mem := rfl

@[simp] theorem drainStart_mem (s : State) (a1 : Job) (q : Queue) (r : Nat) (f : Flight) : (drainStart s a1 q r f).s.mem = s.mem := rfl

@[simp] theorem attnStart_mem (s : State) (a1 : Job) (qu : Queue) (r : Nat) (f : Flight) : (attnStart s a1 qu r f).s.mem = s.mem := rfl

@[simp] theorem finalStart_mem (s : State) (a1 : Job) (qu : Queue) (r : Nat) (f : Flight) : (finalStart s a1 qu r f).s.mem = s.mem := rfl

@[simp] theorem vpStart_mem (s : State) (a1 : Job) (q : Queue) (r : Nat) (f : Flight) : (vpStart s a1 q r f).s.mem = s.mem := rfl

@[simp] theorem vrStart_mem (s : State) (a1 : Job) (q : Queue) (r : Nat) (f : Flight) : (vrStart s a1 q r f).s.mem = s.mem := rfl

@[simp] theorem State.newXid_mem (s : State) : (State.newXid s).2.mem = s.mem := rfl

theorem State.sendJob_mem {s : State} {j : Job} {cls dst vc word pay : Nat} {t}
    (h : s.sendJob j cls dst vc word pay = some t) : t.mem = s.mem := by
  unfold State.sendJob at h
  split at h
  · cases h
  · split at h
    · cases h
    · exact State.sendFlow_mem h

theorem State.ask_mem {s : State} {j : Job} {peer op a n : Nat} {t}
    (h : s.ask j peer op a n = some t) : t.2.mem = s.mem := by
  obtain ⟨u, sent, rfl⟩ := Option.map_eq_some_iff.1 h
  exact (State.sendJob_mem sent).trans rfl

@[simp] theorem landHere_mem (s : State) (m : Moved) : (landHere s m).1.mem = s.mem := foldl_fst_mem (fun _ _ => by rfl)

@[simp] theorem moveDown_mem (s : State) (f : Flight) (m : PeerMove) (peer : Nat) : (moveDown s f m peer).1.mem = s.mem := by
  unfold moveDown
  dsimp only
  split
  · rfl
  · exact (foldl_fst_mem (fun _ _ => by rfl)).trans (landHere_mem ..)

@[simp] theorem State.noteRequests_mem (s : State) (mover : Nat) (spans : List (Nat × Nat)) : (State.noteRequests s mover spans).2.mem = s.mem := rfl

@[simp] theorem holdFlight_mem (s : State) (mover : Nat) (k : Int × Int) (f : Flight) : (holdFlight s mover k f).s.mem = s.mem := rfl

@[simp] theorem State.arrivals_mem (s : State) (a n : Nat) : (State.arrivals s a n).2.mem = s.mem := by
  unfold State.arrivals
  split <;> rfl

theorem writePeer_mem {s : State} {j : Job} {peer : Nat} {hits : List (Nat × Nat)} {w : Nat × Bytes} {t}
    (h : writePeer s j peer hits w = some t) : t.2.mem = s.mem := by
  unfold writePeer at h
  split at h
  · cases h
  case h_2 asked =>
    cases h
    exact (foldl_mem (fun _ _ => getD_mem (fun _ => State.sendJob_mem))).trans (State.ask_mem asked)

@[simp] theorem landThere_mem (s : State) (j : Job) (peer : Nat) (m : Moved) (p : PeerMove) : (landThere s j peer m p).1.mem = s.mem := by
  refine foldl_fst_mem (fun acc w => ?_)
  split
  case h_1 written => exact writePeer_mem written
  case h_2 => rfl

@[simp] theorem moveLand_mem (s : State) (j : Job) (f : Flight) (k : Int × Int) (m : Memory) (bad : List (Nat × Nat)) (n ch : Nat) :
  (moveLand s j f k m bad n ch).1.mem = s.mem := by
  unfold moveLand
  dsimp only
  (repeat' split) <;> simp

@[simp] theorem State.rowDue_mem (s : State) (a : Nat) : (State.rowDue s a).mem = s.mem := by
  unfold State.rowDue
  (repeat' split) <;> rfl

@[simp] theorem State.poisonUnits_mem (s : State) (us : List Nat) : (State.poisonUnits s us).mem = s.mem := foldl_keeps (fun _ _ => by simp) _ _

@[simp] theorem State.meetBad_mem (s : State) (job : Nat) (us : List (Nat × Mark)) : (State.meetBad s job us).mem = s.mem := by simp [State.meetBad]

@[simp] theorem State.countCe_mem (s : State) (c : Nat) : (State.countCe s c).mem = s.mem := rfl

@[simp] theorem State.correct_mem (s : State) (a n : Nat) : (State.correct s a n).mem = s.mem := by simp [State.correct]

@[simp] theorem moveRead_mem (s : State) (j : Job) (k : Int × Int) (f : Flight) : (moveRead s j k f).1.mem = s.mem := by simp [moveRead]

@[simp] theorem moveStart_mem (s : State) (j : Job) (q : Queue) (r : Nat) (f : Flight) : (moveStart s j q r f).s.mem = s.mem := by
  unfold moveStart
  dsimp only
  split
  · rfl
  · split
    · rfl
    · split
      · split
        case h_1 asked => exact State.ask_mem asked
        case h_2 => exact moveDown_mem ..
      · have source (f : Flight) : (if channelWait s q.ref f then holdFlight s q.ref.inst (moveK s r) f
            else ⟨(moveRead s j (moveK s r) f).1, (moveRead s j (moveK s r) f).2, false⟩ : Started).s.mem = s.mem := by
          split
          · exact holdFlight_mem ..
          · exact moveRead_mem ..
        exact source _

@[simp] theorem State.askOwn_mem (s : State) (j : Job) (peer a n : Nat) : (s.askOwn j peer a n).1.mem = s.mem := by
  unfold State.askOwn
  split
  case h_1 asked => exact State.ask_mem asked
  case h_2 => rfl

@[simp] theorem moveAsks_mem (s : State) (j : Job) (a2 : Queue) (r : Nat) : (moveAsks s j a2 r).1.mem = s.mem := by
  unfold moveAsks
  dsimp only
  (repeat' split) <;> simp

@[simp] theorem fillStart_mem (s : State) (j : Job) (q : Queue) (r : Nat) (f : Flight) : (fillStart s j q r f).s.mem = s.mem := by
  unfold fillStart
  generalize (fillDst r, fillBytes r) = w
  split
  · rfl
  · dsimp only
    split
    · split
      case h_1 written => exact writePeer_mem written
      case h_2 => rfl
    · split
      · rfl
      · split
        · exact holdFlight_mem ..
        · rfl

@[simp] theorem fillAsks_mem (s : State) (j : Job) (a2 : Queue) (r : Nat) : (fillAsks s j a2 r).1.mem = s.mem := by
  unfold fillAsks
  (repeat' split) <;> simp

@[simp] theorem State.putStage_mem (s : State) (jid : Nat) (t : Stage) : (State.putStage s jid t).mem = s.mem := by
  unfold State.putStage
  dsimp only
  split <;> rfl

@[simp] theorem State.updStage_mem (s : State) (jid idx : Nat) (f : Stage → Stage) : (State.updStage s jid idx f).mem = s.mem := by
  unfold State.updStage
  split <;> simp

@[simp] theorem State.holdVer_mem (s : State) (jid stage slot : Nat) : (State.holdVer s jid stage slot).mem = s.mem := by simp [State.holdVer]

@[simp] theorem wsStart_mem (s : State) (j : Job) (q : Queue) (r : Nat) (f : Flight) : (wsStart s j q r f).s.mem = s.mem := by
  unfold wsStart
  dsimp only
  (repeat' split) <;> simp

@[simp] theorem wsAsks_mem (s : State) (j : Job) (q : Queue) (r : Nat) : (wsAsks s j q r).1.mem = s.mem := by
  unfold wsAsks
  dsimp only
  split
  · rfl
  · refine foldl_fst_mem (fun acc a => ?_)
    exact State.askOwn_mem ..

@[simp] theorem stageStart_mem (s : State) (j : Job) (a2 : Queue) (r : Nat) (f : Flight) : (stageStart s j a2 r f).s.mem = s.mem := rfl

@[simp] theorem State.answerHeld_mem (s : State) (jid : Nat) (e : Edge) : (State.answerHeld s jid e).mem = s.mem := by
  unfold State.answerHeld
  (repeat' split) <;> simp

@[simp] theorem edgeStart_mem (s : State) (j : Job) (a2 : Queue) (r : Nat) (f : Flight) : (edgeStart s j a2 r f).s.mem = s.mem := by simp [edgeStart]

@[simp] theorem State.pedalStart_mem (s : State) (bit job : Nat) : (State.pedalStart s bit job).mem = s.mem := by
  unfold State.pedalStart
  dsimp only
  split <;> rfl

@[simp] theorem pipeStartRun_mem (s : State) (j : Job) (a2 : Queue) (r : Nat) (f : Flight) : (pipeStartRun s j a2 r f).s.mem = s.mem := by simp
  [pipeStartRun]

theorem pipeExchange_mem {s : State} {j : Job} {q : Queue} {w : Waiting} {t} (h : pipeExchange s j q w = some t) : t.mem = s.mem := by
  unfold pipeExchange at h
  dsimp only at h
  (repeat' split at h) <;> cases h
  · rfl
  · exact foldl_mem (fun _ _ => State.send_mem ..)

@[simp] theorem State.updEdge_mem (s : State) (jid slot : Nat) (f : Edge → Edge) : (State.updEdge s jid slot f).mem = s.mem := rfl

theorem State.sendCopy_mem {s : State} {j : Job} {cls dst : Nat} {word : Nat × Bytes → Nat} {m : Instr} {bs : Bytes} {t}
    (h : s.sendCopy j cls dst word m bs = some t) : t.mem = s.mem := by
  unfold State.sendCopy at h
  obtain ⟨u, sent, rfl⟩ := Option.map_eq_some_iff.1 h
  suffices all : ∀ (l : List (Nat × Bytes)) (o : Option State), (∀ v ∈ o, v.mem = s.mem) →
      ∀ v ∈ l.foldl (fun t p => t.bind (fun t => t.sendJob j cls dst 4 (word p) (ofLe p.2))) o, v.mem = s.mem from
    all _ _ (by simp) u sent
  intro l
  induction l with
  | nil => exact fun o same => same
  | cons p l ih =>
    refine fun o same => ih _ (fun v hv => ?_)
    obtain ⟨w, hw, sentw⟩ := Option.bind_eq_some_iff.1 hv
    exact (State.sendJob_mem sentw).trans (same w hw)

@[simp] theorem State.arriveFeed_mem (s : State) (jid : Nat) (e : Edge) (t : Stage) (n : Nat) : (State.arriveFeed s jid e t n).mem = s.mem := rfl

@[simp] theorem publishStart_mem (s : State) (j : Job) (a2 : Queue) (r : Nat) (f : Flight) : (publishStart s j a2 r f).s.mem = s.mem := by simp
  [publishStart]

@[simp] theorem startDeferred_mem (k : DeferKind) (data : Nat) (s : State) (j : Job) (q : Queue) (r : Nat) (f : Flight) :
  (startDeferred k data s j q r f).s.mem = s.mem := rfl

@[simp] theorem repointEdge_mem (s : State) (j : Job) (slot peer : Nat) : (repointEdge s j slot peer).mem = s.mem := by
  unfold repointEdge
  (repeat' split) <;> simp

@[simp] theorem repointStart_mem (s : State) (j : Job) (a2 : Queue) (r : Nat) (f : Flight) : (repointStart s j a2 r f).s.mem = s.mem := by simp
  [repointStart]

@[simp] theorem State.dropVer_mem (s : State) (jid stage slot : Nat) : (State.dropVer s jid stage slot).mem = s.mem := by simp [State.dropVer]

@[simp] theorem State.unbindVer_mem (s : State) (jid stage n : Nat) : (State.unbindVer s jid stage n).mem = s.mem := by
  unfold State.unbindVer
  (repeat' split) <;> simp

@[simp] theorem State.restoreSlots_mem (s : State) (j : Job) : (State.restoreSlots s j).mem = s.mem := foldl_keeps (fun _ _ => by simp) _ _

@[simp] theorem State.replayRestore_mem (s : State) (jid : Nat) : (State.replayRestore s jid).mem = s.mem := by
  unfold State.replayRestore
  dsimp only
  (repeat' split) <;> simp

@[simp] theorem State.updPipe_mem (s : State) (jid : Nat) (f : Pipe → Pipe) : (State.updPipe s jid f).mem = s.mem := rfl

@[simp] theorem State.stopAdvance_mem (s : State) (jid : Nat) : (State.stopAdvance s jid).mem = s.mem := by
  unfold State.stopAdvance
  (repeat' split) <;> simp

@[simp] theorem State.stopBegin_mem (s : State) (jid : Nat) : (State.stopBegin s jid).mem = s.mem := by simp [State.stopBegin]

@[simp] theorem stopStart_mem (s : State) (j : Job) (a2 : Queue) (a3 : Nat) (f : Flight) : (stopStart s j a2 a3 f).s.mem = s.mem := by simp
  [stopStart]

@[simp] theorem State.updRing_mem (s : State) (jid : Nat) (f : RingSt → RingSt) : (State.updRing s jid f).mem = s.mem := rfl

@[simp] theorem groupStart_mem (s : State) (j : Job) (a2 : Queue) (r : Nat) (f : Flight) : (groupStart s j a2 r f).s.mem = s.mem := rfl

@[simp] theorem State.addPackets_mem (s : State) (j : Job) (b : Bucket) (pl : Place3) (ps : List RPkt) :
  (State.addPackets s j b pl ps).1.mem = s.mem := by
  unfold State.addPackets
  dsimp only
  (repeat' split) <;> simp

@[simp] theorem State.sendPkt_mem (s : State) (j : Job) (g : RGroup) (b : Bucket) (tgt type adj : Nat) (bad : Option (Nat × Nat)) (pay : Nat) :
    (s.sendPkt j g b tgt type adj bad pay).1.mem = s.mem := by
  unfold State.sendPkt
  dsimp only
  split
  case h_1 sent => exact State.sendJob_mem sent
  case h_2 => rfl

@[simp] theorem State.sendPartial_mem (s : State) (j : Job) (g : RGroup) (b : Bucket) (tgt : Nat) (pl : Place3) (ps : List RPkt) :
  (State.sendPartial s j g b tgt pl ps).1.mem = s.mem := by
  unfold State.sendPartial
  dsimp only
  (repeat' split) <;> simp

@[simp] theorem State.useTag_mem (s : State) (jid tag group : Nat) : (State.useTag s jid tag group).mem = s.mem := rfl

@[simp] theorem State.sendAll_mem (s : State) (j : Job) (g : RGroup) (b : Bucket) (tgt : List Nat) (type adj : Nat) (bad : Option (Nat × Nat))
    (pay : Nat) : (s.sendAll j g b tgt type adj bad pay).1.mem = s.mem :=
  foldl_fst_mem (fun _ _ => State.sendPkt_mem ..)

@[simp] theorem State.closeStep_mem (s : State) (j : Job) (g : RGroup) (b : Bucket) (came : Option RPkt) :
    (s.closeStep j g b came).1.mem = s.mem := by
  unfold State.closeStep
  dsimp only
  split
  · rfl
  · split
    · exact foldl_fst_mem (fun _ _ => State.sendAll_mem ..)
    · (repeat' split) <;> simp

@[simp] theorem State.putBad_mem (s : State) (b : Bucket) (a n : Nat) : (State.putBad s b a n).1.mem = s.mem := rfl

@[simp] theorem State.finishPacket_mem (s : State) (j : Job) (g : RGroup) (b : Bucket) (pl : Place3) (ps : List RPkt) :
  (State.finishPacket s j g b pl ps).1.mem = s.mem := by
  unfold State.finishPacket
  dsimp only
  (repeat' split) <;> simp

@[simp] theorem State.addStep_mem (s : State) (j : Job) (g : RGroup) (b : Bucket) (pl : Place3) (ps : List RPkt) :
  (State.addStep s j g b pl ps).1.mem = s.mem := by
  unfold State.addStep
  (repeat' split) <;> simp

@[simp] theorem State.pairUp_mem (s : State) (j : Job) (g : RGroup) (b : Bucket) (k : Nat) : (s.pairUp j g b k).1.mem = s.mem := by
  induction k generalizing s b with
  | zero => rfl
  | succ k ih =>
    unfold State.pairUp
    dsimp only
    (repeat' split) <;> simp [ih]

@[simp] theorem State.takePartial_mem (s : State) (j : Job) (g : RGroup) (b : Bucket) (p : RPkt) : (State.takePartial s j g b p).1.mem = s.mem := by
  unfold State.takePartial
  dsimp only
  (repeat' split) <;> simp

@[simp] theorem State.takePiece_mem (s : State) (b : Bucket) (pl : Place3) (p : RPkt) : (State.takePiece s b pl p).1.mem = s.mem := by
  unfold State.takePiece
  split <;> rfl

@[simp] theorem State.ownPiece_mem (s : State) (j : Job) (b : Bucket) (g : RGroup) (pl : Place3) :
  (State.ownPiece s j b g pl).1.mem = s.mem := by simp [State.ownPiece]

@[simp] theorem State.sendDown_mem (s : State) (j : Job) (g : RGroup) (b : Bucket) : (s.sendDown j g b).1.mem = s.mem := by
  refine foldl_fst_mem (fun acc sh => foldl_fst_mem (fun acc pl => ?_))
  dsimp only
  split <;> simp

@[simp] theorem State.upPiece_mem (s : State) (j : Job) (g : RGroup) (b : Bucket) (pl : Place3) (p : RPkt) :
  (State.upPiece s j g b pl p).1.mem = s.mem := by
  unfold State.upPiece
  dsimp only
  (repeat' split) <;> simp

@[simp] theorem State.upRight_mem (s : State) (j : Job) (g : RGroup) (b : Bucket) (k : Nat) : (s.upRight j g b k).1.mem = s.mem := by
  induction k generalizing s b with
  | zero => rfl
  | succ k ih =>
    unfold State.upRight
    dsimp only
    split
    · exact (ih ..).trans (State.upPiece_mem ..)
    · rfl

@[simp] theorem State.takeGather_mem (s : State) (j : Job) (g : RGroup) (b : Bucket) (p : RPkt) : (State.takeGather s j g b p).1.mem = s.mem := by
  unfold State.takeGather
  dsimp only
  (repeat' split) <;> simp

@[simp] theorem State.takeResult_mem (s : State) (b : Bucket) (pl : Place3) (p : RPkt) : (State.takeResult s b pl p).1.mem = s.mem := by
  unfold State.takeResult
  dsimp only
  split <;> rfl

@[simp] theorem State.takeReduceResult_mem (s : State) (j : Job) (g : RGroup) (b : Bucket) (p : RPkt) :
  (State.takeReduceResult s j g b p).1.mem = s.mem := by
  unfold State.takeReduceResult
  dsimp only
  (repeat' split) <;> simp

@[simp] theorem State.takeClose_mem (s : State) (j : Job) (g : RGroup) (b : Bucket) (p : RPkt) : (State.takeClose s j g b p).1.mem = s.mem := by simp
  [State.takeClose]

@[simp] theorem State.deliver_mem (s : State) (j : Job) (g : RGroup) (b : Bucket) (p : RPkt) : (State.deliver s j g b p).1.mem = s.mem := by
  unfold State.deliver
  dsimp only
  (repeat' split) <;> simp

@[simp] theorem State.putBucket_mem (s : State) (jid : Nat) (b : Bucket) : (State.putBucket s jid b).mem = s.mem := rfl

@[simp] theorem State.deliverEarly_mem (s : State) (jid tag : Nat) : (s.deliverEarly jid tag).mem = s.mem := by
  unfold State.deliverEarly
  dsimp only
  split
  · rfl
  · split
    · rfl
    · split
      · rfl
      · refine (foldl_fst_mem (fun acc p => ?_)).trans (State.updRing_mem ..)
        split
        · exact State.deliver_mem ..
        · rfl

theorem State.openBucket_mem {first : State → Bucket → State × Bucket} (keeps : ∀ s b, (first s b).1.mem = s.mem) (s : State) (j : Job)
    (b : Bucket) (g : RGroup) : (s.openBucket j b g first).mem = s.mem := by
  unfold State.openBucket
  simp [keeps]

@[simp] theorem reduceStart_mem (s : State) (j : Job) (q : Queue) (r : Nat) (f : Flight) : (reduceStart s j q r f).s.mem = s.mem := by
  unfold reduceStart
  dsimp only
  split
  · rfl
  · refine State.openBucket_mem (fun s b => ?_) ..
    split
    · exact foldl_fst_mem (fun _ _ => State.sendPartial_mem ..)
    · split
      · exact foldl_fst_mem (fun _ _ => State.sendPartial_mem ..)
      · rfl

@[simp] theorem State.sendLocket_mem (s : State) (j : Job) (g : RGroup) (b : Bucket) (buddy a n : Nat) :
    (s.sendLocket j g b buddy a n).1.mem = s.mem := by
  unfold State.sendLocket
  dsimp only
  split
  case h_1 sent => exact (State.sendCopy_mem sent).trans (by simp)
  case h_2 => simp

@[simp] theorem gatherStart_mem (s : State) (j : Job) (q : Queue) (r : Nat) (f : Flight) : (gatherStart s j q r f).s.mem = s.mem := by
  unfold gatherStart
  extract_lets x f
  split
  · rfl
  ·
    extract_lets up b down own
    have down_mem (a : State × Bucket) : (down a).1.mem = a.1.mem := by
      unfold down
      split
      · exact State.sendDown_mem ..
      · rfl
    refine State.openBucket_mem (first := own) (fun s b => ?_) s j b _
    refine (foldl_fst_mem (fun acc p => ?_)).trans ((down_mem _).trans (foldl_fst_mem (fun acc pl => ?_)))
    · exact State.sendLocket_mem ..
    · dsimp only
      (repeat' split) <;> simp

@[simp] theorem closeStart_mem (s : State) (j : Job) (q : Queue) (r : Nat) (f : Flight) : (closeStart s j q r f).s.mem = s.mem := rfl

@[simp] theorem reshardStart_mem (s : State) (j : Job) (q : Queue) (r : Nat) (f : Flight) : (reshardStart s j q r f).s.mem = s.mem := rfl

@[simp] theorem State.pointMember_mem (s : State) (jid g i m : Nat) : (State.pointMember s jid g i m).mem = s.mem := rfl

@[simp] theorem gpointStart_mem (s : State) (j : Job) (a2 : Queue) (r : Nat) (f : Flight) : (gpointStart s j a2 r f).s.mem = s.mem := rfl

@[simp] theorem locketStart_mem (s : State) (j : Job) (a2 : Queue) (a3 : Nat) (f : Flight) : (locketStart s j a2 a3 f).s.mem = s.mem := rfl

@[simp] theorem State.meet_mem (s : State) (job a n : Nat) : (State.meet s job a n).mem = s.mem := by simp [State.meet]

@[simp] theorem State.fetch_mem (s : State) (job a n : Nat) : (s.fetch job a n).2.mem = s.mem :=
  (foldl_snd_mem (fun _ _ => by rfl)).trans (State.meet_mem ..)

@[simp] theorem State.sendOffer_mem (s : State) (j : Job) : (State.sendOffer s j).mem = s.mem := by simp [State.sendOffer]

@[simp] theorem sealStart_mem (s : State) (j : Job) (q : Queue) (r : Nat) (f : Flight) : (sealStart s j q r f).s.mem = s.mem := by
  unfold sealStart
  dsimp only
  (repeat' split) <;> simp

@[simp] theorem tandemStart_mem (s : State) (j : Job) (q : Queue) (a3 : Nat) (f : Flight) : (tandemStart s j q a3 f).s.mem = s.mem := by
  unfold tandemStart
  (repeat' split) <;> simp

@[simp] theorem gearStart_mem (s : State) (j : Job) (q : Queue) (r : Nat) (f : Flight) : (gearStart s j q r f).s.mem = s.mem := rfl

@[simp] theorem ttStart_mem (s : State) (j : Job) (q : Queue) (r : Nat) (f : Flight) : (ttStart s j q r f).s.mem = s.mem := rfl

@[simp] theorem State.ctxBeats_mem (s : State) (b : Option Nat) : (State.ctxBeats s b).2.mem = s.mem := by
  unfold State.ctxBeats
  dsimp only
  split <;> rfl

@[simp] theorem State.noteTag_mem (s : State) (p : Nat) : (State.noteTag s p).mem = s.mem := by
  unfold State.noteTag
  split <;> rfl

@[simp] theorem State.correctParts_mem (s : State) (ws : List (Nat × Bytes)) : (State.correctParts s ws).mem = s.mem := by simp [State.correctParts]

@[simp] theorem State.noteSpans_mem (s : State) (jid : Nat) (item : Option ItemTag) (sp : List (Nat × Nat)) :
  (State.noteSpans s jid item sp).mem = s.mem := by
  unfold State.noteSpans
  split <;> rfl

@[simp] theorem State.noteWritten_mem (s : State) (jid : Nat) (f : Flight) : (State.noteWritten s jid f).mem = s.mem := by simp [State.noteWritten]

@[simp] theorem State.tear_mem (s : State) (jid eng : Nat) (ws : List (Nat × Nat)) : (State.tear s jid eng ws).mem = s.mem := rfl

@[simp] theorem State.countStep_mem (s : State) (jid phase : Nat) (r : Res) : (State.countStep s jid phase r).mem = s.mem := rfl

@[simp] theorem State.countEvent_mem (s : State) (ref : QRef) (res : Res) : (State.countEvent s ref res).mem = s.mem := by
  unfold State.countEvent
  split <;> rfl

@[simp] theorem State.poisonMb_mem (s : State) (jid stage n : Nat) : (State.poisonMb s jid stage n).mem = s.mem := by
  unfold State.poisonMb
  (repeat' split) <;> rfl

@[simp] theorem State.noteWaits_mem (s : State) (jid : Nat) (ref : QRef) : (State.noteWaits s jid ref).mem = s.mem := rfl

@[simp] theorem feedArrive_mem (s : State) (jid slot : Nat) (mbs : List Nat) : (feedArrive s jid slot mbs).mem = s.mem := foldl_keeps
  (v := State.mem) (fun _ _ => by grind [State.arriveFeed_mem]) _ _

@[simp] theorem State.beginSwitch_mem (s : State) (out inc : Option Nat) : (State.beginSwitch s out inc).mem = s.mem := rfl

@[simp] theorem State.askSwitch_mem (s : State) (j : Job) (start : Bool) (rank : Nat) : (State.askSwitch s j start rank).mem = s.mem := by
  unfold State.askSwitch
  (repeat' split) <;> simp

@[simp] theorem State.stopJob_mem (s : State) (t : Stop) : (State.stopJob s t).mem = s.mem := by
  unfold State.stopJob
  split <;> rfl

@[simp] theorem State.reexamine_mem (s : State) : (State.reexamine s).mem = s.mem := by
  unfold State.reexamine
  (repeat' split) <;> simp

@[simp] theorem State.closeEdges_mem (s : State) (jid : Nat) : (State.closeEdges s jid).mem = s.mem := by
  unfold State.closeEdges
  (repeat' split) <;> simp

@[simp] theorem State.applyReshard_mem (s : State) (jid g : Nat) : (State.applyReshard s jid g).1.mem = s.mem := by
  unfold State.applyReshard
  (repeat' split) <;> rfl

@[simp] theorem State.dropDeferral_mem (s : State) (jid : Nat) (k : DeferKind) : (State.dropDeferral s jid k).mem = s.mem := rfl

@[simp] theorem State.keepDue_mem (s : State) : (State.keepDue s).mem = s.mem := rfl

@[simp] theorem putReg_mem (s : State) (tile v : Nat) (xs : List (Nat × Nat)) : (putReg s tile v xs).mem = s.mem := rfl

@[simp] theorem laneOp_mem (tile : Nat) (f : State → Nat → Nat → Nat × Bool × Bool) (s : State) (r w : Nat) (v : VRun) :
    (laneOp tile f s r w v).s.mem = s.mem := putReg_mem ..

@[simp] theorem effVld_mem (tile : Nat) (s : State) (r w : Nat) (v : VRun) : (effVld tile s r w v).s.mem = s.mem := rfl

@[simp] theorem effVldh_mem (tile : Nat) (s : State) (r w : Nat) (v : VRun) : (effVldh tile s r w v).s.mem = s.mem := rfl

@[simp] theorem laneMove_mem (tile : Nat) (f : State → Nat → Nat → Nat) (s : State) (r w : Nat) (v : VRun) :
    (laneMove tile f s r w v).s.mem = s.mem := laneOp_mem ..

@[simp] theorem effVlda_mem (tile : Nat) (s : State) (r w : Nat) (v : VRun) : (effVlda tile s r w v).s.mem = s.mem := rfl

@[simp] theorem arith_mem (tile : Nat) (wide : Bool) (f : Val → Val → Val → Val × Bool) (s : State) (r w : Nat) (v : VRun) :
  (arith tile wide f s r w v).s.mem = s.mem := rfl

@[simp] theorem signOp_mem (tile : Nat) (f : Nat → Nat) (s : State) (r w : Nat) (v : VRun) : (signOp tile f s r w v).s.mem = s.mem := rfl

@[simp] theorem effVsel_mem (tile : Nat) (s : State) (r w : Nat) (v : VRun) : (effVsel tile s r w v).s.mem = s.mem := rfl

@[simp] theorem packed_mem (tile : Nat) (f : Val → Val → Val → Val × Bool) (s : State) (_r w : Nat) (v : VRun) :
  (packed tile f s _r w v).s.mem = s.mem := rfl

@[simp] theorem putMask_mem (s : State) (tile m : Nat) (x : BitVec 128) : (putMask s tile m x).mem = s.mem := rfl

@[simp] theorem effVcmp_mem (tile : Nat) (s : State) (_r w : Nat) (a4 : VRun) : (effVcmp tile s _r w a4).s.mem = s.mem := rfl

@[simp] theorem effMlogic_mem (tile : Nat) (s : State) (_r w : Nat) (a4 : VRun) : (effMlogic tile s _r w a4).s.mem = s.mem := rfl

@[simp] theorem reduceLanes_mem (tile : Nat) (f : List Val → Nat × Bool × Bool) (s : State) (_r w : Nat) (v : VRun) :
  (reduceLanes tile f s _r w v).s.mem = s.mem := by
  unfold reduceLanes
  dsimp only
  (repeat' split) <;> rfl

@[simp] theorem State.putFlight_mem (s : State) (jid : Nat) (ref : QRef) (i : Nat) (f : Flight) : (State.putFlight s jid ref i f).mem = s.mem := rfl

theorem askChunk_mem {s : State} {j : Job} {w : Stream} {k : Nat} {t} (h : askChunk s j w k = some t) : t.1.mem = s.mem := by
  unfold askChunk at h
  refine foldl_opt_mem (fun acc x u hu => ?_) (fun u hu => ?_) h
  · split at hu
    · cases hu
    · split at hu
      · cases hu
      case h_2 asked =>
        cases hu
        exact ⟨_, rfl, State.ask_mem asked⟩
  · cases hu
    rfl

@[simp] theorem streamDown_mem (s : State) (jid : Nat) (ref : QRef) (i : Nat) (f : Flight) (w : Stream) :
  (streamDown s jid ref i f w).mem = s.mem := rfl

@[simp] theorem readChunkBytes_mem (s : State) (jid : Nat) (w : Stream) (k : Nat) : (readChunkBytes s jid w k).1.mem = s.mem := by
  refine foldl_fst_mem (fun acc t => ?_)
  exact (foldl_fst_mem (fun _ _ => by rfl)).trans (by simp)

@[simp] theorem streamRead_mem (s : State) (j : Job) (ref : QRef) (i : Nat) (f : Flight) (w : Stream) :
    (streamRead s j ref i f w).mem = s.mem := by
  unfold streamRead
  dsimp only
  split
  · split
    · simp
    case h_2 asked =>
      have same := askChunk_mem asked
      simpa using same
  · split <;> simp

@[simp] theorem issueChunk_mem (ref : QRef) (i : Nat) (s : State) : (issueChunk ref i s).mem = s.mem := by
  unfold issueChunk
  (repeat' split) <;> simp

@[simp] theorem chooseItem_mem (gid : Nat) (s : State) : (chooseItem gid s).mem = s.mem := by
  unfold chooseItem
  dsimp only
  (repeat' split) <;> rfl

@[simp] theorem State.bindVer_mem (s : State) (jid stage slot n step : Nat) : (State.bindVer s jid stage slot n step).mem = s.mem := by simp
  [State.bindVer]

@[simp] theorem State.pedalEnd_mem (s : State) (bit : Nat) : (State.pedalEnd s bit).mem = s.mem := rfl

@[simp] theorem dispatchItem_mem (s : State) (jid gid : Nat) : (dispatchItem s jid gid).mem = s.mem := by
  unfold dispatchItem
  dsimp only
  (repeat' split) <;> simp

@[simp] theorem pushItem_mem (gid : Nat) (s : State) : (pushItem gid s).mem = s.mem := by
  unfold pushItem
  dsimp only
  (repeat' split) <;> simp

@[simp] theorem sealSends_mem (s : State) (jid : Nat) (t : Stage) (bwd : Bool) (n : Nat) : (sealSends s jid t bwd n).mem = s.mem := by
  unfold sealSends
  split
  · rfl
  · exact foldl_mem (fun _ _ => by rfl)

@[simp] theorem State.addCredit_mem (s : State) (jid slot : Nat) (bwd : Bool) : (State.addCredit s jid slot bwd).mem = s.mem := rfl

@[simp] theorem State.sendStage_mem (s : State) (jid : Nat) (e : Edge) (bwd : Bool) (word pay : Nat) :
    (s.sendStage jid e bwd word pay).mem = s.mem := by
  unfold State.sendStage
  split
  · rfl
  · exact getD_mem (fun _ => State.sendJob_mem)

@[simp] theorem entryPoison_mem (s : State) (jid slot : Nat) (bwd : Bool) (n : Nat) : (entryPoison s jid slot bwd n).mem = s.mem := by
  unfold entryPoison
  (repeat' split) <;> simp

@[simp] theorem noticeAt_mem (s : State) (jid slot : Nat) (bwd : Bool) (n version bytes : Nat) (poison : Bool) :
  (noticeAt s jid slot bwd n version bytes poison).mem = s.mem := rfl

@[simp] theorem closeEntry_mem (slot : Nat) (bwd : Bool) (s : State) : (closeEntry slot bwd s).mem = s.mem := by
  unfold closeEntry
  dsimp only
  (repeat' split) <;> simp
  case h_1 sent => exact State.sendJob_mem sent

@[simp] theorem State.dropRx_mem (s : State) (n i : Nat) : (State.dropRx s n i).mem = s.mem := rfl

theorem State.takeRx_mem {s : State} {n vc : Nat} {p : SpokeFlit → Bool} {t}
    (h : s.takeRx n vc p = some t) : t.2.mem = s.mem := by
  unfold State.takeRx at h
  (repeat' split at h) <;> cases h
  rfl

@[simp] theorem strayFlit_mem (s : State) (f : SpokeFlit) : (strayFlit s f).mem = s.mem := by
  unfold strayFlit
  (repeat' split) <;> rfl

theorem onStage_mem {k : SpokeFlit → Job → Edge → State → State} (keeps : ∀ f j e s, (k f j e s).mem = s.mem) (port vc kind : Nat)
    (s : State) : (onStage port vc kind s k).mem = s.mem := by
  unfold onStage
  split
  · rfl
  case h_2 taken =>
    have same := State.takeRx_mem (Option.ite_none_left_eq_some.1 taken).2
    dsimp only at same
    (repeat' split) <;> simp [keeps, same]

@[simp] theorem dropKind3_mem (port vc : Nat) (s : State) : (dropKind3 port vc s).mem = s.mem := by
  unfold dropKind3
  split
  case h_1 taken => exact State.takeRx_mem taken
  case h_2 => rfl

@[simp] theorem takeNotice_mem (bwd : Bool) (f : SpokeFlit) (j : Job) (e : Edge) (s : State) : (takeNotice bwd f j e s).mem = s.mem := by simp
  [takeNotice]

@[simp] theorem takeCredit_mem (bwd : Bool) (a1 : SpokeFlit) (j : Job) (e : Edge) (s : State) : (takeCredit bwd a1 j e s).mem = s.mem := by
  unfold takeCredit
  split <;> rfl

theorem onStrand_mem {f : State → State} (keeps : ∀ s, (f s).mem = s.mem) (s : State) : (onStrand f s).mem = s.mem := by
  unfold onStrand
  split
  · rfl
  · exact keeps s

@[simp] theorem openingArrives_mem (m : OpenMsg) (s : State) : (openingArrives m s).mem = s.mem := by
  unfold openingArrives
  (repeat' split) <;> simp

@[simp] theorem closingAcked_mem (src job edgeId : Nat) (s : State) : (closingAcked src job edgeId s).mem = s.mem := foldl_keeps
  (fun _ _ => by simp) _ _

@[simp] theorem State.edgeLost_mem (s : State) (jid slot : Nat) : (State.edgeLost s jid slot).mem = s.mem := by
  unfold State.edgeLost
  (repeat' split) <;> rfl

@[simp] theorem State.unpin_mem (s : State) (jid step : Nat) : (State.unpin s jid step).mem = s.mem := by
  unfold State.unpin
  (repeat' split) <;> simp

@[simp] theorem State.judgeLag_mem (s : State) (jid step : Nat) : (State.judgeLag s jid step).mem = s.mem := by
  unfold State.judgeLag
  (repeat' split) <;> simp

@[simp] theorem State.nextStep_mem (s : State) (jid : Nat) : (State.nextStep s jid).mem = s.mem := rfl

@[simp] theorem State.endBegin_mem (s : State) (jid : Nat) : (State.endBegin s jid).mem = s.mem := by
  unfold State.endBegin
  dsimp only
  split <;> rfl

theorem ringPacket_mem {n vc type : Nat} {norm : Bool} {s : State} {t}
    (h : ringPacket n vc type norm s = some t) : t.2.mem = s.mem := by
  obtain ⟨u, taken, rfl⟩ := Option.map_eq_some_iff.1 h
  exact State.takeRx_mem taken

@[simp] theorem discardRing_mem (s : State) (j : Job) (p : RPkt) (code : Nat) : (discardRing s j p code).mem = s.mem := by
  unfold discardRing
  (repeat' split) <;> rfl

@[simp] theorem takeRing_mem (n vc type : Nat) (s : State) : (takeRing n vc type s).mem = s.mem := by
  unfold takeRing
  split
  · rfl
  case h_2 taken =>
    have same := ringPacket_mem taken
    dsimp only at same ⊢
    (repeat' split) <;> simp [same]

@[simp] theorem State.makeUp_mem (s : State) (j : Job) (g : RGroup) (b : Bucket) (cause : Nat) (srcs : List Nat) (k : Nat) :
    (s.makeUp j g b cause srcs k).1.mem = s.mem := by
  induction k generalizing s b with
  | zero => rfl
  | succ k ih =>
    unfold State.makeUp
    dsimp only
    split
    · rfl
    · exact (ih ..).trans (State.deliver_mem ..)

@[simp] theorem State.poisonDue_mem (s : State) (j : Job) (b : Bucket) (cause : Nat) (srcs : List Nat) :
  (State.poisonDue s j b cause srcs).mem = s.mem := by
  unfold State.poisonDue
  dsimp only
  (repeat' split) <;> simp

@[simp] theorem timeoutShard_mem (tag : Nat) (s : State) : (timeoutShard tag s).mem = s.mem := by
  unfold timeoutShard
  (repeat' split) <;> simp

@[simp] theorem State.updRoot_mem (s : State) (jid : Nat) (r : NormRoot) : (State.updRoot s jid r).mem = s.mem := rfl

@[simp] theorem State.sendNorm_mem (s : State) (j : Job) (dst : Nat) (poison : Option Nat) (pay : Nat) :
    (s.sendNorm j dst poison pay).mem = s.mem := getD_mem (fun _ => State.sendJob_mem)

theorem onNorm_mem {k : RPkt → Job → State → State} (keeps : ∀ p j s, (k p j s).mem = s.mem) (n : Nat) (s : State) :
    (onNorm n s k).mem = s.mem := by
  unfold onNorm
  split
  · rfl
  · split
    · rfl
    case h_2 taken =>
      have same := ringPacket_mem taken
      dsimp only at same
      (repeat' split) <;> simp [keeps, same]

@[simp] theorem State.sendSuspect_mem (s : State) (jid x : Nat) : (State.sendSuspect s jid x).mem = s.mem := by
  unfold State.sendSuspect
  (repeat' split) <;> simp

@[simp] theorem reportSource_mem (job src : Nat) (s : State) : (reportSource job src s).mem = s.mem := by
  unfold reportSource
  (repeat' split) <;> simp

@[simp] theorem clearPoison_mem (job : Nat) (s : State) : (clearPoison job s).mem = s.mem := by
  unfold clearPoison
  (repeat' split) <;> rfl

theorem onLocket_mem {f : State → State} (keeps : ∀ s, (f s).mem = s.mem) (s : State) : (onLocket f s).mem = s.mem := by
  unfold onLocket
  split
  · rfl
  · exact keeps s

@[simp] theorem State.fetchAll_mem (s : State) (job : Nat) (rs : List (Nat × Nat)) : (s.fetchAll job rs).2.mem = s.mem :=
  foldl_snd_mem (fun _ _ => by simp)

@[simp] theorem staticsBytes_mem (s : State) (jid : Nat) (l : Locket) : (staticsBytes s jid l).2.mem = s.mem := by simp [staticsBytes]

@[simp] theorem ckptBody_mem (s : State) (jid : Nat) (l : Locket) (w : Sealing) : (ckptBody s jid l w).2.mem = s.mem := by simp [ckptBody]

theorem State.sendVc5_mem {s : State} {job dst word pay : Nat} {t}
    (h : s.sendVc5 job dst word pay = some t) : t.mem = s.mem := by
  unfold State.sendVc5 at h
  split at h
  · exact State.sendJob_mem h
  · split at h
    · cases h
    · exact State.sendFlow_mem h

@[simp] theorem State.readRing_mem (s : State) : s.readRing.mem = s.mem := by
  unfold State.readRing
  dsimp only
  split
  · rfl
  · exact getD_mem (fun _ => State.sendVc5_mem)

@[simp] theorem State.rekey_mem (s : State) (id : Nat) : (State.rekey s id).mem = s.mem := by
  unfold State.rekey
  split <;> rfl

@[simp] theorem State.startRun_mem (s : State) (jid : Nat) : (State.startRun s jid).mem = s.mem := rfl

@[simp] theorem runControls_mem (jid addr k i : Nat) (s : State) : (runControls jid addr k i s).1.mem = s.mem := by
  induction k generalizing i s with
  | zero => rfl
  | succ k ih =>
    unfold runControls
    dsimp only
    (repeat' split) <;> simp [ih]

theorem controlList_mem {p : Nat} {s : State} {t}
    (h : controlList p s = some t) : t.1.mem = s.mem := by
  unfold controlList at h
  (repeat' split at h) <;> cases h <;> simp

theorem onBar_mem {f : State → State} (keeps : ∀ s, (f s).mem = s.mem) (s : State) : (onBar f s).mem = s.mem := by
  unfold onBar
  split
  · exact keeps s
  · rfl

@[simp] theorem ringDoorbell_mem (src : Option Nat) (v : Nat) (s : State) : (ringDoorbell src v s).mem = s.mem := by simp [ringDoorbell]

theorem onVc0_mem {k : SpokeFlit → State → State} (keeps : ∀ f s, (k f s).mem = s.mem) (n msg : Nat) (s : State) :
    (onVc0 n msg s k).mem = s.mem := by
  unfold onVc0
  split
  case h_1 taken => exact (keeps ..).trans (State.takeRx_mem taken)
  case h_2 => rfl

@[simp] theorem irqClear_mem (v : Nat) (s : State) : (irqClear v s).mem = s.mem := rfl

@[simp] theorem irqMask_mem (v : Nat) (s : State) : (irqMask v s).mem = s.mem := rfl

@[simp] theorem State.refuse_mem (s : State) (code : Nat) : (State.refuse s code).mem = s.mem := rfl

@[simp] theorem mboxCtrl_mem (v : Nat) (s : State) : (mboxCtrl v s).mem = s.mem := by simp [mboxCtrl]

@[simp] theorem State.mboxDone_mem (s : State) : (State.mboxDone s).mem = s.mem := rfl

@[simp] theorem mboxPost_mem (msg : Bytes) (reply : Bool) (s : State) : (mboxPost msg reply s).mem = s.mem := by
  unfold mboxPost
  dsimp only
  (repeat' split) <;> rfl

@[simp] theorem barWrite_mem (off size v : Nat) (s : State) : (barWrite off size v s).mem = s.mem := by simp [barWrite]

@[simp] theorem publishTelemetry_mem (s : State) : (publishTelemetry s).mem = s.mem := by
  unfold publishTelemetry
  split <;> rfl

@[simp] theorem State.mark_mem (s : State) (kind d : Nat) : (State.mark s kind d).mem = s.mem := rfl

@[simp] theorem meterGate_mem (meters steps : List Nat) (s : State) : (meterGate meters steps s).mem = s.mem := by
  unfold meterGate
  split <;> rfl

@[simp] theorem State.logOpen_mem (s : State) (inst job detail : Nat) : (State.logOpen s inst job detail).mem = s.mem := rfl

@[simp] theorem replaceMeters_mem (d : Nat) (s : State) : (replaceMeters d s).mem = s.mem := by
  unfold replaceMeters
  (repeat' split) <;> rfl

@[simp] theorem milliGate_mem (s : State) (budget : Nat) : (milliGate s budget).mem = s.mem := by
  unfold milliGate
  dsimp only
  split <;> rfl

@[simp] theorem assignedCad_mem (s : State) (g : Nat) : (assignedCad s g).2.mem = s.mem := by
  unfold assignedCad
  dsimp only
  (repeat' split) <;> rfl

@[simp] theorem voltGates_mem (top set : Nat) (fits : Bool) (ds : List Die) (s : State) : (voltGates top set fits ds s).2.mem = s.mem := by
  induction ds generalizing s with
  | nil => rfl
  | cons d ds ih => exact ih _

@[simp] theorem dutyGate_mem (s : State) (budget old : Nat) : (dutyGate s budget old).mem = s.mem := rfl

@[simp] theorem pedalGate_mem (s : State) : (pedalGate s).mem = s.mem := foldl_keeps (fun _ _ => by split <;> simp) _ _

@[simp] theorem jobGate_mem (s : State) (g assigned set budget : Nat) : (jobGate s g assigned set budget).mem = s.mem := by
  unfold jobGate
  (repeat' split) <;> simp

@[simp] theorem governorGate_mem (mean mean100 : Nat) (s : State) : (governorGate mean mean100 s).mem = s.mem := by simp [governorGate]

@[simp] theorem capLimit_mem (mean100 : Nat) (s : State) : (capLimit mean100 s).mem = s.mem := by
  unfold capLimit
  split <;> rfl

@[simp] theorem State.withdrawGrants_mem (s : State) : (State.withdrawGrants s).mem = s.mem := rfl

@[simp] theorem throttleOn_mem (sensor reading : Nat) (s : State) : (throttleOn sensor reading s).mem = s.mem := by
  unfold throttleOn
  split <;> rfl

@[simp] theorem throttleDown_mem (reading : Nat) (s : State) : (throttleDown reading s).mem = s.mem := by
  unfold throttleDown
  split <;> rfl

@[simp] theorem throttleOff_mem (reading : Nat) (s : State) : (throttleOff reading s).mem = s.mem := by
  unfold throttleOff
  split <;> rfl

@[simp] theorem State.logHold_mem (s : State) (d t : Nat) : (State.logHold s d t).mem = s.mem := rfl

@[simp] theorem State.coreOff_mem (s : State) : (State.coreOff s).mem = s.mem := foldl_keeps (v := State.mem)
  (fun _ _ => by grind [State.logHold_mem]) _ _

@[simp] theorem State.enter_mem (s : State) (m : MState) : (State.enter s m).mem = s.mem := by simp [State.enter]

@[simp] theorem State.sendNotices_mem (s : State) : (State.sendNotices s).mem = s.mem := by simp [State.sendNotices]

@[simp] theorem State.failModule_mem (s : State) : (State.failModule s).mem = s.mem := by simp [State.failModule]

@[simp] theorem trip_mem (sensor reading : Nat) (s : State) : (trip sensor reading s).mem = s.mem := by simp [trip]

theorem onMss_mem {f : State → State} (keeps : ∀ s, (f s).mem = s.mem) (s : State) : (onMss f s).mem = s.mem := by
  unfold onMss
  split
  · rfl
  · exact keeps s

@[simp] theorem State.setSensor_mem (s : State) (id : Nat) (v : Int) : (State.setSensor s id v).mem = s.mem := rfl

@[simp] theorem coolant_mem (inlet outlet : Int) (s : State) : (coolant inlet outlet s).mem = s.mem := by
  unfold coolant
  dsimp only
  split <;> rfl

@[simp] theorem sendLockReport_mem (mean : Nat) (est : List (Nat × Nat)) (s : State) : (sendLockReport mean est s).mem = s.mem := by
  unfold sendLockReport
  (repeat' split) <;> simp

@[simp] theorem broadcastLocks_mem (jid : Nat) (s : State) : (broadcastLocks jid s).mem = s.mem := by
  unfold broadcastLocks
  (repeat' split) <;> simp

@[simp] theorem takeLockReport_mem (m : LockMsg) (s : State) : (takeLockReport m s).mem = s.mem := by
  unfold takeLockReport
  (repeat' split) <;> simp

@[simp] theorem takeLocks_mem (m : LockOut) (s : State) : (takeLocks m s).mem = s.mem := by
  unfold takeLocks
  (repeat' split) <;> rfl

@[simp] theorem pedalExpire_mem (s : State) : (pedalExpire s).mem = s.mem := rfl

@[simp] theorem holdDie_mem (d mv : Nat) (s : State) : (holdDie d mv s).mem = s.mem := by
  unfold holdDie
  split <;> rfl

@[simp] theorem State.serveRead_mem (s : State) (src job xid a n : Nat) : (s.serveRead src job xid a n).mem = s.mem := by
  unfold State.serveRead
  exact (getD_mem (fun _ => State.sendVc5_mem)).trans ((foldl_mem (fun _ _ => getD_mem (fun _ => State.sendVc5_mem))).trans (by simp))

@[simp] theorem State.sendDone_mem (s : State) (src job xid code : Nat) : (s.sendDone src job xid code).mem = s.mem :=
  getD_mem (fun _ => State.sendVc5_mem)

@[simp] theorem serveReadReq_mem (f : SpokeFlit) (s : State) : (serveReadReq f s).mem = s.mem := by simp [serveReadReq]

@[simp] theorem State.tellUnreachable_mem (s : State) (src dst : Nat) : (s.tellUnreachable src dst).mem = s.mem := by
  unfold State.tellUnreachable
  split
  · rfl
  · exact State.sendVc0_mem ..

@[simp] theorem arrive_mem (n : Nat) (f : SpokeFlit) (s : State) : (arrive n f s).mem = s.mem := by simp [arrive]

@[simp] theorem State.settlePort_mem (s : State) (n : Nat) : (State.settlePort s n).mem = s.mem := by simp [State.settlePort]

@[simp] theorem State.pumpDiePorts_mem (s : State) (d : Nat) : (State.pumpDiePorts s d).mem = s.mem := by simp [State.pumpDiePorts]

@[simp] theorem State.thawLinks_mem (s : State) (d t : Nat) : (State.thawLinks s d t).mem = s.mem := rfl

@[simp] theorem holdTimeout_mem (d : Nat) (s : State) : (holdTimeout d s).mem = s.mem := by
  unfold holdTimeout
  (repeat' split) <;> simp

theorem onChannel_mem {f : Channel → State → State} (keeps : ∀ x s, (f x s).mem = s.mem) (c : Nat) (s : State) :
    (onChannel c f s).mem = s.mem := by
  unfold onChannel
  split
  · split
    · rfl
    · exact keeps _ s
  · rfl

@[simp] theorem startRetrain_mem (ch : Nat) (s : State) : (startRetrain ch s).mem = s.mem :=
  onChannel_mem (fun _ _ => by split <;> rfl) ..

@[simp] theorem patrolFinds_mem (ch u : Nat) (found : PatrolFind) (s : State) : (patrolFinds ch u found s).mem = s.mem := by
  unfold patrolFinds
  dsimp only
  (repeat' split) <;> rfl

@[simp] theorem patrol_mem (ch : Nat) (found : PatrolFind) (s : State) : (patrol ch found s).mem = s.mem :=
  onChannel_mem (fun _ _ => by split <;> simp) ..

@[simp] theorem drainWrites_mem (ch : Nat) (s : State) : (drainWrites ch s).mem = s.mem :=
  onChannel_mem (fun _ _ => by split <;> rfl) ..

@[simp] theorem checkRefresh_mem (temps : List Int) (s : State) : (checkRefresh temps s).mem = s.mem := rfl

@[simp] theorem State.findBad_mem (s : State) (c bank row : Nat) : (State.findBad s c bank row).mem = s.mem := by
  unfold State.findBad
  dsimp only
  split <;> rfl

@[simp] theorem State.retirePage_mem (s : State) (c bank row : Nat) : (State.retirePage s c bank row).mem = s.mem := by
  unfold State.retirePage
  (repeat' split) <;> simp

@[simp] theorem State.ledgerRow_mem (s : State) (x : FailedRow) : (State.ledgerRow s x).mem = s.mem := rfl

@[simp] theorem State.putRow_mem (s : State) (x : FailedRow) : (State.putRow s x).mem = s.mem := rfl

@[simp] theorem State.copyRow_mem (s : State) (c bank row : Nat) : (s.copyRow c bank row).mem = s.mem :=
  (foldl_mem (fun _ _ => by rfl)).trans (State.poisonUnits_mem ..)

@[simp] theorem State.remapRow_mem (s : State) (c bank row : Nat) (uncorr : Bool) : (State.remapRow s c bank row uncorr).mem = s.mem := by
  unfold State.remapRow
  dsimp only
  (repeat' split) <;> simp

@[simp] theorem holdPeer_mem (n op : Nat) (s : State) : (holdPeer n op s).mem = s.mem := by
  unfold holdPeer
  dsimp only
  split
  · rfl
  case h_2 taken =>
    have same := State.takeRx_mem taken
    (repeat' split)
    · rfl
    · rfl
    · exact same

theorem onVc5_mem {k : SpokeFlit → State → State} (keeps : ∀ f s, (k f s).mem = s.mem) (n op : Nat) (s : State) :
    (onVc5 n op s k).mem = s.mem := by
  unfold onVc5
  split
  case h_1 taken => exact (keeps ..).trans (State.takeRx_mem taken)
  case h_2 => rfl

theorem peerRequest_mem {k : SpokeFlit → State → State} (keeps : ∀ f s, (k f s).mem = s.mem) (n op : Nat) (s : State) :
    (peerRequest n op s k).mem = s.mem := by
  unfold peerRequest
  split
  · exact holdPeer_mem ..
  · exact onVc5_mem keeps ..

@[simp] theorem serveWriteReq_mem (f : SpokeFlit) (s : State) : (serveWriteReq f s).mem = s.mem := by simp [serveWriteReq]

theorem State.mapFlights_mem {k : State → Job → QRef → Flight → State × Flight} (keeps : ∀ t j r f, (k t j r f).1.mem = t.mem)
    (s : State) (jid : Nat) : (s.mapFlights jid k).mem = s.mem := by
  unfold State.mapFlights
  split
  · rfl
  · refine foldl_mem (fun t q => foldl_fst_mem (fun acc f => ?_))
    split
    · rfl
    · exact keeps ..

@[simp] theorem moveReadData_mem (fl : SpokeFlit) (s : State) (a2 : Job) (a3 : QRef) (f : Flight) : (moveReadData fl s a2 a3 f).1.mem = s.mem := by
  unfold moveReadData
  (repeat' split) <;> rfl

@[simp] theorem streamReadData_mem (fl : SpokeFlit) (s : State) (a2 : Job) (a3 : QRef) (f : Flight) :
  (streamReadData fl s a2 a3 f).1.mem = s.mem := by
  unfold streamReadData
  (repeat' split) <;> rfl

@[simp] theorem takeReadData_mem (f : SpokeFlit) (s : State) : (takeReadData f s).mem = s.mem :=
  foldl_mem (fun _ _ => (State.mapFlights_mem (fun _ _ _ _ => by simp) ..).trans (State.mapFlights_mem (fun _ _ _ _ => by simp) ..))

@[simp] theorem State.noteAllWaits_mem (s : State) (jid : Nat) : (State.noteAllWaits s jid).mem = s.mem := foldl_keeps (fun _ _ => by simp) _ _

@[simp] theorem peerRead_mem (s : State) (j : Job) (mover : Nat) (f : Flight) (m : PeerMove) : (peerRead s j mover f m).1.mem = s.mem := by simp
  [peerRead]

@[simp] theorem moveDone_mem (fl : SpokeFlit) (s : State) (j : Job) (ref : QRef) (f : Flight) : (moveDone fl s j ref f).1.mem = s.mem := by
  unfold moveDone
  dsimp only
  (repeat' split) <;> simp

@[simp] theorem streamDone_mem (fl : SpokeFlit) (s : State) (a2 : Job) (a3 : QRef) (f : Flight) : (streamDone fl s a2 a3 f).1.mem = s.mem := by
  unfold streamDone
  (repeat' split) <;> rfl

@[simp] theorem takeDone_mem (f : SpokeFlit) (s : State) : (takeDone f s).mem = s.mem := by
  refine foldl_mem (fun t k => (State.noteAllWaits_mem ..).trans ?_)
  exact (State.mapFlights_mem (fun _ _ _ _ => by simp) ..).trans (State.mapFlights_mem (fun _ _ _ _ => by simp) ..)

@[simp] theorem serveOwn_mem (f : SpokeFlit) (s : State) : (serveOwn f s).mem = s.mem := getD_mem (fun _ => State.sendVc5_mem)

@[simp] theorem State.answerAsks_mem (s : State) (jid : Nat) (hit : Nat → Bool) (code : Nat) : (State.answerAsks s jid hit code).mem = s.mem := rfl

@[simp] theorem State.sendControl_mem (s : State) (n flags extra : Nat) : (State.sendControl s n flags extra).mem = s.mem := rfl

@[simp] theorem attemptTraining_mem (n : Nat) (s : State) : (attemptTraining n s).mem = s.mem := by
  unfold attemptTraining
  dsimp only
  split <;> rfl

@[simp] theorem moveLost_mem (peer : Nat) (s : State) (j : Job) (a3 : QRef) (f : Flight) : (moveLost peer s j a3 f).1.mem = s.mem := by
  unfold moveLost
  (repeat' split) <;> simp

@[simp] theorem streamLost_mem (peer : Nat) (s : State) (j : Job) (a3 : QRef) (f : Flight) : (streamLost peer s j a3 f).1.mem = s.mem := by
  unfold streamLost
  (repeat' split) <;> rfl

@[simp] theorem State.ringLost_mem (s : State) (jid m : Nat) (cls : Nat → Bool) : (s.ringLost jid m cls).mem = s.mem := by
  unfold State.ringLost
  split
  · rfl
  · refine foldl_mem (fun t b => ?_)
    (repeat' split) <;> simp

@[simp] theorem State.logPort_mem (s : State) (code port lane : Nat) : (State.logPort s code port lane).mem = s.mem := rfl

@[simp] theorem State.dropTime_mem (s : State) (peer : Nat) : (State.dropTime s peer).mem = s.mem := by
  unfold State.dropTime
  split <;> rfl

@[simp] theorem State.flitLost_mem (s : State) (f : SpokeFlit) : (State.flitLost s f).mem = s.mem := by simp [State.flitLost]

@[simp] theorem State.dropBundle_mem (s : State) (b : Bundle) : (State.dropBundle s b).mem = s.mem := rfl

@[simp] theorem State.restartBundle_mem (s : State) (b : Bundle) (ws : List QFlit) : (State.restartBundle s b ws).mem = s.mem := by simp
  [State.restartBundle]

@[simp] theorem State.reform_mem (s : State) : (State.reform s).mem = s.mem := foldl_mem (fun _ _ => by (repeat' split) <;> simp)

@[simp] theorem State.stopBundles_mem (s : State) (n : Nat) (un tx : List QFlit) : (s.stopBundles n un tx).mem = s.mem := by
  refine foldl_mem (fun t b => ?_)
  exact foldl_mem (g := fun s i => s.updPort i _) (fun _ _ => by rfl)

@[simp] theorem State.portOut_mem (s : State) (n : Nat) (log : Bool) : (State.portOut s n log).mem = s.mem := by simp [State.portOut]

@[simp] theorem State.portUp_mem (s : State) (n : Nat) : (State.portUp s n).mem = s.mem := by simp [State.portUp]

@[simp] theorem State.miswire_mem (s : State) (n peerMod : Nat) : (State.miswire s n peerMod).mem = s.mem := by simp [State.miswire]

@[simp] theorem completeTraining_mem (n : Nat) (ok : Bool) (peerMod peerPort expected : Nat) (s : State) :
  (completeTraining n ok peerMod peerPort expected s).mem = s.mem := by simp [completeTraining]

@[simp] theorem nakFlit_mem (n : Nat) (s : State) : (nakFlit n s).mem = s.mem := by
  unfold nakFlit
  dsimp only
  split <;> rfl

@[simp] theorem receiveFlit_mem (n : Nat) (f : SpokeFlit) (s : State) : (receiveFlit n f s).mem = s.mem := by simp [receiveFlit]

@[simp] theorem State.swapLane_mem (s : State) (n lane : Nat) : (State.swapLane s n lane).mem = s.mem := by simp [State.swapLane]

@[simp] theorem State.releaseParked_mem (s : State) : s.releaseParked.mem = s.mem := by
  refine foldl_mem (fun t x => ?_)
  cases sent : t.sendFlow x.old x.mask x.flit with
  | none => exact State.flitLost_mem ..
  | some u => exact State.sendFlow_mem sent

@[simp] theorem receiveControl_mem (n : Nat) (f : SpokeFlit) (s : State) : (receiveControl n f s).mem = s.mem := by simp [receiveControl]

@[simp] theorem sendAck_mem (n : Nat) (s : State) : (sendAck n s).mem = s.mem := by
  unfold sendAck
  dsimp only
  split <;> rfl

@[simp] theorem retrainPort_mem (n : Nat) (s : State) : (retrainPort n s).mem = s.mem := by
  unfold retrainPort
  dsimp only
  split <;> rfl

@[simp] theorem downPort_mem (n : Nat) (s : State) : (downPort n s).mem = s.mem := by simp [downPort]

@[simp] theorem State.laneFails_mem (s : State) (n lane : Nat) : (State.laneFails s n lane).mem = s.mem := by simp [State.laneFails]

@[simp] theorem substituteLane_mem (n lane : Nat) (s : State) : (substituteLane n lane s).mem = s.mem := by simp [substituteLane]

@[simp] theorem judgeLane_mem (n lane : Nat) (ber : Int) (s : State) : (judgeLane n lane ber s).mem = s.mem := by simp [judgeLane]

@[simp] theorem standPort_mem (n : Nat) (s : State) : (standPort n s).mem = s.mem := by
  unfold standPort
  split <;> rfl

@[simp] theorem wakePort_mem (n : Nat) (s : State) : (wakePort n s).mem = s.mem := by simp [wakePort]

@[simp] theorem State.updLink_mem (s : State) (l : Nat) (f : DieLink → DieLink) : (State.updLink s l f).mem = s.mem := rfl

@[simp] theorem State.updEnd_mem (s : State) (l : Nat) (far : Bool) (f : LinkEnd → LinkEnd) : (State.updEnd s l far f).mem = s.mem := rfl

@[simp] theorem State.emitData_mem (s : State) (l : Nat) (far : Bool) (f : DieFlit) : (State.emitData s l far f).mem = s.mem := rfl

@[simp] theorem State.pumpDieOne_mem (s : State) (l : Nat) (far : Bool) : (State.pumpDieOne s l far).mem = s.mem := by
  unfold State.pumpDieOne
  dsimp only
  (repeat' split) <;> rfl

@[simp] theorem State.pumpDieN_mem (s : State) (l : Nat) (far : Bool) (a3 : Nat) : (State.pumpDieN s l far a3).mem = s.mem := by
  fun_induction State.pumpDieN <;> simp_all

@[simp] theorem State.pumpDie_mem (s : State) (l : Nat) (far : Bool) : (State.pumpDie s l far).mem = s.mem := by simp [State.pumpDie]

@[simp] theorem State.routeDie_mem (s : State) (d : Nat) (f : DieFlit) : (State.routeDie s d f).mem = s.mem := by simp [State.routeDie]

@[simp] theorem crossDies_mem (s : State) (n i : Nat) : (crossDies s n i).mem = s.mem := by simp [crossDies]

@[simp] theorem forwardFlit_mem (n vc : Nat) (s : State) : (forwardFlit n vc s).mem = s.mem := by
  have sent {t : State} (same : t.mem = s.mem) (m : BitVec 36) (key : Nat) (f : SpokeFlit) : ((t.sendMask m key f).getD s).mem = s.mem :=
    getD_mem (fun _ h => (State.sendMask_mem h).trans same)
  unfold forwardFlit
  dsimp only
  split
  · rfl
  · split
    · rfl
    · split
      · split <;> simp
      · split
        · rfl
        · split
          · rfl
          · split
            · exact sent (State.dropRx_mem ..) ..
            · split
              · exact sent ((crossDies_mem ..).trans (State.dropRx_mem ..)) ..
              · rfl

@[simp] theorem ackPatch_mem (s : State) (dst job epoch code : Nat) : (ackPatch s dst job epoch code).mem = s.mem := State.sendVc0_mem ..

@[simp] theorem applyPatch_mem (f : SpokeFlit) (s : State) : (applyPatch f s).mem = s.mem := by
  unfold applyPatch
  dsimp only
  (repeat' split) <;> simp

@[simp] theorem takePatchAck_mem (f : SpokeFlit) (s : State) : (takePatchAck f s).mem = s.mem := rfl

@[simp] theorem takeMctp_mem (f : SpokeFlit) (s : State) : (takeMctp f s).mem = s.mem := rfl

@[simp] theorem sendTimes_mem (s : State) : (sendTimes s).mem = s.mem := by
  have sent (t : State) (old m : BitVec 36) (f : SpokeFlit) (o : Out) : (((t.sendFlow old m f).getD t).emit o).mem = t.mem :=
    getD_mem (fun _ => State.sendFlow_mem)
  unfold sendTimes
  dsimp only
  split <;> exact foldl_mem (fun t p => sent t ..)

@[simp] theorem takeDate_mem (m : TimeMsg) (s : State) : (takeDate m s).mem = s.mem := by
  unfold takeDate
  (repeat' split) <;> rfl

@[simp] theorem State.updTime_mem (s : State) (f : TimeSt → TimeSt) : (State.updTime s f).mem = s.mem := rfl

@[simp] theorem correctTime_mem (m : TimeMsg) (s : State) : (correctTime m s).mem = s.mem := by simp [correctTime]

@[simp] theorem chooseSource_mem (m : TimeMsg) (s : State) : (chooseSource m s).mem = s.mem := by simp [chooseSource]

@[simp] theorem noteTime_mem (m : TimeMsg) (s : State) : (noteTime m s).mem = s.mem := rfl

@[simp] theorem takeTime_mem (m : TimeMsg) (s : State) : (takeTime m s).mem = s.mem := by simp [takeTime]

theorem onLink_mem {f : State → State} (keeps : ∀ s, (f s).mem = s.mem) (l : Nat) (s : State) : (onLink l f s).mem = s.mem := by
  unfold onLink
  split
  · rfl
  · exact keeps s

theorem logicFault_mem {l : Nat} {f : DieFlit} {s : State} {t}
    (h : logicFault l f s = some t) : t.mem = s.mem := by
  unfold logicFault at h
  split at h
  · cases h
    simp
  · cases h

@[simp] theorem State.answerDie_mem (s : State) (d : Nat) (f : DieFlit) : (State.answerDie s d f).mem = s.mem := by simp [State.answerDie]

@[simp] theorem State.drainOne_mem (l : Nat) (far : Bool) (s : State) (f : DieFlit) : (State.drainOne l far s f).mem = s.mem := by simp
  [State.drainOne]

@[simp] theorem State.drainDie_mem (s : State) (l : Nat) (far : Bool) : (State.drainDie s l far).mem = s.mem := by simp [State.drainDie]

@[simp] theorem State.emitControl_mem (s : State) (l : Nat) (far : Bool) (f : DieFlit) : (State.emitControl s l far f).mem = s.mem := rfl

@[simp] theorem State.sendDieControl_mem (s : State) (l : Nat) (far nak : Bool) : (State.sendDieControl s l far nak).mem = s.mem := by
  unfold State.sendDieControl
  split <;> rfl

@[simp] theorem nakDie_mem (l : Nat) (far : Bool) (s : State) : (nakDie l far s).mem = s.mem := by
  unfold nakDie
  split <;> simp

@[simp] theorem receiveDie_mem (l : Nat) (far : Bool) (f : DieFlit) (s : State) : (receiveDie l far f s).mem = s.mem := by
  unfold receiveDie
  split
  case h_1 fault => exact logicFault_mem fault
  case h_2 => dsimp only; (repeat' split) <;> simp

@[simp] theorem State.takeDieControl_mem (s : State) (l : Nat) (far : Bool) (f : DieFlit) : (State.takeDieControl s l far f).mem = s.mem := rfl

@[simp] theorem State.proposeWidth_mem (s : State) (l : Nat) : (State.proposeWidth s l).mem = s.mem := by simp [State.proposeWidth]

@[simp] theorem State.enterQuarter_mem (s : State) (l : Nat) (far : Bool) : (State.enterQuarter s l far).mem = s.mem := by simp [State.enterQuarter]

@[simp] theorem State.retest_mem (s : State) (l : Nat) (far : Bool) : (State.retest s l far).mem = s.mem := by simp [State.retest]

@[simp] theorem heedControl_mem (l : Nat) (far : Bool) (f : DieFlit) (s : State) : (heedControl l far f s).mem = s.mem := by simp [heedControl]

theorem onControl_mem {k : State → State} (keeps : ∀ s, (k s).mem = s.mem) (l : Nat) (far : Bool) (f : DieFlit) (s : State) (due : Bool) :
    (onControl l far f s due k).mem = s.mem := by
  unfold onControl
  split
  case h_1 fault => exact logicFault_mem fault
  case h_2 => (repeat' split) <;> simp [keeps]

@[simp] theorem receiveDieControl_mem (l : Nat) (far : Bool) (f : DieFlit) (s : State) : (receiveDieControl l far f s).mem = s.mem :=
  onControl_mem (fun _ => by rfl) ..

@[simp] theorem takePropose_mem (l : Nat) (f : DieFlit) (s : State) : (takePropose l f s).mem = s.mem :=
  onControl_mem (fun _ => by simp) ..

@[simp] theorem takeAccept_mem (l : Nat) (f : DieFlit) (s : State) : (takeAccept l f s).mem = s.mem :=
  onControl_mem (fun _ => by simp) ..

@[simp] theorem State.commitWidth_mem (s : State) (l : Nat) (far : Bool) : (State.commitWidth s l far).mem = s.mem := rfl

@[simp] theorem State.recordWire_mem (s : State) (l lane wire spare : Nat) (removed : Bool) (mask : Nat) :
  (State.recordWire s l lane wire spare removed mask).mem = s.mem := rfl

@[simp] theorem State.substitute_mem (s : State) (l : Nat) (far : Bool) : (State.substitute s l far).mem = s.mem := foldl_keeps
  (fun _ _ => by simp) _ _

@[simp] theorem takeCommit_mem (l : Nat) (far : Bool) (f : DieFlit) (s : State) : (takeCommit l far f s).mem = s.mem :=
  onControl_mem (fun _ => by simp) ..

@[simp] theorem State.loseWire_mem (s : State) (l : Nat) (far : Bool) (lane wire : Nat) : (State.loseWire s l far lane wire).mem = s.mem := by
  unfold State.loseWire
  dsimp only
  split <;> rfl

@[simp] theorem State.partialReset_mem (s : State) (l : Nat) (far : Bool) (bad : List (Nat × Nat)) :
  (State.partialReset s l far bad).mem = s.mem := by simp [State.partialReset]

@[simp] theorem widthTimeout_mem (l : Nat) (s : State) : (widthTimeout l s).mem = s.mem := by simp [widthTimeout]

@[simp] theorem retrainDie_mem (l : Nat) (far reset : Bool) (bad : List (Nat × Nat)) (s : State) :
  (retrainDie l far reset bad s).mem = s.mem := by simp [retrainDie]

@[simp] theorem State.failWire_mem (s : State) (l : Nat) (far : Bool) (lane wire : Nat) : (State.failWire s l far lane wire).mem = s.mem := by simp
  [State.failWire]

@[simp] theorem State.linkOut_mem (s : State) (l : Nat) : (State.linkOut s l).mem = s.mem := by simp [State.linkOut]

@[simp] theorem dieLinkDown_mem (l : Nat) (laser : Bool) (s : State) : (dieLinkDown l laser s).mem = s.mem := by simp [dieLinkDown]

@[simp] theorem arriveDie_mem (d : Nat) (s : State) : (arriveDie d s).mem = s.mem := by simp [arriveDie]

@[simp] theorem beaconFails_mem (d : Nat) (s : State) : (beaconFails d s).mem = s.mem := by
  unfold beaconFails
  (repeat' split) <;> rfl

@[simp] theorem spanEnds_mem (t : Timetable) (w at_ : Nat) (s : State) : (spanEnds t w at_ s).mem = s.mem := rfl

@[simp] theorem windowStop_mem (w : Nat) (s : State) : (windowStop w s).mem = s.mem := by
  unfold windowStop
  dsimp only
  (repeat' split) <;> simp

@[simp] theorem State.reportAge_mem (s : State) (j : Job) : (State.reportAge s j).mem = s.mem := by
  unfold State.reportAge
  (repeat' split) <;> simp

@[simp] theorem ageJobs_mem (s : State) : (ageJobs s).mem = s.mem := by simp [ageJobs]

@[simp] theorem State.parkJob_mem (s : State) (j : Job) : (State.parkJob s j).mem = s.mem := rfl

@[simp] theorem State.overrun_mem (s : State) (jid : Nat) (st : Stop) : (State.overrun s jid st).mem = s.mem := by
  unfold State.overrun
  (repeat' split) <;> simp

@[simp] theorem switchEnd_mem (s : State) (jid : Nat) : (switchEnd s jid).mem = s.mem := by
  unfold switchEnd
  dsimp only
  (repeat' split) <;> simp

@[simp] theorem State.setSwitch_mem (s : State) (sw : Switch) : (State.setSwitch s sw).mem = s.mem := rfl

@[simp] theorem switchLock_mem (s : State) (sw : Switch) (j : Job) : (switchLock s sw j).mem = s.mem := by
  unfold switchLock
  (repeat' split) <;> simp

@[simp] theorem State.reopenEdges_mem (s : State) (jid : Nat) : (s.reopenEdges jid).mem = s.mem := by
  unfold State.reopenEdges
  split
  · rfl
  · exact (foldl_mem (fun _ _ => State.send_mem ..)).trans (foldl_mem (fun _ _ => by rfl))

@[simp] theorem switchEdges_mem (s : State) (sw : Switch) (j : Job) : (switchEdges s sw j).mem = s.mem := by simp [switchEdges]

@[simp] theorem State.loseStrand_mem (s : State) (jid : Nat) : (State.loseStrand s jid).mem = s.mem := by
  unfold State.loseStrand
  split <;> rfl

@[simp] theorem State.takeAge_mem (s : State) (j : Job) (rank : Nat) : (State.takeAge s j rank).mem = s.mem := by simp [State.takeAge]

@[simp] theorem State.takeStart_mem (s : State) (j : Job) (m : SwitchMsg) : (State.takeStart s j m).mem = s.mem := by simp [State.takeStart]

@[simp] theorem takeRequest_mem (m : SwitchMsg) (s : State) : (takeRequest m s).mem = s.mem := by
  unfold takeRequest
  (repeat' split) <;> simp

@[simp] theorem takeInstant_mem (m : SwitchMsg) (s : State) : (takeInstant m s).mem = s.mem := by simp [takeInstant]

@[simp] theorem instantReached_mem (job : Nat) (s : State) : (instantReached job s).mem = s.mem := by
  unfold instantReached
  (repeat' split) <;> simp

@[simp] theorem startTimeout_mem (job : Nat) (s : State) : (startTimeout job s).mem = s.mem := by
  unfold startTimeout
  (repeat' split) <;> simp

@[simp] theorem State.poisonReader_mem (s : State) (a : Nat) : (s.poisonReader a).mem = s.mem :=
  foldl_mem (fun t _ => State.mapFlights_mem (fun t _ _ _ => by split <;> rfl) t _)

@[simp] theorem failPhase_mem (d phase : Nat) (s : State) : (failPhase d phase s).mem = s.mem := by
  unfold failPhase
  (repeat' split) <;> simp

@[simp] theorem State.retirePhase_mem (s : State) (x : Nat) : (State.retirePhase s x).mem = s.mem := by
  unfold State.retirePhase
  (repeat' split) <;> simp

@[simp] theorem State.retireLane_mem (s : State) (x : Nat) : (State.retireLane s x).mem = s.mem := by simp [State.retireLane]

@[simp] theorem ledgerFit_mem (kind idx slope date : Nat) (s : State) : (ledgerFit kind idx slope date s).mem = s.mem := by
  unfold ledgerFit
  split <;> rfl

@[simp] theorem failHostPort_mem (trains : Bool) (s : State) : (failHostPort trains s).mem = s.mem := by simp [failHostPort]

@[simp] theorem State.nextCandidate_mem (s : State) (jid : Nat) : (State.nextCandidate s jid).mem = s.mem := by
  unfold State.nextCandidate
  (repeat' split) <;> simp

@[simp] theorem State.sendRecover_mem (s : State) (jid : Nat) : (State.sendRecover s jid).mem = s.mem := by
  unfold State.sendRecover
  (repeat' split) <;> simp

@[simp] theorem State.confirmFailed_mem (s : State) (jid x : Nat) : (State.confirmFailed s jid x).mem = s.mem := by
  unfold State.confirmFailed
  (repeat' split) <;> simp

@[simp] theorem takeNoticeOf_mem (src jid : Nat) (s : State) : (takeNoticeOf src jid s).mem = s.mem := by
  unfold takeNoticeOf
  (repeat' split) <;> simp

@[simp] theorem takeSuspect_mem (src jid x : Nat) (s : State) : (takeSuspect src jid x s).mem = s.mem := by
  unfold takeSuspect
  (repeat' split) <;> simp

@[simp] theorem probeOver_mem (jid x : Nat) (s : State) : (probeOver jid x s).mem = s.mem := by
  unfold probeOver
  (repeat' split) <;> simp

@[simp] theorem startPulls_mem (src jid x y : Nat) (s : State) : (startPulls src jid x y s).mem = s.mem := by
  unfold startPulls
  (repeat' split) <;> simp

@[simp] theorem obeyAlias_mem (src jid x y : Nat) (s : State) : (obeyAlias src jid x y s).mem = s.mem := by
  unfold obeyAlias
  dsimp only
  (repeat' split)
  case h_2.isFalse.isTrue => exact (State.ackOrder_mem ..).trans (getD_map_mem (fun j => State.sendOffer_mem _ j))
  all_goals simp

@[simp] theorem State.ownEdgeRepoint_mem (s : State) (jid slot peer : Nat) : (State.ownEdgeRepoint s jid slot peer).mem = s.mem := by
  unfold State.ownEdgeRepoint
  dsimp only
  (repeat' split) <;> simp

@[simp] theorem State.releaseHalted_mem (s : State) (jid : Nat) : (State.releaseHalted s jid).mem = s.mem := by
  unfold State.releaseHalted
  (repeat' split) <;> simp

@[simp] theorem State.startTakeover_mem (s : State) (jid x : Nat) : (State.startTakeover s jid x).mem = s.mem := by
  unfold State.startTakeover
  (repeat' split) <;> simp

@[simp] theorem State.countTakeover_mem (s : State) (j : Job) : (State.countTakeover s j).mem = s.mem := by
  unfold State.countTakeover
  split <;> rfl

@[simp] theorem State.sendReplay_mem (s : State) (jid step : Nat) : (State.sendReplay s jid step).mem = s.mem := by
  unfold State.sendReplay
  (repeat' split) <;> simp

@[simp] theorem State.decidePath_mem (s : State) (jid : Nat) : (State.decidePath s jid).mem = s.mem := by
  unfold State.decidePath
  (repeat' split) <;> simp

@[simp] theorem takeQuiet_mem (m : QuietMsg) (s : State) : (takeQuiet m s).mem = s.mem := by
  unfold takeQuiet
  dsimp only
  (repeat' split) <;> simp

@[simp] theorem quietOver_mem (jid : Nat) (s : State) : (quietOver jid s).mem = s.mem := by
  unfold quietOver
  (repeat' split) <;> simp

@[simp] theorem takeOffered_mem (lead job x buddy sealed : Nat) (info : SrcInfo) (s : State) :
  (takeOffered lead job x buddy sealed info s).mem = s.mem := by simp [takeOffered]

@[simp] theorem State.sendPatch_mem (s : State) (jid m key : Nat) (e : BitVec 36 × Bool) : (State.sendPatch s jid m key e).mem = s.mem := by
  unfold State.sendPatch
  (repeat' split) <;> simp

@[simp] theorem takeAnswer_mem (src jid : Nat) (ok : Bool) (s : State) : (takeAnswer src jid ok s).mem = s.mem := by
  unfold takeAnswer
  (repeat' split) <;> simp

@[simp] theorem State.takeFails_mem (s : State) (t : TakeSt) : (State.takeFails s t).mem = s.mem := by simp [State.takeFails]

@[simp] theorem takeAdmitted_mem (src jid : Nat) (ok : Bool) (routes : List (Nat × Nat × Bool)) (links : List (Nat × Nat)) (s : State) :
  (takeAdmitted src jid ok routes links s).mem = s.mem := by
  unfold takeAdmitted
  (repeat' split) <;> simp

@[simp] theorem takeCarried_mem (src jid : Nat) (ok : Bool) (s : State) : (takeCarried src jid ok s).mem = s.mem := by
  unfold takeCarried
  dsimp only
  (repeat' split) <;> simp

@[simp] theorem servePull_mem (src jid : Nat) (s : State) : (servePull src jid s).mem = s.mem := by
  unfold servePull
  dsimp only
  (repeat' split)
  case h_2 => exact (State.send_mem ..).trans (foldl_fst_mem (fun _ _ => State.fetch_mem ..))
  all_goals rfl

@[simp] theorem serveTensor_mem (src jid i stage slot0 pitch len : Nat) (s : State) :
  (serveTensor src jid i stage slot0 pitch len s).mem = s.mem := by
  unfold serveTensor
  (repeat' split) <;> simp

@[simp] theorem State.logTakeovers_mem (s : State) (jid : Nat) : (s.logTakeovers jid).mem = s.mem := by
  unfold State.logTakeovers
  split
  · rfl
  · exact foldl_mem (fun _ _ => by rfl)

@[simp] theorem takeAck_mem (src jid : Nat) (o : OrderKind) (ok : Bool) (s : State) : (takeAck src jid o ok s).mem = s.mem := by
  unfold takeAck
  (repeat' split) <;> simp

@[simp] theorem takeHalt_mem (src jid : Nat) (s : State) : (takeHalt src jid s).mem = s.mem := by
  unfold takeHalt
  (repeat' split) <;> rfl

@[simp] theorem acceptOver_mem (jid : Nat) (s : State) : (acceptOver jid s).mem = s.mem := by
  unfold acceptOver
  (repeat' split) <;> simp

@[simp] theorem takeStraggler_mem (src jid step : Nat) (s : State) : (takeStraggler src jid step s).mem = s.mem := by
  unfold takeStraggler
  (repeat' split) <;> simp

@[simp] theorem State.endTestHold_mem (s : State) : (State.endTestHold s).mem = s.mem := by
  unfold State.endTestHold
  split <;> rfl

@[simp] theorem State.restartMss_mem (s : State) : (State.restartMss s).mem = s.mem := rfl

@[simp] theorem State.logChecks_mem (s : State) (bank : Bool) (cs : List Nat) : (State.logChecks s bank cs).mem = s.mem := foldl_keeps
  (fun _ _ => by simp) _ _

@[simp] theorem State.reloadFw_mem (s : State) : (State.reloadFw s).mem = s.mem := by
  unfold State.reloadFw
  (repeat' split) <;> simp

@[simp] theorem mssRestart_mem (s : State) : (mssRestart s).mem = s.mem := by simp [mssRestart]

@[simp] theorem State.answer_mem (s : State) (code : Int) : (State.answer s code).mem = s.mem := rfl

@[simp] theorem State.flashErase_mem (s : State) (a n : Nat) : (State.flashErase s a n).mem = s.mem := rfl

@[simp] theorem State.askFirmware_mem (s : State) : (State.askFirmware s).mem = s.mem := rfl

@[simp] theorem requestUpdate_mem (s : State) : (requestUpdate s).mem = s.mem := by simp [requestUpdate]

@[simp] theorem State.flashWrite_mem (s : State) (a : Nat) (bs : Bytes) : (State.flashWrite s a bs).mem = s.mem := rfl

@[simp] theorem firmwareData_mem (off : Nat) (bs : Bytes) (s : State) : (firmwareData off bs s).mem = s.mem := by
  unfold firmwareData
  split <;> rfl

@[simp] theorem State.reportUpd_mem (s : State) (step res : Int) : (State.reportUpd s step res).mem = s.mem := rfl

@[simp] theorem State.setUpd_mem (s : State) (u : UpdStage) : (State.setUpd s u).mem = s.mem := rfl

@[simp] theorem transferDone_mem (s : State) : (transferDone s).mem = s.mem := by simp [transferDone]

@[simp] theorem verifyImage_mem (s : State) : (verifyImage s).mem = s.mem := by
  unfold verifyImage
  (repeat' split) <;> simp

@[simp] theorem applyImage_mem (s : State) : (applyImage s).mem = s.mem := by
  unfold applyImage
  split <;> rfl

@[simp] theorem activateImage_mem (s : State) : (activateImage s).mem = s.mem := by
  unfold activateImage
  split <;> rfl

@[simp] theorem readSensor_mem (id : Nat) (s : State) : (readSensor id s).mem = s.mem := by
  unfold readSensor
  dsimp only
  (repeat' split) <;> rfl

@[simp] theorem State.refuseWrite_mem (s : State) (answer : Int) (code : Nat) : (State.refuseWrite s answer code).mem = s.mem := rfl

@[simp] theorem State.outOfRange_mem (s : State) : (State.outOfRange s).mem = s.mem := rfl

@[simp] theorem writeCap_mem (v : Nat) (s : State) : (writeCap v s).mem = s.mem := by simp [writeCap]

@[simp] theorem writeStandby_mem (v : Nat) (s : State) : (writeStandby v s).mem = s.mem := by
  unfold writeStandby
  split <;> rfl

@[simp] theorem writePedal_mem (v : Nat) (s : State) : (writePedal v s).mem = s.mem := by simp [writePedal]

@[simp] theorem State.cycleLanes_mem (s : State) (l : Nat) : (State.cycleLanes s l).mem = s.mem := by
  unfold State.cycleLanes
  split <;> rfl

@[simp] theorem State.writeCache_mem (s : State) (full : Bool) (recs : List Nat) : (State.writeCache s full recs).mem = s.mem := by
  unfold State.writeCache
  dsimp only
  split <;> rfl

@[simp] theorem stressAsked_mem (src n : Nat) (s : State) : (stressAsked src n s).mem = s.mem := by
  unfold stressAsked
  split <;> rfl

@[simp] theorem State.dropTest_mem (s : State) : (State.dropTest s).mem = s.mem := by
  unfold State.dropTest
  split <;> simp

@[simp] theorem writeDate_mem (v : Nat) (s : State) : (writeDate v s).mem = s.mem := by
  unfold writeDate
  split <;> rfl

@[simp] theorem bootFault_mem (s : State) : (bootFault s).2.mem = s.mem := by simp [bootFault]

@[simp] theorem State.chooseBank_mem (s : State) : (State.chooseBank s).2.mem = s.mem := by
  unfold State.chooseBank
  dsimp only
  split <;> simp

@[simp] theorem bankStep_mem (env : BootEnv) (s : State) : (bankStep env s).2.mem = s.mem := by
  unfold bankStep
  dsimp only
  split
  · simp
  · split
    case h_1 chosen => exact (bootFault_mem _).trans ((congrArg (·.2.mem) chosen).symm.trans (State.chooseBank_mem _))
    case h_2 chosen => exact (congrArg (·.2.mem) chosen).symm.trans (State.chooseBank_mem _)

@[simp] theorem bootDate_mem (s : State) : (bootDate s).mem = s.mem := by
  unfold bootDate
  split <;> rfl

@[simp] theorem State.applyRecord_mem (s : State) (kind : Nat) (body : Bytes) : (State.applyRecord s kind body).mem = s.mem := by
  unfold State.applyRecord
  (repeat' split) <;> simp

@[simp] theorem State.applyTables_mem (s : State) (b : Nat) : (State.applyTables s b).mem = s.mem := by simp [State.applyTables]

@[simp] theorem freshParts_mem (s : State) : (freshParts s).mem = s.mem := rfl

@[simp] theorem ledgerStep_mem (a0 : BootEnv) (s : State) : (ledgerStep a0 s).2.mem = s.mem := by
  unfold ledgerStep
  dsimp only
  (repeat' split) <;> simp

@[simp] theorem mainStep_mem (a0 : BootEnv) (s : State) : (mainStep a0 s).2.mem = s.mem := rfl

@[simp] theorem State.logTiles_mem (s : State) (die : Nat) (bad : List Nat) : (State.logTiles s die bad).mem = s.mem := rfl

@[simp] theorem repairRow_mem (s : State) (r : Nat × Nat × Nat) : (repairRow s r).mem = s.mem := by
  unfold repairRow
  split <;> rfl

@[simp] theorem unlessFault_mem (s : State) : (unlessFault s).2.mem = s.mem := rfl

@[simp] theorem linkStep_mem (a0 : BootEnv) (s : State) : (linkStep a0 s).2.mem = s.mem := by simp [linkStep]

@[simp] theorem trainPort_mem (env : BootEnv) (n : Nat) (s : State) : (trainPort env n s).mem = s.mem := by
  unfold trainPort
  (repeat' split) <;> simp

@[simp] theorem spokeStep_mem (env : BootEnv) (s : State) : (spokeStep env s).2.mem = s.mem := by simp [spokeStep]

@[simp] theorem toReady_mem (env : BootEnv) (s : State) : (toReady env s).mem = s.mem := by
  unfold toReady
  dsimp only
  (repeat' split) <;> simp

@[simp] theorem hostStep_mem (env : BootEnv) (s : State) : (hostStep env s).2.mem = s.mem := by
  unfold hostStep
  dsimp only
  (repeat' split) <;> simp

@[simp] theorem State.resumeLog_mem (s : State) : (State.resumeLog s).mem = s.mem := by
  unfold State.resumeLog
  split <;> rfl

@[simp] theorem standbyUp_mem (s : State) : (standbyUp s).mem = s.mem := by simp [standbyUp]

@[simp] theorem qualified_mem (s : State) : (qualified s).mem = s.mem := by
  unfold qualified
  split <;> rfl

@[simp] theorem State.setInput_mem (s : State) (mv : Nat) : (State.setInput s mv).mem = s.mem := rfl

@[simp] theorem qualify_mem (mv : Nat) (s : State) : (qualify mv s).mem = s.mem := by simp [qualify]

@[simp] theorem setPerst_mem (port : Nat) (v : Bool) (s : State) : (setPerst port v s).mem = s.mem := by simp [setPerst]

@[simp] theorem perst_mem (port : Nat) (s : State) : (perst port s).mem = s.mem := by simp [perst]

@[simp] theorem keepPeak_mem (id v : Nat) (s : State) : (keepPeak id v s).mem = s.mem := rfl

@[simp] theorem shocked_mem (x y z : Nat) (s : State) : (shocked x y z s).mem = s.mem := by
  unfold shocked
  dsimp only
  split <;> simp

@[simp] theorem tapUnlock_mem (challenge sig : Nat) (s : State) : (tapUnlock challenge sig s).mem = s.mem := by
  unfold tapUnlock
  dsimp only
  split <;> rfl

@[simp] theorem converterUp_mem (mv : Nat) (s : State) : (converterUp mv s).mem = s.mem := by simp [converterUp]

@[simp] theorem pwrEnHigh_mem (s : State) : (pwrEnHigh s).mem = s.mem := rfl

@[simp] theorem perstOff_mem (port : Nat) (s : State) : (perstOff port s).mem = s.mem := by
  unfold perstOff
  dsimp only
  (repeat' split) <;> simp

@[simp] theorem mctpMessage_mem (kind v : Nat) (s : State) : (mctpMessage kind v s).mem = s.mem := by simp [mctpMessage]

@[simp] theorem edgeCloses_mem (src job edgeId : Nat) (s : State) : (edgeCloses src job edgeId s).mem = s.mem := by simp [edgeCloses]

@[simp] theorem tapLoad_mem (i : TapIr) (s : State) : (tapLoad i s).mem = s.mem := by
  unfold tapLoad
  split <;> rfl

@[simp] theorem tapCapture_mem (i : TapIr) (out : Nat) (s : State) : (tapCapture i out s).mem = s.mem := by
  unfold tapCapture
  split <;> simp

@[simp] theorem tapExtest_mem (i : TapIr) (s : State) : (tapExtest i s).mem = s.mem := by
  unfold tapExtest
  split <;> rfl

@[simp] theorem tapReset_mem (s : State) : (tapReset s).mem = s.mem := by
  unfold tapReset
  split <;> rfl

@[simp] theorem State.announce_mem (s : State) (index : Nat) (e : LogEntry) : (State.announce s index e).mem = s.mem := by simp [State.announce]

@[simp] theorem State.writeEntry_mem (s : State) (e : LogEntry) : (State.writeEntry s e).mem = s.mem := by simp [State.writeEntry]

@[simp] theorem flushLog_mem (s : State) : (flushLog s).mem = s.mem := by
  unfold flushLog
  (repeat' split) <;> simp

@[simp] theorem State.compact_mem (s : State) : (State.compact s).mem = s.mem := rfl

@[simp] theorem State.append_mem (s : State) (kind : Nat) (body : Bytes) : (State.append s kind body).mem = s.mem := by
  unfold State.append
  split <;> rfl

@[simp] theorem flushOne_mem (s : State) : (flushOne s).mem = s.mem := by
  unfold flushOne
  (repeat' split) <;> simp

@[simp] theorem announceAll_mem (s : State) : (announceAll s).mem = s.mem := foldl_mem (fun _ _ => State.sendVc0_mem ..)

@[simp] theorem imageTimetable_mem (s : State) : (imageTimetable s).mem = s.mem := by
  unfold imageTimetable
  dsimp only
  split <;> rfl

@[simp] theorem enterRun_mem (s : State) : (enterRun s).mem = s.mem := by simp [enterRun]

end Sys2Proof.Machine
end

section
/-! SUPPORT. Memory in its canonical form (log 3): the ways memory is written keep it, and so does what acts through a function given to it. -/
namespace Sys2Proof.Machine

/-- Entries left out of a canonical list leave it canonical. -/
theorem swfFrom_filter {α : Type} [DecidableEq α] {d : α} {l : List (Nat × α)} {lo : Nat} (p : Nat × α → Bool)
    (h : swfFrom d lo l = true) : swfFrom d lo (l.filter p) = true := by
  induction l generalizing lo with
  | nil => rfl
  | cons c t ih =>
    obtain ⟨k, v⟩ := c
    simp only [swfFrom, Bool.and_eq_true, decide_eq_true_eq] at h
    obtain ⟨⟨le, ne⟩, rest⟩ := h
    rw [List.filter_cons]
    split
    · simp only [swfFrom, Bool.and_eq_true, decide_eq_true_eq]
      exact ⟨⟨le, ne⟩, ih rest⟩
    · exact swfFrom_mono (ih rest) (by omega)

/-- The keys of a canonical list moved from `a` to `b`. -/
theorem swfFrom_shift {α : Type} [DecidableEq α] {d : α} {l : List (Nat × α)} {lo a : Nat} (b : Nat) (le : a ≤ lo)
    (h : swfFrom d lo l = true) : swfFrom d (lo - a + b) (l.map (fun c => (c.1 - a + b, c.2))) = true := by
  induction l generalizing lo with
  | nil => rfl
  | cons c t ih =>
    obtain ⟨k, v⟩ := c
    simp only [swfFrom, Bool.and_eq_true, decide_eq_true_eq] at h
    obtain ⟨⟨lok, ne⟩, rest⟩ := h
    simp only [List.map_cons, swfFrom, Bool.and_eq_true, decide_eq_true_eq]
    refine ⟨⟨by omega, ne⟩, ?_⟩
    have next : k - a + b + 1 = k + 1 - a + b := by omega
    exact next ▸ ih (by omega) rest

theorem Memory.wf_filter {m : Memory} (p : Host.Cell → Bool) (h : m.wf = true) : Memory.wf (m.filter p) = true := swfFrom_filter p h

theorem Memory.wf_copy {m : Memory} (a n b : Nat) (h : m.wf = true) : (m.copy a n b).wf = true := by
  unfold Memory.wf swf at *
  unfold Memory.copy
  have moved : swfFrom Memory.blank (a - a + b) _ = true := swfFrom_shift b (le_refl a)
    (swfFrom_takeWhile (a := a + n) (swfFrom_dropWhile (a := a) h))
  rw [Nat.sub_self, Nat.zero_add] at moved
  refine swfFrom_append (a := b + n) (swfFrom_append (a := b) (swfFrom_takeWhile h) moved (by omega) takeWhile_lt)
    (swfFrom_dropWhile h) (by omega) (fun c hc => ?_)
  rcases List.mem_append.1 hc with below | inside
  · have := takeWhile_lt c below
    omega
  · obtain ⟨e, he, rfl⟩ := List.mem_map.1 inside
    have hi := takeWhile_lt e he
    have lo := ge_of_swfFrom (swfFrom_dropWhile (a := a) h) e (List.takeWhile_subset _ he)
    dsimp only
    omega

theorem Memory.wf_table {m : Memory} (a n w : Nat) (l : List (Nat × Nat)) (h : m.wf = true) : (m.table a n w l).wf = true :=
  List.foldlRecOn (motive := fun m => Memory.wf m = true) l _ (Memory.wf_clear a n h) (fun _ hm _ _ => Memory.wf_write _ _ hm)

/-- The state's memory lists its bytes by strictly rising address, none of them zero (log 3). -/
def State.Canonical (s : State) : Prop := s.mem.wf = true

namespace State.Canonical
variable {s t : State}

theorem of_mem (same : t.mem = s.mem) (h : s.Canonical) : t.Canonical := (congrArg Memory.wf same).trans h

theorem congr (h : s.Canonical) (same : t.mem = s.mem) : t.Canonical := of_mem same h

theorem ite {c : Prop} [Decidable c] {a b : State} (ha : a.Canonical) (hb : b.Canonical) : (if c then a else b).Canonical := by
  split
  · exact ha
  · exact hb

theorem foldl {α : Type} {g : State → α → State} {l : List α} (step : ∀ t x, t.Canonical → (g t x).Canonical) (h : s.Canonical) :
    (l.foldl g s).Canonical := List.foldlRecOn l g h (fun t ht x _ => step t x ht)

theorem foldl_fst {α β : Type} {g : State × β → α → State × β} {l : List α} {p : State × β}
    (step : ∀ p x, p.1.Canonical → (g p x).1.Canonical) (h : p.1.Canonical) : (l.foldl g p).1.Canonical :=
  List.foldlRecOn l g h (fun p hp x _ => step p x hp)

theorem foldl_snd {α β : Type} {g : β × State → α → β × State} {l : List α} {p : β × State}
    (step : ∀ p x, p.2.Canonical → (g p x).2.Canonical) (h : p.2.Canonical) : (l.foldl g p).2.Canonical :=
  List.foldlRecOn l g h (fun p hp x _ => step p x hp)

theorem getD {o : Option State} (some : ∀ t, o = some t → t.Canonical) (h : s.Canonical) : (o.getD s).Canonical := by
  cases o with
  | none => exact h
  | some t => exact some t rfl

theorem getD_map {α : Type} {o : Option α} {g : α → State} (step : ∀ x, (g x).Canonical) (h : s.Canonical) : ((o.map g).getD s).Canonical := by
  cases o with
  | none => exact h
  | some x => exact step x

theorem write {a : Nat} {bs : Bytes} (h : s.Canonical) : (s.write a bs).Canonical := State.wf_write s a bs h
theorem writes {ws : List (Nat × Bytes)} (h : s.Canonical) : (s.writes ws).Canonical := State.wf_writes s ws h
theorem commit {ws : List (Nat × Bytes)} (h : s.Canonical) : (s.commit ws).1.Canonical := State.wf_commit s ws h
theorem store {a : Nat} {bs : Bytes} (h : s.Canonical) : (s.store a bs).Canonical := h.write


/-! What acts through a function given to it keeps the memory canonical where that function does. -/

theorem onStrand {f : State → State} (keeps : ∀ {s : State}, s.Canonical → (f s).Canonical) (h : s.Canonical) : (onStrand f s).Canonical := by
  unfold Machine.onStrand
  split
  · exact h
  · exact keeps h

theorem onMss {f : State → State} (keeps : ∀ {s : State}, s.Canonical → (f s).Canonical) (h : s.Canonical) : (onMss f s).Canonical := by
  unfold Machine.onMss
  split
  · exact h
  · exact keeps h

theorem onLocket {f : State → State} (keeps : ∀ {s : State}, s.Canonical → (f s).Canonical) (h : s.Canonical) : (onLocket f s).Canonical := by
  unfold Machine.onLocket
  split
  · exact h
  · exact keeps h

theorem onBar {f : State → State} (keeps : ∀ {s : State}, s.Canonical → (f s).Canonical) (h : s.Canonical) : (onBar f s).Canonical := by
  unfold Machine.onBar
  split
  · exact keeps h
  · exact h

theorem onChannel {f : Channel → State → State} {c : Nat} (keeps : ∀ {x} {s : State}, s.Canonical → (f x s).Canonical) (h : s.Canonical) :
    (onChannel c f s).Canonical := by
  unfold Machine.onChannel
  split
  · split
    · exact h
    · exact keeps h
  · exact h

theorem onVc0 {k : SpokeFlit → State → State} {n msg : Nat} (keeps : ∀ {f} {s : State}, s.Canonical → (k f s).Canonical) (h : s.Canonical) :
    (onVc0 n msg s k).Canonical := by
  unfold Machine.onVc0
  split
  case h_1 taken => exact keeps (.of_mem (State.takeRx_mem taken) h)
  case h_2 => exact h

theorem onVc5 {k : SpokeFlit → State → State} {n op : Nat} (keeps : ∀ {f} {s : State}, s.Canonical → (k f s).Canonical) (h : s.Canonical) :
    (onVc5 n op s k).Canonical := by
  unfold Machine.onVc5
  split
  case h_1 taken => exact keeps (.of_mem (State.takeRx_mem taken) h)
  case h_2 => exact h

theorem onNorm {k : RPkt → Job → State → State} {n : Nat} (keeps : ∀ {p j s}, State.Canonical s → (k p j s).Canonical) (h : s.Canonical) :
    (onNorm n s k).Canonical := by
  unfold Machine.onNorm
  split
  · exact h
  · split
    · exact h
    case h_2 taken =>
      have got := of_mem (ringPacket_mem taken) h
      split
      · exact .of_mem (State.log_mem ..) got
      · split
        · exact .of_mem (State.log_mem ..) got
        · exact keeps got

theorem onStage {k : SpokeFlit → Job → Edge → State → State} {port vc kind : Nat} (keeps : ∀ {f j e} {s : State}, s.Canonical → (k f j e s).Canonical)
    (h : s.Canonical) : (onStage port vc kind s k).Canonical := by
  unfold Machine.onStage
  split
  · exact h
  case h_2 taken =>
    have got := of_mem (State.takeRx_mem (Option.ite_none_left_eq_some.1 taken).2) h
    split
    · exact .ite h (.ite (.of_mem (strayFlit_mem ..) got) (.ite h (keeps got)))
    · exact .of_mem (strayFlit_mem ..) got

theorem onControl {k : State → State} {l : Nat} {far : Bool} {f : DieFlit} {due : Bool} (keeps : ∀ {s : State}, s.Canonical → (k s).Canonical)
    (h : s.Canonical) :
    (onControl l far f s due k).Canonical := by
  unfold Machine.onControl
  split
  case h_1 fault => exact .of_mem (logicFault_mem fault) h
  case h_2 =>
    exact .ite h (.ite (.of_mem (nakDie_mem ..) h) (.ite h (.ite (keeps (.of_mem (State.takeDieControl_mem ..) h)) (.of_mem (heedControl_mem ..) h))))

theorem onLink {f : State → State} {l : Nat} (keeps : ∀ {s : State}, s.Canonical → (f s).Canonical) (h : s.Canonical) : (onLink l f s).Canonical := by
  unfold Machine.onLink
  split
  · exact h
  · exact keeps h

theorem peerRequest {k : SpokeFlit → State → State} {n op : Nat} (keeps : ∀ {f} {s : State}, s.Canonical → (k f s).Canonical) (h : s.Canonical) :
    (peerRequest n op s k).Canonical := by
  unfold Machine.peerRequest
  split
  · exact .of_mem (holdPeer_mem ..) h
  · exact .onVc5 keeps h

end State.Canonical

end Sys2Proof.Machine
end

section
/-! SUPPORT. Memory in its canonical form: every operation that may write memory keeps it, with what it is built from. -/
namespace Sys2Proof.Machine

theorem State.Canonical.updateSlots {s : State} {j : Job} (h : s.Canonical) : (State.updateSlots s j).Canonical := by
  unfold State.updateSlots
  refine .foldl (fun t x ht => ?_) h
  exact .store (.of_mem (State.setSlot_mem ..) ht)

theorem State.Canonical.patchRecords {s : State} {patches : List Nat} {b : StateBlockMsg} (h : s.Canonical) :
    (State.patchRecords s patches b).Canonical := by
  unfold State.patchRecords
  refine .foldl (fun t x ht => ?_) h
  split
  · split
    · exact .store ht
    · exact ht
  · exact .store (.store ht)
  · exact ht

theorem State.Canonical.applyBlock {s : State} {jid desc : Nat} {b : StateBlockMsg} (h : s.Canonical) :
    (State.applyBlock s jid desc b).Canonical := by
  unfold State.applyBlock
  refine .patchRecords (.getD_map (fun x => ?_) (.foldl (fun t x ht => ?_) h))
  · refine .updateSlots (.foldl (fun t x ht => ?_) h)
    exact .of_mem (State.setSlot_mem ..) ht
  · exact .of_mem (State.setSlot_mem ..) ht

theorem State.Canonical.writeBack {s : State} {c : Ckpt} (h : s.Canonical) : (State.writeBack s c).Canonical := by
  unfold State.writeBack
  refine .foldl (fun t x ht => ?_) h
  exact .store ht

theorem State.Canonical.restoreDurable {s : State} {jid : Nat} (h : s.Canonical) : (State.restoreDurable s jid).Canonical := by
  unfold State.restoreDurable
  split
  · exact h
  · split
    · exact h
    · refine .ite h ?_
      split
      · dsimp only
        split
        · exact .of_mem (State.updLocket_mem ..) (.of_mem (State.newSeal_mem ..) (.of_mem (State.endRecovery_mem ..) h))
        · exact .of_mem (State.pushLocketList_mem ..)
            (.applyBlock (.writeBack (.of_mem (State.updLocket_mem ..) (.of_mem (State.newSeal_mem ..) (.of_mem (State.endRecovery_mem ..) h)))))
      · dsimp only
        split
        · exact .of_mem (State.updLocket_mem ..)
            (.of_mem (State.newSeal_mem ..) (.of_mem (State.endRecovery_mem ..) (.of_mem (State.unbindAll_mem ..) h)))
        · exact .of_mem (State.pushLocketList_mem ..)
            (.applyBlock (.writeBack
              (.of_mem (State.updLocket_mem ..)
                (.of_mem (State.newSeal_mem ..) (.of_mem (State.endRecovery_mem ..) (.of_mem (State.unbindAll_mem ..) h))))))

theorem State.Canonical.recoveryTick {s : State} (h : s.Canonical) : (State.recoveryTick s).Canonical := by
  unfold State.recoveryTick
  refine .ite h (.foldl (fun t x ht => ?_) (.of_mem (State.takeAdvance_mem ..) h))
  exact .of_mem (State.haltIfHeadless_mem ..)
    (.of_mem (State.leadAdvance_mem ..)
      (.restoreDurable (.of_mem (State.reportReplay_mem ..) (.of_mem (State.reportRepoint_mem ..) (.of_mem (State.reportQuiet_mem ..) ht)))))

theorem State.Canonical.tick {s : State} (h : s.Canonical) : (tick s).Canonical := by
  unfold Machine.tick
  exact .ite h (.of_mem (drainTick_mem ..)
    (.of_mem (State.decay_mem ..) (.of_mem (State.instantTick_mem ..) (.recoveryTick (.congr (.of_mem (State.countBeats_mem ..) h) rfl)))))

theorem State.Canonical.feedOne {s : State} {jid slot : Nat} {t} (h : s.Canonical) (eq : feedOne s jid slot = some t) : t.1.Canonical := by
  unfold Machine.feedOne at eq
  split at eq
  · cases eq; exact h
  · split at eq
    · cases eq; exact h
    · split at eq
      · cases eq; exact h
      · dsimp only at eq
        split at eq
        · obtain ⟨u, sent, rfl⟩ := Option.map_eq_some_iff.1 eq
          have same := State.sendCopy_mem sent
          exact .of_mem same (.ite h (.store h))
        · cases eq
          exact .of_mem (State.updEdge_mem ..) (.of_mem (State.arriveFeed_mem ..) (.ite h (.store h)))

theorem State.Canonical.feedMany {k jid slot : Nat} {s : State} (h : s.Canonical) : (feedMany jid slot k s).1.Canonical := by
  induction k generalizing s with
  | zero => exact h
  | succ k ih =>
    unfold Machine.feedMany
    split
    · exact h
    · rename_i fed
      exact ih (.feedOne h fed)

theorem State.Canonical.feedStart {s : State} {j : Job} {q : Queue} {r : Nat} {f : Flight} (h : s.Canonical) : (feedStart s j q r f).s.Canonical := by
  unfold Machine.feedStart
  dsimp only
  split
  · exact h
  · split <;> exact .feedMany h


theorem State.Canonical.putFeed {s : State} {d : Nat} {t : Stage} {n : Nat} {b : Bytes} (h : s.Canonical) : (State.putFeed s d t n b).Canonical := by
  unfold State.putFeed
  refine .foldl (fun t x ht => ?_) h
  exact .write ht

theorem State.Canonical.refeedOne {s : State} {jid slot : Nat} (h : s.Canonical) : (State.refeedOne s jid slot).Canonical := by
  unfold State.refeedOne
  split
  · exact h
  · split
    · exact h
    · split
      refine .ite h ?_
      split
      · exact h
      · exact .of_mem (State.updEdge_mem ..) (.of_mem (State.arriveFeed_mem ..) (.putFeed h))

theorem State.Canonical.refeed {s : State} {jid slot k : Nat} (h : s.Canonical) : (s.refeed jid slot k).Canonical := by
  induction k generalizing s with
  | zero => exact h
  | succ k ih => exact ih (.refeedOne h)

theorem State.Canonical.replayAdvance {s : State} {jid : Nat} (h : s.Canonical) : (State.replayAdvance s jid).Canonical := by
  unfold State.replayAdvance
  split
  · exact h
  · refine .ite h ?_
    split
    · dsimp only
      split
      · exact h
      · refine .ite h (.foldl (fun t x ht => ?_) (.of_mem (State.updPipe_mem ..) h))
        exact .ite (.refeed ht) ht
    · dsimp only
      split
      · exact .of_mem (State.replayRestore_mem ..) h
      · refine .ite (.of_mem (State.replayRestore_mem ..) h)
          (.foldl (fun t x ht => ?_) (.of_mem (State.updPipe_mem ..) (.of_mem (State.replayRestore_mem ..) h)))
        exact .ite (.refeed ht) ht

theorem State.Canonical.replayBegin {s : State} {jid : Nat} (h : s.Canonical) : (State.replayBegin s jid).Canonical := by
  unfold State.replayBegin
  exact .replayAdvance (.of_mem (State.pedalStart_mem ..) (.of_mem (State.updPipe_mem ..) h))

theorem State.Canonical.replayStart {s : State} {j : Job} {a2 : Queue} {a3 : Nat} {f : Flight} (h : s.Canonical) :
    (replayStart s j a2 a3 f).s.Canonical := by
  unfold Machine.replayStart
  dsimp only
  exact .replayBegin h

theorem State.Canonical.hostOffer {s : State} {jid : Nat} {m : OfferMsg} (h : s.Canonical) : (State.hostOffer s jid m).Canonical := by
  unfold State.hostOffer
  split
  · exact h
  · split
    · exact .of_mem (State.updLocket_mem ..) h
    · exact .ite (.of_mem (State.send_mem ..) (.ite (.store (.store (.of_mem (State.updLocket_mem ..) h))) (.of_mem (State.updLocket_mem ..) h)))
        (.ite (.store (.store (.of_mem (State.updLocket_mem ..) h))) (.of_mem (State.updLocket_mem ..) h))
    · exact h

theorem State.Canonical.takeOffers {s : State} {jid : Nat} (h : s.Canonical) : (State.takeOffers s jid).Canonical := by
  unfold State.takeOffers
  split
  · exact h
  · refine .foldl (fun t x ht => ?_) (.congr h rfl)
    exact .hostOffer ht

theorem State.Canonical.locketExchange {s : State} {j : Job} {q : Queue} {w : Waiting} {t : State} (h : s.Canonical)
    (eq : locketExchange s j q w = some t) : t.Canonical := by
  unfold Machine.locketExchange at eq
  (repeat' split at eq) <;> cases eq
  · exact h
  · exact h
  · exact .of_mem (State.sendOffer_mem ..) (.takeOffers (.of_mem (State.updJob_mem ..) h))

theorem State.Canonical.putRecord {s : State} {jid : Nat} {q : Queue} {crec : Nat} (h : s.Canonical) : (State.putRecord s jid q crec).Canonical := by
  unfold State.putRecord
  exact .of_mem (State.updJob_mem ..) (.of_mem (State.countClass_mem ..) (.store h))

theorem State.Canonical.report {s : State} {jid : Nat} {ref : QRef} {need : Bool} {h : Held} (hs : s.Canonical) :
    (State.report s jid ref need h).Canonical := by
  unfold State.report
  split
  · exact hs
  · exact .ite (.of_mem (State.updJob_mem ..) hs)
      (.ite (.of_mem (State.irq_mem ..) (.of_mem (State.signal_mem ..) (.ite (.putRecord hs) hs)))
        (.of_mem (State.signal_mem ..) (.ite (.putRecord hs) hs)))

theorem State.Canonical.reject {s : State} {jid : Nat} {ref : QRef} {r : Nat} {last : Bool} {f : Fail} (h : s.Canonical) :
    (State.reject s jid ref r last f).Canonical := by
  unfold State.reject
  dsimp only
  exact .of_mem (State.lastError_mem ..) (.of_mem (State.irq_mem ..) (.report (.of_mem (State.updJob_mem ..) (.of_mem (State.ctxBeats_mem ..) h))))

theorem State.Canonical.rejectTurn {s : State} {q : Queue} {ref : QRef} {jid r : Nat} {f : Fail} (h : s.Canonical) :
    (rejectTurn s q ref jid r f).Canonical := by
  unfold Machine.rejectTurn
  exact .ite h (.reject h)

theorem State.Canonical.land {s : State} {jid : Nat} {f : Flight} (h : s.Canonical) : (State.land s jid f).1.Canonical := by
  unfold State.land
  dsimp only
  exact .of_mem (State.queueWrites_mem ..)
    (.of_mem (State.poisonUnits_mem ..)
      (.of_mem (State.noteWritten_mem ..) (.of_mem (State.meetBad_mem ..) (.commit (.of_mem (State.correctParts_mem ..) h)))))

theorem State.Canonical.reportDone {s : State} {jid : Nat} {ref : QRef} {r : Nat} {res : Res} (h : s.Canonical) :
    (State.reportDone s jid ref r res).Canonical := by
  unfold State.reportDone
  dsimp only
  exact .report (.of_mem (State.ctxBeats_mem ..) h)

theorem State.Canonical.complete {s : State} {jid : Nat} {ref : QRef} {f : Flight} (h : s.Canonical) : (State.complete s jid ref f).Canonical := by
  unfold State.complete
  dsimp only
  refine .of_mem (State.listDone_mem ..) ?_
  split
  · refine .ite (.of_mem (State.poisonMb_mem ..)
      (.reportDone (.of_mem (State.countEvent_mem ..)
        (.of_mem (State.countStep_mem ..) (.foldl (fun t x ht => ?_) (.foldl (fun t x ht => ?_) (.land (.of_mem (State.tear_mem ..) h))))))))
          (.reportDone (.of_mem (State.countEvent_mem ..)
            (.of_mem (State.countStep_mem ..) (.foldl (fun t x ht => ?_) (.foldl (fun t x ht => ?_) (.land (.of_mem (State.tear_mem ..) h)))))))
    · exact .of_mem (State.setSlot_mem ..) ht
    · exact .of_mem (State.mergeAmax_mem ..) ht
    · exact .of_mem (State.setSlot_mem ..) ht
    · exact .of_mem (State.mergeAmax_mem ..) ht
  · refine .reportDone (.of_mem (State.countEvent_mem ..)
      (.of_mem (State.countStep_mem ..) (.foldl (fun t x ht => ?_) (.foldl (fun t x ht => ?_) (.land (.of_mem (State.tear_mem ..) h))))))
    · exact .of_mem (State.setSlot_mem ..) ht
    · exact .of_mem (State.mergeAmax_mem ..) ht

theorem State.Canonical.launch {s : State} {jid : Nat} {ref : QRef} {st : Started} (h : s.Canonical) (started : st.s.Canonical) :
    (launch s jid ref st).Canonical := by
  unfold Machine.launch
  split
  · exact h
  · dsimp only
    exact .ite (.complete (.of_mem (State.updJob_mem ..) (.of_mem (State.noteTag_mem ..) started)))
      (.of_mem (State.updJob_mem ..) (.of_mem (State.noteTag_mem ..) started))

theorem State.Canonical.seen {s : State} {ws : List (Nat × Bytes)} (h : s.Canonical) : (s.seen ws).Canonical :=
  List.foldlRecOn (motive := fun m => Memory.wf m = true) _ _ h (fun _ hm _ _ => Memory.wf_write _ _ hm)

theorem State.Canonical.of_start {g : State → Job → Queue → Nat → Flight → Started} (same : ∀ s j q r f, (g s j q r f).s.mem = s.mem)
    (s : State) (j : Job) (q : Queue) (r : Nat) (f : Flight) (h : s.Canonical) : (g s j q r f).s.Canonical := .of_mem (same ..) h

/-- What a command's row does to the state keeps the memory canonical. -/
structure CmdSpec.Keeps (sp : CmdSpec) : Prop where
  start : ∀ (s : State) (j : Job) (q : Queue) (r : Nat) (f : Flight), s.Canonical → (sp.start s j q r f).s.Canonical
  asks : ∀ (s : State) (j : Job) (q : Queue) (r : Nat), s.Canonical → (sp.asks s j q r).1.Canonical := by exact fun _ _ _ _ h => h
  skip : ∀ {s : State} {j r}, s.Canonical → (sp.skip s j r).Canonical := by exact fun h => h
  refused : ∀ {s : State} {j}, s.Canonical → (sp.refused s j).Canonical := by exact fun h => h
  exchange : ∀ {s t : State} {j q w}, s.Canonical → sp.exchange s j q w = some t → t.Canonical := by exact fun _ eq => nomatch eq

/-- Every command keeps the memory canonical (the rows of `specs`, in its order). -/
theorem CmdSpec.specs_keep : ∀ sp ∈ specs, sp.Keeps := by
  simp only [specs, List.cons_append, List.nil_append, List.forall_mem_cons, List.not_mem_nil, false_implies, implies_true, and_true]
  exact ⟨{ start := fun _ _ _ _ _ h => .congr h rfl },
    { start := fun _ _ _ _ _ h => .congr h rfl },
    { start := fun _ _ _ _ _ h => .congr h rfl },
    { start := fun _ _ _ _ _ h => .congr h rfl },
    { start := State.Canonical.of_start ctlStart_mem },
    { start := fun _ _ _ _ _ h => .congr h rfl },
    { start := fun _ _ _ _ _ h => .congr h rfl },
    { start := fun _ _ _ _ _ h => .congr h rfl },
    { start := fun _ _ _ _ _ h => .congr h rfl },
    { start := fun _ _ _ _ _ h => .congr h rfl },
    { start := fun _ _ _ _ _ h => .congr h rfl },
    { start := fun _ _ _ _ _ h => .congr h rfl },
    { start := State.Canonical.of_start moveStart_mem, asks := fun s j q r h => .of_mem (moveAsks_mem s j q r) h },
    { start := State.Canonical.of_start fillStart_mem, asks := fun s j q r h => .of_mem (fillAsks_mem s j q r) h },
    { start := State.Canonical.of_start wsStart_mem, asks := fun s j q r h => .of_mem (wsAsks_mem s j q r) h },
    { start := fun _ _ _ _ _ h => .congr h rfl },
    { start := State.Canonical.of_start edgeStart_mem },
    { start := State.Canonical.of_start pipeStartRun_mem, exchange := fun h eq => State.Canonical.of_mem (pipeExchange_mem eq) h },
    { start := fun s j q r f h => State.Canonical.feedStart (j := j) (q := q) (r := r) (f := f) h },
    { start := State.Canonical.of_start publishStart_mem },
    { start := fun _ _ _ _ _ h => .congr h rfl },
    { start := State.Canonical.of_start repointStart_mem },
    { start := fun s j q r f h => State.Canonical.replayStart (j := j) (a2 := q) (a3 := r) (f := f) h },
    { start := State.Canonical.of_start stopStart_mem },
    { start := fun _ _ _ _ _ h => .congr h rfl },
    { start := State.Canonical.of_start reduceStart_mem, skip := fun h => .of_mem (State.useTag_mem ..) h },
    { start := State.Canonical.of_start gatherStart_mem, skip := fun h => .of_mem (State.useTag_mem ..) h },
    { start := fun _ _ _ _ _ h => .congr h rfl },
    { start := fun _ _ _ _ _ h => .congr h rfl },
    { start := fun _ _ _ _ _ h => .congr h rfl },
    { start := fun _ _ _ _ _ h => .congr h rfl, exchange := State.Canonical.locketExchange },
    { start := State.Canonical.of_start sealStart_mem, refused := fun h => .of_mem (State.newSeal_mem ..) h },
    { start := fun _ _ _ _ _ h => .congr h rfl },
    { start := State.Canonical.of_start tandemStart_mem },
    { start := fun _ _ _ _ _ h => .congr h rfl },
    { start := fun _ _ _ _ _ h => .congr h rfl }⟩

theorem CmdSpec.keeps_of_mem {sp : CmdSpec} (mem : sp ∈ specs) : sp.Keeps := specs_keep sp mem

theorem CmdSpec.keeps_of_specOf {kind : Nat} {sp : CmdSpec} (found : specOf kind = some sp) : sp.Keeps :=
  keeps_of_mem (List.mem_of_find?_eq_some found)

theorem State.Canonical.begin {sp : CmdSpec} {s : State} {j : Job} {q : Queue} {r : Nat} (keeps : sp.Keeps) (h : s.Canonical) :
    (begin sp s j q r).s.Canonical := by
  unfold Machine.begin
  dsimp only
  split
  · exact keeps.start _ _ _ _ _ h
  · exact h

theorem State.Canonical.tryStart {sp : CmdSpec} {s : State} {j : Job} {q : Queue} {w : Waiting} (keeps : sp.Keeps) (h : s.Canonical) :
    (tryStart sp s j q w).Canonical := by
  unfold Machine.tryStart
  dsimp only
  refine .ite h ?_
  split
  · exact .reject h
  · refine .ite h ?_
    split
    · exact .rejectTurn h
    · exact .launch h (keeps.skip h)
    · split
      · exact .rejectTurn (keeps.refused h)
      · split
        case h_1 exchanged => exact keeps.exchange h exchanged
        case h_2 => exact .launch h (.begin keeps h)

theorem State.Canonical.issue {sp : CmdSpec} {ref : QRef} {s : State} (keeps : sp.Keeps) (h : s.Canonical) : (issue sp ref s).Canonical := by
  unfold Machine.issue
  split
  · exact h
  · split
    · exact h
    · split
      · exact h
      · refine .ite h ?_
        dsimp only
        split
        · exact .rejectTurn h
        · exact .tryStart keeps (.of_mem (State.updJob_mem ..) (keeps.asks _ _ _ _ (.of_mem (State.takeTurn_mem ..) h)))

theorem State.Canonical.resume {ref : QRef} {s : State} (h : s.Canonical) : (resume ref s).Canonical := by
  unfold Machine.resume
  split
  · exact h
  · split
    · exact h
    · split
      · exact h
      · split
        · exact h
        case h_2 found =>
          have keeps := CmdSpec.keeps_of_specOf found
          exact .ite h (.ite (.tryStart keeps (.of_mem (State.takeTurn_mem ..) h)) (.tryStart keeps h))

theorem State.Canonical.reread {s : State} {j : Job} {q : Queue} {f : Flight} (h : s.Canonical) : (reread s j q f).1.Canonical := by
  unfold Machine.reread
  split
  · dsimp only
    split
    · exact .congr h rfl
    · exact h
  · exact h

theorem State.Canonical.completeAt {s : State} {jid : Nat} {q : Queue} {i : Nat} {f : Flight} (h : s.Canonical) :
    (State.completeAt s jid q i f).Canonical := by
  unfold State.completeAt
  exact .complete (.of_mem (State.updJob_mem ..) h)

theorem State.Canonical.undelivered {s : State} {w : Stream} (h : s.Canonical) : (undelivered s w).Canonical := by
  unfold Machine.undelivered
  dsimp only
  refine .foldl (fun t x ht => ?_) h
  refine .foldl (fun t x ht => ?_) ht
  exact .write (.of_mem (State.drawBytes_mem ..) ht)

theorem State.Canonical.streamEnd {s : State} {jid : Nat} {w : Stream} (h : s.Canonical) : (streamEnd s jid w).Canonical := by
  unfold Machine.streamEnd
  split
  · split
    · exact .of_mem (State.dropVer_mem ..) (.of_mem (State.addCtr_mem ..) (.undelivered h))
    · exact .of_mem (State.addCtr_mem ..) (.undelivered h)
  · split
    · exact .of_mem (State.dropVer_mem ..) h
    · exact h

theorem State.Canonical.ringFinish {s : State} {jid : Nat} {q : Queue} {i : Nat} {f : Flight} {tag : Nat} (h : s.Canonical) :
    (State.ringFinish s jid q i f tag).Canonical := by
  unfold State.ringFinish
  split
  · exact h
  · exact .ite h (.completeAt (.of_mem (State.updJob_mem ..) h))

theorem State.Canonical.finishFlight {s : State} {j : Job} {q : Queue} {i : Nat} {f : Flight} (h : s.Canonical) :
    (finishFlight s j q i f).Canonical := by
  unfold Machine.finishFlight
  dsimp only
  split
  · exact .ite h (.completeAt (.reread h))
  · exact .ite (.completeAt h) h
  · exact .ite (.of_mem (State.noteWaits_mem ..) (.completeAt (.streamEnd h))) h
  · exact .ringFinish h
  · exact .ite (.completeAt h) h
  · exact .ite (.completeAt (.of_mem (State.unbindAll_mem ..) h)) h
  · exact .ite h (.completeAt (.of_mem (feedArrive_mem ..) h))
  · exact .ite h (.completeAt h)
  · exact h
  · exact h
  · exact h
  · exact h
  · exact h
  · exact h

theorem State.Canonical.commandComplete {s : State} {ref : QRef} {i : Nat} (h : s.Canonical) : (commandComplete ref i s).Canonical := by
  unfold Machine.commandComplete
  split
  · exact h
  · split
    · exact h
    · split
      · exact h
      · exact .ite h (.finishFlight h)

theorem State.Canonical.retryHeld {s : State} {jid : Nat} {ref : QRef} {k : Nat} (h : s.Canonical) : (s.retryHeld jid ref k).Canonical := by
  induction k generalizing s with
  | zero => exact h
  | succ k ih =>
    unfold State.retryHeld
    split
    · exact h
    · split
      · exact h
      · have popped {f : Job → Job} : (s.updJob jid f).Canonical := .of_mem (State.updJob_mem ..) h
        dsimp only
        refine .ite h (ih ?_)
        have told {t : State} (ht : t.Canonical) {op ctr val n : Nat} {irq : Bool} :
            (if irq then (t.signal op ctr val).irq n else t.signal op ctr val).Canonical :=
          .ite (.of_mem (State.irq_mem ..) (.of_mem (State.signal_mem ..) ht)) (.of_mem (State.signal_mem ..) ht)
        exact told (.ite (.putRecord popped) popped)

theorem State.Canonical.retryRing {s : State} {ref : QRef} (h : s.Canonical) : (retryRing ref s).Canonical := by
  unfold Machine.retryRing
  refine .ite h (.foldl (fun t x ht => ?_) h)
  exact .ite (.retryHeld ht) ht

theorem State.Canonical.secondRecord {s : State} {jid : Nat} {d : Deferral} {code arg : Nat} (h : s.Canonical) :
    (State.secondRecord s jid d code arg).Canonical := by
  unfold State.secondRecord
  dsimp only
  exact .report (.of_mem (State.ctxBeats_mem ..) h)

theorem State.Canonical.cancelRecord {s : State} {j : Job} (h : s.Canonical) : (State.cancelRecord s j).Canonical := by
  unfold State.cancelRecord
  split
  · exact h
  · exact .report h

theorem State.Canonical.clearTile {s : State} {l : Nat} (h : s.Canonical) : (s.clearTile l).Canonical :=
  Memory.wf_clear _ _ (Memory.wf_clear _ _ h)

theorem State.Canonical.mapTile {s : State} {l new cause : Nat} (h : s.Canonical) : (State.mapTile s l new cause).Canonical := by
  unfold State.mapTile
  exact .of_mem (State.ledger_mem ..) (.clearTile (.congr h rfl))

theorem State.Canonical.substituteFlagged {s : State} (h : s.Canonical) : (State.substituteFlagged s).Canonical := by
  unfold State.substituteFlagged
  refine .ite h (.foldl (fun t x ht => ?_) h)
  refine .ite ht ?_
  split
  · exact .mapTile ht
  · exact ht

theorem State.Canonical.freeJob {s : State} {jid : Nat} (h : s.Canonical) : (State.freeJob s jid).Canonical := by
  unfold State.freeJob
  exact .of_mem (State.reexamine_mem ..) (.substituteFlagged (.congr h rfl))

theorem State.Canonical.endFinish {s : State} {jid : Nat} (h : s.Canonical) : (State.endFinish s jid).Canonical := by
  unfold State.endFinish
  split
  · exact h
  · refine .ite h (.ite (.freeJob (.of_mem (State.updJob_mem ..) (.cancelRecord (.foldl (fun t x ht => ?_) h))))
      (.of_mem (State.updJob_mem ..) (.cancelRecord (.foldl (fun t x ht => ?_) h))))
    · exact .ite ht (.secondRecord ht)
    · exact .ite ht (.secondRecord ht)

theorem State.Canonical.endAdvance {s : State} {jid : Nat} (h : s.Canonical) : (State.endAdvance s jid).Canonical := by
  unfold State.endAdvance
  split
  · exact h
  · exact .ite h (.endFinish (.of_mem (State.closeEdges_mem ..) h))

theorem State.Canonical.applyGear {s : State} {jid : Nat} {d : Deferral} (h : s.Canonical) : (State.applyGear s jid d).Canonical := by
  unfold State.applyGear
  exact .ite (.secondRecord (.of_mem (State.dropDeferral_mem ..) h)) (.secondRecord (.congr h rfl))

theorem State.Canonical.applyTimetable {s : State} {jid : Nat} {d : Deferral} (h : s.Canonical) : (State.applyTimetable s jid d).Canonical := by
  unfold State.applyTimetable
  exact .ite (.ite (.secondRecord (.congr h rfl)) (.secondRecord (.of_mem (State.dropDeferral_mem ..) h)))
    (.ite (.secondRecord (.of_mem (State.dropDeferral_mem ..) h)) (.secondRecord (.congr h rfl)))

theorem State.Canonical.applyDeferred {s : State} {jid : Nat} {k : DeferKind} (h : s.Canonical) : (applyDeferred jid k s).Canonical := by
  unfold Machine.applyDeferred
  dsimp only
  split
  · refine .ite (.foldl (fun t x ht => ?_) h) h
    exact .endAdvance ht
  · split
    · refine .ite (.foldl (fun t x ht => ?_) h) h
      exact .endAdvance ht
    · refine .ite h ?_
      split
      · exact .secondRecord (.of_mem (State.dropDeferral_mem ..) (.of_mem (State.applyReshard_mem ..) h))
      · exact .applyGear h
      · exact .applyTimetable (.of_mem (State.keepDue_mem ..) h)
      · exact .endAdvance h
      · exact h
      · exact h

theorem State.Canonical.vecEffect {s : State} {j : Job} {q : Queue} {op : Nat} {eff : State → VEff}
    (keeps : ∀ {s : State}, s.Canonical → (eff s).s.Canonical) (h : s.Canonical) : (vecEffect s j q op eff).s.Canonical := by
  unfold Machine.vecEffect
  generalize (if inList op [0x01, 0x02, 0x05] then racing j q.ref else []) = ws
  cases ws with
  | nil => exact keeps h
  | cons => exact h

theorem State.Canonical.tearStores {s : State} {old : Memory} {jid : Nat} {spans : List (Nat × Nat)} (h : s.Canonical) :
    (State.tearStores s old jid spans).Canonical := by
  unfold State.tearStores
  exact .ite h (.congr h rfl)

theorem State.Canonical.vecIssue {ops : List Nat} {tile : Nat} {eff : State → Nat → Nat → VRun → VEff} {s : State}
    (keeps : ∀ {s : State} {r w v}, s.Canonical → (eff s r w v).s.Canonical) (h : s.Canonical) : (vecIssue ops tile eff s).Canonical := by
  unfold Machine.vecIssue
  split
  · exact h
  · dsimp only
    exact .ite h (.of_mem (State.noteSpans_mem ..) (.of_mem (State.updJob_mem ..) (.tearStores (.vecEffect keeps h))))

theorem State.Canonical.effVst {s : State} {tile r w : Nat} {v : VRun} (h : s.Canonical) : (effVst tile s r w v).s.Canonical := by
  unfold Machine.effVst
  split
  · dsimp only
    exact .writes h
  · dsimp only
    exact .writes h

theorem State.Canonical.effVsth {s : State} {tile r w : Nat} {v : VRun} (h : s.Canonical) : (effVsth tile s r w v).s.Canonical := by
  unfold Machine.effVsth
  dsimp only
  exact .writes h

theorem State.Canonical.effVsta {s : State} {tile r w : Nat} {v : VRun} (h : s.Canonical) : (effVsta tile s r w v).s.Canonical := by
  unfold Machine.effVsta
  dsimp only
  exact .writes h

theorem State.Canonical.commitChunk {s : State} {ref : QRef} {i : Nat} (h : s.Canonical) : (commitChunk ref i s).Canonical := by
  unfold Machine.commitChunk
  split
  · exact h
  · split
    · exact h
    · refine .ite h (.of_mem (State.putFlight_mem ..)
        (.of_mem (State.addCtr_mem ..) (.of_mem (State.noteSpans_mem ..) (.foldl (fun t x ht => ?_) (.of_mem (State.tear_mem ..) h)))))
      exact .write ht

theorem State.Canonical.release {s : State} {jid : Nat} {e : Edge} {bwd : Bool} {n : Nat} (h : s.Canonical) :
    (State.release s jid e bwd n).Canonical := by
  unfold State.release
  exact .ite (.refeed (.of_mem (State.addCtr_mem ..) (.of_mem (State.updEdge_mem ..) h)))
    (.ite (.of_mem (State.updEdge_mem ..) h)
      (.ite (.of_mem (State.addCredit_mem ..) (.of_mem (State.updEdge_mem ..) h))
        (.of_mem (State.sendStage_mem ..) (.of_mem (State.updEdge_mem ..) h))))

theorem State.Canonical.releaseAt {s : State} {jid : Nat} {t : Stage} {n rel : Nat} (h : s.Canonical) : (releaseAt s jid t n rel).Canonical := by
  unfold Machine.releaseAt
  split
  · exact h
  · refine .foldl (fun t x ht => ?_) (.foldl (fun t x ht => ?_) h)
    · exact .release ht
    · exact .release ht

theorem State.Canonical.itemDone {s : State} {jid gid : Nat} {fwdOnly : Bool} {tag : ItemTag} (h : s.Canonical) :
    (itemDone s jid gid fwdOnly tag).Canonical := by
  have counted {f : Stage → Stage} : (s.updStage jid tag.stage f).Canonical := .of_mem (State.updStage_mem ..) h
  have sealed {f : Stage → Stage} {t : Stage} {bwd : Bool} : (sealSends (s.updStage jid tag.stage f) jid t bwd tag.n).Canonical :=
    .of_mem (sealSends_mem ..) counted
  unfold Machine.itemDone
  dsimp only
  split
  · exact h
  · split
    · exact .ite (.of_mem (State.unbindVer_mem ..) (.releaseAt sealed)) (.releaseAt sealed)
    · exact .of_mem (State.updJob_mem ..) (.releaseAt sealed)
    · exact .of_mem (State.unbindVer_mem ..) (.releaseAt counted)
    · exact counted
    · exact h

theorem State.Canonical.completeItem {s : State} {gid : Nat} (h : s.Canonical) : (completeItem gid s).Canonical := by
  unfold Machine.completeItem
  split
  · exact h
  · split
    · exact h
    · split
      · exact h
      · exact .ite h (.of_mem (State.stopAdvance_mem ..) (.replayAdvance (.itemDone (.of_mem (State.updJob_mem ..) h))))

theorem State.Canonical.landUnits {s : State} {jid slot : Nat} {bwd : Bool} {n : Nat} {us : List Nat} {bytes : Bytes} (h : s.Canonical) :
    (landUnits s jid slot bwd n us bytes).Canonical := by
  unfold Machine.landUnits
  split
  · exact h
  · refine .of_mem (State.updEdge_mem ..) (.foldl (fun t x ht => ?_) h)
    refine .foldl (fun t x ht => ?_) ht
    exact .write ht

theorem State.Canonical.forwardUnit {s : State} {slot : Nat} {bwd : Bool} (h : s.Canonical) : (forwardUnit slot bwd s).Canonical := by
  unfold Machine.forwardUnit
  split
  · exact h
  · split
    · exact h
    · dsimp only
      split
      · exact h
      · refine .ite h ?_
        split
        · exact h
        · refine .ite h (.ite (.of_mem (State.updEdge_mem ..) (.landUnits h)) ?_)
          split
          · rename_i eq
            exact .of_mem (State.updEdge_mem ..) (.of_mem (State.sendJob_mem eq) h)
          · exact h

theorem State.Canonical.takeData {s : State} {bwd : Bool} {f : SpokeFlit} {j : Job} {e : Edge} (h : s.Canonical) :
    (takeData bwd f j e s).Canonical := by
  unfold Machine.takeData
  exact .ite h (.of_mem (entryPoison_mem ..) (.landUnits h))

theorem State.Canonical.reportGroup {s : State} {jid : Nat} {g : Group} {step : Nat} (h : s.Canonical) :
    (State.reportGroup s jid g step).Canonical := by
  unfold State.reportGroup
  split
  · exact h
  · refine .foldl (fun t x ht => ?_) h
    exact .of_mem (State.updJob_mem ..) (.store ht)

theorem State.Canonical.reportGroups {s : State} {j : Job} {step : Nat} (h : s.Canonical) : (State.reportGroups s j step).1.Canonical := by
  unfold State.reportGroups
  refine .foldl (fun t x ht => ?_) h
  exact .reportGroup ht

theorem State.Canonical.applyPolicy {s : State} {jid : Nat} {d : Deferral} (h : s.Canonical) : (State.applyPolicy s jid d).Canonical := by
  unfold State.applyPolicy
  exact .ite (.secondRecord (.of_mem (State.dropDeferral_mem ..) h))
    (.secondRecord (.of_mem (State.updPipe_mem ..) (.of_mem (State.dropDeferral_mem ..) h)))

theorem State.Canonical.applyAtStep {s : State} {jid : Nat} (h : s.Canonical) : (State.applyAtStep s jid).Canonical := by
  unfold State.applyAtStep
  refine .foldl (fun t x ht => ?_) h
  refine .foldl (fun t x ht => ?_) ht
  split
  · exact .ite (.applyPolicy ht) ht
  · exact .ite (.applyGear ht) ht
  · exact ht

theorem State.Canonical.stepBoundary {s : State} (h : s.Canonical) : (stepBoundary s).Canonical := by
  unfold Machine.stepBoundary
  split
  · exact h
  · refine .ite h ?_
    dsimp only
    exact .of_mem (State.nextStep_mem ..)
      (.of_mem (State.judgeLag_mem ..) (.applyAtStep (.of_mem (State.updJob_mem ..) (.reportGroups (.of_mem (State.unpin_mem ..) (.updateSlots h))))))

theorem State.Canonical.endJob {s : State} {jid : Nat} (h : s.Canonical) : (State.endJob s jid).Canonical := by
  unfold State.endJob
  exact .endAdvance (.of_mem (State.endBegin_mem ..) h)

theorem State.Canonical.yieldPoint {s : State} (h : s.Canonical) : (yieldPoint s).Canonical := by
  unfold Machine.yieldPoint
  split
  · exact h
  · exact .ite h (.ite (.endJob h) (.congr h rfl))

theorem State.Canonical.decideGate {s : State} {jid step : Nat} {t : NormTotal} (h : s.Canonical) : (State.decideGate s jid step t).Canonical := by
  unfold State.decideGate
  split
  · exact h
  · exact .ite (.of_mem (State.log_mem ..)
      (.ite (.of_mem (State.pedalStart_mem ..) (.of_mem (State.addCtr_mem ..) (.of_mem (State.updJob_mem ..) (.store h))))
        (.of_mem (State.unpin_mem ..) (.of_mem (State.addCtr_mem ..) (.of_mem (State.updJob_mem ..) (.store h))))))
          (.ite (.of_mem (State.pedalStart_mem ..) (.of_mem (State.addCtr_mem ..) (.of_mem (State.updJob_mem ..) (.store h))))
            (.of_mem (State.unpin_mem ..) (.of_mem (State.addCtr_mem ..) (.of_mem (State.updJob_mem ..) (.store h)))))

theorem State.Canonical.closeTotal {s : State} {jid step : Nat} {total : NormTotal} {missing : List Nat} (h : s.Canonical) :
    (State.closeTotal s jid step total missing).Canonical := by
  unfold State.closeTotal
  split
  · exact h
  · split
    · exact h
    · have gated {f : RingSt → RingSt} : ((s.updRing jid f).decideGate jid step total).Canonical := .decideGate (.of_mem (State.updRing_mem ..) h)
      have held {c : Prop} [Decidable c] {f : RingSt → RingSt} {g : Job → Job} :
          (if c then ((s.updRing jid f).decideGate jid step total).updJob jid g else (s.updRing jid f).decideGate jid step total).Canonical :=
        .ite (.of_mem (State.updJob_mem ..) gated) gated
      dsimp only
      generalize gateFor total = gate
      split
      · exact held
      · split
        · exact held
        · split
          · exact held
          · exact .completeAt held

theorem State.Canonical.formTotal {s : State} {jid : Nat} {c : NormClose} {r : NormRoot} (h : s.Canonical) :
    (State.formTotal s jid c r).Canonical := by
  unfold State.formTotal
  split
  · exact h
  · refine .closeTotal (.foldl (fun t x ht => ?_) (.of_mem (State.updRoot_mem ..) h))
    exact .of_mem (State.sendNorm_mem ..) ht

theorem State.Canonical.tryTotal {s : State} {jid step : Nat} (h : s.Canonical) : (State.tryTotal s jid step).Canonical := by
  unfold State.tryTotal
  split
  · exact h
  · split
    · refine .ite h (.ite (.formTotal (.foldl (fun t x ht => ?_) h)) (.of_mem (State.updRoot_mem ..) (.foldl (fun t x ht => ?_) h)))
      · exact .of_mem (State.log_mem ..) ht
      · exact .of_mem (State.log_mem ..) ht
    · exact h

theorem State.Canonical.addContribution {s : State} {jid step : Nat} {x : Contribution} (h : s.Canonical) :
    (State.addContribution s jid step x).Canonical := by
  unfold State.addContribution
  split
  · exact h
  · split
    · exact .tryTotal (.of_mem (State.updRing_mem ..) h)
    · split
      · exact .ite (.of_mem (State.log_mem ..) h) (.of_mem (State.sendNorm_mem ..) h)
      · exact .ite h (.tryTotal (.of_mem (State.updRoot_mem ..) h))

theorem State.Canonical.sendContribution {s : State} (h : s.Canonical) : (sendContribution s).Canonical := by
  unfold Machine.sendContribution
  split
  · exact h
  · split
    · exact h
    · exact .ite h (.ite (.addContribution (.of_mem (State.updRing_mem ..) (.of_mem (State.updPipe_mem ..) h)))
        (.of_mem (State.sendNorm_mem ..) (.of_mem (State.updRing_mem ..) (.of_mem (State.updPipe_mem ..) h))))

theorem State.Canonical.takeContribution {s : State} {n : Nat} (h : s.Canonical) : (takeContribution n s).Canonical :=
  .onNorm (fun ht => .ite h (.ite ht (.ite h (.addContribution ht)))) h

theorem State.Canonical.closeWindow {s : State} {step : Nat} (h : s.Canonical) : (closeWindow step s).Canonical := by
  unfold Machine.closeWindow
  split
  · exact h
  · split
    · exact .ite h (.tryTotal (.of_mem (State.updRoot_mem ..) h))
    · exact h

theorem State.Canonical.takeTotal {s : State} {n : Nat} (h : s.Canonical) : (takeTotal n s).Canonical :=
  .onNorm (fun ht => .ite (.closeTotal ht) (.ite h ht)) h

theorem State.Canonical.timeoutTotal {s : State} (h : s.Canonical) : (timeoutTotal s).Canonical := by
  unfold Machine.timeoutTotal
  split
  · exact h
  · split
    · exact h
    · exact .closeTotal h

theorem State.Canonical.tandemEnd {s : State} {jid : Nat} {res : Res} (h : s.Canonical) : (tandemEnd s jid res).Canonical := by
  unfold Machine.tandemEnd
  split
  · exact h
  · split
    · exact h
    · split
      · exact .completeAt (.of_mem (State.updLocket_mem ..) h)
      · exact .ite (.of_mem (State.log_mem ..) (.of_mem (State.updJob_mem ..) (.of_mem (State.updLocket_mem ..) h)))
          (.of_mem (State.updJob_mem ..) (.of_mem (State.updLocket_mem ..) h))

theorem State.Canonical.takeFingerprint {s : State} {m : FpMsg} (h : s.Canonical) : (takeFingerprint m s).Canonical := by
  unfold Machine.takeFingerprint
  split
  · exact h
  · refine .ite (.of_mem (State.send_mem ..) h) ?_
    split
    · exact .ite h (.ite (.tandemEnd h) (.ite (.of_mem (askFingerprint_mem ..) (.of_mem (State.updLocket_mem ..) h)) (.tandemEnd h)))
    · exact h

theorem State.Canonical.fingerprintStep {s : State} {m : FpMsg} (h : s.Canonical) : (fingerprintStep m s).Canonical := by
  unfold Machine.fingerprintStep
  split
  · exact .ite h (.takeFingerprint h)
  · exact .ite h (.ite (.of_mem (State.meet_mem ..) (.takeFingerprint h)) (.takeFingerprint h))

theorem State.Canonical.takeOffer {m : OfferMsg} {s : State} (h : s.Canonical) : (takeOffer m s).Canonical := by
  have locket : locketSpec.Keeps := CmdSpec.keeps_of_mem (by simp [specs])
  unfold Machine.takeOffer
  split
  · split
    · exact h
    · split
      · exact h
      · refine .ite h ?_
        have noted {f : Locket → Locket} {jid : Nat} : (s.updLocket jid f).Canonical := .of_mem (State.updLocket_mem ..) h
        dsimp only
        split
        · exact noted
        · split
          · exact noted
          · split
            · exact .ite (.tryStart locket noted) noted
            · exact noted
  · exact .takeOffers (.congr h rfl)

theorem State.Canonical.storeRange {s : State} {jid i addr : Nat} {bs : Bytes} (h : s.Canonical) :
    (State.storeRange s jid i addr bs).Canonical := by
  unfold State.storeRange
  split
  · exact h
  · exact .ite (.of_mem (State.log_mem ..) (.of_mem (State.updLocket_mem ..) h)) (.store (.of_mem (State.updLocket_mem ..) h))

theorem State.Canonical.copyHalf {s : State} {jid i : Nat} (h : s.Canonical) : (State.copyHalf s jid i).Canonical := by
  unfold State.copyHalf
  dsimp only
  split
  · exact h
  · refine .foldl (fun t x ht => ?_) (.of_mem (State.updLocket_mem ..) h)
    exact .storeRange (.of_mem (State.fetch_mem ..) ht)

theorem State.Canonical.settleHalf {s : State} {jid i : Nat} (h : s.Canonical) : (State.settleHalf s jid i).Canonical := by
  unfold State.settleHalf
  split
  · exact h
  · exact .ite h (.of_mem (State.updLocket_mem ..) (.copyHalf h))

theorem State.Canonical.sealHalf {s : State} {src jid : Nat} {skip : Bool} {b : StateBlockMsg} (h : s.Canonical) :
    (State.sealHalf s src jid skip b).Canonical := by
  unfold State.sealHalf
  split
  · dsimp only
    split
    · exact .copyHalf h
    · exact .ite (.copyHalf h)
        (.ite (.of_mem (State.updLocket_mem ..) (.copyHalf h)) (.of_mem (State.send_mem ..) (.of_mem (State.updLocket_mem ..) (.copyHalf h))))
  · dsimp only
    split
    · exact .of_mem (State.updLocket_mem ..) (.settleHalf h)
    · exact .ite (.of_mem (State.updLocket_mem ..) (.settleHalf h))
        (.ite (.of_mem (State.updLocket_mem ..) (.of_mem (State.updLocket_mem ..) (.settleHalf h)))
          (.of_mem (State.send_mem ..) (.of_mem (State.updLocket_mem ..) (.of_mem (State.updLocket_mem ..) (.settleHalf h)))))

theorem State.Canonical.storeCopy {s : State} {src jid addr : Nat} {bs : Bytes} (h : s.Canonical) : (storeCopy src jid addr bs s).Canonical := by
  unfold Machine.storeCopy
  refine .ite (.of_mem (State.log_mem ..) h) ?_
  split
  · exact h
  · refine .ite h ?_
    split
    · exact .sealHalf (.storeRange h)
    · exact .storeRange h

theorem State.Canonical.durable {s : State} {j : Job} {w : Sealing} (h : s.Canonical) : (s.durable j w).1.Canonical := by
  unfold State.durable
  dsimp only
  split
  · exact h
  · split
    · exact h
    · split
      · exact .of_mem (State.log_mem ..) h
      · split
        · exact h
        · exact .of_mem (State.updLocket_mem ..) (.write (.write (.of_mem (ckptBody_mem ..) h)))

theorem State.Canonical.applyInterval {s : State} {jid : Nat} (h : s.Canonical) : (State.applyInterval s jid).Canonical := by
  unfold State.applyInterval
  split
  · exact h
  · exact .secondRecord (.of_mem (State.updLocket_mem ..) (.of_mem (State.dropDeferral_mem ..) h))

theorem State.Canonical.sealDone {s : State} {jid step : Nat} (h : s.Canonical) : (State.sealDone s jid step).Canonical := by
  unfold State.sealDone
  split
  · exact h
  · split
    · exact h
    · refine .ite h ?_
      dsimp only
      refine .ite (.applyInterval ?_) ?_
      · split
        · exact .completeAt (.durable (.of_mem (State.updLocket_mem ..) h))
        · exact .durable (.of_mem (State.updLocket_mem ..) h)
      · split
        · exact .completeAt (.durable (.of_mem (State.updLocket_mem ..) h))
        · exact .durable (.of_mem (State.updLocket_mem ..) h)

theorem State.Canonical.takeBlock {s : State} {m : SealMsg} (h : s.Canonical) : (takeBlock m s).Canonical := by
  unfold Machine.takeBlock
  split
  · exact .ite (.sealDone h) h
  · exact .ite (.sealHalf h) h

theorem State.Canonical.storeMirror {s : State} {src jid off : Nat} {bs : Bytes} (h : s.Canonical) : (storeMirror src jid off bs s).Canonical := by
  unfold Machine.storeMirror
  refine .ite (.of_mem (State.log_mem ..) h) ?_
  split
  · exact h
  · exact .ite (.store h) h

theorem State.Canonical.putResult {s : State} {i : Nat} {bs : Bytes} (h : s.Canonical) : (State.putResult s i bs).Canonical := by
  unfold State.putResult
  dsimp only
  refine .ite (.store h) (.getD (fun u eq => ?_) (.getD (fun u eq => ?_) (.of_mem (State.newXid_mem ..) h)))
  · refine .of_mem (State.sendVc5_mem eq) (.getD (fun u eq => ?_) (.of_mem (State.newXid_mem ..) h))
    exact .of_mem (State.sendVc5_mem eq) (.of_mem (State.newXid_mem ..) h)
  · exact .of_mem (State.sendVc5_mem eq) (.of_mem (State.newXid_mem ..) h)

theorem State.Canonical.finishPkt {s : State} {p : Nat} {r : PktResult} (h : s.Canonical) : (s.finishPkt p r).Canonical := by
  unfold State.finishPkt
  dsimp only
  have put : ∀ i bs, ((s.putResult i bs).countClass r.code).Canonical := fun _ _ => .of_mem (State.countClass_mem ..) (.putResult h)
  split
  · exact .congr (put _ _) rfl
  · exact .congr (put _ _) rfl

theorem State.Canonical.packet {type : Nat} {far : BitVec 512} {act : Nat → State → Option (State × PktResult)} {s : State}
    (keeps : ∀ {p} {s : State} {t}, s.Canonical → act p s = some t → t.1.Canonical) (h : s.Canonical) : (packet type far act s).Canonical := by
  unfold Machine.packet
  split
  · exact h
  · dsimp only
    have got : s.readRing.Canonical := .of_mem (State.readRing_mem ..) h
    refine .ite h ?_
    split
    · exact .finishPkt got
    · refine .ite (.finishPkt got) ?_
      split
      · exact h
      case h_2 acted => exact .finishPkt (keeps got acted)

theorem State.Canonical.clearTiles {s : State} (h : s.Canonical) : s.clearTiles.Canonical := Memory.wf_clear _ _ (Memory.wf_clear _ _ h)

theorem State.Canonical.enterJob {s : State} {addr : Nat} {x : JobItems} (h : s.Canonical) : (State.enterJob s addr x).Canonical := by
  unfold State.enterJob
  refine .ite (.clearTiles
    (.of_mem (State.startRun_mem ..) (.congr (.foldl (fun t x ht => ?_) (.foldl (fun t x ht => ?_) (.of_mem (State.rekey_mem ..) h))) rfl)))
      (.of_mem (State.reexamine_mem ..) (.congr (.foldl (fun t x ht => ?_) (.foldl (fun t x ht => ?_) (.of_mem (State.rekey_mem ..) h))) rfl))
  · exact .of_mem (State.setSlot_mem ..) ht
  · exact .of_mem (State.setCtr_mem ..) ht
  · exact .of_mem (State.setSlot_mem ..) ht
  · exact .of_mem (State.setCtr_mem ..) ht

theorem State.Canonical.submit {p : Nat} {s : State} (h : s.Canonical) {t : State × PktResult} (eq : submit p s = some t) : t.1.Canonical := by
  unfold Machine.submit at eq
  dsimp only at eq
  (repeat' split at eq) <;> cases eq
  · exact h
  · exact h
  · exact h
  · exact .enterJob h

theorem State.Canonical.cancelJob {p : Nat} {s : State} (h : s.Canonical) {t : State × PktResult} (eq : cancelJob p s = some t) : t.1.Canonical := by
  unfold Machine.cancelJob at eq
  split at eq
  · cases eq
    exact h
  · dsimp only at eq
    split at eq
    · cases eq
      exact h
    · split at eq <;> cases eq
      · exact h
      · exact .ite (.endJob (.of_mem (State.updJob_mem ..) h)) (.of_mem (State.updPipe_mem ..) (.of_mem (State.updJob_mem ..) h))

theorem State.Canonical.serveWriteData {s : State} {f : SpokeFlit} (h : s.Canonical) : (serveWriteData f s).Canonical := by
  unfold Machine.serveWriteData
  split
  · exact h
  · exact .ite (.of_mem (State.sendDone_mem ..)
      (.congr (.ite (.of_mem (State.poisonUnits_mem ..)
        (.of_mem (State.queueWrites_mem ..) (.of_mem (State.meetBad_mem ..) (.write (.of_mem (State.correctParts_mem ..) h)))))
          (.of_mem (State.queueWrites_mem ..) (.of_mem (State.meetBad_mem ..) (.write (.of_mem (State.correctParts_mem ..) h))))) rfl))
            (.congr (.ite (.of_mem (State.poisonUnits_mem ..)
              (.of_mem (State.queueWrites_mem ..) (.of_mem (State.meetBad_mem ..) (.write (.of_mem (State.correctParts_mem ..) h)))))
                (.of_mem (State.queueWrites_mem ..) (.of_mem (State.meetBad_mem ..) (.write (.of_mem (State.correctParts_mem ..) h))))) rfl)

theorem State.Canonical.issueFlight {s : State} {j : Job} {k : Int × Int} {f : Flight} (h : s.Canonical) : (issueFlight s j k f).1.Canonical := by
  unfold Machine.issueFlight
  dsimp only
  split
  · exact .land h
  · exact .land (.of_mem (moveRead_mem ..) h)

theorem State.Canonical.issueAge {s : State} {a : Nat} (h : s.Canonical) : (State.issueAge s a).Canonical := by
  unfold State.issueAge
  dsimp only
  split
  · exact .ite h (.ite (.of_mem (serveReadReq_mem ..) (.congr h rfl)) (.serveWriteData (.congr h rfl)))
  · split
    · exact h
    · split
      · exact .ite h (.of_mem (State.putFlight_mem ..) (.issueFlight h))
      · exact .ite h (.of_mem (streamRead_mem ..) h)
      · exact h

theorem State.Canonical.issueHeld {s : State} (h : s.Canonical) : (State.issueHeld s).Canonical := by
  unfold State.issueHeld
  refine .foldl (fun t x ht => ?_) h
  exact .issueAge ht

theorem State.Canonical.resumeDie {s : State} {d mv : Nat} (h : s.Canonical) : (resumeDie d mv s).Canonical := by
  unfold Machine.resumeDie
  split
  · exact h
  · exact .ite h (.issueHeld
      (.of_mem (State.pumpDiePorts_mem ..)
        (.of_mem (State.logHold_mem ..) (.of_mem (State.mark_mem ..) (.of_mem (State.thawLinks_mem ..) (.of_mem (State.updDie_mem ..) h))))))

theorem State.Canonical.failChannel {s : State} {c : Nat} (h : s.Canonical) : (s.failChannel c).Canonical := by
  unfold State.failChannel
  dsimp only
  refine .ite ?_ (.of_mem (State.failModule_mem ..) (.of_mem (State.log_mem ..) ?_)) <;>
    exact .of_mem (State.ledger_mem ..) (.of_mem (State.log_mem ..) (.issueHeld (.congr h rfl)))

theorem State.Canonical.endRetrain {s : State} {ch : Nat} {converged : Bool} (h : s.Canonical) : (endRetrain ch converged s).Canonical := by
  refine .onChannel (fun {x t} ht => ?_) h
  have trained {f : Channel → Channel} : (t.updChan ch f).Canonical := .of_mem (State.updChan_mem ..) ht
  dsimp only
  have logged {f : Channel → Channel} {a b c : Nat} : ((t.updChan ch f).logOpen a b c).Canonical := .of_mem (State.logOpen_mem ..) trained
  exact .ite ht (.ite (.issueHeld trained) (.ite (.failChannel logged) (.issueHeld logged)))

theorem State.Canonical.retryHold {s : State} {ch mover : Nat} (h : s.Canonical) : (retryHold ch mover s).Canonical := by
  unfold Machine.retryHold
  exact .issueHeld (.of_mem (State.updChan_mem ..) h)

theorem State.Canonical.rowFails {s : State} {ch bank row : Nat} {uncorr : Bool} (h : s.Canonical) : (rowFails ch bank row uncorr s).Canonical := by
  refine .onChannel (fun {x t} ht => ?_) h
  have moved : (t.remapRow ch bank row uncorr).Canonical := .of_mem (State.remapRow_mem ..) ht
  exact .ite ht (.ite (.failChannel moved) moved)

theorem State.Canonical.takeOwnAnswer {s : State} {f : SpokeFlit} (h : s.Canonical) : (takeOwnAnswer f s).Canonical := by
  unfold Machine.takeOwnAnswer
  refine .foldl (fun t x ht => ?_) (.of_mem (State.answerAsks_mem ..) h)
  exact .resume ht

theorem State.Canonical.locketLost {s : State} {jid m : Nat} (h : s.Canonical) : (State.locketLost s jid m).Canonical := by
  have fed {l : List (QRef × Nat)} {g : State → QRef × Nat → State} (step : ∀ t x, t.Canonical → (g t x).Canonical) {t : State} (ht : t.Canonical)
      {c : Prop} [Decidable c] {res : Res} : (if c then Machine.tandemEnd (l.foldl g t) jid res else l.foldl g t).Canonical :=
    .ite (.tandemEnd (.foldl step ht)) (.foldl step ht)
  unfold State.locketLost
  split
  · exact h
  · refine fed (fun t x ht => ?_) ?_
    · split
      · exact ht
      · split
        · exact ht
        · exact .getD_map (fun _ => .completeAt ht) ht
    · split
      · refine .ite ?_ h
        split
        · exact .completeAt (.of_mem (State.updLocket_mem ..) h)
        · exact .of_mem (State.updLocket_mem ..) h
      · exact h

theorem State.Canonical.peerLost {s : State} {jid m : Nat} {cls : Nat → Bool} (h : s.Canonical) : (s.peerLost jid m cls).Canonical := by
  unfold State.peerLost
  dsimp only
  refine .of_mem (State.sendSuspect_mem ..) (.of_mem (State.ringLost_mem ..) (.ite (.locketLost (.of_mem (State.answerAsks_mem ..)
    (.of_mem (State.noteAllWaits_mem ..) (.of_mem (State.mapFlights_mem ?_ ..) (.of_mem (State.mapFlights_mem ?_ ..) h))))) h))
  · exact streamLost_mem m
  · exact moveLost_mem m

theorem State.Canonical.linkLoss {a b : State} (h : b.Canonical) : (linkLoss a b).Canonical :=
  .foldl (fun _ _ hs => .foldl (fun _ _ ht => .ite (.peerLost ht) ht) hs) h

theorem State.Canonical.withLoss {f : State → State} {s : State} (keeps : ∀ {s : State}, s.Canonical → (f s).Canonical) (h : s.Canonical) :
    (withLoss f s).Canonical := .linkLoss (keeps h)

theorem State.Canonical.takeUnreachable {s : State} {f : SpokeFlit} (h : s.Canonical) : (takeUnreachable f s).Canonical := by
  unfold Machine.takeUnreachable
  exact .linkLoss h

theorem State.Canonical.commandBoundary {s : State} (h : s.Canonical) : (commandBoundary s).Canonical := by
  unfold Machine.commandBoundary
  split
  · rename_i j st _ _
    have parked : ((s.overrun j.id st).parkJob j).Canonical := .of_mem (State.parkJob_mem ..) (.of_mem (State.overrun_mem ..) h)
    have left : (if cancelPending j then ((s.overrun j.id st).parkJob j).endJob j.id else (s.overrun j.id st).parkJob j).Canonical :=
      .ite (.endJob parked) parked
    dsimp only
    refine .ite h (.ite left ?_)
    split
    · exact .ite (.of_mem (State.beginSwitch_mem ..) left) (.of_mem (State.askSwitch_mem ..) (.of_mem (State.beginSwitch_mem ..) left))
    · exact .of_mem (State.beginSwitch_mem ..) left
  · exact h

theorem State.Canonical.saveTiles {s : State} {p : Nat} (h : s.Canonical) : (s.saveTiles p).Canonical :=
  Memory.wf_write _ _ (Memory.wf_table _ _ _ _ (Memory.wf_table _ _ _ _ (Memory.wf_table _ _ _ _ (Memory.wf_copy _ _ _ (Memory.wf_copy _ _ _ h)))))

theorem State.Canonical.saveOutgoing {s : State} {out : Option Nat} (h : s.Canonical) : (State.saveOutgoing s out).Canonical := by
  unfold State.saveOutgoing
  split
  · exact h
  · exact .ite h (.saveTiles h)

theorem State.Canonical.loadTiles {s : State} {p : Nat} (h : s.Canonical) : (s.loadTiles p).Canonical :=
  Memory.wf_copy _ _ _ (Memory.wf_copy _ _ _ h)

theorem State.Canonical.fillUndefined {s : State} {us : List (Nat × Mark)} (h : s.Canonical) : (s.fillUndefined us).Canonical :=
  .foldl (fun _ _ ht => Memory.wf_write _ _ (of_mem (State.drawBytes_mem ..) ht)) h

theorem State.Canonical.restoreJob {s : State} {j : Job} (h : s.Canonical) : (State.restoreJob s j).Canonical := by
  unfold State.restoreJob
  exact .ite (.loadTiles (.of_mem (State.correct_mem ..) h))
    (.ite (.endJob (.ite (.loadTiles (.fillUndefined (.of_mem (State.meetBad_mem ..) (.of_mem (State.correct_mem ..) h))))
      (.of_mem (State.log_mem ..) (.loadTiles (.fillUndefined (.of_mem (State.meetBad_mem ..) (.of_mem (State.correct_mem ..) h)))))))
        (.of_mem (State.updPipe_mem ..)
          (.ite (.of_mem (State.loseStrand_mem ..) (.loadTiles (.fillUndefined (.of_mem (State.meetBad_mem ..) (.of_mem (State.correct_mem ..) h)))))
            (.loadTiles (.fillUndefined (.of_mem (State.meetBad_mem ..) (.of_mem (State.correct_mem ..) h)))))))

theorem State.Canonical.switchTiles {s : State} {j : Job} (h : s.Canonical) : (switchTiles s j).Canonical := by
  unfold Machine.switchTiles
  exact .ite (.clearTiles h) (.ite h (.restoreJob h))

theorem State.Canonical.switchComplete {s : State} (h : s.Canonical) : (switchComplete s).Canonical := by
  unfold Machine.switchComplete
  split
  · exact h
  · refine .ite h (.ite ?_ (.ite h ?_))
    · split
      · exact .of_mem (switchEnd_mem ..) h
      · split
        · exact .ite (.of_mem (switchEnd_mem ..) h) h
        · exact .ite (.ite h (.of_mem (switchLock_mem ..) h)) (.ite h (.of_mem (switchEdges_mem ..) h))
    · dsimp only
      split
      · exact .of_mem (State.reexamine_mem ..) (.congr (.saveOutgoing h) rfl)
      · exact .ite (.of_mem (State.setSwitch_mem ..) (.switchTiles (.saveOutgoing h)))
          (.of_mem (switchEdges_mem ..) (.of_mem (State.setSwitch_mem ..) (.switchTiles (.saveOutgoing h))))

theorem State.Canonical.poisonTile {s : State} {l : Nat} (h : s.Canonical) : (State.poisonTile s l).Canonical := by
  unfold State.poisonTile
  refine .foldl (fun t x ht => ?_) h
  refine .foldl (fun t x ht => ?_) ht
  refine .foldl (fun t x ht => ?_) ht
  split
  · exact ht
  · exact .completeAt ht

theorem State.Canonical.poisonStep {s : State} (h : s.Canonical) : (State.poisonStep s).Canonical := by
  unfold State.poisonStep
  split
  · exact h
  · exact .ite (.endJob (.of_mem (State.log_mem ..) h)) (.of_mem (State.updPipe_mem ..) h)

theorem State.Canonical.failTile {s : State} {l : Nat} (h : s.Canonical) : (failTile l s).Canonical := by
  unfold Machine.failTile
  split
  · exact h
  · dsimp only
    split
    · exact .of_mem (State.failModule_mem ..) (.congr (.poisonTile h) rfl)
    · exact .poisonStep (.mapTile (.congr (.poisonTile h) rfl))

theorem State.Canonical.loseWord {s : State} {l bank : Nat} (h : s.Canonical) : (s.loseWord l bank).Canonical :=
  .write (.of_mem (State.drawBytes_mem ..) (.of_mem (State.poisonReader_mem ..) (.of_mem (State.draw_mem ..) h)))

theorem State.Canonical.failBank {s : State} {l bank : Nat} {uncorr : Bool} (h : s.Canonical) : (failBank l bank uncorr s).Canonical := by
  unfold Machine.failBank
  exact .ite h (.ite (.failTile (.ite (.loseWord h) h)) (.of_mem (State.ledger_mem ..) (.congr (.ite (.loseWord h) h) rfl)))

theorem State.Canonical.sampleWear {s : State} {slow : List Nat} {ber share : List (Nat × Nat)} (h : s.Canonical) :
    (sampleWear slow ber share s).Canonical := by
  unfold Machine.sampleWear
  refine .foldl (fun t x ht => ?_) (.foldl (fun t x ht => ?_) (.substituteFlagged (.congr h rfl)))
  · exact .of_mem (State.retirePhase_mem ..) ht
  · exact .of_mem (State.retireLane_mem ..) ht

theorem State.Canonical.expireCloses {s : State} {jid : Nat} (h : s.Canonical) : (State.expireCloses s jid).Canonical := by
  unfold State.expireCloses
  split
  · exact h
  · refine .foldl (fun t x ht => ?_) (.of_mem (State.updRing_mem ..) h)
    exact .closeTotal ht

theorem State.Canonical.obeyRecover {s : State} {src jid : Nat} (h : s.Canonical) : (obeyRecover src jid s).Canonical := by
  unfold Machine.obeyRecover
  split
  · exact h
  · exact .of_mem (State.reportQuiet_mem ..) (.of_mem (State.pedalStart_mem ..) (.of_mem (State.updRecov_mem ..) (.expireCloses h)))

theorem State.Canonical.ownGroupRepoint {s : State} {jid g i m : Nat} (h : s.Canonical) : (State.ownGroupRepoint s jid g i m).Canonical := by
  unfold State.ownGroupRepoint
  dsimp only
  split
  · exact h
  · split
    · exact .of_mem (State.draw_mem ..) (.of_mem (State.pointMember_mem ..) h)
    · exact .reportDone (.of_mem (State.draw_mem ..) (.of_mem (State.pointMember_mem ..) h))

theorem State.Canonical.repointAll {s : State} {jid : Nat} (h : s.Canonical) : (State.repointAll s jid).Canonical := by
  unfold State.repointAll
  split
  · exact h
  · refine .foldl (fun t x ht => ?_) (.foldl (fun t x ht => ?_) h)
    · refine .foldl (fun t x ht => ?_) ht
      exact .ite (.ownGroupRepoint ht) ht
    · exact .of_mem (State.ownEdgeRepoint_mem ..) ht

theorem State.Canonical.obeyRepoint {src jid : Nat} {s : State} (h : s.Canonical) : (obeyRepoint src jid s).Canonical := by
  unfold Machine.obeyRepoint
  split
  · exact h
  · split
    · refine .ite h ?_
      dsimp only
      exact .congr h rfl
    · exact .of_mem (State.reportRepoint_mem ..) (.of_mem (State.updRecov_mem ..) (.repointAll h))

theorem State.Canonical.ownReplay {s : State} {jid step : Nat} (h : s.Canonical) : (State.ownReplay s jid step).Canonical := by
  unfold State.ownReplay
  dsimp only
  split
  · exact .of_mem (State.draw_mem ..) h
  · split
    · exact .ite (.of_mem (State.draw_mem ..) h) (.replayBegin (.of_mem (State.draw_mem ..) h))
    · exact .ite (.reportDone (.of_mem (State.draw_mem ..) h)) (.replayBegin (.of_mem (State.updJob_mem ..) (.of_mem (State.draw_mem ..) h)))

theorem State.Canonical.obeyReplay {s : State} {src jid step : Nat} (h : s.Canonical) : (obeyReplay src jid step s).Canonical := by
  unfold Machine.obeyReplay
  split
  · exact h
  · dsimp only
    split
    · exact .of_mem (State.newSeal_mem ..) (.of_mem (State.endRecovery_mem ..) (.of_mem (State.releaseHalted_mem ..) h))
    · exact .ite (.of_mem (State.ackOrder_mem ..)
        (.ownReplay (.of_mem (State.newSeal_mem ..) (.of_mem (State.endRecovery_mem ..) (.of_mem (State.releaseHalted_mem ..) h)))))
          (.of_mem (State.updRecov_mem ..)
            (.ownReplay (.of_mem (State.newSeal_mem ..) (.of_mem (State.endRecovery_mem ..) (.of_mem (State.releaseHalted_mem ..) h)))))

theorem State.Canonical.admitRestored {s : State} {t : TakeSt} {b : StateBlockMsg} (h : s.Canonical) {u}
    (eq : admitRestored s t b = some u) : u.1.Canonical := by
  unfold Machine.admitRestored at eq
  dsimp only at eq
  split at eq <;> cases eq
  exact .applyBlock (.of_mem (State.updJob_mem ..) (.enterJob (.store h)))

theorem State.Canonical.spareDurable {s : State} {t : TakeSt} {d : Nat} (h : s.Canonical) : (spareDurable t d s).Canonical := by
  unfold Machine.spareDurable
  split
  · exact h
  · dsimp only
    split
    · exact .of_mem (State.send_mem ..) (.writeBack h)
    · rename_i eq
      exact .of_mem (State.send_mem ..) (.congr (.admitRestored (.writeBack h) eq) rfl)

theorem State.Canonical.obeyDurable {s : State} {src jid d : Nat} (h : s.Canonical) : (obeyDurable src jid d s).Canonical := by
  unfold Machine.obeyDurable
  split
  · exact .ite (.of_mem (State.ackOrder_mem ..) (.spareDurable h)) h
  · split
    · exact h
    · exact .of_mem (State.ackOrder_mem ..)
        (.restoreDurable (.ite (.of_mem (State.updRecov_mem ..) (.congr h rfl))
          (.of_mem (State.stopBegin_mem ..) (.of_mem (State.updRecov_mem ..) (.congr h rfl)))))

theorem State.Canonical.takeRestoredAll {s : State} {t : TakeSt} (h : s.Canonical) : (State.takeRestoredAll s t).Canonical := by
  unfold State.takeRestoredAll
  split
  · exact h
  · split
    · exact .of_mem (State.takeFails_mem ..) h
    · rename_i eq
      exact .of_mem (State.send_mem ..) (.congr (.admitRestored h eq) rfl)

theorem State.Canonical.takeRestored {s : State} {job : Nat} {ranges : List (Nat × Bytes)} {b : StateBlockMsg} {bad : Bool} (h : s.Canonical) :
    (takeRestored job ranges b bad s).Canonical := by
  unfold Machine.takeRestored
  split
  · exact h
  · refine .ite h (.ite (.of_mem (State.takeFails_mem ..) h)
      (.ite (.takeRestoredAll (.congr (.foldl (fun t x ht => ?_) h) rfl)) (.foldl (fun t x ht => ?_) (.congr (.foldl (fun t x ht => ?_) h) rfl))))
    · exact .store ht
    · exact .of_mem (State.send_mem ..) ht
    · exact .store ht

theorem State.Canonical.takeTensor {s : State} {job i : Nat} {bs : Bytes} {bad : Bool} (h : s.Canonical) :
    (takeTensor job i bs bad s).Canonical := by
  unfold Machine.takeTensor
  split
  · exact h
  · refine .ite h (.ite (.of_mem (State.takeFails_mem ..) h)
      (.ite (.takeRestoredAll (.congr (.getD_map (fun x => ?_) h) rfl)) (.congr (.getD_map (fun x => ?_) h) rfl)))
    · exact .store h
    · exact .store h

theorem State.Canonical.takeTakeover {s : State} {m : TakeoverMsg} (h : s.Canonical) : (takeTakeover m s).Canonical := by
  unfold Machine.takeTakeover
  split
  · exact .of_mem (takeOffered_mem ..) h
  · exact .of_mem (takeAnswer_mem ..) h
  · exact .takeRestored h
  · exact .of_mem (takeAdmitted_mem ..) h
  · exact .of_mem (takeCarried_mem ..) h
  · exact .of_mem (servePull_mem ..) h
  · exact .of_mem (serveTensor_mem ..) h
  · exact .takeTensor h
  · exact .of_mem (takeAck_mem ..) h
  · exact .of_mem (takeHalt_mem ..) h

theorem State.Canonical.obeyRetire {s : State} {src jid step : Nat} (h : s.Canonical) : (obeyRetire src jid step s).Canonical := by
  unfold Machine.obeyRetire
  split
  · exact h
  · exact .ite (.endJob (.of_mem (State.log_mem ..) (.of_mem (State.ackOrder_mem ..) h)))
      (.endJob (.of_mem (State.ledger_mem ..) (.congr (.of_mem (State.ackOrder_mem ..) h) rfl)))

theorem State.Canonical.zeroChannels {s : State} {cs : List Nat} (h : s.Canonical) : (s.zeroChannels cs).Canonical := Memory.wf_filter _ h

theorem State.Canonical.wipeChannels {s : State} {cs : List Nat} (h : s.Canonical) : (State.wipeChannels s cs).Canonical := by
  unfold State.wipeChannels
  exact .congr (.zeroChannels h) rfl

theorem State.Canonical.startMargin {s : State} {v : Nat} (h : s.Canonical) : (startMargin v s).Canonical := by
  unfold Machine.startMargin
  refine .ite (.of_mem (State.outOfRange_mem ..) h)
    (.ite (.of_mem (State.refuseWrite_mem ..) h)
      (.of_mem (State.answer_mem ..)
        (.ite (.foldl (fun t x ht => ?_)
          (.ite (.of_mem (State.pedalStart_mem ..) (.ite (.wipeChannels (.congr h rfl)) (.congr h rfl)))
            (.ite (.wipeChannels (.congr h rfl)) (.congr h rfl))))
              (.ite (.of_mem (State.pedalStart_mem ..) (.ite (.wipeChannels (.congr h rfl)) (.congr h rfl)))
                (.ite (.wipeChannels (.congr h rfl)) (.congr h rfl))))))
  exact .of_mem (State.send_mem ..) ht

theorem State.Canonical.actOnMargin {s : State} {r : MarginRec} (h : s.Canonical) : (actOnMargin s r).Canonical := by
  have wire {l lane wire : Nat} : (Machine.onLink l (fun s => s.failWire l false lane wire) s).Canonical :=
    .of_mem (onLink_mem (fun _ => State.failWire_mem ..) ..) h
  unfold Machine.actOnMargin
  split
  · exact h
  · exact .of_mem (State.logOpen_mem ..) h
  · split
    · exact .onChannel .failChannel h
    · exact .ite wire (.of_mem (State.log_mem ..) h)
    · exact .ite wire (.of_mem (State.log_mem ..) h)
    · exact .ite (.of_mem (State.laneFails_mem ..) h) h

theorem State.setMss_mem (s : State) (m : Mss) : State.mem { s with mss := m } = s.mem := rfl

theorem State.Canonical.marginDone {rs : List MarginRec} {ns : List Nat} {s : State} (h : s.Canonical) : (marginDone rs ns s).Canonical := by
  unfold Machine.marginDone
  split
  · exact h
  · rename_i m _
    have cycled : ((marginLinks m.inst).foldl State.cycleLanes s).Canonical := .foldl (fun _ _ ht => .of_mem (State.cycleLanes_mem ..) ht) h
    have acted {t : State} (ht : t.Canonical) {l : List MarginRec} : (l.foldl Machine.actOnMargin t).Canonical :=
      .foldl (fun _ _ hu => .actOnMargin hu) ht
    have told {t : State} (ht : t.Canonical) : (ns.foldl (fun s n => s.log eState 7 n 0) t).Canonical :=
      .foldl (fun _ _ hu => .of_mem (State.log_mem ..) hu) ht
    have zeroed {t : State} (ht : t.Canonical) : (if m.target = 0 then t.zeroChannels (t.marginChannels m.inst) else t).Canonical :=
      .ite (.zeroChannels ht) ht
    have ended {t : State} (ht : t.Canonical) : (if m.stress then ns.foldl (fun s n => s.log eState 7 n 0) t else t).Canonical :=
      .ite (told ht) ht
    dsimp only
    have reported {t : State} (ht : t.Canonical) {a b c d e f bs} : ((t.logAt a b c d e f).writeCache false bs).Canonical :=
      .of_mem (State.writeCache_mem ..) (.of_mem (State.logAt_mem ..) ht)
    exact .of_mem (State.endTestHold_mem ..) (.of_mem (State.setMss_mem ..) (.of_mem (State.emit_mem ..)
      (reported (zeroed (ended (acted (.ite cycled h)))))))

theorem State.Canonical.mainOff {s : State} (h : s.Canonical) : s.mainOff.Canonical :=
  Memory.wf_filter _ (of_mem (State.coreOff_mem ..) h)

theorem State.Canonical.ejectRequest {s : State} (h : s.Canonical) : (ejectRequest s).Canonical := by
  unfold Machine.ejectRequest
  split
  · exact .of_mem (State.enter_mem ..) h
  · exact .of_mem (State.enter_mem ..) (.mainOff h)
  · exact .of_mem (State.enter_mem ..) (.mainOff h)
  · exact .ite (.congr (.of_mem (State.dropTest_mem ..) (.of_mem (State.enter_mem ..) h)) rfl)
      (.of_mem (drainReports_mem ..) (.of_mem (State.dropTest_mem ..) (.of_mem (State.enter_mem ..) h)))
  · exact .mainOff h
  · exact h

theorem State.Canonical.writeEject {s : State} {v : Nat} (h : s.Canonical) : (writeEject v s).Canonical := by
  unfold Machine.writeEject
  exact .ite (.ejectRequest (.of_mem (State.answer_mem ..) h)) (.of_mem (State.outOfRange_mem ..) h)

theorem State.Canonical.bistTile {bad : List Nat} {l : Nat} {s : State} (h : s.Canonical) {t : State}
    (eq : bistTile bad l s = some t) : t.Canonical := by
  unfold Machine.bistTile at eq
  dsimp only at eq
  split at eq
  · obtain ⟨q, -, rfl⟩ := Option.map_eq_some_iff.1 eq
    exact .mapTile (.congr h rfl)
  · split at eq <;> cases eq
    · exact .mapTile h
    · exact h

theorem State.Canonical.bistBank {x : List Nat × State} {b : Nat × Nat} (h : x.2.Canonical) : (bistBank x b).2.Canonical := by
  unfold Machine.bistBank
  dsimp only
  split
  · exact h
  · split
    · exact .of_mem (State.ledger_mem ..) (.congr h rfl)
    · split
      case h_1 mapped => exact .bistTile h mapped
      case h_2 => exact h

theorem State.Canonical.bistTiles {bad : List Nat} {s : State} (h : s.Canonical) : (bistTiles bad s).2.Canonical := by
  refine .foldl_snd (fun p x hp => ?_) h
  split
  case h_1 mapped => exact .bistTile hp mapped
  case h_2 => exact hp

theorem State.Canonical.bistStep {env : BootEnv} {s : State} (h : s.Canonical) : (bistStep env s).2.Canonical := by
  unfold Machine.bistStep
  dsimp only
  have tested {t : State} (ht : t.Canonical) : (env.bistBanks.foldl Machine.bistBank (Machine.bistTiles env.bistTiles t)).2.Canonical :=
    foldl_snd (g := Machine.bistBank) (fun _ _ hp => .bistBank hp) (.bistTiles ht)
  have started : ∀ p, State.Canonical { s with parts := p } := fun _ => .congr h rfl
  split
  · exact tested (started _)
  · exact .of_mem (bootFault_mem ..) (.foldl (fun _ _ ht => .of_mem (State.logTiles_mem ..) ht) (tested (started _)))

theorem State.Canonical.memoryStep {env : BootEnv} {s : State} (h : s.Canonical) : (memoryStep env s).2.Canonical := by
  unfold Machine.memoryStep
  dsimp only
  refine .of_mem (unlessFault_mem ..) (Memory.wf_filter _ ?_)
  refine foldl (fun _ _ ht => .of_mem (repairRow_mem ..) ht) ?_
  have failed := foldl (s := s) (l := env.badChannels) (g := fun s c => Machine.onChannel c (fun _ s => s.failChannel c) s)
    (fun _ _ ht => .onChannel .failChannel ht) h
  split
  · exact .of_mem (State.failModule_mem ..) (.of_mem (State.log_mem ..) failed)
  · exact failed

theorem State.Canonical.runSteps {env : BootEnv} {l : List (BootEnv → State → Bool × State)}
    (steps : ∀ f ∈ l, ∀ s : State, s.Canonical → (f env s).2.Canonical) {s : State} (h : s.Canonical) : (runSteps l env s).Canonical := by
  induction l generalizing s with
  | nil => exact h
  | cons f l ih =>
    have first := steps f (List.mem_cons_self ..) s h
    unfold Machine.runSteps
    dsimp only
    split
    · exact ih (fun g hg => steps g (List.mem_cons_of_mem _ hg)) first
    · exact first

theorem State.Canonical.bootModule {env : BootEnv} {s : State} (h : s.Canonical) : (bootModule env s).Canonical := by
  refine .runSteps (fun f hf t ht => ?_) (.of_mem (State.enter_mem ..) h)
  simp only [bootSteps, List.mem_cons, List.not_mem_nil, or_false] at hf
  obtain rfl | rfl | rfl | rfl | rfl | rfl | rfl | rfl := hf
  · exact .of_mem (bankStep_mem ..) ht
  · exact .of_mem (ledgerStep_mem ..) ht
  · exact .of_mem (mainStep_mem ..) ht
  · exact .bistStep ht
  · exact .memoryStep ht
  · exact .of_mem (linkStep_mem ..) ht
  · exact .of_mem (spokeStep_mem ..) ht
  · exact .of_mem (hostStep_mem ..) ht

theorem State.Canonical.powerOn {s : State} {env : BootEnv} (h : s.Canonical) : (powerOn env s).Canonical := by
  unfold Machine.powerOn
  split
  · exact .ite h (.bootModule (.of_mem (standbyUp_mem ..) (.of_mem (qualified_mem ..) (.congr h rfl))))
  · exact .ite (.bootModule h) h
  · exact .ite h (.bootModule h)
  · exact h

theorem State.Canonical.toStandby {s : State} (h : s.Canonical) : (State.toStandby s).Canonical := by
  unfold State.toStandby
  exact .of_mem (State.enter_mem ..) (.mainOff h)

theorem State.Canonical.undervolt {s : State} {mv : Nat} (h : s.Canonical) : (undervolt mv s).Canonical := by
  unfold Machine.undervolt
  refine .ite h ?_
  dsimp only
  split
  · exact .toStandby (.of_mem (State.setInput_mem ..) h)
  · exact .toStandby (.of_mem (State.setInput_mem ..) h)
  · exact .toStandby (.of_mem (State.sendNotices_mem ..) (.of_mem (State.setInput_mem ..) h))
  · exact .toStandby (.of_mem (State.sendNotices_mem ..) (.of_mem (State.setInput_mem ..) h))
  · exact .mainOff (.of_mem (State.setInput_mem ..) h)
  · exact .of_mem (State.setInput_mem ..) h

theorem State.Canonical.allOff {s : State} (h : s.Canonical) : (State.allOff s).Canonical := by
  unfold State.allOff
  exact .congr (.mainOff h) rfl

theorem State.Canonical.overvolt {s : State} {mv : Nat} (h : s.Canonical) : (overvolt mv s).Canonical := by
  unfold Machine.overvolt
  exact .ite h (.congr (.allOff (.of_mem (State.setInput_mem ..) h)) rfl)

theorem State.Canonical.inputLoss {s : State} {mv : Nat} (h : s.Canonical) : (inputLoss mv s).Canonical := by
  unfold Machine.inputLoss
  exact .ite h (.allOff (.of_mem (State.setInput_mem ..) h))

theorem State.Canonical.resetModule {s : State} (h : s.Canonical) : (resetModule s).Canonical := by
  unfold Machine.resetModule
  split
  · exact h
  · have off {t : State} (ht : t.Canonical) : t.mainOff.Canonical := .mainOff ht
    dsimp only
    split
    · split
      · exact .congr (off (.of_mem (State.sendNotices_mem ..) h)) rfl
      · exact .of_mem (State.enter_mem ..) (.congr (off (.of_mem (State.sendNotices_mem ..) h)) rfl)
    · split
      · exact .congr (off h) rfl
      · exact .of_mem (State.enter_mem ..) (.congr (off h) rfl)

theorem State.Canonical.forceEject {s : State} (h : s.Canonical) : (forceEject s).Canonical := by
  unfold Machine.forceEject
  split
  · exact .of_mem (State.enter_mem ..) (.mainOff h)
  · exact .of_mem (State.enter_mem ..) (.mainOff h)
  · exact .ejectRequest h

theorem State.Canonical.drainComplete {s : State} (h : s.Canonical) : (drainComplete s).Canonical := by
  unfold Machine.drainComplete
  exact .ite (.of_mem (State.enter_mem ..) (.mainOff h)) h

theorem State.Canonical.removed {s : State} (h : s.Canonical) : (removed s).Canonical := by
  unfold Machine.removed
  exact .congr (.allOff h) rfl

end Sys2Proof.Machine
end

section
/-! SUPPORT. Memory in its canonical form: every instruction and every step keeps it. -/
namespace Sys2Proof.Machine

theorem State.Canonical.of_done {s t u : State} (eq : done s u = .next t) (h : u.Canonical) : t.Canonical := by
  cases eq
  exact h

theorem State.Canonical.issued {sp : CmdSpec} {ref : QRef} {s : State} (mem : sp ∈ specs) (h : s.Canonical) : (Machine.issue sp ref s).Canonical :=
  .issue (CmdSpec.keeps_of_mem mem) h

/-- Every instruction keeps the memory canonical. -/
theorem State.Canonical.exec {i : Instr} {s t : State} (h : s.Canonical) (eq : exec i s = .next t) : t.Canonical := by
  cases i with
  | chunkIssue _ _ | itemChoose _ | itemPush _ | closingNotice _ _ | partialPkt _ | closePkt _ | shardTimeout _ | poisonSourceReport _ _
  | poisonCountsClear _ | mboxOutPost _ | telemetryPublish | cadenceGate _ _ | occupancyMismatch _ | governorGate _ _ | capFastLimit _
  | throttleEngage _ _ | throttleStep _ | throttleRelease _ | thermalTrip _ _ | lockReportSend _ _ | lockReport _ | lockBroadcast _
  | lockReceive _ | pedalHoldExpire | droopHoldStart _ _ | droopHoldTimeout _ | channelRetrainStart _ | patrolRead _ | writeRunDrain _
  | refreshRateCheck _ | portTrainingAttempt _ | flitReceive _ _ | ackSend _ | portRetrain _ | portStandby _ | portWake _
  | transitForward _ _ | timeMessageSend | timeMessage _ | barrierArrive _ | beaconFail _ | windowStopTime _ | agingPeriod
  | switchRequest _ | switchInstant _ | switchInstantReached _ | startInstantTimeout _ | regulatorPhaseFail _ _ | wearLedgerWrite _ _ _ _
  | hostPortFailover _ | moduleFailed | undervoltageRecovery _ | perst _ | tapUnlock _ _ | standbyConverterUp _ | pwrEnQualified _
  | perstDeassert _ | idcode | bypass | samplePreload | extest | extestPulse | extestTrain | testLogicReset | logFlashWrite | enterRun =>
    exact .of_done eq (.of_mem (by simp) h)
  | nop _ | wait _ | signal _ | pushList _ | queueControl _ | mm _ | accInit _ | accDrain _ | attnStep _ | attnFinal _ | vprogLoad _
  | vrun _ | moveData _ | fill _ | wstream _ | stageBind _ | edgeBind _ | pipeStart _ | feedPost _ | versionPublish _ | schedPolicySet _
  | edgeRepoint _ | replayStep _ | pipeStop _ | groupBind _ | reduce _ | gather _ | normClose _ | reshard _ | groupRepoint _ | locketBind _
  | locketSeal _ | ckptIntervalSet _ | tandem _ | gearTableLoad _ | timetableLoad _ =>
    exact .of_done eq (.issued (by simp [specs]) h)
  | vld _ | vldh _ | vlda _ | vadd _ | vsub _ | vmul _ | vfma _ | vmin _ | vmax _ | vabs _ | vneg _ | vmovi _ | vsel _ | vcvti _ | vscl _
  | vaddw _ | vmulw _ | vfmaw _ | vaddh _ | vmulh _ | vfmah _ | vcmp _ | mlogic _ | vexp _ | vrcp _ | vrsqrt _ | vlog _ | vtanh _ | vrsum _
  | vrmax _ =>
    exact .of_done eq (.vecIssue (fun hs => .of_mem (by simp) hs) h)
  | coolantEvent _ _ | mssRestart | requestUpdate | firmwareData _ _ | transferComplete | verifyComplete | applyComplete | activateFirmware
  | sensorRead _ | effecterPowerCap _ | effecterStandbyEnable _ | effecterPedal _ | stressRequest _ _ | effecterDate _ | shock _ _ _
  | mctpEndpointMessage _ _ =>
    exact .of_done eq (.onMss (fun hs => .of_mem (by simp) hs) h)
  | dieFlitReceive _ _ _ | dieControlFlit _ _ _ | propose _ _ | accept _ _ | commit _ _ _ | widthChangeTimeout _ | dieLinkRetrain _ _
  | dieLinkDown _ _ | dieControlFlitSend _ _ =>
    exact .of_done eq (.onLink (fun hs => .of_mem (by simp) hs) h)
  | failureNotice _ _ | suspect _ _ _ | probeTimeout _ _ | aliasOrder _ _ _ _ | quiescentReport _ | quiescentTimeout _
  | takeoverAcceptTimeout _ | stragglerReport _ _ _ =>
    exact .of_done eq (.onLocket (fun hs => .of_mem (by simp) hs) h)
  | doorbell _ | irqStatusClear _ | irqMaskWrite _ | mboxGo _ | mboxOutReadyClear _ | mboxErrClear _ | bar0Write _ _ _ =>
    exact .of_done eq (.onBar (fun hs => .of_mem (by simp) hs) h)
  | portTrainingComplete _ _ _ _ _ | controlFlit _ _ | portDown _ | laneSubstitution _ _ | laneBerWindow _ _ _ =>
    exact .of_done eq (.withLoss (fun hs => .of_mem (by simp) hs) h)
  | doorbellMessage _ | routePatch _ | patchAck _ | mctpPacket _ =>
    exact .of_done eq (.onVc0 (fun hs => .of_mem (by simp) hs) h)
  | writeReq _ | readData _ | doneMsg _ | ownQuery _ =>
    exact .of_done eq (.onVc5 (fun hs => .of_mem (by simp) hs) h)
  | openingNotice _ | closingAck _ _ _ | edgeClosing _ _ _ =>
    exact .of_done eq (.onStrand (fun hs => .of_mem (by simp) hs) h)
  | marginMemory _ | marginDieLinks _ | marginSpoke _ =>
    exact .of_done eq (.onMss (fun hs => .startMargin hs) h)
  | notice _ _ | credit _ _ =>
    exact .of_done eq (.ite (.onStage (fun hs => .of_mem (by simp) hs) (.of_mem (by simp) h)) h)
  | commandWaitSatisfied _ => exact .of_done eq (.resume h)
  | commandComplete _ _ => exact .of_done eq (.commandComplete h)
  | completionRingRetry _ => exact .of_done eq (.retryRing h)
  | deferredApply _ _ => exact .of_done eq (.applyDeferred h)
  | vnop _ => exact .of_done eq (.vecIssue (fun hs => hs) h)
  | vst _ => exact .of_done eq (.vecIssue (fun hs => .effVst hs) h)
  | vsth _ => exact .of_done eq (.vecIssue (fun hs => .effVsth hs) h)
  | vsta _ => exact .of_done eq (.vecIssue (fun hs => .effVsta hs) h)
  | chunkCommit _ _ => exact .of_done eq (.commitChunk h)
  | itemComplete _ => exact .of_done eq (.completeItem h)
  | unitForward _ _ => exact .of_done eq (.forwardUnit h)
  | dataFlit _ _ => exact .of_done eq (.ite (.onStage (fun hs => .takeData hs) (.of_mem (by simp) h)) h)
  | edgeDown _ =>
    refine .of_done eq ?_
    split
    · exact .of_mem (State.edgeLost_mem ..) h
    · exact h
  | stepBoundary => exact .of_done eq (.stepBoundary h)
  | yieldPoint => exact .of_done eq (.yieldPoint h)
  | resultPkt _ _ => exact .of_done eq (.ite (.of_mem (by simp) h) h)
  | normContributionSend => exact .of_done eq (.ite h (.sendContribution h))
  | normContribution _ => exact .of_done eq (.takeContribution h)
  | normWindowClose _ => exact .of_done eq (.ite h (.closeWindow h))
  | normTotal _ => exact .of_done eq (.takeTotal h)
  | normTotalTimeout => exact .of_done eq (.ite h (.timeoutTotal h))
  | tandemFingerprintRequest _ => exact .of_done eq (.fingerprintStep h)
  | buddyOffer _ => exact .of_done eq (.onLocket (fun hs => .takeOffer hs) h)
  | locketCopy _ _ _ _ => exact .of_done eq (.ite h (.storeCopy h))
  | stateBlock _ => exact .of_done eq (.ite h (.takeBlock h))
  | feedMirror _ _ _ _ => exact .of_done eq (.ite h (.storeMirror h))
  | submit _ => exact .of_done eq (.packet (fun hs eq => .submit hs eq) h)
  | jobCancel _ => exact .of_done eq (.packet (fun hs eq => .cancelJob hs eq) h)
  | controlList _ => exact .of_done eq (.packet (fun hs eq => .of_mem (controlList_mem eq) hs) h)
  | droopHoldEnd _ _ => exact .of_done eq (.resumeDie h)
  | channelRetrainEnd _ _ => exact .of_done eq (.endRetrain h)
  | holdQueueRetry _ _ => exact .of_done eq (.retryHold h)
  | rowRemap _ _ _ _ => exact .of_done eq (.rowFails h)
  | channelFail _ => exact .of_done eq (.onChannel (fun hs => .failChannel hs) h)
  | readReq _ => exact .of_done eq (.peerRequest (fun hs => .of_mem (by simp) hs) h)
  | writeData _ => exact .of_done eq (.peerRequest (fun hs => .serveWriteData hs) h)
  | ownAnswer _ => exact .of_done eq (.onVc5 (fun hs => .takeOwnAnswer hs) h)
  | unreachable _ => exact .of_done eq (.onVc0 (fun hs => .takeUnreachable hs) h)
  | wireSubstitution _ _ _ _ => exact .of_done eq (.onLink (fun hs => .ite hs (.of_mem (by simp) hs)) h)
  | commandBoundary => exact .of_done eq (.commandBoundary h)
  | switchComplete => exact .of_done eq (.switchComplete h)
  | tileFail _ => exact .of_done eq (.failTile h)
  | scratchBankFail _ _ _ => exact .of_done eq (.failBank h)
  | wearSample _ _ => exact .of_done eq (.sampleWear h)
  | recover _ _ => exact .of_done eq (.onLocket (fun hs => .obeyRecover hs) h)
  | repoint _ _ => exact .of_done eq (.onLocket (fun hs => .obeyRepoint hs) h)
  | replayOrder _ _ _ => exact .of_done eq (.onLocket (fun hs => .obeyReplay hs) h)
  | durable _ _ _ => exact .of_done eq (.onLocket (fun hs => .obeyDurable hs) h)
  | takeoverOffer _ => exact .of_done eq (.onLocket (fun hs => .takeTakeover hs) h)
  | retire _ _ _ => exact .of_done eq (.onLocket (fun hs => .obeyRetire hs) h)
  | marginRunComplete _ _ => exact .of_done eq (.onMss (fun hs => .withLoss (fun hs => .marginDone hs) hs) h)
  | effecterEject _ => exact .of_done eq (.onMss (fun hs => .writeEject hs) h)
  | powerOnSequence _ => exact .of_done eq (.powerOn h)
  | undervoltageShutdown _ => exact .of_done eq (.undervolt h)
  | overvoltageOff _ => exact .of_done eq (.overvolt h)
  | inputLoss _ => exact .of_done eq (.inputLoss h)
  | resetPin => exact .of_done eq (.resetModule h)
  | ejectRequest => exact .of_done eq (.ejectRequest h)
  | forceEject => exact .of_done eq (.forceEject h)
  | drainComplete => exact .of_done eq (.drainComplete h)
  | surpriseRemoval => exact .of_done eq (.removed h)

theorem State.Canonical.step {s t : State} (h : s.Canonical) (eq : step s = .next t) : t.Canonical := by
  unfold Machine.step at eq
  split at eq
  · cases eq
    exact .tick h
  · have taken {rest : List Instr} : State.Canonical { s with pending := rest } := .congr h rfl
    exact .exec taken eq

/-- Settles O4: whatever an instruction or a tick does to memory is done by writes, clears, copies, tables and filters, and each of them
keeps the form. -/
theorem memoryStaysCanonical : Obligations.MemoryStaysCanonical := fun _ _ wf eq => State.Canonical.step wf eq

end Sys2Proof.Machine
end

section
/-! SUPPORT. Requests of peers on VC5 (R171, R289): who serves the oldest flit, and where it waits. -/
namespace Sys2Proof.Machine

theorem onVc5_of_takeRx {n op : Nat} {f : SpokeFlit} {s u : State} (got : s.takeRx n 5 (fun f => xOp f == op) = some (f, u))
    (k : SpokeFlit → State → State) : onVc5 n op s k = k f u := by
  simp [onVc5, got]

theorem peerRequest_of_free {n op : Nat} {f : SpokeFlit} {s u : State} (got : s.takeRx n 5 (fun f => xOp f == op) = some (f, u))
    (free : waitsHere n s = false) (k : SpokeFlit → State → State) : peerRequest n op s k = k f u := by
  simp [peerRequest, free, onVc5_of_takeRx got]

theorem peerRequest_of_waits {n : Nat} {s : State} (waits : waitsHere n s = true) (op : Nat) (k : SpokeFlit → State → State) :
    peerRequest n op s k = holdPeer n op s := by
  simp [peerRequest, waits]

/-- The requests that are served: a ring access anywhere in user memory, or one that the job owns here. -/
def Served (f : SpokeFlit) (s : State) : Prop :=
  (xJob f = 0 ∧ s.inUser (xAddr f) (xLen f) = true) ∨
    (xJob f ≠ 0 ∧ s.inUser (xAddr f) (xLen f) = true ∧ ∃ j, s.job? (xJob f) = some j ∧ j.owns (xAddr f) (xLen f) = true)

theorem served_iff (f : SpokeFlit) (s : State) :
    (if xJob f = 0 then s.inUser (xAddr f) (xLen f) else s.peerOwns (xJob f) (xAddr f) (xLen f)) = true ↔ Served f s := by
  unfold Served
  split
  · rename_i none
    simp [none]
  · rename_i named
    simp [named, State.peerOwns, Option.any_eq_true]

theorem serveReadReq_of_served {f : SpokeFlit} {s : State} (own : Served f s) :
    serveReadReq f s = s.serveRead (fSrc f) (xJob f) (xXid f) (xAddr f) (xLen f) := if_pos ((served_iff f s).2 own)

theorem serveReadReq_of_not_served {f : SpokeFlit} {s : State} (other : ¬ Served f s) :
    serveReadReq f s = s.sendDone (fSrc f) (xJob f) (xXid f) eProtect := if_neg (mt (served_iff f s).1 other)

theorem serveWriteReq_of_served {f : SpokeFlit} {s : State} (own : Served f s) :
    serveWriteReq f s = { s with spoke := { s.spoke with
      serving := s.spoke.serving.filter (fun x => !(x.xid == xXid f && x.peer == fSrc f)) ++
        [{ xid := xXid f, peer := fSrc f, job := xJob f, addr := xAddr f, len := xLen f, write := true }] } } :=
  if_pos ((served_iff f s).2 own)

theorem serveWriteReq_of_not_served {f : SpokeFlit} {s : State} (other : ¬ Served f s) :
    serveWriteReq f s = s.sendDone (fSrc f) (xJob f) (xXid f) eProtect := if_neg (mt (served_iff f s).1 other)

theorem holdPeer_of_none {n op : Nat} {s : State} (none : s.takeRx n 5 (fun f => xOp f == op) = none) : holdPeer n op s = s := by
  simp [holdPeer, none]

section
variable {n op : Nat} {f : SpokeFlit} {s u : State} {r : Nat × Nat} (got : s.takeRx n 5 (fun f => xOp f == op) = some (f, u))
  (range : flitRange s f = some r)
include got range

theorem holdPeer_of_room (free : s.stalledRange r.1 r.2 = false)
    (room : ∀ c ∈ s.lp.channels, c.2.hold + (if c.2.held then s.chanUnits c.1 r.1 r.2 else 0) ≤ 512) :
    holdPeer n op s = { u with lp := { u.lp with
      ages := u.lp.ages + 1, peers := u.lp.peers ++ [(u.lp.ages, f)]
      channels := u.lp.channels.map (fun (c : Nat × Channel) =>
        (c.1, { c.2 with hold := c.2.hold + (if c.2.held then s.chanUnits c.1 r.1 r.2 else 0) })) } } := by
  unfold holdPeer
  simp only [got, range]
  refine if_neg ?_
  simpa [free] using room

theorem holdPeer_of_full (full : s.stalledRange r.1 r.2 = true ∨
      ∃ c ∈ s.lp.channels, 512 < c.2.hold + (if c.2.held then s.chanUnits c.1 r.1 r.2 else 0)) :
    holdPeer n op s = s := by
  unfold holdPeer
  simp only [got, range]
  refine if_pos ?_
  simpa using full

end

theorem exec_of_waits {port : Nat} {s : State} (waits : waitsHere port s = true) :
    ∀ x ∈ [(0, Instr.readReq port), (2, Instr.writeData port)], exec x.2 s = done s (holdPeer port x.1 s) := by
  simp only [List.forall_mem_cons, List.not_mem_nil, false_implies, implies_true, and_true]
  exact ⟨congrArg (done s) (peerRequest_of_waits waits 0 _), congrArg (done s) (peerRequest_of_waits waits 2 _)⟩

/-- Settles O16, by the rules of the three requests: served where the flit's turn comes, held where its channel is in retrain. -/
theorem remoteRequestsServed : Obligations.RemoteRequestsServed := by
  unfold Obligations.RemoteRequestsServed
  intro port f s u
  refine ⟨fun got free => ⟨fun own => ?_, fun other => ?_⟩, fun waits x hx => ⟨fun none => ?_, fun got r range => ⟨fun free room => ?_, fun full => ?_⟩⟩,
    fun got => ⟨fun own => ?_, fun other => ?_⟩, fun got owns => ?_, fun got owns => ?_⟩
  · exact congrArg (done s) ((peerRequest_of_free got free _).trans (serveReadReq_of_served own))
  · exact congrArg (done s) ((peerRequest_of_free got free _).trans (serveReadReq_of_not_served other))
  · rw [exec_of_waits waits x hx, holdPeer_of_none none, done_self]
  · rw [exec_of_waits waits x hx, holdPeer_of_room got range free room, done_eq]
  · rw [exec_of_waits waits x hx, holdPeer_of_full got range full, done_self]
  · exact congrArg (done s) ((onVc5_of_takeRx got _).trans (serveWriteReq_of_served own))
  · exact congrArg (done s) ((onVc5_of_takeRx got _).trans (serveWriteReq_of_not_served other))
  · refine congrArg (done s) ((onVc5_of_takeRx got _).trans ?_)
    simp [serveOwn, owns]
  · refine congrArg (done s) ((onVc5_of_takeRx got _).trans ?_)
    simp [serveOwn, owns, eProtect]

end Sys2Proof.Machine
end

section
/-! SUPPORT. A message over VC5 sent: the transactions that are open stay, and beside the ports, the Spoke's own state and the outputs
nothing changes (R289, R299-R306). -/
namespace Sys2Proof.Machine
namespace State

/-! ## The open transactions -/

theorem sendIdx_serving (s : State) (n i : Nat) : (s.sendIdx n i).spoke.serving = s.spoke.serving := by
  unfold sendIdx
  dsimp only
  cases (s.port n).txq[i]? with
  | none => rfl
  | some q => rfl

theorem pumpResend_serving (s : State) (n k : Nat) : (s.pumpResend n k).spoke.serving = s.spoke.serving := by
  induction k generalizing s with
  | zero => rfl
  | succ k ih =>
    rw [pumpResend]
    cases (s.port n).resend with
    | nil => rfl
    | cons f t => exact ih _

theorem pumpNew_serving (s : State) (n k : Nat) : (s.pumpNew n k).spoke.serving = s.spoke.serving := by
  induction k generalizing s with
  | zero => rfl
  | succ k ih =>
    rw [pumpNew]
    split
    · rfl
    · cases arbiter (s.port n) with
      | none => rfl
      | some i => exact (ih _).trans (sendIdx_serving s n i)

theorem pump_serving (s : State) (n : Nat) : (s.pump n).spoke.serving = s.spoke.serving := by
  rw [pump]
  dsimp only
  split
  · rfl
  · exact (pumpNew_serving ..).trans (pumpResend_serving ..)

theorem sendMask_serving {s t : State} {m : BitVec 36} {key : Nat} {f : SpokeFlit} (h : s.sendMask m key f = some t) :
    t.spoke.serving = s.spoke.serving := by
  unfold sendMask at h
  cases ports : s.usable m with
  | nil => simp [ports] at h
  | cons p ps =>
    simp only [ports] at h
    split at h <;> cases h
    · rfl
    · exact pump_serving ..

theorem sendFlow_serving {s t : State} {old m : BitVec 36} {f : SpokeFlit} (h : s.sendFlow old m f = some t) :
    t.spoke.serving = s.spoke.serving := by
  unfold sendFlow at h
  split at h
  · cases h
    rfl
  · exact sendMask_serving h

/-! ## A job's flit -/

/-- What the sending of a flow leaves as it was, the sending of a job's flit leaves as it was. -/
theorem sendJob_keeps {α : Type} {v : State → α} {s t : State} {j : Job} {cls dst vc word pay : Nat}
    (flow : ∀ {old m f t}, s.sendFlow old m f = some t → v t = v s) (h : s.sendJob j cls dst vc word pay = some t) : v t = v s := by
  unfold sendJob at h
  split at h
  · cases h
  · split at h
    · cases h
    · exact flow h

theorem sendVc5_keeps {α : Type} {v : State → α} {s : State} (flow : ∀ {old m f t}, s.sendFlow old m f = some t → v t = v s)
    (job dst word pay : Nat) : v ((s.sendVc5 job dst word pay).getD s) = v s := by
  cases h : s.sendVc5 job dst word pay with
  | none => rfl
  | some t =>
    unfold sendVc5 at h
    split at h
    · exact sendJob_keeps flow h
    · split at h
      · cases h
      · exact flow h

theorem sendDone_serving (s : State) (src job xid code : Nat) : (s.sendDone src job xid code).spoke.serving = s.spoke.serving :=
  sendVc5_keeps (v := fun t => t.spoke.serving) sendFlow_serving ..

theorem sendDone_inner (s : State) (src job xid code : Nat) : (s.sendDone src job xid code).inner = s.inner :=
  sendVc5_keeps (v := inner) sendFlow_inner ..

end State

/-! ## A piece of a write (R289) -/

/-- The state without memory, its marks and its channels, and the MSS's own state. -/
def State.outside (s : State) : State := { s with mem := [], marks := [], lp := {}, mss := {} }

theorem correctParts_outside (s : State) (ws : List (Nat × Bytes)) : (s.correctParts ws).outside = s.outside := by
  obtain ⟨ms, lp, same⟩ := s.correctParts_eq ws
  rw [same]
  rfl

theorem write_outside (s : State) (a : Nat) (bs : Bytes) : (s.write a bs).outside = s.outside := by
  obtain ⟨ms, same⟩ := s.write_eq a bs
  rw [same]
  rfl

theorem meetBad_outside (s : State) (jid : Nat) (us : List (Nat × Mark)) : (s.meetBad jid us).outside = s.outside := by
  obtain ⟨ms, lq, fs, same⟩ := s.meetBad_eq jid us
  rw [same]
  rfl

theorem poisonUnits_outside (s : State) (us : List Nat) : (s.poisonUnits us).outside = s.outside := by
  obtain ⟨ms, same⟩ := s.poisonUnits_eq us
  rw [same]
  rfl

theorem leBytes_getElem (n x : Nat) {i : Nat} (lt : i < (leBytes n x).length) : (leBytes n x)[i] = BitVec.ofNat 8 (x >>> (8 * i)) := by
  induction n generalizing x i with
  | zero => simp [leBytes] at lt
  | succ n ih =>
    cases i with
    | zero => rfl
    | succ i =>
      have shift : x >>> (8 * (i + 1)) = x >>> 8 >>> (8 * i) := by rw [← Nat.shiftRight_add, Nat.mul_add, Nat.add_comm]
      rw [shift, ← ih (x >>> 8) (by simpa using lt)]
      rfl

/-- The bytes of a piece that a transaction still takes. -/
def Txn.room (x : Txn) (f : SpokeFlit) : Nat := min 256 (x.len - xOff f * 256)

/-- The open transactions but one. -/
def State.othersServing (s : State) (x : Txn) : List Txn := s.spoke.serving.filter (fun t => !(t.xid == x.xid && t.peer == x.peer))

/-- A piece written: memory holds it, with its marks, channels and log. -/
def State.pieceWritten (s : State) (f : SpokeFlit) (x : Txn) : State :=
  let a := x.addr + xOff f * 256
  let n := x.room f
  let part := (s.badUnits a n).filter (fun m => !inside (m.1 * 64) 64 a n)
  let s := (((s.correctParts [(a, leBytes n (fPay f))]).write a (leBytes n (fPay f))).meetBad x.job part).queueWrites [(a, n)]
  if xPoison f then s.poisonUnits (State.unitsOf a n) else s

@[simp] theorem State.pieceWritten_mem (s : State) (f : SpokeFlit) (x : Txn) :
    (s.pieceWritten f x).mem = s.mem.write (x.addr + xOff f * 256) (leBytes (x.room f) (fPay f)) := by
  unfold State.pieceWritten
  dsimp only
  split <;> simp

theorem State.pieceWritten_outside (s : State) (f : SpokeFlit) (x : Txn) : (s.pieceWritten f x).outside = s.outside := by
  have written {a n bs us} : ((((s.correctParts [(a, bs)]).write a bs).meetBad x.job us).queueWrites [(a, n)]).outside = s.outside :=
    (meetBad_outside ..).trans ((write_outside ..).trans (correctParts_outside ..))
  unfold State.pieceWritten
  dsimp only
  split
  · exact (poisonUnits_outside ..).trans written
  · exact written

/-- A piece of an open transaction: the last one closes it and is answered with DONE, another leaves it open with its bytes counted. -/
theorem serveWriteData_of_open {f : SpokeFlit} {s : State} {x : Txn}
    (opened : s.spoke.serving.find? (fun t => t.xid == xXid f && t.peer == fSrc f) = some x) : ∃ bad,
    serveWriteData f s =
      let v := s.pieceWritten f x
      if x.len ≤ x.got + x.room f then
        ({ v with spoke := { v.spoke with serving := v.othersServing x } }).sendDone x.peer x.job x.xid (if bad then eUncorr else 0)
      else { v with spoke := { v.spoke with serving := v.othersServing x ++ [{ x with got := x.got + x.room f, bad := bad }] } } := by
  unfold serveWriteData
  rw [opened]
  exact ⟨_, rfl⟩

section
variable {f : SpokeFlit} {s : State} {x : Txn} (opened : s.spoke.serving.find? (fun t => t.xid == xXid f && t.peer == fSrc f) = some x)
include opened

theorem serveWriteData_mem_of_open :
    (serveWriteData f s).mem = s.mem.write (x.addr + xOff f * 256) (leBytes (x.room f) (fPay f)) := by
  obtain ⟨bad, served⟩ := serveWriteData_of_open opened
  rw [served]
  dsimp only
  split
  · exact (State.sendDone_mem ..).trans (s.pieceWritten_mem f x)
  · exact s.pieceWritten_mem f x

/-- Beside memory, the channels, the log and the Spoke's own state a piece changes nothing. -/
theorem serveWriteData_outside : (serveWriteData f s).inner.outside = s.inner.outside := by
  obtain ⟨bad, served⟩ := serveWriteData_of_open opened
  have written : (s.pieceWritten f x).inner.outside = s.inner.outside := congrArg State.inner (s.pieceWritten_outside f x)
  rw [served]
  dsimp only
  split
  · exact (congrArg State.outside (State.sendDone_inner ..)).trans written
  · exact written

theorem serving_of_more (more : x.got + x.room f < x.len) :
    ∃ y ∈ (serveWriteData f s).spoke.serving, y.xid = x.xid ∧ y.peer = x.peer ∧ y.got = x.got + x.room f := by
  obtain ⟨bad, served⟩ := serveWriteData_of_open opened
  rw [served]
  dsimp only
  rw [if_neg (not_le.2 more)]
  exact ⟨_, List.mem_append_right _ (List.mem_singleton.2 rfl), rfl, rfl, rfl⟩

theorem serving_of_last (last : x.len ≤ x.got + x.room f) :
    ∀ y ∈ (serveWriteData f s).spoke.serving, ¬ (y.xid = x.xid ∧ y.peer = x.peer) := by
  obtain ⟨bad, served⟩ := serveWriteData_of_open opened
  intro y hy
  rw [served] at hy
  dsimp only at hy
  rw [if_pos last, State.sendDone_serving] at hy
  simpa [imp_iff_not_or] using (List.mem_filter.1 hy).2

end

/-! ## What comes back from peers (R171, R289) -/

theorem moveReadData_of_move {fl : SpokeFlit} {g : Flight} {m : PeerMove} (op : g.op = .move m) (s : State) (j : Job) (q : QRef) :
    moveReadData fl s j q g = if m.rd = some (xXid fl) then
      (s, { g with op := .move { m with
        got := m.got ++ [(xOff fl, leBytes 256 (fPay fl))]
        tainted := if xPoison fl then m.tainted ++ [xOff fl] else m.tainted } })
    else (s, g) := by
  simp [moveReadData, op]

theorem moveDone_of_other {fl : SpokeFlit} {g : Flight} {m : PeerMove} (op : g.op = .move m) (rd : m.rd ≠ some (xXid fl)) (wrs : xXid fl ∉ m.wrs)
    (s : State) (j : Job) (q : QRef) : moveDone fl s j q g = (s, g) := by
  simp [moveDone, op, rd, wrs]

theorem takeOwnAnswer_of_idle {f : SpokeFlit} {s : State} (idle : s.runJob = none) :
    takeOwnAnswer f s = s.answerAsks (xJob f) (· == fSrc f * 2 ^ 14 + xXid f) (bits (fPay f) 0 16) := by
  simp [takeOwnAnswer, idle]

theorem takeOwnAnswer_of_run {f : SpokeFlit} {s : State} {j : Job} (run : s.runJob = some j) :
    takeOwnAnswer f s =
      ((j.queues.filter (fun q => q.cur.any (fun w => w.asks.any (fun a => a.1 == fSrc f * 2 ^ 14 + xXid f)))).map (·.ref)).foldl
        (fun s r => resume r s) (s.answerAsks (xJob f) (· == fSrc f * 2 ^ 14 + xXid f) (bits (fPay f) 0 16)) := by
  simp [takeOwnAnswer, run]

/-- A piece of an open transaction lands: its bytes and no other, and the transaction goes on or closes. -/
theorem writeData_lands {port : Nat} {f : SpokeFlit} {s u : State} {x : Txn} (wf : s.mem.wf = true)
    (got : s.takeRx port 5 (fun f => xOp f == 2) = some (f, u)) (free : waitsHere port s = false)
    (opened : u.spoke.serving.find? (fun t => t.xid == xXid f && t.peer == fSrc f) = some x) :
    ∃ t, exec (.writeData port) s = .next t ∧
      (∀ i < x.room f, t.mem.byte (x.addr + xOff f * 256 + i) = BitVec.ofNat 8 (fPay f >>> (8 * i))) ∧
      (∀ b, (b < x.addr + xOff f * 256 ∨ x.addr + xOff f * 256 + x.room f ≤ b) → t.mem.byte b = s.mem.byte b) ∧
      (x.got + x.room f < x.len → ∃ y ∈ t.spoke.serving, y.xid = x.xid ∧ y.peer = x.peer ∧ y.got = x.got + x.room f) ∧
      (x.len ≤ x.got + x.room f → ∀ y ∈ t.spoke.serving, ¬ (y.xid = x.xid ∧ y.peer = x.peer)) ∧
      t.ctrs = s.ctrs ∧ t.slots = s.slots ∧ t.jobs = s.jobs ∧ t.bar = s.bar := by
  have mem : (serveWriteData f u).mem = s.mem.write (x.addr + xOff f * 256) (leBytes (x.room f) (fPay f)) :=
    (serveWriteData_mem_of_open opened).trans (by rw [State.takeRx_mem got])
  have quiet := serveWriteData_outside opened
  obtain ⟨i, -, -, -, rfl⟩ := State.takeRx_eq_some got
  refine ⟨settle s (serveWriteData f (s.dropRx port i)), congrArg (done s) (peerRequest_of_free got free _), fun k lt => ?_, fun b out => ?_,
    serving_of_more opened, serving_of_last opened, congrArg (·.ctrs) quiet, congrArg (·.slots) quiet, congrArg (·.jobs) quiet,
    congrArg (·.bar) quiet⟩
  · rw [settle_mem, mem, Memory.byte_write_in wf (by simpa using lt), leBytes_getElem]
  · rw [settle_mem, mem, Memory.byte_write_out wf (by simpa using out)]

/-- Settles O17: a piece lands by `writeData_lands`; an answer runs over the flights of the jobs it names, and a copy under another
transaction is left as it was. -/
theorem remoteTransactionsLand : Obligations.RemoteTransactionsLand := by
  unfold Obligations.RemoteTransactionsLand
  refine ⟨fun port f s u x => writeData_lands,
    fun port f s u => ⟨fun got => ?_, fun got => ?_, fun got => ⟨fun idle => ?_, fun j run => ?_⟩⟩,
    fun f s j q g m op => ⟨fun rd => ?_, fun rd => ⟨?_, fun wrs => ?_⟩⟩⟩
  · exact congrArg (done s) (onVc5_of_takeRx got _)
  · exact congrArg (done s) (onVc5_of_takeRx got _)
  · exact congrArg (done s) ((onVc5_of_takeRx got _).trans (takeOwnAnswer_of_idle idle))
  · exact congrArg (done s) ((onVc5_of_takeRx got _).trans (takeOwnAnswer_of_run run))
  · rw [moveReadData_of_move op, if_pos rd]
  · rw [moveReadData_of_move op, if_neg rd]
  · exact moveDone_of_other op rd wrs s j q

end Sys2Proof.Machine
end

section
/-! SUPPORT. The channels and the marks of their units: what a read gives after an update (R163, R175, R178). -/
namespace Sys2Proof.Machine

/-! ## Channels -/

theorem State.chan?_updChan {s : State} {c : Nat} {x : Channel} (h : s.chan? c = some x) (f : Channel → Channel) :
    (s.updChan c f).chan? c = some (f x) := by
  obtain ⟨⟨k, y⟩, found, rfl⟩ := Option.map_eq_some_iff.1 h
  have key : k = c := by simpa using List.find?_some found
  subst key
  have keep : (fun p : Nat × Channel => p.1 == k) ∘ (fun p => if p.1 == k then (p.1, f p.2) else p) = fun p => p.1 == k := by
    funext p
    dsimp only [Function.comp]
    split <;> rfl
  simp only [State.chan?, State.updChan, List.find?_map, keep, found]
  simp

theorem State.chan?_countCe {s : State} {c : Nat} {x : Channel} (h : s.chan? c = some x) :
    (s.countCe c).chan? c = some { x with
      ceCount := x.ceCount + 1, ceRecent := x.ceRecent.filter (fun t => decide (s.now < t + 6000000000)) ++ [s.now] } :=
  State.chan?_updChan h _

/-- An update of a channel looks at the entries of that channel only. -/
theorem State.updChan_congr {s : State} {c : Nat} {f g : Channel → Channel} (same : ∀ p ∈ s.lp.channels, p.1 = c → f p.2 = g p.2) :
    s.updChan c f = s.updChan c g := by
  have maps : s.lp.channels.map (fun p => if p.1 == c then (p.1, f p.2) else p) =
      s.lp.channels.map (fun p => if p.1 == c then (p.1, g p.2) else p) := by
    refine List.map_congr_left (fun p mem => ?_)
    split
    · rename_i key
      rw [same p mem (by simpa using key)]
    · rfl
  simp only [State.updChan, maps]

theorem onChannel_of_chan {c : Nat} {x : Channel} {s : State} (chan : s.chan? c = some x) (ok : x.failed = false) (on : s.mod.mainOn = true)
    (f : Channel → State → State) : onChannel c f s = f x s := by
  simp [onChannel, chan, ok, on]

/-- What a step of a channel in service leaves as it was, it leaves so with main power off too. -/
theorem onChannel_of_same {c : Nat} {x : Channel} {s : State} {f : Channel → State → State} (chan : s.chan? c = some x) (same : f x s = s) :
    onChannel c f s = s := by
  simp [onChannel, chan, same]

/-! ## Marks -/

@[simp] theorem State.markOf_updChan (s : State) (c : Nat) (f : Channel → Channel) (u : Nat) : (s.updChan c f).markOf u = s.markOf u := rfl
@[simp] theorem State.markOf_countCe (s : State) (c u : Nat) : (s.countCe c).markOf u = s.markOf u := rfl

theorem State.markOf_setMark_same (s : State) (u : Nat) (m : Mark) : (s.setMark u m).markOf u = m := by
  have below : (s.marks.filter (fun x => decide (x.1 < u))).find? (fun x => x.1 == u) = none := by
    simp only [List.find?_filter, List.find?_eq_none]
    intro x _
    simp
    omega
  have above : (s.marks.filter (fun x => decide (u < x.1))).find? (fun x => x.1 == u) = none := by
    simp only [List.find?_filter, List.find?_eq_none]
    intro x _
    simp
    omega
  by_cases gone : (m = .clean && !s.inLost u && (s.wipedBy u).isNone) = true
  · have found : (s.setMark u m).marks.find? (fun x => x.1 == u) = none := by simp [State.setMark, gone, List.find?_append, below, above]
    obtain ⟨⟨rfl, kept⟩, -⟩ : (m = .clean ∧ s.inLost u = false) ∧ _ := by simpa [and_assoc] using gone
    have still : (s.setMark u .clean).inLost u = false := kept
    simp [State.markOf, found, still]
  · have found : (s.setMark u m).marks.find? (fun x => x.1 == u) = some (u, m) := by simp [State.setMark, gone, List.find?_append, below]
    simp [State.markOf, found]

/-! ## Requests that a hold releases -/

theorem issueHeld_of_none {s : State} (none : heldAges s = []) : s.issueHeld = s := by
  simp [State.issueHeld, none]

end Sys2Proof.Machine
end

section
/-! SUPPORT. Retrain, hold queue, patrol, write runs and refresh (R173, R176, R178, R179): what each row does in each of its cases. -/
namespace Sys2Proof.Machine

/-! ## Retrain (R178) -/

section
variable {ch : Nat} {x : Channel} {s : State} (chan : s.chan? ch = some x) (ok : x.failed = false) (on : s.mod.mainOn = true)
include chan ok on

theorem startRetrain_of_due (due : retrainDue s x = true) (alone : ∀ c ∈ s.lp.channels, c.2.held = false)
    (apart : ∀ t, s.lp.lastStart = some t → t + 100000 ≤ s.now) :
    startRetrain ch s = { s with lp := { s.lp with
      channels := s.lp.channels.map (fun (c : Nat × Channel) => if c.1 == ch then (c.1, { c.2 with held := true, writes := 0 }) else c)
      lastStart := some s.now } } := by
  have none : s.lp.channels.any (fun c => c.2.held) = false := by simpa using alone
  have late : s.lp.lastStart.any (fun t => decide (s.now < t + 100000)) = false := by
    cases h : s.lp.lastStart with
    | none => rfl
    | some t => simpa using apart t h
  refine (onChannel_of_chan chan ok on _).trans ?_
  simp only [none, late, due]
  rfl

theorem endRetrain_of_converged (held : x.held = true) :
    endRetrain ch true s = (s.updChan ch (fun y => y.trained s.now 0)).issueHeld := by
  refine (onChannel_of_chan chan ok on _).trans ?_
  simp [held]

theorem endRetrain_of_failed (held : x.held = true) :
    endRetrain ch false s =
      let u := (s.updChan ch (fun y => y.trained s.now (y.nonConv + 1))).logOpen ch 0 (place 0 7 ch)
      if 3 ≤ x.nonConv + 1 then u.failChannel ch else u.issueHeld := by
  refine (onChannel_of_chan chan ok on _).trans ?_
  simp [held]

end

/-! ## Hold queue (R179) -/

theorem le_admitRefused (mover : Nat) (l : List (Nat × Nat)) (hold : Nat) : hold ≤ (admitRefused mover l hold).1 := by
  induction l generalizing hold with
  | nil => exact le_refl hold
  | cons p l ih =>
    unfold admitRefused
    split
    · exact (Nat.le_add_right ..).trans (ih _)
    · exact ih hold

/-- What a Mover retries goes into the hold queue while it has room, and nothing of it is lost; the other Movers' entries stay. -/
theorem admitRefused_spec (mover : Nat) (l : List (Nat × Nat)) {hold : Nat} (room : hold ≤ 512) :
    (admitRefused mover l hold).1 ≤ 512 ∧
      (admitRefused mover l hold).1 + ((admitRefused mover l hold).2.map (·.2)).sum = hold + (l.map (·.2)).sum ∧
      ((admitRefused mover l hold).1 = 512 ∨ ∀ p ∈ (admitRefused mover l hold).2, p.1 ≠ mover) ∧
      (admitRefused mover l hold).2.filter (fun p => p.1 != mover) = l.filter (fun p => p.1 != mover) := by
  induction l generalizing hold with
  | nil => simp [admitRefused, room]
  | cons p l ih =>
    obtain ⟨m, n⟩ := p
    by_cases own : m = mover
    · obtain ⟨cap, total, full, others⟩ := ih (hold := hold + min n (512 - hold)) (by omega)
      by_cases fits : n = min n (512 - hold)
      · simp only [admitRefused, if_pos own, if_pos fits]
        refine ⟨cap, ?_, full, ?_⟩
        · rw [total, List.map_cons, List.sum_cons]
          omega
        · simpa [own] using others
      · have filled : hold + min n (512 - hold) = 512 := by omega
        have atCap : (admitRefused mover l (hold + min n (512 - hold))).1 = 512 :=
          le_antisymm cap (filled.ge.trans (le_admitRefused ..))
        simp only [admitRefused, if_pos own, if_neg fits]
        refine ⟨cap, ?_, .inl atCap, ?_⟩
        · rw [List.map_cons, List.sum_cons, List.map_cons, List.sum_cons]
          dsimp only
          omega
        · simpa [own] using others
    · obtain ⟨cap, total, full, others⟩ := ih room
      simp only [admitRefused, if_neg own]
      refine ⟨cap, ?_, ?_, ?_⟩
      · rw [List.map_cons, List.sum_cons, List.map_cons, List.sum_cons]
        dsimp only
        omega
      · exact full.imp_right (fun none => by simpa [own] using none)
      · simpa [own] using others

section
variable {ch : Nat} {x : Channel} {s : State} (own : ∀ c ∈ s.lp.channels, c.1 = ch → c.2 = x)
include own

theorem retryHold_of_held (mover : Nat) (held : x.held = true) :
    retryHold ch mover s = (s.updChan ch (fun y => { y with
      hold := (admitRefused mover x.refused x.hold).1, refused := (admitRefused mover x.refused x.hold).2 })).issueHeld := by
  refine congrArg State.issueHeld (State.updChan_congr (fun p mem key => ?_))
  rw [own p mem key]
  simp [held]

theorem retryHold_of_free (mover : Nat) (free : x.held = false) :
    retryHold ch mover s = (s.updChan ch (fun y => { y with refused := y.refused.filter (fun p => p.1 != mover) })).issueHeld := by
  refine congrArg State.issueHeld (State.updChan_congr (fun p mem key => ?_))
  rw [own p mem key]
  simp [free]

end

/-! ## Write runs and refresh (R173) -/

section
variable {ch : Nat} {x : Channel} {s : State} (chan : s.chan? ch = some x) (ok : x.failed = false) (on : s.mod.mainOn = true)
include chan ok on

theorem drainWrites_of_due (free : x.held = false) (due : 64 ≤ x.writes ∨ x.oldest + 100 ≤ s.now ∨ readQueued s ch = false) :
    drainWrites ch s = s.updChan ch (fun x => { x with writes := 0 }) := by
  refine (onChannel_of_chan chan ok on _).trans (if_neg ?_)
  simpa [free, or_assoc, imp_iff_not_or] using due

theorem drainWrites_of_early (few : x.writes < 64) (young : s.now < x.oldest + 100) (reads : readQueued s ch = true) :
    drainWrites ch s = s := by
  refine (onChannel_of_chan chan ok on _).trans (if_pos ?_)
  simp [reads, few, young]

end

/-- A package's reading put in its channels. -/
def Channel.heated (c : Nat × Channel) (t : Int) : Nat × Channel :=
  (c.1, { c.2 with temp := t, fast := decide (850 < t), trainTemp := some (c.2.trainTemp.getD t) })

/-- The channels after a refresh check. -/
def checked (temps : List Int) (c : Nat × Channel) : Nat × Channel :=
  match temps[c.1 / 4]? with
  | none => c
  | some t => Channel.heated c t

theorem checkRefresh_eq (temps : List Int) (s : State) :
    checkRefresh temps s = { s with lp := { s.lp with channels := s.lp.channels.map (checked temps) } } := rfl

/-! ## Patrol (R176) -/

/-- The mark that a patrol read puts on a unit. -/
def patrolMark : Mark → PatrolFind → Option Mark
  | .clean, .uncorrectable | .soft, .uncorrectable | .hard, .uncorrectable => some .uncorr
  | .soft, .persistent => some .hard
  | .soft, _ => some .clean
  | _, _ => none

/-- A patrol read corrects an error of the unit. -/
def patrolCounts (mark : Mark) (found : PatrolFind) : Bool :=
  decide (mark ≠ .uncorr ∧ found ≠ .uncorrectable ∧ (mark = .soft ∨ mark = .hard ∨ found = .corrected ∨ found = .persistent))

/-- A patrol read fails the unit's row. -/
def patrolFails (mark : Mark) (found : PatrolFind) : Bool :=
  decide (mark = .uncorr ∨ mark = .hard ∨ found = .persistent ∨ found = .uncorrectable)

def State.markAt (o : Option Nat) (m : Option Mark) (s : State) : State :=
  match m with
  | none => s
  | some m =>
    match o with
    | some a => s.setMark a m
    | none => s

def State.dueRow (r : Nat × Nat × Nat) (s : State) : State :=
  if s.lp.failing.contains r then s else { s with lp := { s.lp with failing := s.lp.failing ++ [r] } }

def State.patrolMarkOf (s : State) (o : Option Nat) : Mark := (o.map s.markOf).getD .clean

/-- A patrol read counts, marks and fails, each by its own table. -/
theorem patrolFinds_eq (ch u : Nat) (found : PatrolFind) (s : State) :
    patrolFinds ch u found s =
      let at_ := patrolPlace s ch u
      let mark := s.patrolMarkOf at_.2.2
      let counted := if patrolCounts mark found then s.countCe ch else s
      let marked := counted.markAt at_.2.2 (patrolMark mark found)
      if patrolFails mark found then marked.dueRow (ch, at_.1, at_.2.1) else marked := by
  unfold patrolFinds State.patrolMarkOf
  dsimp only
  generalize ((patrolPlace s ch u).2.2.map s.markOf).getD .clean = mark
  cases mark <;> cases found <;> rfl

@[simp] theorem State.markAt_lp (o : Option Nat) (m : Option Mark) (s : State) : (s.markAt o m).lp = s.lp := by
  unfold State.markAt
  (repeat' split) <;> rfl

@[simp] theorem State.markOf_dueRow (r : Nat × Nat × Nat) (s : State) (u : Nat) : (s.dueRow r).markOf u = s.markOf u := by
  unfold State.dueRow
  split <;> rfl

@[simp] theorem State.chan?_dueRow (r : Nat × Nat × Nat) (s : State) (c : Nat) : (s.dueRow r).chan? c = s.chan? c := by
  unfold State.dueRow
  split <;> rfl

@[simp] theorem State.chan?_markAt (o : Option Nat) (m : Option Mark) (s : State) (c : Nat) : (s.markAt o m).chan? c = s.chan? c := by
  simp [State.chan?]

theorem State.mem_failing_dueRow (r : Nat × Nat × Nat) (s : State) : r ∈ (s.dueRow r).lp.failing := by
  unfold State.dueRow
  split
  · rename_i listed
    simpa using listed
  · simp

/-- The state without the channels' own part and the marks. -/
def State.unpatrolled (s : State) : State := { s with marks := [], lp := {} }

theorem patrolFinds_unpatrolled (ch u : Nat) (found : PatrolFind) (s : State) : (patrolFinds ch u found s).unpatrolled = s.unpatrolled := by
  have counted {b : Bool} : (if b then s.countCe ch else s).unpatrolled = s.unpatrolled := by
    split <;> rfl
  have marked (o m) (v : State) : (v.markAt o m).unpatrolled = v.unpatrolled := by
    unfold State.markAt
    (repeat' split) <;> rfl
  have due (r) (v : State) : (v.dueRow r).unpatrolled = v.unpatrolled := by
    unfold State.dueRow
    split <;> rfl
  rw [patrolFinds_eq]
  dsimp only
  split
  · rw [due, marked, counted]
  · rw [marked, counted]

theorem patrolFinds_chan {ch : Nat} {x : Channel} {s : State} (chan : s.chan? ch = some x) (u : Nat) (found : PatrolFind) :
    ∃ y, (patrolFinds ch u found s).chan? ch = some y ∧ y.patrol = x.patrol ∧
      y.ceCount = x.ceCount + (patrolCounts (s.patrolMarkOf (patrolPlace s ch u).2.2) found).toNat := by
  rw [patrolFinds_eq]
  dsimp only
  rw [apply_ite (State.chan? · ch), State.chan?_dueRow, ite_self, State.chan?_markAt]
  cases patrolCounts (s.patrolMarkOf (patrolPlace s ch u).2.2) found with
  | false => exact ⟨x, chan, rfl, rfl⟩
  | true => exact ⟨_, State.chan?_countCe chan, rfl, rfl⟩

theorem patrolFinds_fails {ch u : Nat} {found : PatrolFind} {s : State}
    (fails : patrolFails (s.patrolMarkOf (patrolPlace s ch u).2.2) found = true) :
    (ch, (patrolPlace s ch u).1, (patrolPlace s ch u).2.1) ∈ (patrolFinds ch u found s).lp.failing := by
  rw [patrolFinds_eq]
  dsimp only
  rw [if_pos fails]
  exact State.mem_failing_dueRow ..

theorem patrolFinds_passes {ch u : Nat} {found : PatrolFind} {s : State}
    (passes : patrolFails (s.patrolMarkOf (patrolPlace s ch u).2.2) found = false) :
    (patrolFinds ch u found s).lp.failing = s.lp.failing := by
  rw [patrolFinds_eq]
  dsimp only
  rw [passes, if_neg Bool.false_ne_true, State.markAt_lp]
  split <;> rfl

/-- The mark of the unit read: what the table puts there, else what it was. -/
theorem patrolFinds_markOf {ch u a : Nat} {found : PatrolFind} {s : State} (place : (patrolPlace s ch u).2.2 = some a) :
    (patrolFinds ch u found s).markOf a = (patrolMark (s.markOf a) found).getD (s.markOf a) := by
  have mark : s.patrolMarkOf (some a) = s.markOf a := rfl
  rw [patrolFinds_eq]
  dsimp only
  rw [place, mark, apply_ite (State.markOf · a), State.markOf_dueRow, ite_self]
  cases patrolMark (s.markOf a) found with
  | none =>
    refine (apply_ite (State.markOf · a) ..).trans ?_
    rw [State.markOf_countCe, ite_self, Option.getD_none]
  | some m => exact State.markOf_setMark_same ..

theorem patrol_of_held {ch : Nat} {x : Channel} {s : State} (chan : s.chan? ch = some x) (held : x.held = true) (found : PatrolFind) :
    patrol ch found s = s := onChannel_of_same chan (by simp [held])

theorem drainWrites_of_held {ch : Nat} {x : Channel} {s : State} (chan : s.chan? ch = some x) (held : x.held = true) :
    drainWrites ch s = s := onChannel_of_same chan (by simp [held])

theorem patrol_of_free {ch : Nat} {x : Channel} {s : State} (chan : s.chan? ch = some x) (ok : x.failed = false) (on : s.mod.mainOn = true)
    (free : x.held = false) (found : PatrolFind) :
    patrol ch found s = (patrolFinds ch x.patrol found s).updChan ch (fun x => { x with patrol := (x.patrol + 1) % 402653184 }) := by
  refine (onChannel_of_chan chan ok on _).trans ?_
  simp [free, channelUnits]

/-- What PATROL_READ does on a channel in service that is not in retrain. -/
theorem patrolRead_steps {ch : Nat} {x : Channel} {s : State} (chan : s.chan? ch = some x) (ok : x.failed = false) (free : x.held = false)
    (on : s.mod.mainOn = true) (found : PatrolFind) :
    let at_ := patrolPlace s ch x.patrol
    let mark := (at_.2.2.map s.markOf).getD .clean
    let counts := mark ≠ .uncorr ∧ found ≠ .uncorrectable ∧ (mark = .soft ∨ mark = .hard ∨ found = .corrected ∨ found = .persistent)
    let fails := mark = .uncorr ∨ mark = .hard ∨ found = .persistent ∨ found = .uncorrectable
    ∃ t y, exec (.patrolRead ⟨ch, found⟩) s = .next t ∧ t.mem = s.mem ∧ t.ctrs = s.ctrs ∧ t.jobs = s.jobs ∧
      t.chan? ch = some y ∧ y.patrol = (x.patrol + 1) % 402653184 ∧
      (counts → y.ceCount = x.ceCount + 1) ∧ (¬ counts → y.ceCount = x.ceCount) ∧
      (fails → (ch, at_.1, at_.2.1) ∈ t.lp.failing) ∧ (¬ fails → t.lp.failing = s.lp.failing) ∧
      (∀ a, at_.2.2 = some a →
        (mark = .soft → (found = .clean ∨ found = .corrected) → t.markOf a = .clean) ∧
        (mark = .soft → found = .persistent → t.markOf a = .hard) ∧
        ((mark = .clean ∨ mark = .soft ∨ mark = .hard) → found = .uncorrectable → t.markOf a = .uncorr) ∧
        ((mark = .poison ∨ mark = .uncorr ∨ found ≠ .uncorrectable ∧ (mark = .hard ∨ mark = .clean)) → t.markOf a = mark)) := by
  intro at_ mark counts fails
  have quiet := patrolFinds_unpatrolled ch x.patrol found s
  obtain ⟨y, chan', place, count⟩ := patrolFinds_chan chan x.patrol found
  have advanced := State.chan?_updChan chan' (fun x => { x with patrol := (x.patrol + 1) % 402653184 })
  refine ⟨_, _, congrArg (done s) (patrol_of_free chan ok on free found), congrArg (·.mem) quiet, congrArg (·.ctrs) quiet,
    congrArg (·.jobs) quiet, advanced, ?_, fun h => ?_, fun h => ?_, fun h => ?_, fun h => ?_, fun a unit => ?_⟩
  · dsimp only
    rw [place]
  · have counted : patrolCounts mark found = true := decide_eq_true h
    exact count.trans (congrArg (fun b : Bool => x.ceCount + b.toNat) counted)
  · have kept : patrolCounts mark found = false := decide_eq_false h
    exact count.trans (congrArg (fun b : Bool => x.ceCount + b.toNat) kept)
  · exact patrolFinds_fails (decide_eq_true h)
  · exact patrolFinds_passes (decide_eq_false h)
  · have known : mark = s.markOf a := by simp [mark, unit]
    have after := patrolFinds_markOf (found := found) unit
    rw [← known] at after
    refine ⟨fun soft mended => after.trans ?_, fun soft stays => after.trans ?_, fun old gone => after.trans ?_, fun kept => after.trans ?_⟩
    · rcases mended with rfl | rfl <;> rw [soft] <;> rfl
    · rw [soft, stays]
      rfl
    · rcases old with old | old | old <;> rw [old, gone] <;> rfl
    · rcases kept with old | old | ⟨fine, old | old⟩
      · rw [old]
        cases found <;> rfl
      · rw [old]
        cases found <;> rfl
      · rw [old]
        cases found with
        | uncorrectable => exact absurd rfl fine
        | _ => rfl
      · rw [old]
        cases found with
        | uncorrectable => exact absurd rfl fine
        | _ => rfl

/-- Settles O19, by the rules of its rows. -/
theorem channelUpkeepAndRetrain : Obligations.ChannelUpkeepAndRetrain := by
  unfold Obligations.ChannelUpkeepAndRetrain
  refine ⟨fun ch x s chan ok on => ⟨fun due alone apart => ?_, fun held => ?_, fun held => ⟨fun few => ?_, fun many => ?_⟩,
      fun mover own => ⟨fun held room => ?_, fun free => ?_⟩, fun u none => issueHeld_of_none none⟩,
    fun ch x s => ⟨fun chan ok held => ⟨?_, fun found => ?_⟩, fun chan ok free on => patrolRead_steps chan ok free on,
      fun chan ok free on => ⟨fun due => ?_, fun few young reads => ?_⟩,
      fun temps => ⟨s.lp.channels.map (checked temps), ?_, ?_, ?_, ?_⟩⟩⟩
  · exact congrArg (done s) (startRetrain_of_due chan ok on due alone apart)
  · exact congrArg (done s) (endRetrain_of_converged chan ok on held)
  · exact congrArg (done s) ((endRetrain_of_failed chan ok on held).trans (if_neg (by omega)))
  · exact congrArg (done s) ((endRetrain_of_failed chan ok on held).trans (if_pos (by omega)))
  · obtain ⟨cap, total, full, others⟩ := admitRefused_spec mover x.refused room
    exact ⟨_, _, congrArg (done s) (retryHold_of_held own mover held), cap, total, full, others⟩
  · exact congrArg (done s) (retryHold_of_free own mover free)
  · exact (congrArg (done s) (drainWrites_of_held chan held)).trans (done_self s)
  · exact (congrArg (done s) (patrol_of_held chan held found)).trans (done_self s)
  · exact congrArg (done s) (drainWrites_of_due chan ok on free due)
  · exact (congrArg (done s) (drainWrites_of_early chan ok on few young reads)).trans (done_self s)
  · exact congrArg (done s) (checkRefresh_eq temps s)
  · exact List.length_map ..
  · intro i c t at_ reading
    rw [List.getElem?_map, at_, Option.map_some, checked, reading]
    rfl
  · intro i c at_ none
    rw [List.getElem?_map, at_, Option.map_some, checked, none]

end Sys2Proof.Machine
end

section
/-! SUPPORT. Where a row's user data lie (R167, R180, R184): what it depends on, and that a record put for the row leaves it. -/
namespace Sys2Proof.Machine
theorem find?_append_of_kept {α : Type} {p q : α → Bool} {a : α} {l l' : List α} (found : l.find? p = some a) (kept : q a = true) :
    (l.filter q ++ l').find? p = some a := by
  obtain ⟨pa, before, after, rfl, none⟩ := List.find?_eq_some_iff_append.1 found
  rw [List.filter_append, List.filter_cons_of_pos kept, List.append_assoc, List.cons_append, List.find?_append,
    List.find?_eq_none.2 (fun x mem => by simpa using none x (List.mem_of_mem_filter mem)), List.find?_cons_of_pos pa]
  rfl

namespace State

theorem stripeHome_congr {s t : State} (mod : t.mod = s.mod) (pools : t.lp.pools = s.lp.pools) (moved : t.lp.moved = s.lp.moved)
    (rows : t.lp.rows = s.lp.rows) (k c m : Nat) : t.stripeHome k c m = s.stripeHome k c m := by
  have from_ (c m) : t.movedFrom c m = s.movedFrom c m := by simp only [movedFrom, channelIds, mod, moved]
  induction k generalizing c m with
  | zero => rfl
  | succ k ih => simp only [stripeHome, mod, pools, rows, from_, ih]

theorem channelNow_congr {s t : State} (mod : t.mod = s.mod) (pools : t.lp.pools = s.lp.pools) (moved : t.lp.moved = s.lp.moved) (u : Nat) :
    t.channelNow u = s.channelNow u := by
  simp only [channelNow, hostsOf, trailOf, locate, channelIds, mod, pools, moved]

theorem rowAddr_congr {s t : State} (mod : t.mod = s.mod) (pools : t.lp.pools = s.lp.pools) (moved : t.lp.moved = s.lp.moved)
    (rows : t.lp.rows = s.lp.rows) (c bank row : Nat) : t.rowAddr c bank row = s.rowAddr c bank row := by
  simp only [rowAddr, moved, stripeHome_congr mod pools moved rows, channelNow_congr mod pools moved]

/-! ## A row's record put -/


theorem stripeHome_mono {s : State} {k c m a : Nat} (h : s.stripeHome k c m = some a) : s.stripeHome (k + 1) c m = some a := by
  induction k generalizing c m with
  | zero => simp [stripeHome] at h
  | succ k ih =>
    rw [stripeHome] at h ⊢
    split
    · rename_i user
      rwa [if_pos user] at h
    · rename_i user
      rw [if_neg user] at h
      split
      · rename_i spare
        rw [if_pos spare] at h
        obtain ⟨r, found, home⟩ := Option.bind_eq_some_iff.1 h
        exact Option.bind_eq_some_iff.2 ⟨r, found, ih home⟩
      · rename_i spare
        rw [if_neg spare] at h
        obtain ⟨p, found, home⟩ := Option.bind_eq_some_iff.1 h
        exact Option.bind_eq_some_iff.2 ⟨p, found, ih home⟩

theorem stripeHome_le {s : State} {k n c m a : Nat} (le : k ≤ n) (h : s.stripeHome k c m = some a) : s.stripeHome n c m = some a :=
  Nat.le_induction h (fun _ _ => stripeHome_mono) n le

/-- Where a stripe's home is found on a way that does not come back to the row of `x`, the record of `x` put changes nothing. -/
theorem stripeHome_putRow_of_apart {s : State} {x : FailedRow} {k : Nat} (apart : ∀ i < k, s.stripeHome i x.ch (rowStripe x.bank x.row) = none)
    {c m a : Nat} (h : s.stripeHome k c m = some a) : (s.putRow x).stripeHome k c m = some a := by
  induction k generalizing c m with
  | zero => simp [stripeHome] at h
  | succ k ih =>
    have ih {c m} := @ih (fun i lt => apart i (by omega)) c m
    rw [stripeHome] at h ⊢
    split
    · rename_i user
      rwa [if_pos user] at h
    · rename_i user
      rw [if_neg user] at h
      split
      · rename_i spare
        rw [if_pos spare] at h
        obtain ⟨r, found, home⟩ := Option.bind_eq_some_iff.1 h
        have other : (!(r.ch == x.ch && r.bank == x.bank && r.row == x.row)) = true := by
          by_contra same
          obtain ⟨⟨ch, bank⟩, row⟩ : (r.ch = x.ch ∧ r.bank = x.bank) ∧ r.row = x.row := by simpa using same
          have here : c = x.ch := by
            have := List.find?_some found
            simp only [Bool.and_eq_true, beq_iff_eq] at this
            omega
          rw [bank, row, here, apart k (by omega)] at home
          cases home
        refine Option.bind_eq_some_iff.2 ⟨r, ?_, ih home⟩
        exact find?_append_of_kept found other
      · rename_i spare
        rw [if_neg spare] at h
        obtain ⟨p, found, home⟩ := Option.bind_eq_some_iff.1 h
        exact Option.bind_eq_some_iff.2 ⟨p, found, ih home⟩

/-- The home of a row stays where it was when the row's record is put: the way to it does not come back to the row. -/
theorem rowAddr_putRow {s : State} {x : FailedRow} {a : Nat} (h : s.rowAddr x.ch x.bank x.row = some a) :
    (s.putRow x).rowAddr x.ch x.bank x.row = some a := by
  obtain ⟨home, now⟩ := Option.filter_eq_some_iff.1 h
  refine Option.filter_eq_some_iff.2 ⟨?_, now⟩
  have some_ : ∃ k, s.stripeHome k x.ch (rowStripe x.bank x.row) ≠ none := ⟨_, by rw [home]; simp⟩
  classical
  obtain ⟨b, first⟩ := Option.ne_none_iff_exists'.1 (Nat.find_spec some_)
  have le : Nat.find some_ ≤ s.lp.moved.length + 4 := Nat.find_min' some_ (by rw [home]; simp)
  obtain rfl : b = a := Option.some.inj ((stripeHome_le le first).symm.trans home)
  exact stripeHome_le le (stripeHome_putRow_of_apart (fun i lt => not_not.1 (Nat.find_min some_ lt)) first)

end State
end Sys2Proof.Machine
end

section
/-! SUPPORT. A failed row remapped and a failed channel (R180, R181, R183-R185): the state after each part of ROW_REMAP and CHANNEL_FAIL. -/
namespace Sys2Proof.Machine
theorem find?_filter_key {α : Type} (P : Nat → Prop) [DecidablePred P] (l : List (Nat × α)) (v : Nat) :
    (l.filter (fun x => decide (P x.1))).find? (fun x => x.1 == v) = if P v then l.find? (fun x => x.1 == v) else none := by
  rw [List.find?_filter]
  split
  · rename_i holds
    refine congrArg (List.find? · l) (funext (fun x => ?_))
    by_cases key : x.1 = v <;> simp [key, holds]
  · rename_i fails
    refine List.find?_eq_none.2 (fun x _ => ?_)
    rintro both
    obtain ⟨px, key⟩ : P x.1 ∧ x.1 = v := by simpa using both
    exact fails (key ▸ px)

namespace State

/-! ## Marks put on several units -/

theorem markOf_setMark_other {s : State} {u v : Nat} (ne : v ≠ u) (m : Mark) : (s.setMark u m).markOf v = s.markOf v := by
  have still : (s.setMark u m).inLost v = s.inLost v := rfl
  have found : (s.setMark u m).marks.find? (fun x => x.1 == v) = s.marks.find? (fun x => x.1 == v) := by
    have here : (if m = .clean && !s.inLost u && (s.wipedBy u).isNone then [] else [(u, m)]).find? (fun x => x.1 == v) = none := by
      split
      · rfl
      · simp [ne.symm]
    rw [setMark, List.find?_append, List.find?_append, here, Option.or_none, find?_filter_key (· < u), find?_filter_key (u < ·)]
    rcases Nat.lt_or_gt_of_ne ne with below | above
    · rw [if_pos below, if_neg (by omega), Option.or_none]
    · rw [if_neg (by omega), if_pos above, Option.none_or]
  unfold markOf
  rw [found, still]
  rfl

theorem markOf_poisonUnits_of_poison {s : State} {u : Nat} (us : List Nat) (h : s.markOf u = .poison) : (s.poisonUnits us).markOf u = .poison := by
  induction us generalizing s with
  | nil => exact h
  | cons v us ih =>
    refine ih ?_
    by_cases same : u = v
    · rw [same]
      exact markOf_setMark_same ..
    · rw [markOf_setMark_other same, h]

theorem markOf_poisonUnits_of_mem {s : State} {u : Nat} {us : List Nat} (mem : u ∈ us) : (s.poisonUnits us).markOf u = .poison := by
  induction us generalizing s with
  | nil => cases mem
  | cons v us ih =>
    rcases List.mem_cons.1 mem with rfl | later
    · exact markOf_poisonUnits_of_poison us (markOf_setMark_same ..)
    · exact ih later

theorem markOf_foldl_setMark_of_not_mem {s : State} {u : Nat} {us : List Nat} (apart : u ∉ us) (m : Mark) :
    (us.foldl (fun s u => s.setMark u m) s).markOf u = s.markOf u := by
  induction us generalizing s with
  | nil => rfl
  | cons v us ih =>
    obtain ⟨ne, apart⟩ : u ≠ v ∧ u ∉ us := by simpa using apart
    exact (ih apart).trans (markOf_setMark_other ne m)

/-! ## The parts of ROW_REMAP -/

/-- The state when ROW_REMAP has noted the failure: the row's uncorrectable unit found, the error counted, the row due no longer. -/
def rowNoted (s : State) (c bank row : Nat) (uncorr : Bool) : State :=
  let s := if uncorr then (s.findBad c bank row).log eUncorr 7 c 0 (s.rowDetail c bank row) else s
  let s := if uncorr then s.updChan c (fun x => { x with
      badRows := x.badRows.filter (fun r => r.1 != row * 16 + bank && decide (s.now ≤ r.2 + 100000000)) ++ [(row * 16 + bank, s.now)] })
    else s.countCe c
  { s with lp := { s.lp with failing := s.lp.failing.filter (· != (c, bank, row)) } }

theorem remapRow_eq (s : State) (c bank row : Nat) (uncorr : Bool) :
    s.remapRow c bank row uncorr =
      let v := s.rowNoted c bank row uncorr
      let x := v.countRow c bank row
      match v.freeSpare c with
      | none => (((v.putRow x).ledgerRow x).log eSpare 7 c 0 (v.rowDetail c bank row)).retirePage c bank row
      | some k =>
        let w := ((v.copyRow c bank row).putRow { x with spare := some k }).ledgerRow { x with spare := some k }
        if 3 ≤ x.count then w.retirePage c bank row else w := rfl

theorem findBad_eq (s : State) (c bank row : Nat) : ∃ free ms, s.findBad c bank row = { s with free := free, marks := ms } := by
  unfold findBad
  dsimp only
  split
  · exact ⟨s.free, s.marks, rfl⟩
  · exact ⟨_, _, rfl⟩

theorem findBad_of_uncorr {s : State} {c bank row u : Nat} (mem : u ∈ s.rowUnits c bank row) (mark : s.markOf u = .uncorr) :
    s.findBad c bank row = s := by
  have known : (s.rowUnits c bank row).any (fun u => decide (s.markOf u = Mark.uncorr)) = true :=
    List.any_eq_true.2 ⟨u, mem, decide_eq_true mark⟩
  exact if_pos (by rw [known, Bool.or_true])

/-- What the noting of a row's failure may change. -/
theorem rowNoted_eq (s : State) (c bank row : Nat) (uncorr : Bool) : ∃ free ms mss cs, s.rowNoted c bank row uncorr =
    { s with
      free := free, marks := ms, mss := mss
      lp := { s.lp with channels := cs, failing := s.lp.failing.filter (· != (c, bank, row)) } } := by
  cases uncorr with
  | false => exact ⟨_, _, _, _, rfl⟩
  | true =>
    obtain ⟨free, ms, found⟩ := s.findBad_eq c bank row
    unfold rowNoted
    simp only [if_true, found]
    exact ⟨_, _, _, _, rfl⟩

theorem markOf_rowNoted {s : State} {c bank row u : Nat} (mem : u ∈ s.rowUnits c bank row) (mark : s.markOf u = .uncorr) (uncorr : Bool) :
    (s.rowNoted c bank row uncorr).markOf u = .uncorr := by
  cases uncorr with
  | false => exact mark
  | true =>
    unfold rowNoted
    simp only [if_true, findBad_of_uncorr mem mark]
    exact mark

/-- An uncorrectable error more than 1 s after every other of the channel is the only one of that second. -/
theorem chan?_rowNoted {s : State} {c bank row : Nat} {x : Channel} (chan : s.chan? c = some x) (old : ∀ r ∈ x.badRows, r.2 + 100000000 < s.now) :
    (s.rowNoted c bank row true).chan? c = some { x with badRows := [(row * 16 + bank, s.now)] } := by
  obtain ⟨free, ms, found⟩ := s.findBad_eq c bank row
  have none : x.badRows.filter (fun r => r.1 != row * 16 + bank && decide (s.now ≤ r.2 + 100000000)) = [] := by
    refine List.filter_eq_nil_iff.2 (fun r mem => ?_)
    have := old r mem
    simp
    omega
  have chan' : ((s.findBad c bank row).log eUncorr 7 c 0 (s.rowDetail c bank row)).chan? c = some x := by
    rw [found]
    exact chan
  have now : ((s.findBad c bank row).log eUncorr 7 c 0 (s.rowDetail c bank row)).now = s.now := by
    rw [found]
    rfl
  have noted := chan?_updChan chan' (fun x => { x with
    badRows := x.badRows.filter (fun r => r.1 != row * 16 + bank && decide (s.now ≤ r.2 + 100000000)) ++ [(row * 16 + bank, s.now)] })
  rw [none, List.nil_append] at noted
  refine Eq.trans ?_ noted
  unfold rowNoted
  simp only [if_true, now]
  rfl

/-! ## What the rest of ROW_REMAP leaves -/

/-- The state without the marks, the MSS's part, the rows and the pages retired. -/
def unremapped (s : State) : State := { s with marks := [], mss := {}, lp := { s.lp with rows := [], retired := [] } }

theorem copyRow_eq (s : State) (c bank row : Nat) : ∃ ms, s.copyRow c bank row = { s with marks := ms } := by
  have cleaned (us : List Nat) (t : State) : ∃ ms, us.foldl (fun s u => s.setMark u .clean) t = { t with marks := ms } := by
    induction us generalizing t with
    | nil => exact ⟨_, rfl⟩
    | cons u us ih =>
      obtain ⟨ms, e⟩ := ih (t.setMark u .clean)
      exact ⟨ms, e⟩
  obtain ⟨ms, poisoned⟩ := s.poisonUnits_eq ((s.rowUnits c bank row).filter (fun u => decide (s.markOf u = Mark.uncorr)))
  obtain ⟨ms', e⟩ := cleaned ((s.rowUnits c bank row).filter (fun u => decide (s.markOf u = Mark.soft ∨ s.markOf u = Mark.hard)))
    { s with marks := ms }
  refine ⟨ms', ?_⟩
  rw [copyRow]
  rw [poisoned, e]

theorem chan?_of_unremapped {s t : State} (same : s.unremapped = t.unremapped) (c : Nat) : s.chan? c = t.chan? c :=
  Eq.trans (b := s.unremapped.chan? c) rfl ((congrArg (State.chan? · c) same).trans rfl)

theorem unremapped_copyRow (s : State) (c bank row : Nat) : (s.copyRow c bank row).unremapped = s.unremapped := by
  obtain ⟨ms, e⟩ := s.copyRow_eq c bank row
  rw [e]
  rfl

theorem retirePage_eq (s : State) (c bank row : Nat) : ∃ ps q l, s.retirePage c bank row =
    { s with
      mss := { s.mss with ledgerQ := s.mss.ledgerQ ++ q, logQ := l }
      lp := { s.lp with retired := ps } } := by
  unfold retirePage
  dsimp only
  split
  · exact ⟨s.lp.retired, [], s.mss.logQ, by simp⟩
  · split
    · exact ⟨s.lp.retired, [], s.mss.logQ, by simp⟩
    · exact ⟨_, _, _, rfl⟩

theorem unremapped_retirePage (s : State) (c bank row : Nat) : (s.retirePage c bank row).unremapped = s.unremapped := by
  obtain ⟨ps, q, l, e⟩ := s.retirePage_eq c bank row
  rw [e]
  rfl

theorem mem_retired_retirePage {s : State} {c bank row a : Nat} (home : s.rowAddr c bank row = some a) :
    a / 0x200000 * 0x200000 ∈ (s.retirePage c bank row).lp.retired := by
  simp only [retirePage, home]
  split
  · rename_i listed
    simpa using listed
  · simp

theorem unremapped_remapRow (s : State) (c bank row : Nat) (uncorr : Bool) :
    (s.remapRow c bank row uncorr).unremapped = (s.rowNoted c bank row uncorr).unremapped := by
  rw [remapRow_eq]
  generalize s.rowNoted c bank row uncorr = v
  dsimp only
  split
  · exact (unremapped_retirePage ..).trans rfl
  · rename_i k _
    have put : (((v.copyRow c bank row).putRow { v.countRow c bank row with spare := some k }).ledgerRow
        { v.countRow c bank row with spare := some k }).unremapped = v.unremapped :=
      Eq.trans (b := (v.copyRow c bank row).unremapped) rfl (unremapped_copyRow ..)
    split
    · exact (unremapped_retirePage ..).trans put
    · exact put

/-! ## ROW_REMAP (R180, R181) -/

theorem rowNoted_home (s : State) (c bank row : Nat) (uncorr : Bool) :
    let v := s.rowNoted c bank row uncorr
    v.mod = s.mod ∧ v.lp.pools = s.lp.pools ∧ v.lp.moved = s.lp.moved ∧ v.lp.rows = s.lp.rows := by
  obtain ⟨_, _, _, _, e⟩ := s.rowNoted_eq c bank row uncorr
  rw [e]
  exact ⟨rfl, rfl, rfl, rfl⟩

theorem rowAddr_rowNoted (s : State) (c bank row : Nat) (uncorr : Bool) :
    (s.rowNoted c bank row uncorr).rowAddr c bank row = s.rowAddr c bank row := by
  obtain ⟨mod, pools, moved, rows⟩ := s.rowNoted_home c bank row uncorr
  exact rowAddr_congr mod pools moved rows c bank row

theorem rowUnits_rowNoted (s : State) (c bank row : Nat) (uncorr : Bool) :
    (s.rowNoted c bank row uncorr).rowUnits c bank row = s.rowUnits c bank row := by
  simp only [rowUnits, rowAddr_rowNoted]

theorem freeSpare_rowNoted (s : State) (c bank row : Nat) (uncorr : Bool) :
    (s.rowNoted c bank row uncorr).freeSpare c = s.freeSpare c := by
  obtain ⟨-, -, -, rows⟩ := s.rowNoted_home c bank row uncorr
  simp only [freeSpare, rows]

theorem countRow_rowNoted (s : State) (c bank row : Nat) (uncorr : Bool) :
    (s.rowNoted c bank row uncorr).countRow c bank row = s.countRow c bank row := by
  obtain ⟨-, -, -, rows⟩ := s.rowNoted_home c bank row uncorr
  simp only [countRow, rows]

/-- The state when a failed row's copy and record stand: its units copied, its record put with the spare row `k` and in the ledger. -/
def rowMoved (s : State) (c bank row k : Nat) (uncorr : Bool) : State :=
  let x := { s.countRow c bank row with spare := some k }
  (((s.rowNoted c bank row uncorr).copyRow c bank row).putRow x).ledgerRow x

theorem remapRow_of_spare {s : State} {c k : Nat} (spare : s.freeSpare c = some k) (bank row : Nat) (uncorr : Bool) :
    s.remapRow c bank row uncorr = if 3 ≤ (s.countRow c bank row).count then (s.rowMoved c bank row k uncorr).retirePage c bank row
      else s.rowMoved c bank row k uncorr := by
  simp only [remapRow_eq, freeSpare_rowNoted, spare, countRow_rowNoted]
  rfl

theorem remapRow_of_full {s : State} {c : Nat} (full : s.freeSpare c = none) (bank row : Nat) (uncorr : Bool) :
    s.remapRow c bank row uncorr =
      let v := s.rowNoted c bank row uncorr
      let x := s.countRow c bank row
      (((v.putRow x).ledgerRow x).log eSpare 7 c 0 (v.rowDetail c bank row)).retirePage c bank row := by
  simp only [remapRow_eq, freeSpare_rowNoted, full, countRow_rowNoted]

theorem markOf_copyRow {s : State} {c bank row u : Nat} (mem : u ∈ s.rowUnits c bank row) (mark : s.markOf u = .uncorr) :
    (s.copyRow c bank row).markOf u = .poison := by
  have bad : u ∈ (s.rowUnits c bank row).filter (fun u => decide (s.markOf u = Mark.uncorr)) := List.mem_filter.2 ⟨mem, decide_eq_true mark⟩
  have other : u ∉ (s.rowUnits c bank row).filter (fun u => decide (s.markOf u = Mark.soft ∨ s.markOf u = Mark.hard)) := by
    simp [mark]
  exact (markOf_foldl_setMark_of_not_mem other .clean).trans (markOf_poisonUnits_of_mem bad)

theorem markOf_rowMoved {s : State} {c bank row u : Nat} (mem : u ∈ s.rowUnits c bank row) (mark : s.markOf u = .uncorr) (k : Nat)
    (uncorr : Bool) : (s.rowMoved c bank row k uncorr).markOf u = .poison :=
  Eq.trans (b := ((s.rowNoted c bank row uncorr).copyRow c bank row).markOf u) rfl
    (markOf_copyRow (by rwa [rowUnits_rowNoted]) (markOf_rowNoted mem mark uncorr))

theorem rowMoved_home (s : State) (c bank row k : Nat) (uncorr : Bool) :
    let v := (s.rowNoted c bank row uncorr).putRow { s.countRow c bank row with spare := some k }
    let w := s.rowMoved c bank row k uncorr
    w.mod = v.mod ∧ w.lp = v.lp := by
  obtain ⟨ms, copied⟩ := (s.rowNoted c bank row uncorr).copyRow_eq c bank row
  unfold rowMoved
  rw [copied]
  exact ⟨rfl, rfl⟩

theorem rowAddr_rowMoved {s : State} {c bank row a : Nat} (home : s.rowAddr c bank row = some a) (k : Nat) (uncorr : Bool) :
    (s.rowMoved c bank row k uncorr).rowAddr c bank row = some a := by
  obtain ⟨mod, lp⟩ := s.rowMoved_home c bank row k uncorr
  have same := rowAddr_congr mod (congrArg (·.pools) lp) (congrArg (·.moved) lp) (congrArg (·.rows) lp) c bank row
  exact same.trans (rowAddr_putRow (x := { s.countRow c bank row with spare := some k }) ((rowAddr_rowNoted ..).trans home))

theorem rows_rowMoved (s : State) (c bank row k : Nat) (uncorr : Bool) : (s.rowMoved c bank row k uncorr).lp.rows =
    s.lp.rows.filter (fun r => !(r.ch == c && r.bank == bank && r.row == row)) ++ [{ s.countRow c bank row with spare := some k }] := by
  obtain ⟨-, -, -, rows⟩ := s.rowNoted_home c bank row uncorr
  have moved := congrArg (·.rows) (s.rowMoved_home c bank row k uncorr).2
  exact moved.trans (congrArg (fun l : List FailedRow => l.filter _ ++ _) rows)

theorem retired_rowMoved (s : State) (c bank row k : Nat) (uncorr : Bool) :
    (s.rowMoved c bank row k uncorr).lp.retired = s.lp.retired := by
  obtain ⟨_, _, _, _, e⟩ := s.rowNoted_eq c bank row uncorr
  exact (congrArg (·.retired) (s.rowMoved_home c bank row k uncorr).2).trans (congrArg (·.lp.retired) e)

theorem rowAddr_recorded (s : State) (x : FailedRow) (detail c bank row : Nat) :
    ((s.ledgerRow x).log eSpare 7 c 0 detail).rowAddr c bank row = s.rowAddr c bank row := by
  have mod : ((s.ledgerRow x).log eSpare 7 c 0 detail).mod = s.mod := rfl
  have lp : ((s.ledgerRow x).log eSpare 7 c 0 detail).lp = s.lp := rfl
  exact rowAddr_congr mod (congrArg (·.pools) lp) (congrArg (·.moved) lp) (congrArg (·.rows) lp) c bank row

theorem remapRow_retires_of_full {s : State} {c bank row a : Nat} (full : s.freeSpare c = none) (home : s.rowAddr c bank row = some a)
    (uncorr : Bool) : a / 0x200000 * 0x200000 ∈ (s.remapRow c bank row uncorr).lp.retired := by
  rw [remapRow_of_full full]
  have put := rowAddr_putRow (x := s.countRow c bank row) ((rowAddr_rowNoted s c bank row uncorr).trans home)
  exact mem_retired_retirePage ((rowAddr_recorded ..).trans put)

theorem mem_ledgerQ_rowMoved (s : State) (c bank row k : Nat) (uncorr : Bool) :
    (0x05, leBytes 16 (Machine.place 0 7 c + Machine.place 8 4 bank + Machine.place 12 20 row +
      Machine.place 32 2 (s.countRow c bank row).count + Machine.place 64 20 k)) ∈ (s.rowMoved c bank row k uncorr).mss.ledgerQ :=
  List.mem_append_right _ (List.mem_singleton.2 rfl)

/-- What ROW_REMAP does when the channel has a free spare row. -/
theorem remapRow_spec_of_spare {s : State} {c k : Nat} (spare : s.freeSpare c = some k) (bank row : Nat) (uncorr : Bool) :
    let x := { s.countRow c bank row with spare := some k }
    let t := s.remapRow c bank row uncorr
    t.lp.rows = s.lp.rows.filter (fun r => !(r.ch == c && r.bank == bank && r.row == row)) ++ [x] ∧
      (0x05, leBytes 16 (Machine.place 0 7 c + Machine.place 8 4 bank + Machine.place 12 20 row + Machine.place 32 2 x.count +
        Machine.place 64 20 k)) ∈ t.mss.ledgerQ ∧
      (∀ u ∈ s.rowUnits c bank row, s.markOf u = .uncorr → t.markOf u = .poison) ∧
      (x.count < 3 → t.lp.retired = s.lp.retired) ∧
      (∀ a, x.count = 3 → s.rowAddr c bank row = some a → a / 0x200000 * 0x200000 ∈ t.lp.retired) := by
  dsimp only
  have rows := s.rows_rowMoved c bank row k uncorr
  have entry := s.mem_ledgerQ_rowMoved c bank row k uncorr
  have marks {u} (mem : u ∈ s.rowUnits c bank row) (mark : s.markOf u = .uncorr) := markOf_rowMoved mem mark k uncorr
  rw [remapRow_of_spare spare]
  by_cases third : 3 ≤ (s.countRow c bank row).count
  · rw [if_pos third]
    refine ⟨?_, ?_, fun u mem mark => ?_, fun few => absurd few (Nat.not_lt.2 third), fun a _ home => ?_⟩
    · obtain ⟨_, _, _, e⟩ := (s.rowMoved c bank row k uncorr).retirePage_eq c bank row
      rwa [e]
    · obtain ⟨_, _, _, e⟩ := (s.rowMoved c bank row k uncorr).retirePage_eq c bank row
      rw [e]
      exact List.mem_append_left _ entry
    · obtain ⟨_, _, _, e⟩ := (s.rowMoved c bank row k uncorr).retirePage_eq c bank row
      rw [e]
      exact marks mem mark
    · exact mem_retired_retirePage (rowAddr_rowMoved home k uncorr)
  · rw [if_neg third]
    exact ⟨rows, entry, fun _ => marks, fun _ => retired_rowMoved .., fun _ three => absurd three.ge third⟩

/-- What ROW_REMAP leaves, and that the row is due no longer. -/
theorem remapRow_leaves (s : State) (c bank row : Nat) (uncorr : Bool) :
    let t := s.remapRow c bank row uncorr
    t.mem = s.mem ∧ t.ctrs = s.ctrs ∧ t.jobs = s.jobs ∧ (c, bank, row) ∉ t.lp.failing := by
  have quiet := s.unremapped_remapRow c bank row uncorr
  obtain ⟨_, _, _, _, e⟩ := s.rowNoted_eq c bank row uncorr
  refine ⟨remapRow_mem .., (congrArg (·.ctrs) quiet).trans (congrArg (·.ctrs) e), (congrArg (·.jobs) quiet).trans (congrArg (·.jobs) e), ?_⟩
  have failing : (s.remapRow c bank row uncorr).lp.failing = s.lp.failing.filter (· != (c, bank, row)) :=
    (congrArg (·.lp.failing) quiet).trans (congrArg (·.lp.failing) e)
  rw [failing]
  simp

end State

section
variable {ch bank row : Nat} {x : Channel} {s : State} (chan : s.chan? ch = some x) (ok : x.failed = false) (free : x.held = false)
  (on : s.mod.mainOn = true) (bank_lt : bank < 16) (row_lt : row < 2 ^ 20) {uncorr : Bool}
  (old : uncorr = true → ∀ r ∈ x.badRows, r.2 + 100000000 < s.now)
include chan ok free on bank_lt row_lt old

theorem rowFails_of_alone : rowFails ch bank row uncorr s = s.remapRow ch bank row uncorr := by
  have alone : (uncorr && (s.remapRow ch bank row uncorr).rowsGone ch) = false := by
    cases uncorr with
    | false => rfl
    | true =>
      have quiet := s.unremapped_remapRow ch bank row true
      have chan' : (s.remapRow ch bank row true).chan? ch = some { x with badRows := [(row * 16 + bank, s.now)] } :=
        (State.chan?_of_unremapped quiet ch).trans (State.chan?_rowNoted chan (old rfl))
      have few := List.length_filter_le (fun r => decide ((s.remapRow ch bank row true).now ≤ r.2 + 100000000)) [(row * 16 + bank, s.now)]
      simp only [State.rowsGone, chan', Option.any_some, Bool.true_and, decide_eq_false_iff_not]
      exact Nat.not_le.2 (few.trans_lt (by simp))
  refine (onChannel_of_chan chan ok on _).trans ?_
  have inRange : (x.held || decide (16 ≤ bank) || decide (2 ^ 20 ≤ row)) = false := by simp [free]; omega
  simp only [inRange, alone]
  rfl

end

/-! ## CHANNEL_FAIL (R183-R185) -/

/-- The state when a channel's failure is noted: its own requests gone, its stripes moved, what they held lost. -/
def State.channelGone (s : State) (c : Nat) : State :=
  let s := { s with marks := s.marks.filter (fun m => !(s.hostsOf m.1).contains c) }
  let s := s.updChan c (fun x => { x with failed := true, held := false, hold := 0, refused := [], writes := 0 })
  { s with lp := { s.lp with
    moved := s.lp.moved ++ [c], lost := s.lp.lost ++ [c], failing := s.lp.failing.filter (fun r => r.1 != c) } }

/-- A channel's failure logged and put in the ledger. -/
def State.channelRecorded (s : State) (c : Nat) : State := (s.log eChannel 7 c 0 (c % 128)).ledger 0x08 (leBytes 8 (c % 128))

/-- The state after the failure of a channel is noted keeps the channel with its own requests gone. -/
theorem State.chan?_channelGone {s : State} {c : Nat} {x : Channel} (chan : s.chan? c = some x) :
    (s.channelGone c).chan? c = some { x with failed := true, held := false, hold := 0, refused := [], writes := 0 } :=
  Eq.trans (b := (s.updChan c (fun x => { x with failed := true, held := false, hold := 0, refused := [], writes := 0 })).chan? c) rfl
    (State.chan?_updChan chan _)

theorem State.failChannel_eq (s : State) (c : Nat) :
    s.failChannel c = if s.lp.moved.length < s.spareChannels then (s.channelGone c).issueHeld.channelRecorded c
      else (((s.channelGone c).issueHeld.channelRecorded c).log eSpare 7 c 0 (c % 128)).failModule := by
  have moved : (s.channelGone c).lp.moved.length = s.lp.moved.length + 1 := List.length_append
  have detail : Machine.place 0 7 c = c % 128 := Nat.shiftLeft_zero
  have spare : (s.channelGone c).spareChannels = s.spareChannels := rfl
  have fail : s.failChannel c = if decide ((s.channelGone c).lp.moved.length ≤ (s.channelGone c).spareChannels) then
      ((s.channelGone c).issueHeld.log eChannel 7 c 0 (Machine.place 0 7 c)).ledger 0x08 (leBytes 8 (Machine.place 0 7 c))
      else ((((s.channelGone c).issueHeld.log eChannel 7 c 0 (Machine.place 0 7 c)).ledger 0x08 (leBytes 8 (Machine.place 0 7 c))).log eSpare 7 c 0
        (Machine.place 0 7 c)).failModule := rfl
  rw [fail, moved, detail, spare]
  simp only [decide_eq_true_eq, Nat.add_one_le_iff]
  rfl

theorem channelFail_of_chan {ch : Nat} {x : Channel} {s : State} (chan : s.chan? ch = some x) (ok : x.failed = false) (on : s.mod.mainOn = true) :
    exec (.channelFail ch) s = .next (settle s (s.failChannel ch)) :=
  congrArg (done s) (onChannel_of_chan chan ok on _)

/-- Settles O20, by the state after each part of ROW_REMAP and CHANNEL_FAIL. -/
theorem rowsAndChannelsFail : Obligations.RowsAndChannelsFail := by
  unfold Obligations.RowsAndChannelsFail
  refine ⟨fun ch bank row k x s chan ok free on bank_lt row_lt uncorr old => ?_, fun ch x s chan ok on => ?_⟩
  · have remap : exec (.rowRemap ch bank row uncorr) s = .next (settle s (s.remapRow ch bank row uncorr)) :=
      congrArg (done s) (rowFails_of_alone chan ok free on bank_lt row_lt old)
    obtain ⟨mem, ctrs, jobs, due⟩ := s.remapRow_leaves ch bank row uncorr
    refine ⟨fun full => ?_, fun spare => ?_⟩
    · exact ⟨_, remap, mem, ctrs, jobs, due, fun a home => State.remapRow_retires_of_full full home uncorr⟩
    · obtain ⟨rows, entry, marks, few, third⟩ := State.remapRow_spec_of_spare spare bank row uncorr
      exact ⟨_, remap, mem, ctrs, jobs, rows, entry, marks, due, few, third⟩
  · have fail := channelFail_of_chan chan ok on
    rw [State.failChannel_eq] at fail
    refine ⟨s.channelGone ch, State.chan?_channelGone chan, rfl, rfl, rfl, rfl, rfl, rfl, fun room => ?_, fun spent => ?_⟩
    · have room : s.lp.moved.length < s.spareChannels := room
      rwa [if_pos room] at fail
    · have spent : s.spareChannels ≤ s.lp.moved.length := spent
      rwa [if_neg (Nat.not_lt.2 spent)] at fail

end Sys2Proof.Machine
end

section
/-! SUPPORT. The chunks of a stream (R191-R197, R205): what CHUNK_ISSUE does in each of its cases, and the state after CHUNK_COMMIT. -/
namespace Sys2Proof.Machine

/-! ## The stream of a flight -/

theorem streamAt_spec {s : State} {ref : QRef} {i : Nat} {j : Job} {q : Queue} {f : Flight} {x : Stream}
    (here : streamAt s ref i = some (j, q, f, x)) :
    s.runJob = some j ∧ j.queue? ref = some q ∧ q.flight[i]? = some f ∧ f.op = .stream x := by
  unfold streamAt at here
  split at here
  · cases here
  case h_2 k awake =>
    split at here
    · cases here
    case h_2 p queue =>
      split at here
      · cases here
      case h_2 g flight =>
        split at here
        · rename_i y op
          cases here
          split at awake
          · cases awake
          · exact ⟨awake, queue, flight, op⟩
        · cases here

/-! ## Reads of clean memory (R163, R177) -/

/-- Where no unit is marked, no unit has a mark that a clean one does not have. -/
theorem State.unitsThat_of_unmarked {s : State} {a n : Nat} (clean : s.markedUnits a n = []) {p : Mark → Bool} (plain : p .clean = false) :
    s.unitsThat p a n = [] := by
  have marked (m : Mark) (yes : p m = true) : m ≠ .clean := fun e => by rw [e, plain] at yes; cases yes
  unfold State.markedUnits State.unitsThat at clean
  unfold State.unitsThat
  split at clean
  · rename_i kept
    rw [if_pos kept]
    refine List.filter_eq_nil_iff.2 fun m mem has => List.filter_eq_nil_iff.1 clean m mem ?_
    obtain ⟨hit, yes⟩ := Bool.and_eq_true_iff.1 has
    exact Bool.and_eq_true_iff.2 ⟨hit, decide_eq_true (marked _ yes)⟩
  · rename_i lost
    rw [if_neg lost]
    exact List.filter_eq_nil_iff.2 fun m mem yes => List.filter_eq_nil_iff.1 clean m mem (decide_eq_true (marked _ yes))

section
variable {s : State} {a n : Nat} (clean : s.markedUnits a n = [])
include clean

theorem State.badUnits_of_unmarked : s.badUnits a n = [] := State.unitsThat_of_unmarked clean rfl

theorem State.correct_of_unmarked : s.correct a n = s := by
  unfold State.correct
  rw [State.unitsThat_of_unmarked clean rfl, List.foldl_nil]

theorem State.arrivals_of_unmarked (here : State.inHost a n = false) : s.arrivals a n = ([], s) := by
  unfold State.arrivals
  rw [State.badUnits_of_unmarked clean, here]
  rfl

end

/-- A fold each of whose steps puts one result behind the others collects the results in order. -/
theorem foldl_collects {α β γ : Type} {g : γ → α → γ} {pack : List β → γ} {h : α → β} {l : List α}
    (step : ∀ x ∈ l, ∀ bs, g (pack bs) x = pack (bs ++ [h x])) (bs : List β) : l.foldl g (pack bs) = pack (bs ++ l.map h) := by
  induction l generalizing bs with
  | nil => rw [List.foldl_nil, List.map_nil, List.append_nil]
  | cons x l ih =>
    rw [List.foldl_cons, step x List.mem_cons_self, ih (fun y mem => step y (List.mem_cons_of_mem x mem)), List.append_assoc,
      List.map_cons, List.singleton_append]

/-- A chunk of a clean source in module memory: the pieces' bytes for the tiles' slots, and nothing else happens. -/
theorem readChunkBytes_of_clean {s : State} {jid : Nat} {w : Stream} {k : Nat}
    (clean : ∀ t < dCount w.desc, s.markedUnits (dPiece w.desc w.ver t (k % dChunks w.desc)) (dBytes w.desc) = [] ∧
      State.inHost (dPiece w.desc w.ver t (k % dChunks w.desc)) (dBytes w.desc) = false) :
    readChunkBytes s jid w k = (s, (List.range (dCount w.desc)).map (fun t =>
      (dSlot w.desc t (chunkNo w k), s.read (dPiece w.desc w.ver t (k % dChunks w.desc)) (dBytes w.desc))), 0, 0) := by
  unfold readChunkBytes
  refine foldl_collects (pack := fun ws => (s, ws, 0, 0)) (fun t mem ws => ?_) []
  obtain ⟨unmarked, here⟩ := clean t (List.mem_range.1 mem)
  simp only [State.arrivals_of_unmarked unmarked here, State.correct_of_unmarked unmarked]
  rfl

/-! ## CHUNK_ISSUE (R194, R195, R205) -/

/-- The run's next chunk is not come to: the job stops, the run is down, has no chunk left or waits at a channel, an earlier run has reads
to issue, or the Mover has no room (R195, R206). -/
def issueKept (s : State) (j : Job) (q : Queue) (ref : QRef) (i : Nat) (x : Stream) : Bool :=
  stopsHard s j || x.down || decide (x.total ≤ x.issued) || x.held.isSome || !earlierIssued q i || moverStalls s ref.inst ||
    (dPeer x.desc && decide (512 < outstanding s ref.inst + dCount x.desc))

theorem issueKept_eq_false_iff {s : State} {j : Job} {q : Queue} {ref : QRef} {i : Nat} {x : Stream} :
    issueKept s j q ref i x = false ↔ stopsHard s j = false ∧ x.down = false ∧ x.issued < x.total ∧ x.held = none ∧
      earlierIssued q i = true ∧ moverStalls s ref.inst = false ∧ (dPeer x.desc = true → outstanding s ref.inst + dCount x.desc ≤ 512) := by
  simp [issueKept, and_assoc]

/-- The run whose next chunk's reads are issued: a wait that it noted is counted (R197). -/
def Stream.begun (x : Stream) : Stream := { x with waits := x.waits + boolNat x.waited, waited := false, held := none }

/-- A test of the next chunk's pieces, by their addresses. -/
theorem any_nextPieces (x : Stream) (p : Nat → Nat → Bool) : (nextPieces x).any (fun y => p y.1 y.2) =
    ((List.range (dCount x.desc)).map (fun t => dPiece x.desc x.ver t (x.issued % dChunks x.desc))).any (fun a => p a (dBytes x.desc)) := by
  rw [nextPieces, List.any_map, List.any_map]
  rfl

section
variable {s : State} {ref : QRef} {i : Nat} {j : Job} {q : Queue} {f : Flight} {x : Stream} (here : streamAt s ref i = some (j, q, f, x))
include here

theorem issueChunk_eq : issueChunk ref i s =
    if issueKept s j q ref i x then s
    else if !slotFree s x then s.putFlight j.id ref i { f with op := .stream { x with waited := true } }
    else if !dPeer x.desc && (nextPieces x).any (fun p => s.stalledRange p.1 p.2) then s
    else if !dPeer x.desc && (nextPieces x).any (fun p => s.inRetrain p.1 p.2) then
      let u := s.noteRequests ref.inst (nextPieces x)
      ({ u.2 with lp := { u.2.lp with ages := u.2.lp.ages + 1 } }).putFlight j.id ref i
        { f with op := .stream { x with held := some (u.2.lp.ages, u.1) } }
    else streamRead s j ref i f x := by
  simp only [issueChunk, here]
  rfl

theorem issueChunk_of_kept (kept : issueKept s j q ref i x = true) : issueChunk ref i s = s := by
  rw [issueChunk_eq here, if_pos kept]

section
variable (goes : issueKept s j q ref i x = false)
include goes

theorem issueChunk_of_slotTaken (taken : slotFree s x = false) :
    issueChunk ref i s = s.putFlight j.id ref i { f with op := .stream { x with waited := true } } := by
  rw [issueChunk_eq here, goes, taken]
  rfl

variable (free : slotFree s x = true)
include free

theorem issueChunk_of_stalled (own : dPeer x.desc = false) (stalled : (nextPieces x).any (fun p => s.stalledRange p.1 p.2) = true) :
    issueChunk ref i s = s := by
  rw [issueChunk_eq here, goes, free, own, stalled]
  rfl

theorem issueChunk_of_retrain (own : dPeer x.desc = false) (moves : (nextPieces x).any (fun p => s.stalledRange p.1 p.2) = false)
    (retrain : (nextPieces x).any (fun p => s.inRetrain p.1 p.2) = true) :
    let u := s.noteRequests ref.inst (nextPieces x)
    issueChunk ref i s = ({ u.2 with lp := { u.2.lp with ages := u.2.lp.ages + 1 } }).putFlight j.id ref i
      { f with op := .stream { x with held := some (u.2.lp.ages, u.1) } } := by
  rw [issueChunk_eq here, goes, free, own, moves, retrain]
  rfl

theorem issueChunk_of_unheld (own : dPeer x.desc = false) (moves : (nextPieces x).any (fun p => s.heldRange p.1 p.2) = false) :
    issueChunk ref i s = streamRead s j ref i f x := by
  have each (p) (mem : p ∈ nextPieces x) := Bool.or_eq_false_iff.1 (Bool.eq_false_iff.2 (List.any_eq_false.1 moves p mem))
  have stalled : (nextPieces x).any (fun p => s.stalledRange p.1 p.2) = false :=
    List.any_eq_false.2 fun p mem => Bool.eq_false_iff.1 (each p mem).1
  have retrain : (nextPieces x).any (fun p => s.inRetrain p.1 p.2) = false :=
    List.any_eq_false.2 fun p mem => Bool.eq_false_iff.1 (each p mem).2
  rw [issueChunk_eq here, goes, free, own, stalled, retrain]
  rfl

theorem issueChunk_of_peer (peer : dPeer x.desc = true) : issueChunk ref i s = streamRead s j ref i f x := by
  rw [issueChunk_eq here, goes, free, peer]
  rfl

end
end

section
variable {s : State} {j : Job} {ref : QRef} {i : Nat} {f : Flight} {x : Stream}

/-- R205: a peer that cannot be reached takes the run down. -/
theorem streamRead_of_unreachable (peer : dPeer x.desc = true) (gone : askChunk s j x.begun x.issued = none) :
    streamRead s j ref i f x = (s.putFlight j.id ref i { f with op := .stream { x.begun with down := true } }).noteWaits j.id ref := by
  unfold Stream.begun at gone ⊢
  simp only [streamRead, peer, gone, if_true]
  rfl

theorem streamRead_of_asked (peer : dPeer x.desc = true) {u : State} {rs : List (Nat × (Nat × Nat))}
    (asked : askChunk s j x.begun x.issued = some (u, rs)) :
    streamRead s j ref i f x = (u.putFlight j.id ref i { f with op := .stream { x.begun with
      issued := x.issued + 1, reads := x.reads ++ rs, chunks := x.chunks ++ [⟨x.issued, []⟩] } }).noteWaits j.id ref := by
  unfold Stream.begun at asked ⊢
  simp only [streamRead, peer, asked, if_true]

theorem streamRead_of_clean (own : dPeer x.desc = false)
    (clean : ∀ t < dCount x.desc, s.markedUnits (dPiece x.desc x.ver t (x.issued % dChunks x.desc)) (dBytes x.desc) = [] ∧
      State.inHost (dPiece x.desc x.ver t (x.issued % dChunks x.desc)) (dBytes x.desc) = false) :
    streamRead s j ref i f x = (s.putFlight j.id ref i { f with op := .stream { x.begun with
      issued := x.issued + 1, badCh := if x.bad = 0 then 0 else x.badCh
      chunks := x.chunks ++ [⟨x.issued, (List.range (dCount x.desc)).map (fun t =>
        (dSlot x.desc t (chunkNo x x.issued), s.read (dPiece x.desc x.ver t (x.issued % dChunks x.desc)) (dBytes x.desc)))⟩] } }).noteWaits
      j.id ref := by
  have own_memory : (nextPieces x).any (fun p => State.inHost p.1 p.2) = false := by
    rw [nextPieces, List.any_map]
    exact List.any_eq_false.2 fun t mem => Bool.eq_false_iff.1 (clean t (List.mem_range.1 mem)).2
  have reach : (s.hostDown && (nextPieces x.begun).any (fun p => State.inHost p.1 p.2)) = false :=
    (congrArg (s.hostDown && ·) own_memory).trans (Bool.and_false _)
  have bytes := readChunkBytes_of_clean (s := s) (jid := j.id) (w := x.begun) (k := x.issued) clean
  unfold Stream.begun at reach bytes ⊢
  simp only [streamRead, own, reach, bytes, Bool.false_eq_true, if_false]
  rfl

end

/-! ## CHUNK_COMMIT (R194, R197) -/

/-- The spans of a chunk's writes. -/
def Chunk.spans (c : Chunk) : List (Nat × Nat) := c.writes.map (fun w => (w.1, w.2.length))

/-- The state in which a chunk's bytes are in the tiles, before FILL_CTR advances. -/
def State.chunkStored (s : State) (jid : Nat) (f : Flight) (c : Chunk) : State :=
  ((s.tear jid engMover c.spans).writes c.writes).noteSpans jid f.item c.spans

theorem State.chunkStored_eq (s : State) (jid : Nat) (f : Flight) (c : Chunk) : ∃ ms js, s.chunkStored jid f c =
    { s with mem := s.mem.writes c.writes, marks := ms, jobs := js } ∧
      ∀ ref, (s.chunkStored jid f c).queueOf jid ref = (s.tear jid engMover c.spans).queueOf jid ref := by
  obtain ⟨ms, written⟩ := (s.tear jid engMover c.spans).writes_eq c.writes
  obtain ⟨js, noted, queues⟩ := ((s.tear jid engMover c.spans).writes c.writes).noteSpans_eq jid f.item c.spans
  refine ⟨ms, js, ?_, fun ref => ?_⟩
  · rw [State.chunkStored, noted, written]
    rfl
  · rw [State.chunkStored, noted, queues]
    exact State.queueOf_of_jobs (by rw [written])

/-- A write that tears what a queue's flights have read leaves their number. -/
theorem State.exists_queueOf_tear {s : State} {jid eng : Nat} {ws : List (Nat × Nat)} {ref : QRef} {q : Queue}
    (queue : s.queueOf jid ref = some q) :
    ∃ p, (s.tear jid eng ws).queueOf jid ref = some p ∧ p.flight.length = q.flight.length := by
  refine ⟨_, (State.queueOf_mapQueues s jid (fun q => by split <;> rfl)).trans (congrArg (Option.map _) queue), ?_⟩
  dsimp only
  split
  · exact List.length_map ..
  · rfl

theorem State.queueOf_putFlight (s : State) (jid : Nat) (ref : QRef) (i : Nat) (f : Flight) :
    (s.putFlight jid ref i f).queueOf jid ref = (s.queueOf jid ref).map (fun q => { q with flight := q.flight.set i f }) :=
  State.queueOf_updQueue (fun j q found => by simp only [found]) (fun j found => by simp only [found]) (fun _ => rfl)

/-- The run after its oldest chunk is committed: LATE counts a chunk that every tile had released (R197). -/
def Stream.committed (x : Stream) (s : State) (c : Chunk) (rest : List Chunk) : Stream :=
  { x with
    chunks := rest, signalled := x.signalled + 1
    late := x.late + boolNat (ctrGe (s.ctr (dFree x.desc)) (BitVec.ofNat 32 (dCount x.desc * chunkNo x c.g))) }

section
variable {s : State} {ref : QRef} {i : Nat} {j : Job} {q : Queue} {f : Flight} {x : Stream} (here : streamAt s ref i = some (j, q, f, x))
include here

theorem commitChunk_of_none (none : x.chunks = []) : commitChunk ref i s = s := by
  simp only [commitChunk, here, none]

variable {c : Chunk} {rest : List Chunk} (oldest : x.chunks = c :: rest)
include oldest

theorem commitChunk_of_waits (waits : (∃ r ∈ x.reads, r.2.1 = c.g) ∨ tilesHeld s x.desc = true) : commitChunk ref i s = s := by
  have stays : (x.reads.any (fun r => r.2.1 == c.g) || tilesHeld s x.desc) = true := by simpa using waits
  simp only [commitChunk, here, oldest, stays, if_true]

/-- A chunk whose reads have come: its bytes are stored, FILL_CTR advances, and the run counts it. -/
theorem commitChunk_of_come (come : ∀ r ∈ x.reads, r.2.1 ≠ c.g) (awake : tilesHeld s x.desc = false) :
    commitChunk ref i s = ((s.chunkStored j.id f c).addCtr (dFill x.desc) 1).putFlight j.id ref i
      { f with op := .stream (x.committed s c rest) } := by
  have goes : (x.reads.any (fun r => r.2.1 == c.g) || tilesHeld s x.desc) = false := by simpa [awake] using come
  obtain ⟨ms, js, stored, -⟩ := s.chunkStored_eq j.id f c
  have ctrs : (s.chunkStored j.id f c).ctr (dFree x.desc) = s.ctr (dFree x.desc) := by rw [stored]; rfl
  unfold Stream.committed
  rw [← ctrs]
  simp only [commitChunk, here, oldest, goes]
  rfl

theorem commitChunk_spec (come : ∀ r ∈ x.reads, r.2.1 ≠ c.g) (awake : tilesHeld s x.desc = false) : ∃ k p,
    let g : Flight := { f with op := .stream (x.committed s c rest) }
    (commitChunk ref i s).mem = s.mem.writes c.writes ∧ (commitChunk ref i s).ctrs = (s.addCtr (dFill x.desc) 1).ctrs ∧
      (commitChunk ref i s).runJob = some k ∧ k.queue? ref = some p ∧ p.flight[i]? = some g ∧
      (ref.eng = engMover → p.flight = q.flight.set i g) := by
  obtain ⟨run, queue, flight, -⟩ := streamAt_spec here
  have own := State.queueOf_of_runJob run queue
  obtain ⟨ms, js, stored, queues⟩ := s.chunkStored_eq j.id f c
  obtain ⟨p, torn, length⟩ := State.exists_queueOf_tear (eng := engMover) (ws := c.spans) own
  rw [commitChunk_of_come here oldest come awake]
  generalize ({ f with op := .stream (x.committed s c rest) } : Flight) = g
  have counted : ((s.chunkStored j.id f c).addCtr (dFill x.desc) 1).queueOf j.id ref = some p :=
    (State.queueOf_of_jobs rfl).trans ((queues ref).trans torn)
  have after : (((s.chunkStored j.id f c).addCtr (dFill x.desc) 1).putFlight j.id ref i g).queueOf j.id ref =
      some { p with flight := p.flight.set i g } := by
    rw [State.queueOf_putFlight, counted, Option.map_some]
  have running : (((s.chunkStored j.id f c).addCtr (dFill x.desc) 1).putFlight j.id ref i g).running = some j.id :=
    Eq.trans (b := s.running) (by rw [stored]; rfl) (State.running_of_runJob run)
  obtain ⟨k, job, found⟩ := State.exists_runJob running after
  refine ⟨k, _, ?_, ?_, job, found, ?_, fun mover => ?_⟩
  · rw [stored]
    rfl
  · rw [stored]
    rfl
  · obtain ⟨lt, -⟩ := List.getElem?_eq_some_iff.1 flight
    exact List.getElem?_set_self (length ▸ lt)
  · have same : p = q := Option.some.inj (torn.symm.trans ((State.queueOf_tear s j.id (.inl mover)).trans own))
    rw [same]

end

/-- Settles O52, by the cases of CHUNK_ISSUE and of CHUNK_COMMIT. -/
theorem chunksStreamInOrder : Obligations.ChunksStreamInOrder := by
  unfold Obligations.ChunksStreamInOrder
  intro ref s j q i f x here d pieces put goes free begun
  have issue {t : State} (e : issueChunk ref i s = t) : exec (.chunkIssue ref i) s = .next (settle s t) := congrArg (done s) e
  have keep (e : issueChunk ref i s = s) : exec (.chunkIssue ref i) s = .next s := (congrArg (done s) e).trans (done_self s)
  have commit : exec (.chunkCommit ref i) s = done s (commitChunk ref i s) := rfl
  have unkept : goes ↔ issueKept s j q ref i x = false := issueKept_eq_false_iff.symm
  have noPiece {p : Nat → Nat → Bool} (none : ∀ a ∈ pieces, p a (dBytes d) = false) : (nextPieces x).any (fun y => p y.1 y.2) = false := by
    rw [any_nextPieces]
    exact List.any_eq_false.2 fun a mem => Bool.eq_false_iff.1 (none a mem)
  have somePiece {p : Nat → Nat → Bool} (some : ∃ a ∈ pieces, p a (dBytes d) = true) : (nextPieces x).any (fun y => p y.1 y.2) = true := by
    rw [any_nextPieces]
    exact List.any_eq_true.2 some
  have begun_eq : goes → begun = x.begun := fun ⟨_, _, _, unheld, _⟩ => by
    rw [Stream.begun, ← unheld]
    rfl
  clear_value begun
  refine ⟨fun stops => ?_, fun go taken => ?_, fun go vacant own stalled => ?_, fun go vacant own moves retrain => ?_,
    fun go vacant own clean => ?_, fun go vacant peer => ⟨fun u rs asked => ?_, fun none => ?_⟩,
    fun c rest oldest => ⟨fun waits => ?_, fun come awake => ?_⟩, fun none => ?_⟩
  · exact keep (issueChunk_of_kept here (Bool.not_eq_false _ ▸ fun no => stops (unkept.2 no)))
  · exact issue (issueChunk_of_slotTaken here (unkept.1 go) (Bool.eq_false_iff.2 taken))
  · exact keep (issueChunk_of_stalled here (unkept.1 go) vacant own (somePiece stalled))
  · have pieces_eq : pieces.map (fun a => (a, dBytes d)) = nextPieces x := List.map_map ..
    intro u
    simp only [u, pieces_eq]
    exact issue (issueChunk_of_retrain here (unkept.1 go) vacant own (noPiece moves) (somePiece retrain))
  · have at_ (t) (lt : t < dCount d) := clean _ (List.mem_map_of_mem (List.mem_range.2 lt))
    have unheld := noPiece (p := s.heldRange) (fun a mem => (clean a mem).1)
    obtain rfl := begun_eq go
    exact issue ((issueChunk_of_unheld here (unkept.1 go) vacant own unheld).trans
      (streamRead_of_clean own (fun t lt => (at_ t lt).2)))
  · obtain rfl := begun_eq go
    exact issue ((issueChunk_of_peer here (unkept.1 go) vacant peer).trans (streamRead_of_asked peer asked))
  · obtain rfl := begun_eq go
    exact issue ((issueChunk_of_peer here (unkept.1 go) vacant peer).trans (streamRead_of_unreachable peer none))
  · rw [commit, commitChunk_of_waits here oldest waits, done_self]
  · obtain ⟨k, p, mem, ctrs, run, queue, flight, order⟩ := commitChunk_spec here oldest come awake
    exact ⟨_, k, p, _, commit, mem, ctrs, run, queue, flight, order, rfl⟩
  · rw [commit, commitChunk_of_none here none, done_self]

end Sys2Proof.Machine
end

section
/-! SUPPORT. Edges of a job, and the job that runs, under updates (R217-R221). -/
namespace Sys2Proof.Machine

/-! ## An edge of a job -/

theorem Job.edge?_slot {j : Job} {slot : Nat} {e : Edge} (edge : j.edge? slot = some e) : e.slot = slot := by
  simpa using List.find?_some edge

theorem Job.edge?_setEdge {j : Job} {e : Edge} (bound : (j.edge? e.slot).isSome = true) : (j.setEdge e).edge? e.slot = some e := by
  have slots : ((fun x : Edge => x.slot == e.slot) ∘ fun x => if x.slot == e.slot then e else x) = fun x => x.slot == e.slot := by
    funext x
    rw [Function.comp_apply]
    split
    · next own => rw [own, beq_self_eq_true]
    · rfl
  obtain ⟨x, edge⟩ := Option.isSome_iff_exists.1 bound
  have own : (x.slot == e.slot) = true := by rw [Job.edge?_slot edge, beq_self_eq_true]
  show (j.strand.edges.map _).find? _ = _
  rw [List.find?_map, slots, show j.strand.edges.find? _ = some x from edge, Option.map_some, if_pos own]

@[simp] theorem Edge.setDir_slot (e : Edge) (bwd : Bool) (x : EdgeDir) : (e.setDir bwd x).slot = e.slot := by cases bwd <;> rfl

@[simp] theorem Edge.dir_setDir (e : Edge) (bwd : Bool) (x : EdgeDir) : (e.setDir bwd x).dir bwd = x := by cases bwd <;> rfl

@[simp] theorem Edge.dir_setDir_other (e : Edge) (bwd : Bool) (x : EdgeDir) : (e.setDir bwd x).dir (!bwd) = e.dir (!bwd) := by
  cases bwd <;> rfl

/-! ## An edge of a job in the state -/

namespace State
section
variable {s : State} {j : Job} {jid slot : Nat} {e : Edge}

theorem job?_updEdge (job : s.job? jid = some j) (edge : j.edge? slot = some e) (f : Edge → Edge) :
    (s.updEdge jid slot f).job? jid = some (j.setEdge (f e)) := by
  rw [updEdge, job?_updJob s jid _ (fun k => by cases k.edge? slot <;> rfl), job, Option.map_some, edge]

theorem runJob_of_job? (run : s.running = some jid) (job : s.job? jid = some j) : s.runJob = some j := by
  rw [runJob, run, Option.bind_some, job]

theorem runJob_updJob (run : s.runJob = some j) {f : Job → Job} (id : ∀ k, (f k).id = k.id := by exact fun _ => rfl) :
    (s.updJob j.id f).runJob = some (f j) :=
  runJob_of_job? (s := s.updJob j.id f) (running_of_runJob run :) (by rw [job?_updJob s j.id f id, job?_of_runJob run, Option.map_some])

theorem runJob_updEdge (run : s.runJob = some j) (edge : j.edge? slot = some e) (f : Edge → Edge) :
    (s.updEdge j.id slot f).runJob = some (j.setEdge (f e)) :=
  runJob_of_job? (s := s.updEdge j.id slot f) (running_of_runJob run :) (job?_updEdge (job?_of_runJob run) edge f)

/-- An edge updated is found again, if the update leaves it its slot. -/
theorem exists_edge_updEdge (run : s.runJob = some j) (edge : j.edge? slot = some e) {f : Edge → Edge} (own : (f e).slot = e.slot) :
    ∃ k, (s.updEdge j.id slot f).runJob = some k ∧ k.edge? slot = some (f e) := by
  refine ⟨_, runJob_updEdge run edge f, ?_⟩
  have name : (f e).slot = slot := own.trans (Job.edge?_slot edge)
  exact name ▸ Job.edge?_setEdge (j := j) (e := f e) (by rw [name, edge]; rfl)

end
end State
end Sys2Proof.Machine
end

section
/-! SUPPORT. The ends of an edge agree, close, and lose one another (R239, R245, R246). -/
namespace Sys2Proof.Machine

theorem onStrand_of_free {s : State} (free : dieHeld s 1 = false) (f : State → State) : onStrand f s = f s := by simp [onStrand, free]

/-! ## Opening notices (R245) -/

section
variable {s : State} {m : OpenMsg}

/-- For a job that is not admitted a notice is held; an answer has no one to take it. -/
theorem openingArrives_of_noJob (no : s.job? m.job = none) :
    openingArrives m s = if m.answer = true then s else { s with notices := s.notices ++ [m] } := by
  simp only [openingArrives, no]

variable {j : Job} (job : s.job? m.job = some j)
include job

/-- For an edge that is not bound likewise, with its job. -/
theorem openingArrives_of_unbound (no : j.strand.edges.find? (fun x => gId x.desc == m.edgeId) = none) :
    openingArrives m s = if m.answer = true then s else s.updJob j.id (fun k =>
      { k with strand := { k.strand with notices := k.strand.notices ++ [m] } }) := by
  simp only [openingArrives, job, no]

variable {e : Edge} (bound : j.strand.edges.find? (fun x => gId x.desc == m.edgeId) = some e)
include bound

theorem openingArrives_of_notice (notice : m.answer = false) :
    openingArrives m s = s.send m.src (.openingNotice (openMsg s j e true)) := by
  simp only [openingArrives, job, bound, notice, Bool.not_false, if_true]

variable (answer : m.answer = true)
include answer

theorem openingArrives_of_stranger (stranger : j.alias? e.peerMod ≠ m.src) : openingArrives m s = s := by
  simp only [openingArrives, job, bound, answer, Bool.not_true, Bool.false_eq_true, if_false, bne_iff_ne, ne_eq, stranger, not_false_eq_true,
    if_true]

/-- The peer's answer is kept for PIPE_START; one that matches a DOWN edge opens it. -/
theorem openingArrives_of_peer (peer : j.alias? e.peerMod = m.src) : openingArrives m s =
    if e.st = .down then (if answerOk s j e m = true then s.updEdge j.id e.slot (openEdge j.strand.pipe) else s)
    else s.updEdge j.id e.slot (fun x => { x with answer := some m }) := by
  simp only [openingArrives, job, bound, answer, Bool.not_true, Bool.false_eq_true, if_false, bne_iff_ne, ne_eq, peer, not_true_eq_false]

end

/-! ## Closing (R246) -/

section
variable {s : State} {j : Job} {e : Edge} (job : s.job? j.id = some j) (only : s.keys j.id = [j.id]) (mem : e ∈ j.strand.edges)
include job only mem

omit job mem in
/-- With no end of an earlier job of that ID in progress, the edge closed is the admitted one's. -/
theorem closingKey_of_only (edgeId : Nat) : closingKey s j.id edgeId = j.id := by simp [closingKey, only]

/-- The peer's closing closes the edge here, and nothing else of the job. -/
theorem exists_job_edgeCloses : ∃ k, (edgeCloses (j.alias? e.peerMod) j.id (gId e.desc) s).job? j.id = some k ∧
    { e with st := .closed, acked := true } ∈ k.strand.edges ∧ k.queues = j.queues := by
  rw [edgeCloses, closingKey_of_only only]
  have sent (u : State) (d : Nat) (i : Instr) : (u.send d i).job? j.id = u.job? j.id :=
    State.send_keeps (v := fun t => t.job? j.id) (fun _ => rfl) u d i
  rw [sent, State.job?_updJob s j.id _ (by exact fun _ => rfl), job]
  exact ⟨_, rfl, List.mem_map.2 ⟨e, mem, if_pos (by simp)⟩, rfl⟩

/-- The peer's acknowledgement marks the closed edge, and nothing else of the job. -/
theorem exists_job_closingAcked (closed : e.st = .closed) :
    ∃ k, (closingAcked (j.alias? e.peerMod) j.id (gId e.desc) s).job? j.id = some k ∧
      { e with acked := true } ∈ k.strand.edges ∧ k.queues = j.queues := by
  rw [closingAcked, only, List.foldl_cons, List.foldl_nil, State.job?_updJob s j.id _ (by exact fun _ => rfl), job]
  exact ⟨_, rfl, List.mem_map.2 ⟨e, mem, if_pos (by simp [closed])⟩, rfl⟩

end

theorem edgeCloses_ctrs (src job edgeId : Nat) (s : State) : (edgeCloses src job edgeId s).ctrs = s.ctrs :=
  State.send_keeps (v := State.ctrs) (fun _ => rfl) ..

theorem mem_edgeCloses_out {s : State} {src : Nat} (near : s.near src = true) (job edgeId : Nat) :
    Out.msg src (.closingAck s.mod.id job edgeId) ∈ (edgeCloses src job edgeId s).out := State.mem_send_out (by exact near) _

theorem closingAcked_ctrs (src job edgeId : Nat) (s : State) : (closingAcked src job edgeId s).ctrs = s.ctrs := by
  unfold closingAcked
  exact foldl_keeps (v := State.ctrs) (fun _ _ => by rfl) (s.keys job) s

/-! ## A lost edge (R239) -/

/-- The edge with its peer unreachable: what it was sending is lost. -/
def Edge.lost (e : Edge) : Edge := { e with st := .down, fwd := { e.fwd with send := [] }, bwd := { e.bwd with send := [] } }

section
variable {s : State} {j : Job} {e : Edge} (job : s.job? j.id = some j) (edge : j.edge? e.slot = some e)
include job edge

theorem edgeLost_of_stays (stays : e.st ≠ .opened ∨ gRemote e.desc = false ∨ s.reachable j 0 (j.alias? e.peerMod) = true) :
    s.edgeLost j.id e.slot = s := by
  have kept : (decide (e.st ≠ .opened) || !gRemote e.desc || s.reachable j 0 (j.alias? e.peerMod)) = true := by simpa [or_assoc] using stays
  simp only [State.edgeLost, job, edge, Option.bind_some, Option.map_some, kept, if_true]

theorem edgeLost_of_gone (opened : e.st = .opened) (remote : gRemote e.desc = true)
    (lost : s.reachable j 0 (j.alias? e.peerMod) = false) : s.edgeLost j.id e.slot =
      (s.updEdge j.id e.slot Edge.lost).log eLinkDown 2 0 j.id e.slot := by
  simp only [State.edgeLost, job, edge, Option.bind_some, Option.map_some, opened, remote, lost, ne_eq, not_true_eq_false, decide_false,
    Bool.not_true, Bool.or_false, Bool.false_eq_true, if_false]
  rfl

end

/-- Settles O56: each exchange by the lemma of its case. -/
theorem edgeEndsAgreeAndClose : Obligations.EdgeEndsAgreeAndClose := by
  unfold Obligations.EdgeEndsAgreeAndClose
  intro s j e free
  have strand (f : State → State) : done s (onStrand f s) = .next (settle s (f s)) := by rw [onStrand_of_free free, done_eq]
  have next {f : State → State} {a : State} (e : f s = a) : done s (onStrand f s) = .next (settle s a) := by rw [strand, e]
  have left {f : State → State} (e : f s = s) : done s (onStrand f s) = .next s := by rw [next e, settle_self]
  refine ⟨fun m no => ⟨?_, ?_⟩, fun m job => ⟨fun no => ⟨?_, ?_⟩, fun bound => ⟨?_, ?_, ?_, ?_⟩⟩, ?closing, ?lost⟩
  · exact fun answer => left ((openingArrives_of_noJob no).trans (if_pos answer))
  · exact fun notice => next ((openingArrives_of_noJob no).trans (if_neg (by simp [notice])))
  · exact fun answer => left ((openingArrives_of_unbound job no).trans (if_pos answer))
  · exact fun notice => next ((openingArrives_of_unbound job no).trans (if_neg (by simp [notice])))
  · exact fun notice => next (openingArrives_of_notice job bound notice)
  · exact fun answer stranger => left (openingArrives_of_stranger job bound answer stranger)
  · exact fun answer peer up => next ((openingArrives_of_peer job bound answer peer).trans (if_neg up))
  · exact fun answer peer down fits => next ((openingArrives_of_peer job bound answer peer).trans ((if_pos down).trans (if_pos fits)))
  case closing =>
    rintro src job only mem rfl
    constructor
    · obtain ⟨k, job', edge, queues⟩ := exists_job_edgeCloses job only mem
      exact ⟨_, k, strand _, edgeCloses_mem .., edgeCloses_ctrs .., job', edge, queues,
        fun near => List.mem_append_left _ (mem_edgeCloses_out near ..)⟩
    · intro closed
      obtain ⟨k, job', edge, queues⟩ := exists_job_closingAcked job only mem closed
      exact ⟨_, k, strand _, closingAcked_mem .., closingAcked_ctrs .., job', edge, queues⟩
  case lost =>
    intro run edge
    have job := State.job?_of_runJob run
    have event : exec (.edgeDown e.slot) s = done s (s.edgeLost j.id e.slot) := by
      show done s (match if dieHeld s 1 = true then none else s.running with | some i => s.edgeLost i e.slot | none => s) = _
      rw [free, State.running_of_runJob run]
      rfl
    refine ⟨fun opened remote gone => ?_, fun stays => ?_⟩
    · obtain ⟨k, run', edge'⟩ := State.exists_edge_updEdge run edge (f := Edge.lost) rfl
      exact ⟨_, k, _, event.trans (congrArg (done s) (edgeLost_of_gone job edge opened remote gone)), rfl, rfl, run', edge', rfl, rfl⟩
    · rw [event, edgeLost_of_stays job edge stays, done_self]

end Sys2Proof.Machine
end

section
/-! SUPPORT. Entries at the receiving end of an edge (R218, R220, R238): units written, notices recorded, micro-batches poisoned. -/
namespace Sys2Proof.Machine

/-! ## Units land -/

theorem State.writes_ctrs (s : State) (ws : List (Nat × Bytes)) : (s.writes ws).ctrs = s.ctrs := by
  obtain ⟨ms, e⟩ := s.writes_eq ws
  rw [e]

/-- Values written each at several places, one write behind the other. -/
theorem State.foldl_write_eq_writes {α : Type} (places : α → List Nat) (value : α → Bytes) (l : List α) (s : State) :
    l.foldl (fun s p => (places p).foldl (fun s a => s.write a (value p)) s) s =
      s.writes (l.flatMap (fun p => (places p).map (fun a => (a, value p)))) := by
  simp only [State.writes, List.foldl_flatMap, List.foldl_map]

/-- What units that land write: each unit's bytes at each of its places. -/
def landWrites (v : DirView) (r : Stage) (n : Nat) (us : List Nat) (bytes : Bytes) : List (Nat × Bytes) :=
  ((List.range us.length).zip us).flatMap (fun p => (unitPlaces v r n p.2).map (fun a => (a, (bytes.drop (64 * p.1)).take 64)))

section
variable {s : State} {j : Job} {e : Edge} {r : Stage} {slot : Nat} {bwd : Bool} (job : s.job? j.id = some j) (edge : j.edge? slot = some e)
  (rcv : j.stageNamed (e.view bwd).rcv = some r) (n : Nat) (us : List Nat) (bytes : Bytes)
include job edge rcv

theorem landUnits_eq : ∃ f, landUnits s j.id slot bwd n us bytes = (s.writes (landWrites (e.view bwd) r n us bytes)).updEdge j.id slot f := by
  simp only [landUnits, job, edge, rcv, Option.bind_some, Option.map_some, State.foldl_write_eq_writes]
  exact ⟨_, rfl⟩

theorem landUnits_mem_eq : (landUnits s j.id slot bwd n us bytes).mem = s.mem.writes (landWrites (e.view bwd) r n us bytes) := by
  obtain ⟨f, eq⟩ := landUnits_eq job edge rcv n us bytes
  rw [eq]
  exact State.writes_mem s _

theorem landUnits_ctrs : (landUnits s j.id slot bwd n us bytes).ctrs = s.ctrs := by
  obtain ⟨f, eq⟩ := landUnits_eq job edge rcv n us bytes
  rw [eq]
  exact State.writes_ctrs s _

end

/-! ## A micro-batch poisoned leaves credits and entries received -/

/-- Slot, credits and entries received of an edge. -/
def Edge.receipts (e : Edge) : Nat × (Nat × List RecvEntry) × (Nat × List RecvEntry) :=
  (e.slot, (e.fwd.credits, e.fwd.recv), (e.bwd.credits, e.bwd.recv))

def Job.receipts (j : Job) : List (Nat × (Nat × List RecvEntry) × (Nat × List RecvEntry)) := j.strand.edges.map Edge.receipts

theorem Edge.dir_of_receipts {e e' : Edge} (same : e'.receipts = e.receipts) (bwd : Bool) :
    (e'.dir bwd).credits = (e.dir bwd).credits ∧ (e'.dir bwd).recv = (e.dir bwd).recv := by
  simp only [Edge.receipts, Prod.mk.injEq] at same
  obtain ⟨-, fwd, back⟩ := same
  cases bwd
  · exact fwd
  · exact back

theorem Job.exists_edge_of_receipts {j k : Job} {slot : Nat} {e : Edge} (same : k.receipts = j.receipts) (edge : j.edge? slot = some e) :
    ∃ e', k.edge? slot = some e' ∧ e'.receipts = e.receipts := by
  have found (l : Job) : (l.edge? slot).map Edge.receipts = l.receipts.find? (fun x => x.1 == slot) :=
    (List.find?_map (f := Edge.receipts) (p := fun x : Nat × (Nat × List RecvEntry) × (Nat × List RecvEntry) => x.1 == slot)).symm
  have again := found k
  rw [same, ← found, edge] at again
  exact Option.map_eq_some_iff.1 again

theorem State.poisonMb_receipts (s : State) (jid stage n : Nat) : (s.poisonMb jid stage n).jobsAs Job.receipts = s.jobsAs Job.receipts := by
  unfold State.poisonMb
  split
  · rfl
  · split
    · rfl
    · refine State.jobsAs_ite rfl ?_
      refine State.jobsAs_updJob (s := s) (part := fun j => ?_)
      simp only [Job.receipts, List.map_map]
      refine List.map_congr_left fun e _ => ?_
      simp only [Function.comp_apply, Edge.receipts]
      split <;> split <;> rfl

theorem entryPoison_receipts (s : State) (jid slot : Nat) (bwd : Bool) (n : Nat) :
    (entryPoison s jid slot bwd n).jobsAs Job.receipts = s.jobsAs Job.receipts := by
  unfold entryPoison
  split
  · rfl
  · exact State.jobsAs_ite (State.poisonMb_receipts ..) rfl

theorem entryPoison_ctrs (s : State) (jid slot : Nat) (bwd : Bool) (n : Nat) : (entryPoison s jid slot bwd n).ctrs = s.ctrs := by
  unfold entryPoison
  split
  · rfl
  · dsimp only
    split
    · obtain ⟨_, _, eq, -⟩ := State.poisonMb_eq s jid _ n
      rw [eq]
    · rfl

/-! ## A notice recorded -/

/-- The entries received once the notice of entry `n` has come: its own last, the others as before. -/
theorem find?_noticed (old : List RecvEntry) {x : RecvEntry} {n : Nat} (own : x.n = n) :
    (old.filter (fun r => r.n != n) ++ [x]).find? (fun y => y.n == n) = some x := by
  have before : (old.filter (fun r => r.n != n)).find? (fun y => y.n == n) = none := by simp
  rw [List.find?_append, before, Option.none_or, List.find?_cons_of_pos (by simp [own])]

/-- The entry of a notice, with the units that had come before it. -/
def EdgeDir.noticed (d : EdgeDir) (n version bytes : Nat) (poison : Bool) : RecvEntry :=
  { (d.recv.find? (fun r => r.n == n)).getD { n := n } with noticed := true, poison := poison, version := version, bytes := bytes }

theorem EdgeDir.noticed_n (d : EdgeDir) (n version bytes : Nat) (poison : Bool) : (d.noticed n version bytes poison).n = n := by
  unfold EdgeDir.noticed
  cases found : d.recv.find? (fun r => r.n == n) with
  | none => rfl
  | some x => simpa using List.find?_some found

theorem noticeAt_eq (s : State) (jid slot : Nat) (bwd : Bool) (n version bytes : Nat) (poison : Bool) :
    noticeAt s jid slot bwd n version bytes poison = s.updEdge jid slot (fun e => e.setDir bwd { e.dir bwd with
      recv := (e.dir bwd).recv.filter (fun r => r.n != n) ++ [(e.dir bwd).noticed n version bytes poison] }) := rfl

theorem exists_edge_noticeAt {s : State} {j : Job} {slot : Nat} {e : Edge} (run : s.runJob = some j) (edge : j.edge? slot = some e)
    (bwd : Bool) (n version bytes : Nat) (poison : Bool) :
    ∃ k e', (noticeAt s j.id slot bwd n version bytes poison).runJob = some k ∧ k.edge? slot = some e' ∧
      (e'.dir bwd).recv.find? (fun y => y.n == n) = some ((e.dir bwd).noticed n version bytes poison) ∧ e'.dir (!bwd) = e.dir (!bwd) := by
  rw [noticeAt_eq]
  obtain ⟨k, run', edge'⟩ := State.exists_edge_updEdge run edge (f := fun e => e.setDir bwd { e.dir bwd with
    recv := (e.dir bwd).recv.filter (fun r => r.n != n) ++ [(e.dir bwd).noticed n version bytes poison] }) (Edge.setDir_slot ..)
  refine ⟨k, _, run', edge', ?_, Edge.dir_setDir_other ..⟩
  rw [Edge.dir_setDir]
  exact find?_noticed _ (EdgeDir.noticed_n ..)

end Sys2Proof.Machine
end

section
/-! SUPPORT. Stage flits taken off a port (R220, R221, R248, R289, R309): whose they are, and what becomes of each kind. -/
namespace Sys2Proof.Machine

/-! ## The oldest flit, of one kind -/

/-- Where the oldest flit fails a test, none is taken. -/
theorem State.takeRx_of_other {s u : State} {n vc : Nat} {ok ok' : SpokeFlit → Bool} {f : SpokeFlit} (taken : s.takeRx n vc ok = some (f, u))
    (other : ok' f = false) : s.takeRx n vc ok' = none := by
  obtain ⟨i, oldest, at_, -, -⟩ := State.takeRx_eq_some taken
  unfold State.takeRx
  cases dieHeld s (portDie n)
  · simp [oldest, at_, other]
  · rfl

section
variable {s u : State} {f : SpokeFlit} {port vc kind : Nat} (taken : s.takeRx port vc (fun f => fKind f == kind) = some (f, u))
include taken

theorem fKind_of_taken : fKind f = kind := by
  obtain ⟨i, -, -, good, -⟩ := State.takeRx_eq_some taken
  simpa using good

/-- The flit's slot apart, the state is as it was. -/
theorem eq_withPorts_of_taken : ∃ ps, u = { s with ports := ps } := by
  obtain ⟨i, -, -, -, rfl⟩ := State.takeRx_eq_some taken
  exact ⟨_, rfl⟩

theorem dropKind3_of_taken (other : kind ≠ 3) : dropKind3 port vc s = s := by
  have no : s.takeRx port vc (fun f => fKind f == 3) = none := State.takeRx_of_other taken (by simpa [fKind_of_taken taken] using other)
  rw [dropKind3, no]

theorem flitEdge_of_taken : flitEdge s f = flitEdge u f := by
  obtain ⟨ps, rfl⟩ := eq_withPorts_of_taken taken
  rfl

/-! ## Whose it is -/

variable (free : dieHeld s 1 = false)
include free

theorem onStage_of_noEdge (k : SpokeFlit → Job → Edge → State → State) (no : flitEdge u f = none) :
    onStage port vc kind s k = strayFlit u f := by
  simp only [onStage, free, taken, flitEdge_of_taken taken, no, Bool.false_eq_true, if_false]

section
variable {j : Job} {e : Edge} (edge : flitEdge u f = some (j, e)) (k : SpokeFlit → Job → Edge → State → State)
include edge

theorem onStage_of_edge : onStage port vc kind s k =
    if (decide (e.st = .bound) && ofPeer f j e) = true then s
    else if (!(decide (e.st = .opened) && ofPeer f j e)) = true then strayFlit u f
    else if (kind == 0 && dataHeld s f j e (vc == 2)) = true then s
    else k f j e u := by
  simp only [onStage, free, taken, flitEdge_of_taken taken, edge, Bool.false_eq_true, if_false]

theorem onStage_of_opened (opened : e.st = .opened) (peer : ofPeer f j e = true)
    (goes : kind = 0 → dataHeld s f j e (vc == 2) = false) : onStage port vc kind s k = k f j e u := by
  have waits : (kind == 0 && dataHeld s f j e (vc == 2)) = false := by
    by_cases data : kind = 0
    · simp [goes data]
    · simp [data]
  rw [onStage_of_edge taken free edge]
  simp [opened, peer, waits]

theorem onStage_of_bound (bound : e.st = .bound) (peer : ofPeer f j e = true) : onStage port vc kind s k = s := by
  rw [onStage_of_edge taken free edge]
  simp [bound, peer]

theorem onStage_of_stray (stray : e.st = .closed ∨ e.st = .down ∨ ofPeer f j e = false) : onStage port vc kind s k = strayFlit u f := by
  rw [onStage_of_edge taken free edge]
  rcases stray with closed | down | stranger
  · simp [closed]
  · simp [down]
  · simp [stranger]

end
end

theorem strayFlit_of_discarded {u : State} {f : SpokeFlit} {j : Job} {e : Edge} (edge : flitEdge u f = some (j, e))
    (stray : e.st = .closed ∨ ofPeer f j e = false) : strayFlit u f = u.log eEdge 2 0 j.id e.slot := by
  have lost : (decide (e.st = .down) && ofPeer f j e) = false := by
    rcases stray with closed | stranger
    · simp [closed]
    · simp [stranger]
  simp only [strayFlit, edge, lost, Bool.false_eq_true, if_false]
  rfl

theorem strayFlit_of_down {u : State} {f : SpokeFlit} {j : Job} {e : Edge} (edge : flitEdge u f = some (j, e)) (down : e.st = .down)
    (peer : ofPeer f j e = true) : strayFlit u f = u := by
  simp [strayFlit, edge, down, peer]

theorem ofPeer_eq_true {f : SpokeFlit} {j : Job} {e : Edge} (remote : gRemote e.desc = true) (src : fSrc f = j.alias? e.peerMod) :
    ofPeer f j e = true := by simp [ofPeer, remote, src]

theorem ofPeer_eq_false {f : SpokeFlit} {j : Job} {e : Edge} (no : gRemote e.desc = false ∨ fSrc f ≠ j.alias? e.peerMod) :
    ofPeer f j e = false := by
  rcases no with local_ | stranger
  · simp [ofPeer, local_]
  · simp [ofPeer, stranger]

/-! ## The three rows -/

/-- The row that takes a kind of stage flit, and what it does with one on an open edge (R289). -/
def stageRow (port vc kind : Nat) : Option (Instr × (SpokeFlit → Job → Edge → State → State)) :=
  match kind with
  | 0 => some (.dataFlit port vc, takeData (vc == 2))
  | 1 => some (.notice port vc, takeNotice (vc == 2))
  | 2 => some (.credit port vc, takeCredit (vc == 2))
  | _ => none

theorem exec_stageRow {s u : State} {f : SpokeFlit} {port vc kind : Nat} (stage : vc = 1 ∨ vc = 2)
    (taken : s.takeRx port vc (fun f => fKind f == kind) = some (f, u)) {c : Instr} {act : SpokeFlit → Job → Edge → State → State}
    (row : stageRow port vc kind = some (c, act)) : exec c s = done s (onStage port vc kind s act) := by
  have kept (other : kind ≠ 3) : (if vc = 1 ∨ vc = 2 then onStage port vc kind (dropKind3 port vc s) act else s) = onStage port vc kind s act := by
    rw [if_pos stage, dropKind3_of_taken taken other]
  unfold stageRow at row
  split at row <;> cases row
  · exact congrArg (done s) (kept (by omega))
  · exact congrArg (done s) (kept (by omega))
  · exact congrArg (done s) (kept (by omega))

section
variable {u : State} {j : Job} {e : Edge} {bwd : Bool} (run : u.runJob = some j) (edge : j.edge? e.slot = some e)
include run edge

/-- DATA writes its units at their places and changes no counter. -/
theorem takeData_mem_ctrs (f : SpokeFlit) {r : Stage} (here : (e.view bwd).rcvHere = true) (rcv : j.stageNamed (e.view bwd).rcv = some r) :
    (takeData bwd f j e u).ctrs = u.ctrs ∧ (takeData bwd f j e u).mem = u.mem.writes (landWrites (e.view bwd) r
      (mbOfLo j.strand.pipe (e.dir bwd).released (bits (fCls f) 18 5)) (unitGroup (e.view bwd) (bits (fCls f) 23 24)) (leBytes 256 (fPay f))) := by
  have job := State.job?_of_runJob run
  simp only [takeData, here, Bool.not_true, Bool.false_eq_true, if_false, entryPoison_ctrs, entryPoison_mem]
  exact ⟨landUnits_ctrs job edge rcv .., landUnits_mem_eq job edge rcv ..⟩

/-- NOTICE records the entry, and leaves the other direction's credits and entries. -/
theorem exists_edge_takeNotice (f : SpokeFlit) (here : (e.view bwd).rcvHere = true) :
    ∃ l e', (takeNotice bwd f j e u).runJob = some l ∧ l.edge? e.slot = some e' ∧
      (e'.dir bwd).recv.find? (fun y => y.n == bits (fCls f) 32 32) =
        some ((e.dir bwd).noticed (bits (fCls f) 32 32) (bits (fPay f) 0 16) (bits (fPay f) 64 64) (bitAt (fCls f) 18)) ∧
      (e'.dir (!bwd)).credits = (e.dir (!bwd)).credits ∧ (e'.dir (!bwd)).recv = (e.dir (!bwd)).recv := by
  obtain ⟨k, e₁, run₁, edge₁, found, other⟩ := exists_edge_noticeAt run edge bwd (bits (fCls f) 32 32)
    (bits (fPay f) 0 16) (bits (fPay f) 64 64) (bitAt (fCls f) 18)
  obtain ⟨l, run₂, same⟩ := State.exists_runJob_of_jobsAs (entryPoison_receipts _ j.id e.slot bwd (bits (fCls f) 32 32)) run₁
  obtain ⟨e₂, edge₂, receipts⟩ := Job.exists_edge_of_receipts same edge₁
  obtain ⟨-, recv⟩ := Edge.dir_of_receipts receipts bwd
  obtain ⟨credits, recv'⟩ := Edge.dir_of_receipts receipts (!bwd)
  refine ⟨l, e₂, ?_, edge₂, by rw [recv, found], by rw [credits, other], by rw [recv', other]⟩
  simpa only [takeNotice, here, Bool.not_true, Bool.false_eq_true, if_false] using run₂

/-- CREDIT gives the sending end one credit more, up to the depth. -/
theorem exists_edge_takeCredit (f : SpokeFlit) (here : (e.view bwd).sndHere = true) :
    ∃ l, (takeCredit bwd f j e u).runJob = some l ∧ l.edge? e.slot =
      some (e.setDir bwd { e.dir bwd with credits := min ((e.dir bwd).credits + 1) (e.view bwd).depth }) := by
  rw [takeCredit, if_pos here]
  exact State.exists_edge_updEdge run edge (f := fun e =>
    let x := e.dir bwd
    e.setDir bwd { x with credits := min (x.credits + 1) (e.view bwd).depth }) (Edge.setDir_slot ..)

end

/-- Settles O55: the row takes the flit by `exec_stageRow`; an open edge of the peer's runs the row's act, any other flit is a stray one. -/
theorem stageFlitsLand : Obligations.StageFlitsLand := by
  unfold Obligations.StageFlitsLand
  intro port vc k s u f stage taken free bwd row c named
  obtain ⟨act, row'⟩ : ∃ act, stageRow port vc k = some (c, act) := by
    simp only [row] at named
    split at named
    next data => subst data; cases named; exact ⟨_, rfl⟩
    split at named
    next note => subst note; cases named; exact ⟨_, rfl⟩
    split at named
    next credit => subst credit; cases named; exact ⟨_, rfl⟩
    cases named
  have event {t : State} (e : onStage port vc k s act = t) : exec c s = .next (settle s t) := by
    rw [exec_stageRow stage taken row', e, done_eq]
  refine ⟨?opened, ?edge, fun no other => ?_, fun j no other => ?_⟩
  case opened =>
    intro j e run edge opened remote src bound
    have peer := ofPeer_eq_true remote src
    have acts (goes : k = 0 → dataHeld s f j e (vc == 2) = false) : exec c s = .next (settle s (act f j e u)) :=
      event (onStage_of_opened taken free edge act opened peer goes)
    obtain ⟨ps, ports⟩ := eq_withPorts_of_taken taken
    refine ⟨fun r data awake here rcv => ?_, fun note here => ?_, fun credit here => ?_⟩
    · subst data
      cases row'
      obtain ⟨ctrs, mem⟩ := takeData_mem_ctrs run bound f here rcv
      refine ⟨_, acts (fun _ => by simp [dataHeld, awake]), ctrs.trans (by rw [ports]), mem.trans (by rw [ports]; rfl)⟩
    · subst note
      cases row'
      obtain ⟨l, e', run', edge', found, credits, recv⟩ := exists_edge_takeNotice run bound f here
      exact ⟨_, l, e', _, acts (by omega), (takeNotice_mem ..).trans (by rw [ports]), run', edge', found, rfl, rfl, rfl, rfl, credits, recv⟩
    · subst credit
      cases row'
      obtain ⟨l, run', edge'⟩ := exists_edge_takeCredit run bound f here
      exact ⟨_, l, _, acts (by omega), (takeCredit_mem ..).trans (by rw [ports]), run', edge', rfl⟩
  case edge =>
    refine fun j e edge => ⟨fun out => ?_, fun remote src => ⟨fun bound => ?_, fun down => ?_⟩⟩
    · have stray : e.st = .closed ∨ ofPeer f j e = false := out.imp_right ofPeer_eq_false
      exact event ((onStage_of_stray taken free edge act (stray.imp_right .inr)).trans (strayFlit_of_discarded edge stray))
    · rw [event (onStage_of_bound taken free edge act bound (ofPeer_eq_true remote src)), settle_self]
    · exact event ((onStage_of_stray taken free edge act (.inr (.inl down))).trans
        (strayFlit_of_down edge down (ofPeer_eq_true remote src)))
  · obtain ⟨ps, rfl⟩ := eq_withPorts_of_taken taken
    exact event ((onStage_of_noEdge taken free act no).trans (by simp only [strayFlit, no, other]; rfl))
  · exact event ((onStage_of_noEdge taken free act no).trans (by simp only [strayFlit, no, other]; rfl))

end Sys2Proof.Machine
end

section
/-! SUPPORT. Entries forwarded (R218-R220): units to the receiving tiles here or as a flit to the peer, then the closing notice. -/
namespace Sys2Proof.Machine

/-! ## Units in a row of bytes -/

/-- Chunk `i` of chunks of 64 bytes in a row. -/
theorem take_drop_flatMap {α : Type} {g : α → Bytes} (len : ∀ x, (g x).length = 64) {l : List α} {i : Nat} {x : α} (at_ : l[i]? = some x) :
    ((l.flatMap g).drop (64 * i)).take 64 = g x := by
  induction l generalizing i with
  | nil => simp at at_
  | cons y l ih =>
    rw [List.flatMap_cons]
    cases i with
    | zero =>
      obtain rfl : y = x := by simpa using at_
      rw [Nat.mul_zero, List.drop_zero, List.take_append_of_le_length (len y).ge, List.take_of_length_le (len y).le]
    | succ i =>
      rw [show 64 * (i + 1) = (g y).length + 64 * i by rw [len]; omega, List.drop_length_add_append]
      exact ih (by simpa using at_)

/-- What units that land write, when their bytes are those of the units in order. -/
theorem landWrites_of_units (v : DirView) (r : Stage) (n : Nat) (us : List Nat) {g : Nat → Bytes} (len : ∀ x, (g x).length = 64) :
    landWrites v r n us (us.flatMap g) = us.flatMap (fun w => (unitPlaces v r n w).map (fun a => (a, g w))) := by
  have own : ∀ p ∈ (List.range us.length).zip us, us[p.1]? = some p.2 := by
    intro p mem
    obtain ⟨i, at_⟩ := List.getElem?_of_mem mem
    obtain ⟨first, second⟩ := List.getElem?_zip_eq_some.1 at_
    rw [List.getElem?_range (List.getElem?_eq_some_iff.1 second).1, Option.some_inj] at first
    rwa [← first]
  have units : us = ((List.range us.length).zip us).map Prod.snd := by rw [List.map_snd_zip (by simp)]
  rw [landWrites]
  conv_rhs => rw [units, List.flatMap_map]
  refine List.flatMap_congr fun p mem => ?_
  rw [take_drop_flatMap len (own p mem)]

/-! ## UNIT_FORWARD (R219) -/

/-- The units of an entry handed on. -/
def State.markSent (s : State) (jid slot : Nat) (bwd : Bool) (n : Nat) (us : List Nat) : State :=
  s.updEdge jid slot (fun e => e.setDir bwd { e.dir bwd with
    send := (e.dir bwd).send.map (fun y => if y.n == n then { y with sent := y.sent ++ us } else y) })

theorem windowHeld_of_noneHeld {s : State} (awake : anyHeld s = false) (a n : Nat) : s.windowHeld a n = false := by simp [State.windowHeld, awake]

/-- With no die in a droop hold none of the units lies behind one. -/
theorem unitsHeld_of_noneHeld {s : State} (awake : anyHeld s = false) (j : Job) (v : DirView) (t : Stage) (n : Nat) (us : List Nat) :
    us.any (fun u => s.windowHeld (sendAddr v t n u) 64 ||
      (v.rcvHere && (j.stageNamed v.rcv).any (fun t => (unitPlaces v t n u).any (fun a => s.windowHeld a 64)))) = false := by
  cases j.stageNamed v.rcv with
  | none => simp [windowHeld_of_noneHeld awake]
  | some r => simp [windowHeld_of_noneHeld awake]

/-- The DATA flit of units of an entry, sent to the edge's peer (R220, R289). -/
def sendUnitFlit (s : State) (j : Job) (e : Edge) (bwd : Bool) (t : Stage) (x : SendEntry) (us : List Nat) : Option State :=
  s.sendJob j 0 (j.alias? e.peerMod) (if bwd then 2 else 1)
    (place 2 16 (gId e.desc) + place 18 5 x.n + place 23 24 (us.headD 0) + place 47 16 x.version)
    (ofLe (us.flatMap (fun u => s.read (sendAddr (e.view bwd) t x.n u) 64)))

/-- The closing notice of an entry, sent to the edge's peer (R220, R289). -/
def sendClosing (s : State) (j : Job) (e : Edge) (bwd : Bool) (t : Stage) (x : SendEntry) : Option State :=
  s.sendJob j 0 (j.alias? e.peerMod) (if bwd then 2 else 1)
    (1 + place 2 16 (gId e.desc) + place 18 1 (if x.poison then 1 else 0) + place 32 32 x.n)
    (place 0 16 x.version + place 64 64 (64 * (e.view bwd).sendUnits t.tileCount))

theorem stageWord_data (edge : Nat) : State.stageWord 0 edge = place 2 16 edge := by simp [State.stageWord, place]

theorem stageWord_notice (edge : Nat) : State.stageWord 1 edge = 1 + place 2 16 edge := by simp [State.stageWord, place]

section
variable {s : State} {j : Job} {e : Edge} {t : Stage} {slot : Nat} {bwd : Bool} (strand : strandJob s = some j) (edge : j.edge? slot = some e)
  (snd : j.stageNamed (e.view bwd).snd = some t)
include strand edge snd

theorem forwardUnit_of_notOpen (no : e.st ≠ .opened) : forwardUnit slot bwd s = s := by
  simp [forwardUnit, strand, edge, snd, no]

section
variable {x : SendEntry} {us : List Nat} (awake : anyHeld s = false) (here : (e.view bwd).sndHere = true) (opened : e.st = .opened)
  (next : nextUnits (e.view bwd) (!(e.view bwd).rcvHere) t (e.dir bwd).send = some (x, us))
include awake here opened next

/-- With the receiving tiles here the units are copied; else they leave as one flit, and where it finds no credit or path all stays. -/
theorem forwardUnit_of_ready : forwardUnit slot bwd s =
    if (e.view bwd).rcvHere = true then
      (landUnits s j.id slot bwd x.n us (us.flatMap (fun u => s.read (sendAddr (e.view bwd) t x.n u) 64))).markSent j.id slot bwd x.n us
    else (sendUnitFlit s j e bwd t x us).elim s (fun u => u.markSent j.id slot bwd x.n us) := by
  simp only [forwardUnit, strand, edge, snd, here, opened, next, unitsHeld_of_noneHeld awake, stageWord_data, State.dirVc, Bool.not_true, ne_eq,
    not_true_eq_false, decide_false, Bool.or_self, Bool.false_eq_true, if_false]
  split
  · rfl
  · cases sent : sendUnitFlit s j e bwd t x us with
    | none => unfold sendUnitFlit at sent; simp only [sent, Option.elim_none]
    | some u => unfold sendUnitFlit at sent; simp only [sent, Option.elim_some]; rfl

end

/-! ## CLOSING_NOTICE (R220) -/

theorem closeEntry_of_notOpen (no : e.st ≠ .opened) : closeEntry slot bwd s = s := by
  simp only [closeEntry, strand, edge, snd]
  split
  · rfl
  · simp [no]

/-- An entry that the sending end holds no longer. -/
def State.dropSent (s : State) (jid slot : Nat) (bwd : Bool) (n : Nat) : State :=
  s.updEdge jid slot (fun e => e.setDir bwd { e.dir bwd with send := (e.dir bwd).send.filter (fun y => y.n != n) })

section
variable {x : SendEntry} (here : (e.view bwd).sndHere = true) (opened : e.st = .opened)
  (oldest : (e.dir bwd).send.find? (fun y => decide ((e.view bwd).sendUnits t.tileCount ≤ y.sent.length) &&
    (y.itemDone || decide (0 < (e.view bwd).sendUnits t.tileCount))) = some x)
include here opened oldest

/-- The entry leaves the sending end, and its notice is recorded here or sent; where it finds no credit or path all stays. -/
theorem closeEntry_of_oldest : closeEntry slot bwd s =
    if (e.view bwd).rcvHere = true then
      entryPoison (noticeAt (s.dropSent j.id slot bwd x.n) j.id slot bwd x.n x.version (64 * (e.view bwd).sendUnits t.tileCount) x.poison)
        j.id slot bwd x.n
    else (sendClosing s j e bwd t x).elim s (fun u => u.dropSent j.id slot bwd x.n) := by
  simp only [closeEntry, strand, edge, snd, here, opened, oldest, stageWord_notice, State.dirVc, boolNat, Bool.not_true, ne_eq, not_true_eq_false,
    decide_false, Bool.or_self, Bool.false_eq_true, if_false]
  split
  · rfl
  · cases sent : sendClosing s j e bwd t x with
    | none => unfold sendClosing at sent; simp only [sent, Option.elim_none]
    | some u => unfold sendClosing at sent; simp only [sent, Option.elim_some]; rfl

end
end

/-- Settles O54: the unit, or the notice, by the lemma of its edge's receiving end. -/
theorem entriesAreForwarded : Obligations.EntriesAreForwarded := by
  unfold Obligations.EntriesAreForwarded
  intro slot bwd s j e t strand edge snd v bytesOf mark drop
  have job := State.job?_of_runJob (runJob_of_strandJob strand)
  have forward {u : State} (e : forwardUnit slot bwd s = u) : exec (.unitForward slot bwd) s = .next (settle s u) :=
    (congrArg (done s) e).trans (done_eq s u)
  have close {u : State} (e : closeEntry slot bwd s = u) : exec (.closingNotice slot bwd) s = .next (settle s u) :=
    (congrArg (done s) e).trans (done_eq s u)
  refine ⟨fun no => ⟨?_, ?_⟩, fun x us awake here opened next => ?units, fun x here opened oldest => ?notice⟩
  · rw [forward (forwardUnit_of_notOpen strand edge snd no), settle_self]
  · rw [close (closeEntry_of_notOpen strand edge snd no), settle_self]
  case units =>
    have ready := forwardUnit_of_ready strand edge snd awake here opened next
    refine ⟨fun r rcvHere rcv => ?_, fun away => ⟨fun u sent => ?_, fun lost => ?_⟩⟩
    · refine ⟨_, forward (ready.trans (if_pos rcvHere)), landUnits_ctrs job edge rcv .., ?_⟩
      exact (landUnits_mem_eq job edge rcv ..).trans (congrArg _ (landWrites_of_units v r x.n us (fun _ => State.read_length ..)))
    · have sent : sendUnitFlit s j e bwd t x us = some u := sent
      exact forward (ready.trans ((if_neg (ne_true_of_eq_false away)).trans (by rw [sent]; rfl)))
    · have lost : sendUnitFlit s j e bwd t x us = none := lost
      rw [forward (u := s) (ready.trans ((if_neg (ne_true_of_eq_false away)).trans (by rw [lost]; rfl))), settle_self]
  case notice =>
    have ready := closeEntry_of_oldest strand edge snd here opened oldest
    refine ⟨fun rcvHere => close (ready.trans (if_pos rcvHere)), fun away => ⟨fun u sent => ?_, fun lost => ?_⟩⟩
    · have sent : sendClosing s j e bwd t x = some u := sent
      exact close (ready.trans ((if_neg (ne_true_of_eq_false away)).trans (by rw [sent]; rfl)))
    · have lost : sendClosing s j e bwd t x = none := lost
      rw [close (u := s) (ready.trans ((if_neg (ne_true_of_eq_false away)).trans (by rw [lost]; rfl))), settle_self]

end Sys2Proof.Machine
end

section
/-! SUPPORT. A job yields and parks at its command boundary (R242, R332, R337, R340): what each of the two events does, case by case. -/
namespace Sys2Proof.Machine

/-! ## The yield point (R242) -/

/-- The yield point of a job: of its pipeline, or where that is IDLE its command boundary. -/
def atYield (j : Job) : Prop :=
  (j.strand.pipe.st ≠ .idle ∧ j.strand.pipe.stopped = true ∧ j.quiet = true) ∨ (j.strand.pipe.st = .idle ∧ atBoundary j = true)

section
variable {s : State} {j : Job} (run : s.runJob = some j) (running : j.st = .running) (here : atYield j)
include run running here

theorem yieldPoint_of_here : yieldPoint s = if cancelPending j = true then s.endJob j.id else
    { s with sched := { s.sched with stop := s.sched.stop.map (fun t => if t.job = j.id then { t with hard := true } else t) } } := by
  have reached : (if j.strand.pipe.st = .idle then atBoundary j else j.strand.pipe.stopped && j.quiet) = true := by
    rcases here with ⟨busy, stopped, quiet⟩ | ⟨idle, boundary⟩
    · rw [if_neg busy, stopped, quiet, Bool.and_self]
    · rw [if_pos idle, boundary]
  simp only [yieldPoint, run, reached, running, reduceCtorEq, decide_false, Bool.not_true, Bool.or_self, Bool.false_eq_true, if_false]

theorem yieldPoint_of_cancel (cancel : cancelPending j = true) : yieldPoint s = s.endJob j.id :=
  (yieldPoint_of_here run running here).trans (if_pos cancel)

theorem yieldPoint_of_stop {t : Stop} (goes : cancelPending j = false) (stop : s.sched.stop = some t) (own : t.job = j.id) :
    yieldPoint s = { s with sched := { s.sched with stop := some { t with hard := true } } } := by
  rw [yieldPoint_of_here run running here, if_neg (ne_true_of_eq_false goes), stop, Option.map_some, if_pos own]

end

/-! ## The command boundary (R332, R337) -/

/-- Judging an overrun changes the log and the schedule's records, charges and skipped spans. -/
theorem State.overrun_eq (s : State) (jid : Nat) (st : Stop) : ∃ lq rs cs sk, s.overrun jid st =
    { s with mss := { s.mss with logQ := lq }, sched := { s.sched with records := rs, charges := cs, skipped := sk } } := by
  have stays : ∃ lq rs cs sk, s =
      { s with mss := { s.mss with logQ := lq }, sched := { s.sched with records := rs, charges := cs, skipped := sk } } :=
    ⟨s.mss.logQ, s.sched.records, s.sched.charges, s.sched.skipped, rfl⟩
  unfold State.overrun
  dsimp only
  split
  · next w t _ _ =>
    cases decide ((t.win w).guardUs * 100 < s.fabric - st.at_) <;> simp only [Bool.false_eq_true, if_false, if_true]
    all_goals
      split
      · exact ⟨_, _, _, _, rfl⟩
      · split <;> exact ⟨_, _, _, _, rfl⟩
  · split
    · exact ⟨_, _, _, _, rfl⟩
    · exact stays

/-- The state in which the choice at a command boundary is made: the overrun judged, the job parked. -/
def State.parked (s : State) (j : Job) (st : Stop) : State := (s.overrun j.id st).parkJob j

theorem State.parked_switch (s : State) (j : Job) (st : Stop) : (s.parked j st).sched.switch = s.sched.switch := by
  obtain ⟨_, _, _, _, e⟩ := s.overrun_eq j.id st
  rw [State.parked, e]
  rfl

/-- The job that a stop has brought forward, if it waits. -/
def broughtForward (u : State) (st : Stop) : Option Job := (st.next.bind u.job?).filter (fun k => decide (k.st = .parked))

/-- The choice at the boundary: that of a window's stop time, else the job brought forward, else the one of highest rank. -/
def boundaryChoice (u : State) (st : Stop) : Option Job :=
  if st.chosen = true then broughtForward u st else (broughtForward u st).orElse (fun _ => choiceOf u)

theorem broughtForward_of_none {u : State} {st : Stop} (no : st.next = none) : broughtForward u st = none := by
  rw [broughtForward, no, Option.bind_none, Option.filter_none]

theorem broughtForward_of_waiting {u : State} {st : Stop} {c : Job} (next : st.next = some c.id) (job : u.job? c.id = some c)
    (waits : c.st = .parked) : broughtForward u st = some c := by
  rw [broughtForward, next, Option.bind_some, job, Option.filter_some, if_pos (by simp [waits])]

section
variable {s : State} {j : Job} {st : Stop} (run : s.runJob = some j) (stop : s.sched.stop = some st) (own : st.job = j.id)
  (hard : st.hard = true) (boundary : atBoundary j = true) (running : j.st = .running) (goes : cancelPending j = false)
  (free : s.sched.switch = none)
include run stop own hard boundary running goes free

theorem commandBoundary_of_choice {c : Job} (choice : boundaryChoice (s.parked j st) st = some c)
    (may : (st.chosen = false ∧ st.next = some c.id) ∨ (s.parked j st).mayStart c = true) :
    commandBoundary s = (s.parked j st).beginSwitch (some j.id) (some c.id) := by
  have none_ : ((s.overrun j.id st).parkJob j).sched.switch = none := (s.parked_switch j st).trans free
  have starts : ((!st.chosen && decide (st.next = some c.id)) || State.mayStart ((s.overrun j.id st).parkJob j) c) = true := by
    rcases may with ⟨open_, next⟩ | may
    · simp [open_, next]
    · rw [State.parked] at may
      simp [may]
  have choice : (if st.chosen = true then broughtForward ((s.overrun j.id st).parkJob j) st
      else (broughtForward ((s.overrun j.id st).parkJob j) st).orElse (fun _ => choiceOf ((s.overrun j.id st).parkJob j))) = _ := choice
  unfold broughtForward at choice
  simp only [commandBoundary, run, stop, own, hard, boundary, running, goes, none_, choice, starts, ne_eq, not_true_eq_false, Bool.not_true,
    Bool.false_eq_true, reduceCtorEq, or_self, Option.isSome_none, if_false, if_true]
  rfl

theorem commandBoundary_of_noChoice (choice : boundaryChoice (s.parked j st) st = none) :
    commandBoundary s = (s.parked j st).beginSwitch (some j.id) none := by
  have none_ : ((s.overrun j.id st).parkJob j).sched.switch = none := (s.parked_switch j st).trans free
  have choice : (if st.chosen = true then broughtForward ((s.overrun j.id st).parkJob j) st
      else (broughtForward ((s.overrun j.id st).parkJob j) st).orElse (fun _ => choiceOf ((s.overrun j.id st).parkJob j))) = _ := choice
  unfold broughtForward at choice
  simp only [commandBoundary, run, stop, own, hard, boundary, running, goes, none_, choice, ne_eq, not_true_eq_false, Bool.not_true,
    Bool.false_eq_true, reduceCtorEq, or_self, Option.isSome_none, if_false]
  rfl

end
end Sys2Proof.Machine
end

section
/-! SUPPORT. The phases of a switch (R338, R339, R341, R380, R383). -/
namespace Sys2Proof.Machine

/-! ## When it waits -/

theorem any_hold_eq_true {s : State} (held : ∃ d ∈ s.dies, d.hold ≠ none) : s.dies.any (fun d => d.hold.isSome) = true := by
  obtain ⟨d, mem, hold⟩ := held
  exact List.any_eq_true.2 ⟨d, mem, Option.isSome_iff_ne_none.2 hold⟩

theorem any_hold_eq_false {s : State} (awake : ∀ d ∈ s.dies, d.hold = none) : s.dies.any (fun d => d.hold.isSome) = false := by
  simpa using awake

section
variable {s : State} {sw : Switch} (switch : s.sched.switch = some sw)
include switch

theorem switchComplete_of_held (held : ∃ d ∈ s.dies, d.hold ≠ none) : switchComplete s = s := by
  simp only [switchComplete, switch, any_hold_eq_true held, if_true]

theorem switchComplete_of_unacked (first : sw.raised = false) (unacked : s.stageUnacked = true) : switchComplete s = s := by
  simp only [switchComplete, switch, first, unacked, Bool.false_eq_true, if_false, if_true, ite_self]

/-! ## Phases 1 to 5: the state out and in (R338, R339) -/

omit switch in
theorem State.saveOutgoing_jobs (s : State) (out : Option Nat) : (s.saveOutgoing out).jobs = s.jobs := by
  unfold State.saveOutgoing
  split
  · rfl
  · split
    · rfl
    · next j _ _ =>
      obtain ⟨_, e⟩ := s.marksAfter_eq j.parkAddr parkBytes
      rw [State.saveTiles, e]

omit switch in
theorem State.saveOutgoing_of_parked {s : State} {o : Nat} {k : Job} (job : s.job? o = some k) (parked : k.st = .parked) (region : k.parkAddr ≠ 0) :
    s.saveOutgoing (some o) = s.saveTiles k.parkAddr := by
  simp [State.saveOutgoing, job, parked, region]

variable {j : Job} (awake : ∀ d ∈ s.dies, d.hold = none) (incoming : sw.incoming = some j.id) (job : s.job? j.id = some j)
include awake incoming job

/-- The tile state saved and the incoming one's cleared or restored, the power is awaited, and then the edges are re-opened. -/
theorem switchComplete_of_first (first : sw.raised = false) (acked : s.stageUnacked = false) :
    let w := (switchTiles (s.saveOutgoing sw.outgoing) j).setSwitch { sw with raised := true }
    switchComplete s = if w.pwr.power100 < switchLevel w then w else switchEdges w { sw with raised := true } j := by
  have job' : (s.saveOutgoing sw.outgoing).job? j.id = some j := by
    rw [State.job?, State.saveOutgoing_jobs]
    exact job
  simp only [switchComplete, switch, any_hold_eq_false awake, first, acked, incoming, job', Option.bind_some, Bool.false_eq_true, if_false]

/-! ## Phases 6 to 8 (R338, R380, R383) -/

variable (raised : sw.raised = true)
include raised

/-- Phase 6: the power at the incoming job's level. -/
theorem switchComplete_of_raised (fresh : sw.asked = false) (quiet : sw.locking = none) :
    switchComplete s = if s.pwr.power100 < switchLevel s then s else switchEdges s sw j := by
  simp only [switchComplete, switch, any_hold_eq_false awake, raised, incoming, job, fresh, quiet, Option.bind_some, Bool.false_eq_true, if_false,
    if_true]

/-- Phase 7: every edge re-opened is answered. -/
theorem switchComplete_of_asked (asked : sw.asked = true) (quiet : sw.locking = none) : switchComplete s =
    if (s.reopening j).any (fun e => !e.answer.any (answerOk s j e)) = true then s else switchLock s sw j := by
  simp only [switchComplete, switch, any_hold_eq_false awake, raised, incoming, job, asked, quiet, Option.bind_some, Bool.false_eq_true, if_false,
    if_true]

/-- Phase 8: the first locks have come, or their time is over. -/
theorem switchComplete_of_locking {at_ : Nat} (locking : sw.locking = some at_) :
    switchComplete s = if locksCame s j at_ = true then switchEnd s j.id else s := by
  simp only [switchComplete, switch, any_hold_eq_false awake, raised, incoming, job, locking, Option.bind_some, Bool.false_eq_true, if_false,
    if_true]

end

theorem locksCame_eq_true {s : State} {j : Job} {t : Nat} :
    locksCame s j t = true ↔ ((∃ ls, j.lock.locks = some ls) ∧ t ≤ j.lock.at_) ∨ s.leadNow j = none ∨ t + 100000 ≤ s.now := by
  simp [locksCame, Option.isSome_iff_exists, or_assoc]

theorem any_unanswered {s : State} {j : Job} : (s.reopening j).any (fun e => !e.answer.any (answerOk s j e)) = true ↔
    ∃ e ∈ s.reopening j, ∀ m, e.answer = some m → answerOk s j e m = false := by
  simp [Option.any_eq_false]

/-! ## The steps of the phases -/

theorem switchEdges_of_none {s : State} {j : Job} (none_ : s.reopening j = []) (sw : Switch) : switchEdges s sw j = switchLock s sw j := by
  simp [switchEdges, none_]

theorem switchEdges_of_some {s : State} {j : Job} (some_ : s.reopening j ≠ []) (sw : Switch) :
    switchEdges s sw j = (s.setSwitch { sw with asked := true }).reopenEdges j.id := by simp [switchEdges, some_]

theorem switchLock_of_alone {s : State} {j : Job} (alone : multiModule j = false ∨ s.leadNow j = none) (sw : Switch) :
    switchLock s sw j = switchEnd s j.id := by
  have no : (if multiModule j = true then s.leadNow j else none) = none := by
    rcases alone with single | headless
    · rw [if_neg (ne_true_of_eq_false single)]
    · rw [headless, ite_self]
  rw [switchLock, no]

theorem switchLock_of_lead {s : State} {j : Job} {l : Nat} (multi : multiModule j = true) (lead : s.leadNow j = some l) (sw : Switch) :
    switchLock s sw j = (s.send l (.lockReport (lockMsg s j s.pwr.power []))).setSwitch { sw with locking := some s.now } := by
  rw [switchLock, if_pos multi, lead]

/-- The incoming job runs, and the choice is looked at again. -/
theorem switchEnd_of_parked {s : State} {j : Job} (job : s.job? j.id = some j) (parked : j.st = .parked) (stays : s.mod.st ≠ .drain) :
    switchEnd s j.id = (({ s with sched := { s.sched with switch := none } } : State).startRun j.id).reexamine := by
  have job' : ({ s with sched := { s.sched with switch := none } } : State).job? j.id = some j := job
  have stays' : (({ s with sched := { s.sched with switch := none } } : State).startRun j.id).mod.st ≠ .drain := stays
  simp [switchEnd, job', parked, stays']

end Sys2Proof.Machine
end

section
/-! SUPPORT. A window's stop time and the aging of waiting jobs (R330, R336, R337, R341). -/
namespace Sys2Proof.Machine

/-! ## The stop time of a window (R336) -/

section
variable {s : State} {j : Job} {t : Timetable} {w : Nat} (table : s.sched.table = some t) (here : t.inForce s.sched.charges s.fabric = w)
  (ends : t.boundary w = true) (new : s.sched.window ≠ w) (run : s.runJob = some j) (led : s.headless j = false) (running : j.st = .running)
  (free : s.sched.switch = none)
include table here ends new run led running free

/-- When the span ended. -/
def stopTime (s : State) (t : Timetable) (w : Nat) : Nat :=
  s.fabric - (t.phase s.fabric + t.frameLen - t.opens s.sched.charges w) % t.frameLen

omit here ends new run led running free table in
theorem spanEnds_rest (s : State) (t : Timetable) (w at_ : Nat) : (spanEnds t w at_ s).runJob = s.runJob ∧
    (spanEnds t w at_ s).sched.switch = s.sched.switch ∧ (spanEnds t w at_ s).sched.stop = s.sched.stop := ⟨rfl, rfl, rfl⟩

/-- A stop under way takes the choice made at this stop time. -/
theorem windowStop_of_stopping {st : Stop} (stop : s.sched.stop = some st) :
    let u := spanEnds t w (stopTime s t w) s
    windowStop w s = { u with sched := { u.sched with stop := some { st with
      next := (choiceAt u j).map (·.id), chosen := true, at_ := stopTime s t w, window := some w, instant := false } } } := by
  obtain ⟨run', free', stop'⟩ := spanEnds_rest s t w (stopTime s t w)
  rw [run] at run'
  rw [free] at free'
  rw [stop] at stop'
  unfold stopTime at *
  simp only [windowStop, table, here, ends, new, run, led, run', free', stop', running, ne_eq, not_true_eq_false, Bool.not_true, Bool.false_eq_true,
    Option.any_some, or_self, if_false, Option.isSome_none, reduceCtorEq, decide_false, Bool.or_self]

/-- Else the running job stops, unless it stays the choice. -/
theorem windowStop_of_going (going : s.sched.stop = none) :
    let u := spanEnds t w (stopTime s t w) s
    windowStop w s = if (eligible u j && (choiceOf u).all (fun c => decide (rankNow u c ≤ rankNow u j))) = true then u
      else u.stopJob { job := j.id, at_ := stopTime s t w, window := some w, hard := true, next := (choiceOf u).map (·.id), chosen := true } := by
  obtain ⟨run', free', stop'⟩ := spanEnds_rest s t w (stopTime s t w)
  rw [run] at run'
  rw [free] at free'
  rw [going] at stop'
  unfold stopTime at *
  simp only [windowStop, table, here, ends, new, run, led, run', free', stop', running, ne_eq, not_true_eq_false, Bool.not_true, Bool.false_eq_true,
    Option.any_some, or_self, if_false, Option.isSome_none, reduceCtorEq, decide_false, Bool.or_self]

end

theorem staysChoice_iff (u : State) (j : Job) : (eligible u j && (choiceOf u).all (fun c => decide (rankNow u c ≤ rankNow u j))) = true ↔
    eligible u j = true ∧ ∀ c, choiceOf u = some c → rankNow u c ≤ rankNow u j := by simp [Option.all_eq_true]

/-! ## Aging (R330) -/

theorem ages_alone_iff (s : State) (j : Job) : (ages s j && !multiModule j) = true ↔ j.st = .parked ∧ eligible s j = true ∧ j.cls ≠ 5 ∧
    namedByWindow s j.id = false ∧ multiModule j = false := by
  simp [ages, and_assoc]

theorem ageJobs_of_due {s : State} (due : agingDue s = true) : ageJobs s =
    (((s.jobs.filter (ages s)).filter multiModule).foldl State.reportAge { s with
      sched := { s.sched with aged := s.fabric }
      jobs := s.jobs.map (fun (j : Job) => if j.st = .parked ∧ eligible s j = true ∧ j.cls ≠ 5 ∧ namedByWindow s j.id = false ∧
          multiModule j = false then { j with rank := max j.rank (min 4 (j.rank + 1)) } else j) }).reexamine := by
  simp only [ageJobs, due, ages_alone_iff, agedRank, Bool.not_true, Bool.false_eq_true, if_false]

theorem ageJobs_of_notDue {s : State} (no : agingDue s = false) : ageJobs s = s := by simp [ageJobs, no]

/-- Settles O28: each event by the lemma of its case, each phase of the switch by its own. -/
theorem jobsSwitchAtTheirBoundaries : Obligations.JobsSwitchAtTheirBoundaries := by
  unfold Obligations.JobsSwitchAtTheirBoundaries
  intro s j
  have next {a b : State} (e : b = a) : done s b = .next (settle s a) := by rw [e, done_eq]
  have left {b : State} (e : b = s) : done s b = .next s := by rw [e, done_self]
  refine ⟨?yield, ?boundary, ?switch, ?steps, ?end_, ?window, fun due => next (ageJobs_of_due due), fun no => left (ageJobs_of_notDue no)⟩
  case yield =>
    exact fun run running here => ⟨fun t goes stop own => next (yieldPoint_of_stop run running here goes stop own),
      fun cancel => next (yieldPoint_of_cancel run running here cancel)⟩
  case boundary =>
    intro st run stop own hard boundary running goes free
    have chosen {c : Job} := commandBoundary_of_choice run stop own hard boundary running goes free (c := c)
    have none_ := commandBoundary_of_noChoice run stop own hard boundary running goes free
    refine ⟨rfl, rfl, fun no end_ => next (none_ ?_), fun c no open_ best may => next (chosen ?_ (.inr may)),
      fun c forward job waits may => next (chosen ?_ ?_)⟩
    · rw [boundaryChoice, broughtForward_of_none no, Option.orElse_none]
      rcases end_ with chosen | none_
      · exact if_pos chosen
      · rw [show choiceOf (s.parked j st) = none from none_, ite_self]
    · rw [boundaryChoice, broughtForward_of_none no, Option.orElse_none, if_neg (ne_true_of_eq_false open_)]
      exact best
    · rw [boundaryChoice, broughtForward_of_waiting (u := s.parked j st) forward job waits, Option.orElse_some, ite_self]
    · cases made : st.chosen
      · exact .inl ⟨rfl, forward⟩
      · exact .inr (may made)
  case switch =>
    intro sw switch incoming
    refine ⟨?_, fun awake job => ⟨fun first acked => ?_, fun raised fresh quiet => ?_, fun raised asked quiet => ?_, fun at_ raised locking => ?_⟩⟩
    · rintro (held | ⟨first, unacked⟩)
      · exact left (switchComplete_of_held switch held)
      · exact left (switchComplete_of_unacked switch first unacked)
    · have tiles : switchTiles (s.saveOutgoing sw.outgoing) j =
          if j.hasRun then (if j.parkAddr = 0 then s.saveOutgoing sw.outgoing else (s.saveOutgoing sw.outgoing).restoreJob j)
          else (s.saveOutgoing sw.outgoing).clearTiles := by
        unfold switchTiles
        cases j.hasRun <;> rfl
      have phases := switchComplete_of_first switch awake incoming job first acked
      rw [tiles] at phases
      refine ⟨fun o k outgoing own parked region => ?_, fun low => next (phases.trans (if_pos low)),
        fun up => next (phases.trans (if_neg (Nat.not_lt.2 up)))⟩
      rw [outgoing]
      exact State.saveOutgoing_of_parked own parked region
    · have phase := switchComplete_of_raised switch awake incoming job raised fresh quiet
      exact ⟨fun low => left (phase.trans (if_pos low)), fun up => next (phase.trans (if_neg (Nat.not_lt.2 up)))⟩
    · have phase := switchComplete_of_asked switch awake incoming job raised asked quiet
      refine ⟨fun waits => left (phase.trans (if_pos (any_unanswered.2 waits))), fun all => next (phase.trans (if_neg fun waits => ?_))⟩
      obtain ⟨e, mem, no⟩ := any_unanswered.1 waits
      obtain ⟨m, answer, ok⟩ := all e mem
      exact Bool.false_ne_true ((no m answer).symm.trans ok)
    · have phase := switchComplete_of_locking switch awake incoming job raised locking
      refine ⟨fun came => next (phase.trans (if_pos (locksCame_eq_true.2 came))), fun none_ lead early => left (phase.trans (if_neg fun came => ?_))⟩
      rcases locksCame_eq_true.1 came with ⟨⟨ls, locks⟩, late⟩ | headless | over_
      · rcases none_ with none_ | old
        · rw [none_] at locks
          cases locks
        · omega
      · exact lead headless
      · omega
  case steps =>
    exact fun sw => ⟨fun none_ => switchEdges_of_none none_ sw, fun some_ => switchEdges_of_some some_ sw,
      fun alone => switchLock_of_alone alone sw, fun l multi lead => ⟨_, rfl, rfl, switchLock_of_lead multi lead sw⟩⟩
  case end_ => exact fun job parked stays => ⟨rfl, switchEnd_of_parked job parked stays⟩
  case window =>
    intro t w table here ends new run led running free
    have stopping {st : Stop} := windowStop_of_stopping table here ends new run led running free (st := st)
    have going := windowStop_of_going table here ends new run led running free
    refine ⟨fun none_ stays => next ((going none_).trans (if_pos ?_)), fun none_ stops => next ((going none_).trans (if_neg fun stays => ?_)),
      fun st stop => next (stopping stop)⟩
    · exact (staysChoice_iff _ j).2 stays
    · exact stops ((staysChoice_iff _ j).1 stays)

end Sys2Proof.Machine
end

section
/-! SUPPORT. A group of a job under updates, and what of a job an item's steps leave (R208, R213-R215, R221, R235). -/
namespace Sys2Proof.Machine

/-! ## A group and a stage of a job -/

/-- The group of a job with an ID. -/
def Job.group? (j : Job) (gid : Nat) : Option Group := j.strand.groups.find? (fun x => x.id == gid)

theorem Job.group?_id {j : Job} {gid : Nat} {g : Group} (group : j.group? gid = some g) : g.id = gid := by
  simpa using List.find?_some group

theorem find?_replace {α : Type} {key : α → Nat} {l : List α} {x y : α} (found : l.find? (fun z => key z == key y) = some x) :
    (l.map (fun z => if key z == key y then y else z)).find? (fun z => key z == key y) = some y := by
  have keys : ((fun z => key z == key y) ∘ fun z => if key z == key y then y else z) = fun z => key z == key y := by
    funext z
    rw [Function.comp_apply]
    split
    · next own => rw [own, beq_self_eq_true]
    · rfl
  have own : (key x == key y) = true := by simpa using List.find?_some found
  rw [List.find?_map, keys, found, Option.map_some, if_pos own]

theorem Job.group?_setGroup {j : Job} {gid : Nat} {g h : Group} (group : j.group? gid = some g) (own : h.id = gid) :
    (j.setGroup h).group? gid = some h := by
  subst own
  exact find?_replace (key := Group.id) group

theorem Job.stage?_setStage {j : Job} {i : Nat} {t u : Stage} (stage : j.stage? i = some t) (own : u.idx = i) :
    (j.setStage u).stage? i = some u := by
  subst own
  exact find?_replace (key := Stage.idx) stage

theorem Job.stage?_idx {j : Job} {i : Nat} {t : Stage} (stage : j.stage? i = some t) : t.idx = i := by
  simpa using List.find?_some stage

/-! ## A part of the job with an ID -/

namespace State

/-- The job that runs, and a part of the job with an ID. -/
def jobAs {β : Type} (v : Job → β) (jid : Nat) (s : State) : Option Nat × Option β := (s.running, (s.job? jid).map v)

section
variable {β : Type} {v : Job → β} {s t : State} {jid : Nat} {j : Job}

theorem jobAs_of_jobsAs (same : t.jobsAs v = s.jobsAs v) : t.jobAs v jid = s.jobAs v jid := by
  have part (u : State) : (u.job? jid).map v = ((u.jobsAs v).2.find? (fun p => p.1 == jid)).map Prod.snd := by
    rw [← map_job? v u jid, Option.map_map]
    rfl
  rw [jobAs, jobAs, part, part, same, running_of_jobsAs same]

theorem jobAs_of_jobs (run : t.running = s.running) (jobs : t.jobs = s.jobs) : t.jobAs v jid = s.jobAs v jid :=
  jobAs_of_jobsAs (jobsAs_of_jobs run jobs)

theorem jobAs_updJob {f : Job → Job} (id : ∀ j, (f j).id = j.id := by exact fun _ => rfl)
    (part : ∀ j, s.job? jid = some j → v (f j) = v j := by exact fun _ _ => rfl) : (s.updJob jid f).jobAs v jid = s.jobAs v jid := by
  rw [jobAs, jobAs, job?_updJob s jid f id]
  refine congrArg _ ?_
  cases job : s.job? jid with
  | none => rfl
  | some j => exact congrArg some (part j job)

theorem exists_runJob_of_jobAs (same : t.jobAs v j.id = s.jobAs v j.id) (run : s.runJob = some j) : ∃ k, t.runJob = some k ∧ v k = v j := by
  simp only [jobAs, job?_of_runJob run, running_of_runJob run, Prod.mk.injEq, Option.map_some] at same
  obtain ⟨run', part⟩ := same
  obtain ⟨k, job, eq⟩ := Option.map_eq_some_iff.1 part
  exact ⟨k, runJob_of_job? run' job, eq⟩

end
end State
end Sys2Proof.Machine
end

section
/-! SUPPORT. A group takes an item and pushes its lists (R213-R215, R221, R226, R227). -/
namespace Sys2Proof.Machine

/-! ## ITEM_CHOOSE (R226, R227) -/

section
variable {gid : Nat} {s : State} {j : Job} {g : Group} (strand : strandJob s = some j) (group : j.group? gid = some g)
  (free : holding s j = false)
include strand group

/-- With an item outstanding none is taken. -/
theorem chooseItem_of_busy (busy : g.out ≠ none) : chooseItem gid s = s := by
  have group : j.strand.groups.find? (fun x => x.id == gid) = some g := group
  have busy' : g.out.isSome = true := Option.isSome_iff_ne_none.2 busy
  simp only [chooseItem, strand, group, busy', Bool.or_true, if_true]

include free

/-- Where the pipeline lets no item be chosen none is. -/
theorem chooseItem_of_barred (idle : g.out = none) (calm : j.strand.pipe.st ≠ .replaying) (barred : mayChoose j = false) :
    chooseItem gid s = s := by
  have group : j.strand.groups.find? (fun x => x.id == gid) = some g := group
  simp only [chooseItem, strand, group, free, idle, calm, barred, Option.isSome_none, Bool.or_self, Bool.false_eq_true, if_false, decide_false,
    Bool.false_and, Bool.not_false, if_true]

theorem chooseItem_of_none (idle : g.out = none) (calm : j.strand.pipe.st ≠ .replaying) (no : choose s j g = none) : chooseItem gid s = s := by
  have group : j.strand.groups.find? (fun x => x.id == gid) = some g := group
  simp only [chooseItem, strand, group, free, idle, calm, no, Option.isSome_none, Bool.or_self, Bool.false_eq_true, if_false, decide_false,
    Bool.false_and, ite_self]

/-- The number under which an item is pushed: of its micro-batch, or of its optimizer group. -/
def Pick.number (p : Pipe) (x : Pick) : Nat := if x.kind = .f ∨ x.kind = .b then p.mb x.a else x.a

/-- The group once it has taken an item. -/
def Group.taking (g : Group) (p : Pipe) (x : Pick) : Group := takeItem (advanceSeq g x) x.stage x.kind (x.number p)

/-- The job once its group, as `h`, has taken an item: an optimizer item is the next of its stage. -/
def Job.taking (j : Job) (h : Group) (x : Pick) : Job :=
  if x.kind = .opt then (j.setGroup h).setStage { x.stage with optNext := x.stage.optNext + 1 } else j.setGroup h

theorem chooseItem_of_pick {x : Pick} (idle : g.out = none) (calm : j.strand.pipe.st ≠ .replaying) (may : mayChoose j = true)
    (pick : choose s j g = some x) : chooseItem gid s = s.updJob j.id (fun k => k.taking (g.taking j.strand.pipe x) x) := by
  have group : j.strand.groups.find? (fun x => x.id == gid) = some g := group
  simp only [chooseItem, strand, group, free, idle, calm, may, pick, Option.isSome_none, Bool.or_self, Bool.false_eq_true, if_false, decide_false,
    Bool.false_and, Bool.not_true]
  obtain ⟨kind, stage, a⟩ := x
  cases kind <;> rfl

end

theorem Group.taking_id (g : Group) (p : Pipe) (x : Pick) : (g.taking p x).id = g.id := by
  unfold Group.taking advanceSeq
  split <;> rfl

theorem Group.taking_out (g : Group) (p : Pipe) (x : Pick) : (g.taking p x).out =
    some { tag := ⟨x.stage.idx, x.kind, x.number p, 0⟩, toPush := x.stage.sets.getD (setIndex x.stage x.kind (x.number p)) [] } := rfl

theorem Group.taking_place (g : Group) (p : Pipe) (x : Pick) : (g.taking p x).fwd = g.fwd + (if x.kind = .f then 1 else 0) ∧
    (g.taking p x).bwd = g.bwd + (if x.kind = .b then 1 else 0) ∧
    (g.taking p x).deferred = (if x.kind = .w then g.deferred.tail else g.deferred) := by
  simp only [Group.taking, takeItem, advanceSeq]
  cases x.kind <;> exact ⟨rfl, rfl, rfl⟩

theorem Job.taking_id (j : Job) (h : Group) (x : Pick) : (j.taking h x).id = j.id := by
  unfold Job.taking
  split <;> rfl

theorem Job.taking_rest {j : Job} {gid : Nat} {g h : Group} (group : j.group? gid = some g) (own : h.id = gid) (x : Pick) :
    (j.taking h x).queues = j.queues ∧ (j.taking h x).strand.edges = j.strand.edges ∧ (j.taking h x).group? gid = some h := by
  unfold Job.taking
  split
  · exact ⟨rfl, rfl, Job.group?_setGroup group own⟩
  · exact ⟨rfl, rfl, Job.group?_setGroup group own⟩

/-! ## ITEM_PUSH (R213-R215, R221) -/

/-- What of a job the dispatch of an item leaves but for the item's own group: queues, groups, and the next list number. -/
def Job.lists (j : Job) : List Queue × List Group × Nat := (j.queues, j.strand.groups, j.listSeq)

/-- The edges' part in a dispatch: a credit and a send buffer taken on each. -/
theorem State.foldl_updEdge_jobsAs {β α : Type} {v : Job → β} (edge : ∀ j e, v (j.setEdge e) = v j) (jid : Nat) (slot : α → Nat)
    (f : α → Edge → Edge) (l : List α) (s : State) : (l.foldl (fun s x => s.updEdge jid (slot x) (f x)) s).jobsAs v = s.jobsAs v := by
  refine foldl_keeps (v := State.jobsAs v) (fun t x => ?_) l s
  refine State.jobsAs_updJob (id := fun j => ?_) (part := fun j => ?_)
  · split <;> rfl
  · split
    · exact edge ..
    · rfl

/-- The item once it is dispatched, its version's slot noted (R235). -/
def Outstanding.dispatched (o : Outstanding) (slot : Nat) : Outstanding := { o with tag := { o.tag with slot := slot }, started := true }

section
variable {s : State} {j : Job} {gid : Nat} {g : Group} {o : Outstanding} {u : Stage}

/-- Before its group holds it as dispatched, an item has bound its version and taken credits: queues and groups are as they were. -/
theorem dispatchItem_eq (job : s.job? j.id = some j) (group : j.group? gid = some g) (out : g.out = some o)
    (stage : j.stage? o.tag.stage = some u) : ∃ (t : State) (slot : Nat),
      (dispatchItem s j.id gid).jobsAs Job.lists =
        (t.updJob j.id (fun k => k.setGroup { g with out := some (o.dispatched slot) })).jobsAs Job.lists ∧
      t.jobsAs Job.lists = s.jobsAs Job.lists := by
  have group : j.strand.groups.find? (fun x => x.id == gid) = some g := group
  simp only [dispatchItem, job, group, out, stage]
  have pipe (t : State) (f : Pipe → Pipe) (b : Nat) : ((t.updPipe j.id f).pedalEnd b).jobsAs Job.lists = t.jobsAs Job.lists := by
    have updated : (t.updPipe j.id f).jobsAs Job.lists = t.jobsAs Job.lists := State.jobsAs_updJob
    exact updated
  refine ⟨_, _, State.jobsAs_ite (pipe ..) rfl, ?_⟩
  refine (State.foldl_updEdge_jobsAs (by exact fun _ _ => rfl) ..).trans (State.jobsAs_ite ?_ rfl)
  exact State.updStage_jobsAs (by exact fun _ _ => rfl) ..

/-- The item as its group holds it once it is dispatched. -/
theorem exists_job_dispatchItem (run : s.runJob = some j) (group : j.group? gid = some g) (out : g.out = some o)
    (stage : j.stage? o.tag.stage = some u) : ∃ (k : Job) (slot : Nat), (dispatchItem s j.id gid).runJob = some k ∧
      k.queues = j.queues ∧ k.listSeq = j.listSeq ∧ k.id = j.id ∧
      k.group? gid = some { g with out := some (o.dispatched slot) } := by
  obtain ⟨t, slot, after, before⟩ := dispatchItem_eq (State.job?_of_runJob run) group out stage
  obtain ⟨k, run₁, same⟩ := State.exists_runJob_of_jobsAs before run
  simp only [Job.lists, Prod.mk.injEq] at same
  obtain ⟨queues, groups, seq⟩ := same
  have name : k.id = j.id := Option.some_inj.1 ((State.running_of_runJob run₁).symm.trans
    ((State.running_of_jobsAs before).trans (State.running_of_runJob run)))
  have run₂ := State.runJob_updJob run₁ (f := fun k => k.setGroup { g with out := some (o.dispatched slot) })
  rw [name] at run₂
  obtain ⟨l, run₃, same'⟩ := State.exists_runJob_of_jobsAs after run₂
  simp only [Job.lists, Prod.mk.injEq] at same'
  obtain ⟨queues', groups', seq'⟩ := same'
  have group' : k.group? gid = some g := by rw [Job.group?, groups]; exact group
  refine ⟨l, slot, run₃, queues'.trans queues, seq'.trans seq, ?_, ?_⟩
  · exact Option.some_inj.1 ((State.running_of_runJob run₃).symm.trans
      ((State.running_of_jobsAs after).trans ((State.running_of_jobsAs before).trans (State.running_of_runJob run))))
  · rw [Job.group?, groups']
    have own : g.id = gid := Job.group?_id group
    exact Job.group?_setGroup group' own

end

/-- The item once its next list is pushed, under a list number. -/
def Outstanding.pushed (o : Outstanding) (rest : List SetEntry) (seq : Nat) : Outstanding :=
  { o with toPush := rest, openLists := o.openLists ++ [seq] }

/-- The group whose item it is. -/
def Group.pushed (g : Group) (o : Outstanding) (rest : List SetEntry) (seq : Nat) : Group := { g with out := some (o.pushed rest seq) }

/-- The next list of a group's item put at the end of its queue's lists. -/
def pushed (s : State) (jid : Nat) (g : Group) (o : Outstanding) (e : SetEntry) (rest : List SetEntry) : State :=
  (s.updJob jid (fun j => j.setGroup (g.pushed o rest j.listSeq))).pushList jid e.target e.addr e.count (some o.tag)

theorem exists_runJob_pushed {s : State} {j : Job} {gid : Nat} {g : Group} {o : Outstanding} {e : SetEntry} {q : Queue} (run : s.runJob = some j)
    (group : j.group? gid = some g) (queue : j.queue? e.target = some q) (rest : List SetEntry) :
    ∃ k, (pushed s j.id g o e rest).runJob = some k ∧
      k.queue? e.target = some { q with lists := q.lists ++ [⟨e.addr, e.count, j.listSeq, some o.tag⟩] } ∧
      k.group? gid = some (g.pushed o rest j.listSeq) := by
  have own : g.id = gid := Job.group?_id group
  have noted := State.runJob_updJob run (f := fun j => j.setGroup (g.pushed o rest j.listSeq))
  have job : (s.updJob j.id (fun j => j.setGroup (g.pushed o rest j.listSeq))).job? j.id = some (j.setGroup (g.pushed o rest j.listSeq)) :=
    State.job?_of_runJob noted
  obtain ⟨k, run', queue'⟩ := State.exists_runJob (t := pushed s j.id g o e rest) (State.running_of_runJob run :)
    (State.queueOf_pushList (tag := some o.tag) (addr := e.addr) (count := e.count) job queue)
  refine ⟨k, run', queue', ?_⟩
  have groups : (pushed s j.id g o e rest).jobsAs (fun j => j.strand.groups) = _ := State.jobsAs_updJob (id := fun j => ?_) (part := fun j => ?_)
  · obtain ⟨l, run₂, same⟩ := State.exists_runJob_of_jobsAs groups noted
    rw [run'] at run₂
    obtain rfl := Option.some_inj.1 run₂
    rw [Job.group?, same]
    exact Job.group?_setGroup group own
  · split <;> rfl
  · split <;> rfl

section
variable {gid : Nat} {s : State} {j : Job} {g : Group} (strand : strandJob s = some j) (group : j.group? gid = some g)
  (free : holding s j = false) {o : Outstanding} {e : SetEntry} {rest : List SetEntry} {q : Queue} (out : g.out = some o)
  (push : o.toPush = e :: rest) (queue : j.queue? e.target = some q)
include strand group free out push queue

/-- While its queue is full the list waits. -/
theorem pushItem_of_full (full : State.queueRoom q = false) : pushItem gid s = s := by
  have group : j.strand.groups.find? (fun x => x.id == gid) = some g := group
  simp only [pushItem, pushItem.queueRoomFor, strand, group, free, out, push, queue, full, Option.bind_some, Option.all_some, Bool.not_false,
    Bool.false_eq_true, if_false, if_true]

/-- Else it is pushed, in the state that the item's dispatch leaves if it is the first. -/
theorem pushItem_of_room (room : State.queueRoom q = true) {t : State} (dispatched : (if o.started = true then s else dispatchItem s j.id gid) = t)
    {k : Job} {h : Group} {o' : Outstanding} (job : t.job? j.id = some k) (group' : k.group? gid = some h) (out' : h.out = some o') :
    pushItem gid s = pushed t k.id h o' e rest := by
  have group : j.strand.groups.find? (fun x => x.id == gid) = some g := group
  have group' : k.strand.groups.find? (fun x => x.id == gid) = some h := group'
  simp only [pushItem, pushItem.queueRoomFor, strand, group, free, out, push, queue, room, dispatched, job, group', out', Option.bind_some,
    Option.all_some, Bool.not_true, Bool.false_eq_true, if_false]
  rfl

end

end Sys2Proof.Machine
end

section
/-! SUPPORT. What the completion of an item leaves of its job, and the group that is free after it (R213, R221, R235). -/
namespace Sys2Proof.Machine

/-! ## The items that a stage has completed -/

/-- The items of each kind that a stage has completed. -/
def Stage.dones (t : Stage) : Nat × Nat × Nat × Nat := (t.fDone, t.bDone, t.wDone, t.optDone)

/-- A stage that has completed one item more. -/
def Stage.doneOne : ItemKind → Stage → Stage
  | .f, t => { t with fDone := t.fDone + 1 }
  | .b, t => { t with bDone := t.bDone + 1 }
  | .w, t => { t with wDone := t.wDone + 1 }
  | .opt, t => { t with optDone := t.optDone + 1 }
  | .reset, t => t

theorem Stage.doneOne_dones (kind : ItemKind) (t : Stage) : (t.doneOne kind).dones = (t.fDone + (if kind = .f then 1 else 0),
    t.bDone + (if kind = .b then 1 else 0), t.wDone + (if kind = .w then 1 else 0), t.optDone + (if kind = .opt then 1 else 0)) := by
  cases kind <;> rfl

theorem Stage.doneOne_idx (kind : ItemKind) (t : Stage) : (t.doneOne kind).idx = t.idx := by
  cases kind <;> rfl

theorem Stage.retire_kept (t : Stage) : t.retire.1.idx = t.idx ∧ t.retire.1.dones = t.dones := by
  unfold Stage.retire
  split
  · dsimp only
    split <;> exact ⟨rfl, rfl⟩
  · exact ⟨rfl, rfl⟩

/-- What the items of a stage leave alone but for their own: the groups, the pipeline's state, and what the stage has completed. -/
def Job.tally (i : Nat) (j : Job) : List Group × PipeState × Option (Nat × Nat × Nat × Nat) :=
  (j.strand.groups, j.strand.pipe.st, (j.stage? i).map Stage.dones)

namespace State

section
variable {i jid : Nat} {s : State}

theorem runJob_updStage {j : Job} {u : Stage} (run : s.runJob = some j) (stage : j.stage? i = some u) (f : Stage → Stage) :
    (s.updStage j.id i f).runJob = some (j.setStage (f u).retire.1) := by
  simp only [updStage, putStage, job?_of_runJob run, Option.bind_some, stage]
  split
  · exact runJob_updJob run
  · exact runJob_updJob run

/-- A stage changed in neither its index nor what it has completed. -/
theorem updStage_tally {f : Stage → Stage} (idx : ∀ t, (f t).idx = t.idx := by exact fun _ => rfl)
    (dones : ∀ t, (f t).dones = t.dones := by exact fun _ => rfl) : (s.updStage jid i f).jobAs (Job.tally i) jid = s.jobAs (Job.tally i) jid := by
  unfold updStage
  cases found : (s.job? jid).bind (fun j => j.stage? i) with
  | none => rfl
  | some u =>
    obtain ⟨j, job, stage⟩ := Option.bind_eq_some_iff.1 found
    obtain ⟨idx', dones'⟩ := (f u).retire_kept
    have own : (f u).retire.1.idx = i := idx'.trans ((idx u).trans (Job.stage?_idx stage))
    have put : (s.updJob jid (fun j => j.setStage (f u).retire.1)).jobAs (Job.tally i) jid = s.jobAs (Job.tally i) jid := by
      refine jobAs_updJob (part := fun k job' => ?_)
      obtain rfl := Option.some_inj.1 (job.symm.trans job')
      rw [Job.tally, Job.tally, Job.stage?_setStage stage own, stage, Option.map_some, Option.map_some, dones', dones u]
      rfl
    dsimp only [putStage]
    split
    · exact put
    · exact put

theorem unbindVer_tally (n : Nat) : (s.unbindVer jid i n).jobAs (Job.tally i) jid = s.jobAs (Job.tally i) jid := by
  unfold unbindVer
  split
  · rfl
  · split
    · rfl
    · split
      · rfl
      · have dropped (t : State) (slot : Nat) : (t.dropVer jid i slot).jobAs (Job.tally i) jid = t.jobAs (Job.tally i) jid := updStage_tally
        exact (dropped ..).trans updStage_tally

/-! ## Releases leave the tally (R221) -/

theorem updEdge_tally (slot : Nat) (f : Edge → Edge) : (s.updEdge jid slot f).jobsAs (Job.tally i) = s.jobsAs (Job.tally i) :=
  foldl_updEdge_jobsAs (by exact fun _ _ => rfl) jid id (fun _ => f) [slot] s

theorem write_tally (a : Nat) (bs : Bytes) : (s.write a bs).jobsAs (Job.tally i) = s.jobsAs (Job.tally i) := by
  obtain ⟨ms, written⟩ := s.write_eq a bs
  rw [written]
  exact jobsAs_of_jobs (s := s) rfl rfl

theorem putFeed_tally (d : Nat) (t : Stage) (n : Nat) (b : Bytes) : (s.putFeed d t n b).jobsAs (Job.tally i) = s.jobsAs (Job.tally i) := by
  unfold putFeed
  exact foldl_keeps (v := State.jobsAs (Job.tally i)) (fun _ _ => write_tally ..) _ s

theorem refeedOne_tally (slot : Nat) : (s.refeedOne jid slot).jobsAs (Job.tally i) = s.jobsAs (Job.tally i) := by
  unfold refeedOne
  split
  · rfl
  · split
    · rfl
    · dsimp only
      split
      · rfl
      · split
        · rfl
        · exact (updEdge_tally ..).trans ((updEdge_tally ..).trans (putFeed_tally ..))

theorem sendStage_tally (e : Edge) (bwd : Bool) (word pay : Nat) :
    (s.sendStage jid e bwd word pay).jobsAs (Job.tally i) = s.jobsAs (Job.tally i) := by
  unfold sendStage
  split
  · rfl
  · cases sent : s.sendJob _ 0 _ (dirVc bwd) word pay with
    | none => rfl
    | some t =>
      have inner : t.inner = s.inner := sendJob_inner sent
      exact jobsAs_of_jobs (t := t) (s := s) (congrArg State.running inner :) (congrArg State.jobs inner :)

theorem release_tally (e : Edge) (bwd : Bool) (n : Nat) : (s.release jid e bwd n).jobsAs (Job.tally i) = s.jobsAs (Job.tally i) := by
  unfold release
  dsimp only
  split
  · exact (refeedOne_tally ..).trans (updEdge_tally (s := s) ..)
  · split
    · exact updEdge_tally ..
    · split
      · exact (updEdge_tally ..).trans (updEdge_tally ..)
      · exact (sendStage_tally ..).trans (updEdge_tally ..)

theorem releaseAt_tally (t : Stage) (n rel : Nat) : (releaseAt s jid t n rel).jobsAs (Job.tally i) = s.jobsAs (Job.tally i) := by
  unfold releaseAt
  split
  · rfl
  · exact (foldl_keeps (v := State.jobsAs (Job.tally i)) (fun _ _ => release_tally ..) _ _).trans
      (foldl_keeps (v := State.jobsAs (Job.tally i)) (fun _ _ => release_tally ..) _ _)

theorem sealSends_tally (t : Stage) (bwd : Bool) (n : Nat) : (sealSends s jid t bwd n).jobsAs (Job.tally i) = s.jobsAs (Job.tally i) := by
  unfold sealSends
  split
  · rfl
  · exact foldl_updEdge_jobsAs (by exact fun _ _ => rfl) ..

/-- Sends sealed and entries released, after an item of a stage. -/
theorem releaseAt_sealSends_tally (t u : Stage) (bwd : Bool) (n m rel : Nat) :
    (releaseAt (sealSends s jid t bwd n) jid u m rel).jobAs (Job.tally i) jid = s.jobAs (Job.tally i) jid :=
  jobAs_of_jobsAs ((releaseAt_tally ..).trans (sealSends_tally ..))

end
end State

/-! ## The item's job after it -/

section
variable {s : State} {j : Job} {gid : Nat} {g : Group} {tag : ItemTag} {u : Stage}

/-- A group once an item of a micro-batch of a stage is done: a B leaves its W to be run. -/
def Group.after (g : Group) (x : Nat × Nat) : ItemKind → Group
  | .b => { g with deferred := g.deferred ++ [x] }
  | _ => g

theorem Group.after_out (g : Group) (x : Nat × Nat) (kind : ItemKind) : (g.after x kind).out = g.out := by
  cases kind <;> rfl

theorem Group.after_deferred (g : Group) (x : Nat × Nat) (kind : ItemKind) :
    (g.after x kind).deferred = g.deferred ++ (if kind = .b then [x] else []) := by
  cases kind
  case b => rfl
  all_goals exact (List.append_nil _).symm

/-- A B that is done, noted at its group for its W (R227). -/
def noteDeferred (gid : Nat) (x : Nat × Nat) (j : Job) : Job :=
  match j.strand.groups.find? (fun g => g.id == gid) with
  | some g => j.setGroup { g with deferred := g.deferred ++ [x] }
  | none => j

theorem noteDeferred_id (gid : Nat) (x : Nat × Nat) (j : Job) : (noteDeferred gid x j).id = j.id := by
  unfold noteDeferred
  split <;> rfl

theorem noteDeferred_of_group (group : j.group? gid = some g) (x : Nat × Nat) :
    noteDeferred gid x j = j.setGroup { g with deferred := g.deferred ++ [x] } := by
  have group : j.strand.groups.find? (fun x => x.id == gid) = some g := group
  simp only [noteDeferred, group]

section
variable (run : s.runJob = some j) (group : j.group? gid = some g) (stage : j.stage? tag.stage = some u)
include run group stage

/-- What leaves the tally as the stage that has counted the item makes it leaves the group as it was. -/
theorem exists_runJob_counted {t : State}
    (same : t.jobAs (Job.tally tag.stage) j.id = (s.updStage j.id tag.stage (Stage.doneOne tag.kind)).jobAs (Job.tally tag.stage) j.id) :
    ∃ k, t.runJob = some k ∧ k.id = j.id ∧ k.strand.pipe.st = j.strand.pipe.st ∧ k.group? gid = some g ∧
      (k.stage? tag.stage).map Stage.dones = some (u.doneOne tag.kind).dones := by
  have counted := State.runJob_updStage run stage (Stage.doneOne tag.kind)
  obtain ⟨idx, dones⟩ := (u.doneOne tag.kind).retire_kept
  have own : (u.doneOne tag.kind).retire.1.idx = tag.stage := idx.trans ((Stage.doneOne_idx ..).trans (Job.stage?_idx stage))
  obtain ⟨k, run', part⟩ := State.exists_runJob_of_jobAs (j := j.setStage ((u.doneOne tag.kind).retire.1)) same counted
  rw [Job.tally, Job.tally, Job.stage?_setStage stage own, Option.map_some, dones, Prod.mk.injEq, Prod.mk.injEq] at part
  obtain ⟨groups, st, dones'⟩ := part
  have name : t.running = s.running := (congrArg Prod.fst same).trans ((State.running_of_runJob counted).trans (State.running_of_runJob run).symm)
  rw [State.running_of_runJob run', State.running_of_runJob run] at name
  refine ⟨k, run', Option.some_inj.1 name, st, ?_, dones'⟩
  rw [Job.group?, groups]
  exact group

/-- What `itemDone` leaves of its job: the stage has counted the item, and the group has noted it. -/
theorem exists_runJob_itemDone (fwdOnly : Bool) :
    ∃ k, (itemDone s j.id gid fwdOnly tag).runJob = some k ∧ k.id = j.id ∧ k.strand.pipe.st = j.strand.pipe.st ∧
      k.group? gid = some (g.after (u.idx, tag.n) tag.kind) ∧ (k.stage? tag.stage).map Stage.dones = some (u.doneOne tag.kind).dones := by
  have found : (s.job? j.id).bind (fun j => j.stage? tag.stage) = some u := by rw [State.job?_of_runJob run, Option.bind_some, stage]
  have own : u.idx = tag.stage := Job.stage?_idx stage
  obtain ⟨i, kind, n, slot⟩ := tag
  obtain rfl : u.idx = i := own
  simp only [itemDone, found]
  cases kind with
  | f =>
    refine exists_runJob_counted run group stage ?_
    dsimp only
    split
    · exact (State.unbindVer_tally ..).trans (State.releaseAt_sealSends_tally ..)
    · exact State.releaseAt_sealSends_tally ..
  | b =>
    obtain ⟨k, run', name, st, group', dones⟩ := exists_runJob_counted run group stage (State.releaseAt_sealSends_tally u u true n n 1)
    have own : (g.after (u.idx, n) .b).id = gid := show g.id = gid from Job.group?_id group
    have noted := State.runJob_updJob run' (f := noteDeferred gid (u.idx, n)) (fun _ => noteDeferred_id ..)
    rw [name, noteDeferred_of_group group'] at noted
    exact ⟨_, noted, name, st, Job.group?_setGroup group' own, dones⟩
  | w =>
    exact exists_runJob_counted run group stage ((State.unbindVer_tally n).trans (State.jobAs_of_jobsAs (State.releaseAt_tally ..)))
  | opt =>
    exact exists_runJob_counted run group stage rfl
  | reset =>
    exact ⟨j, run, rfl, rfl, group, congrArg _ stage⟩

end
end
end Sys2Proof.Machine
end

section
/-! SUPPORT. The group whose every list has completed (R213). -/
namespace Sys2Proof.Machine

/-! ## ITEM_COMPLETE (R213, R235) -/

/-- Outside a replay and a stop nothing follows the completion of an item. -/
theorem advance_of_running {s : State} {j : Job} (run : s.runJob = some j) (st : j.strand.pipe.st = .running) :
    (s.replayAdvance j.id).stopAdvance j.id = s := by
  have replay : s.replayAdvance j.id = s := by
    simp only [State.replayAdvance, State.job?_of_runJob run, st, ne_eq, reduceCtorEq, not_false_eq_true, true_or, if_true]
  simp only [replay, State.stopAdvance, State.job?_of_runJob run, st, ne_eq, reduceCtorEq, not_false_eq_true, true_or, if_true]

section
variable {gid : Nat} {s : State} {j : Job} {g : Group} {o : Outstanding} (strand : strandJob s = some j) (group : j.group? gid = some g)
  (out : g.out = some o)
include strand group out

/-- With a list still to push or to complete the item is not complete. -/
theorem completeItem_of_unfinished (more : o.started = false ∨ o.toPush ≠ [] ∨ o.openLists ≠ []) : completeItem gid s = s := by
  have group : j.strand.groups.find? (fun x => x.id == gid) = some g := group
  have more' : (!o.started || !o.toPush.isEmpty || !o.openLists.isEmpty) = true := by
    simpa only [Bool.or_eq_true, Bool.not_eq_true', List.isEmpty_eq_false_iff, or_assoc] using more
  simp only [completeItem, strand, group, out, more', if_true]

/-- Else the group is free, and the item done. -/
theorem exists_runJob_completeItem {u : Stage} (started : o.started = true) (push : o.toPush = []) (opened : o.openLists = [])
    (st : j.strand.pipe.st = .running) (stage : j.stage? o.tag.stage = some u) : ∃ k, (completeItem gid s).runJob = some k ∧
      k.group? gid = some ({ g with out := none }.after (u.idx, o.tag.n) o.tag.kind) ∧
      (k.stage? o.tag.stage).map Stage.dones = some (u.doneOne o.tag.kind).dones := by
  have run := runJob_of_strandJob strand
  have own : ({ g with out := none } : Group).id = gid := show g.id = gid from Job.group?_id group
  have freed := State.runJob_updJob run (f := fun j => j.setGroup { g with out := none })
  obtain ⟨k, run', name, st', group', dones⟩ :=
    exists_runJob_itemDone freed (Job.group?_setGroup group own) (tag := o.tag) (u := u) stage j.strand.pipe.fwdOnly
  have rest := advance_of_running run' (st'.trans st)
  rw [name] at rest
  have group : j.strand.groups.find? (fun x => x.id == gid) = some g := group
  refine ⟨k, ?_, group', dones⟩
  simp only [completeItem, strand, group, out, started, push, opened, List.isEmpty_nil, Bool.not_true, Bool.or_self, Bool.false_eq_true, if_false]
  exact (congrArg State.runJob rest).trans run'

end

theorem mayChoose_of_ne {j : Job} (st : j.strand.pipe.st ≠ .running) : mayChoose j = false := by
  simp only [mayChoose, st, decide_false, Bool.false_and]

/-- Settles O53: an item is taken, pushed and completed through the record of its group; each row is the equation of its function
in its case, and the running job's queue, group and stage are read from it. -/
theorem itemsRunThroughTheirGroup : Obligations.ItemsRunThroughTheirGroup := by
  unfold Obligations.ItemsRunThroughTheirGroup
  intro gid s j g strand found free
  have group : j.group? gid = some g := found
  have own := Job.group?_id group
  have run := runJob_of_strandJob strand
  have next {a b : State} (e : b = a) : done s b = .next (settle s a) := by rw [e, done_eq]
  have left {b : State} (e : b = s) : done s b = .next s := by rw [e, done_self]
  refine ⟨fun busy => left (chooseItem_of_busy strand group busy), ?barred, ?none_, ?pick, ?push, ?dispatch,
    fun o out more => left (completeItem_of_unfinished strand group out more), ?complete⟩
  case barred =>
    intro idle st
    have calm_barred : j.strand.pipe.st ≠ .replaying ∧ mayChoose j = false := by
      rcases st with st | st | ⟨st, barred⟩
      · exact ⟨ne_of_eq_of_ne st nofun, mayChoose_of_ne (ne_of_eq_of_ne st nofun)⟩
      · exact ⟨ne_of_eq_of_ne st nofun, mayChoose_of_ne (ne_of_eq_of_ne st nofun)⟩
      · exact ⟨ne_of_eq_of_ne st nofun, barred⟩
    obtain ⟨calm, barred⟩ := calm_barred
    exact left (chooseItem_of_barred strand group free idle calm barred)
  case none_ => exact fun idle st _ no => left (chooseItem_of_none strand group free idle (ne_of_eq_of_ne st nofun) no)
  case pick =>
    intro x idle st may pick
    have taken := State.runJob_updJob run (f := fun k => k.taking (g.taking j.strand.pipe x) x) (fun k => Job.taking_id k _ x)
    obtain ⟨queues, edges, group'⟩ := Job.taking_rest group ((Group.taking_id g j.strand.pipe x).trans own) x
    obtain ⟨fwd, bwd, deferred⟩ := Group.taking_place g j.strand.pipe x
    exact ⟨_, _, _, _, next (chooseItem_of_pick strand group free idle (ne_of_eq_of_ne st nofun) may pick), rfl, rfl, taken, queues, edges, group',
      Group.taking_out .., rfl, rfl, rfl, rfl, rfl, rfl, fwd, bwd, deferred⟩
  case push =>
    intro o e rest q out started push queue
    refine ⟨fun full => left (pushItem_of_full strand group free out push queue full), fun room => ?_⟩
    obtain ⟨k, run', queue', group'⟩ := exists_runJob_pushed (o := o) run group queue rest
    have stepped := pushItem_of_room strand group free out push queue room (if_pos started) (State.job?_of_runJob run) group out
    have mem : (pushItem gid s).mem = s.mem := pushItem_mem ..
    exact ⟨_, k, _, _, next stepped, stepped ▸ mem, rfl, run', queue', rfl, group', rfl⟩
  case dispatch =>
    intro o e rest q u out started push queue room stage
    obtain ⟨k, slot, run', queues, seq, name, group'⟩ := exists_job_dispatchItem run group out stage
    have job : (dispatchItem s j.id gid).job? j.id = some k := (congrArg _ name.symm).trans (State.job?_of_runJob run')
    have stepped := pushItem_of_room strand group free out push queue room (if_neg (ne_true_of_eq_false started)) job group' rfl
    have queue' : k.queue? e.target = some q := by
      rw [Job.queue?, queues]
      exact queue
    obtain ⟨l, run₂, queue', groups'⟩ := exists_runJob_pushed (o := o.dispatched slot) run' group' queue' rest
    have mem : (pushItem gid s).mem = s.mem := pushItem_mem ..
    rw [seq] at queue' groups'
    exact ⟨_, l, _, _, (o.dispatched slot).pushed rest j.listSeq, next stepped, stepped ▸ mem, run₂, queue', rfl, groups',
      rfl, rfl, rfl, rfl, rfl, rfl, rfl⟩
  case complete =>
    intro o u out started push opened st stage
    obtain ⟨k, run', group', dones⟩ := exists_runJob_completeItem strand group out started push opened st stage
    obtain ⟨u', stage', dones'⟩ := Option.map_eq_some_iff.1 dones
    rw [Stage.doneOne_dones, Stage.dones, Prod.mk.injEq, Prod.mk.injEq, Prod.mk.injEq] at dones'
    refine ⟨_, k, _, u', next rfl, run', group', Group.after_out .., Group.after_deferred .., stage', dones'⟩

end Sys2Proof.Machine
end
